-- ==== Sys2Proof/Word.lean ====
section
/-! DEFINITION. The widths the spec gives its data: a register is 32 bits (R504), a byte 8, a stored word of the
protected memories 64 (R223), a mark or time value 64. Plain names only; arithmetic on them is in Machine/Bits.lean. -/

namespace Sys2Proof

/-- A 32-bit register or word (R504). -/
abbrev Word := BitVec 32

/-- One byte. -/
abbrev Byte := BitVec 8

/-- A 64-bit word of a protected memory. -/
abbrev DWord := BitVec 64

end Sys2Proof
end

