-- ==== Sys2Proof/Syntax.lean ====
section
/-! DEFINITION. The commands of the QV-96 modelled as a block: one constructor of `Instr` for each row of
spec/opcode_table.json, with the operands that come from outside the block (a register value, an edge, a received
frame, words of host memory). Where a row names something the part itself decides, the constructor carries no operand
for it. -/

namespace Sys2Proof

/-- An Octey register operand: 0–15 name g0–g15, 16–31 name w0–w15 (R390). -/
abbrev Reg := Fin 32

/-- A network packet: the fields of its header unit (Table NW-3), PAR among them, and its data units; `bad` says whether a
unit carries BAD. -/
structure Packet where
  dstX    : BitVec 4
  dstY    : BitVec 4
  dstPort : BitVec 4
  srcX    : BitVec 4
  srcY    : BitVec 4
  srcPort : BitVec 4
  vc      : BitVec 2
  dl      : Bool
  dirx    : Bool
  diry    : Bool
  cmd     : BitVec 8
  tag     : BitVec 10
  len     : BitVec 5
  esc     : Bool
  urg     : BitVec 4
  age     : BitVec 4
  partner : BitVec 10
  status  : BitVec 6
  addr    : BitVec 48
  be      : BitVec 32
  pstamp  : BitVec 32
  par     : BitVec 8
  bad     : Bool
  data    : List (BitVec 256)
deriving DecidableEq, Repr

/-- An access of a block RAM port (R255): whether it writes, its aspect ratio (0 32K×1, 1 16K×2, 2 8K×4, 3 4K×9, 4 2K×18,
5 1K×36, 6 512×72), what its output shows on a write (0 WRITE_FIRST, 1 READ_FIRST, 2 NO_CHANGE), address and write data. -/
structure BramAcc where
  we    : Bool
  width : Fin 7
  mode  : Fin 3
  addr  : BitVec 15
  data  : BitVec 72
deriving DecidableEq, Repr


/-- The header of a Lace frame (R376): origin, destination (0xFF broadcast), hop count, SEQ, TIME in YCLK and taps. -/
structure LaceHdr where
  src  : BitVec 8
  dst  : BitVec 8
  hops : BitVec 8
  seq  : BitVec 32
  time : BitVec 48
  tap  : BitVec 7
deriving DecidableEq, Repr

/-- The commands (spec/opcode_table.json), in the table's order. -/
inductive Instr where
  /-- AX_CFG_WRITE (R9): Write of YK_AX_CFG; it is refused if the source is reserved, or if SRC or CYCLIC would change on an enabled axis. -/
  | axCfgWrite (n : Fin 8) (v : Word)
  /-- AX_FILT_WRITE (R9): Write of YK_AX_FILT; a reserved MAINS_BW is refused. -/
  | axFiltWrite (n : Fin 8) (v : Word)
  /-- AX_SSI_WRITE (R20): Write of YK_AX_SSI; bad BITS, CRC_LEN 7 or CLKDIV below 24 is refused. -/
  | axSsiWrite (n : Fin 8) (v : Word)
  /-- MOD_LO_WRITE (R36): Write of YK_AX_MOD_LO is staged until the next MOD_HI write. -/
  | modLoWrite (n : Fin 8) (v : Word)
  /-- MOD_HI_WRITE (R36): Write of YK_AX_MOD_HI commits or refuses the modulus pair and empties the stage. -/
  | modHiWrite (n : Fin 8) (v : Word)
  /-- INPUT_EDGE (R12): A transition at an input Cuff ball is timestamped to a YCLK and a tap. -/
  | inputEdge (cuff : Fin 200) (level : Bool) (r : BitVec 8)
  /-- EDGE_DELIVER (R14): A valid filtered edge reaches the observer in cycle c(4 + FILT). -/
  | edgeDeliver (n : Fin 8)
  /-- SSI_FRAME_START (R20): Every PERIOD YCLK the Yoke starts clocking an SSI frame. -/
  | ssiFrameStart (n : Fin 8)
  /-- SSI_FRAME_END (R21): A complete SSI frame is CRC-checked, Gray-decoded and delivered as a measurement. -/
  | ssiFrameEnd (n : Fin 8) (bits : BitVec 46)
  /-- SINCOS_SAMPLE (R24): A sine/cosine sample pair is corrected, converted to an angle and unwrapped. -/
  | sincosSample (n : Fin 8)
  /-- MAINS_SAMPLE (R28): A mains sample updates the phase tracker, which replaces position and velocity while locked. -/
  | mainsSample (n : Fin 8)
  /-- OBSERVER_UPDATE (R33): Each YCLK every enabled axis extrapolates, applies clamp, bound and measurement, and broadcasts. -/
  | observerUpdate
  /-- LOSS_DETECT (R39): Loss time T expires without a valid measurement on an armed axis. -/
  | lossDetect (n : Fin 8)
  /-- HOLD_TIMEOUT (R43): HOLD_TMO expires in HOLDOVER and the axis becomes FROZEN. -/
  | holdTimeout (n : Fin 8)
  /-- SET (R32): YK_AX_CMD.SET copies SWPOS into the position at the next YCLK. -/
  | axSet (n : Fin 8)
  /-- SETV (R32): YK_AX_CMD.SETV copies SWVEL into the velocity. -/
  | axSetv (n : Fin 8)
  /-- RESUME (R44): YK_AX_CMD.RESUME lets a FROZEN axis reacquire. -/
  | axResume (n : Fin 8)
  /-- AX_RST (R47): YK_AX_CMD.AX_RST zeroes the axis state and sets DIR UP. -/
  | axRst (n : Fin 8)
  /-- POS_LO_READ (R48): A read of YK_AX_POS_LO latches the partner registers from one YCLK. -/
  | posLoRead (n : Fin 8)
  /-- SNAP_ALL (R48): YK_CTRL.SNAP_ALL latches all eight axes from one YCLK. -/
  | snapAll
  /-- YK_BLK_RST (R55): YK_CTRL.BLK_RST clears the Yoke fields marked Block. -/
  | ykBlkRst
  /-- AXIS_SAMPLE_SEND (R50): Every 500 YCLK each TX axis is sent on both Lace ports. -/
  | axisSampleSend
  /-- MARK_CTL_WRITE (R57): A write to MK_ENT_CTL replaces the whole entry and queues an insertion when ARM is 1. -/
  | markCtlWrite (n : Fin 1024) (v : Word)
  /-- MARK_INSERT_DONE (R59): A queued insertion completes after 4 YCLK into the axis sorted list. -/
  | markInsertDone (a : Fin 8)
  /-- MARK_ENGINE_CYCLE (R64): Each YCLK the engine predicts crossing times and commits at most one mark per axis. -/
  | markEngineCycle
  /-- NONE (R75): Mark action NONE records the firing only. -/
  | actNone (n : Fin 1024)
  /-- CUFF_EDGE (R79): Mark action CUFF_EDGE schedules a set, clear, toggle or pulse on a Cuff. -/
  | actCuffEdge (n : Fin 1024)
  /-- FOLD (R75): Mark action FOLD sends a fold to the fold unit. -/
  | actFold (n : Fin 1024)
  /-- DMA_KICK (R179): Mark action DMA_KICK sends a KICK request toward a gated queue. -/
  | actDmaKick (n : Fin 1024)
  /-- EVENT (R75): Mark action EVENT sets the pending flag of source MK[n]. -/
  | actEvent (n : Fin 1024)
  /-- CAPTURE (R84): Mark action CAPTURE fills a capture slot and triggers the selected fabric timers. -/
  | actCapture (n : Fin 1024)
  /-- FABRIC_STROBE (R75): Mark action FABRIC_STROBE sends a 1-YCLK strobe with its tap to the fabric. -/
  | actFabricStrobe (n : Fin 1024)
  /-- LACE_SEND (R75): Mark action LACE_SEND sends a position-critical Lace message. -/
  | actLaceSend (n : Fin 1024)
  /-- DISARM_ALL (R74): MK_CTRL.DISARM_ALL makes every mark IDLE at the next YCLK. -/
  | disarmAll
  /-- MK_BLK_RST (R86): MK_CTRL.BLK_RST clears the mark engine Block fields. -/
  | mkBlkRst
  /-- CUFF_TRANSITION (R79): A scheduled Cuff edge reaches its instant and changes or keeps the ball level. -/
  | cuffTransition (n : Fin 200) (lvl oe : Bool) (tap : BitVec 7)
  /-- CF_CFG_WRITE (R78): A write of CF_CFG; an owner change discards scheduled edges at the next YCLK. -/
  | cfCfgWrite (n : Fin 128) (v : Word)
  /-- CUFF_INPUT_CAPTURE (R84): A filtered input edge on a capture-enabled Cuff fills its capture slot. -/
  | cuffInputCapture (n : Fin 128)
  /-- CF_BLK_RST (R86): CF_CTRL.BLK_RST returns owners to 0 and discards mark-engine edges. -/
  | cfBlkRst
  /-- AR_COLMAP_WRITE (R90): A write of AR_COLMAP is refused unless the Array is frozen. -/
  | arColmapWrite (v : Word)
  /-- FREEZE_WRITE (R131): A write of AR_CTRL.FREEZE stops or resumes all firing. -/
  | freezeWrite (on : Bool)
  /-- AR_BLK_RST (R133): AR_CTRL.BLK_RST empties FIFOs, lanes and port queues and clears PE state. -/
  | arBlkRst
  /-- PE_DATA_READ (R132): AR_PE_CMD.RD reads the selected PE register into AR_PE_DATA. -/
  | peDataRead
  /-- PE_DATA_WRITE (R132): AR_PE_CMD.WR writes AR_PE_DATA only while the Array is frozen. -/
  | peDataWrite
  /-- PE_NOP (R112): NOP: the PE does nothing and consumes nothing. -/
  | peNop (pe : Fin 1536)
  /-- PE_MOV (R112): MOV fires and emits a. -/
  | peMov (pe : Fin 1536) (hit : Option (Fin 13 × Fin 42))
  /-- PE_ADD (R113): ADD fires and emits a + b. -/
  | peAdd (pe : Fin 1536)
  /-- PE_SUB (R113): SUB fires and emits a - b. -/
  | peSub (pe : Fin 1536)
  /-- PE_AND (R112): AND emits a & b. -/
  | peAnd (pe : Fin 1536)
  /-- PE_OR (R112): OR emits a | b. -/
  | peOr (pe : Fin 1536)
  /-- PE_XOR (R112): XOR emits a ^ b. -/
  | peXor (pe : Fin 1536)
  /-- PE_ANDN (R112): ANDN emits a & ~b. -/
  | peAndn (pe : Fin 1536)
  /-- PE_SHL (R112): SHL emits a shifted left. -/
  | peShl (pe : Fin 1536)
  /-- PE_SHR (R112): SHR emits a shifted right logically. -/
  | peShr (pe : Fin 1536)
  /-- PE_SRA (R112): SRA emits a shifted right arithmetically. -/
  | peSra (pe : Fin 1536)
  /-- PE_ROL (R112): ROL emits a rotated left. -/
  | peRol (pe : Fin 1536)
  /-- PE_ADD2 (R113): ADD2 emits two 16-bit lane sums. -/
  | peAdd2 (pe : Fin 1536)
  /-- PE_SUB2 (R113): SUB2 emits two 16-bit lane differences. -/
  | peSub2 (pe : Fin 1536)
  /-- PE_ADD4 (R113): ADD4 emits four 8-bit lane sums. -/
  | peAdd4 (pe : Fin 1536)
  /-- PE_SUB4 (R113): SUB4 emits four 8-bit lane differences. -/
  | peSub4 (pe : Fin 1536)
  /-- PE_ABSD4 (R112): ABSD4 emits four unsigned absolute differences. -/
  | peAbsd4 (pe : Fin 1536)
  /-- PE_CMP (R112): CMP emits per-lane compare masks and sets PRED. -/
  | peCmp (pe : Fin 1536)
  /-- PE_SEL (R112): SEL emits a or b by PRED. -/
  | peSel (pe : Fin 1536)
  /-- PE_MIN (R112): MIN emits the per-lane minimum. -/
  | peMin (pe : Fin 1536)
  /-- PE_MAX (R112): MAX emits the per-lane maximum. -/
  | peMax (pe : Fin 1536)
  /-- PE_ABS (R112): ABS emits the saturating absolute value. -/
  | peAbs (pe : Fin 1536)
  /-- PE_POPC (R112): POPC emits set bits or non-zero lanes. -/
  | pePopc (pe : Fin 1536)
  /-- PE_CLZ (R112): CLZ emits the leading zeros of a. -/
  | peClz (pe : Fin 1536)
  /-- PE_BFX (R112): BFX extracts a bit field. -/
  | peBfx (pe : Fin 1536)
  /-- PE_BFI (R112): BFI inserts p0 bits into a. -/
  | peBfi (pe : Fin 1536)
  /-- PE_MUL (R112): MUL emits the low 32 bits of a × b. -/
  | peMul (pe : Fin 1536)
  /-- PE_MULH (R112): MULH emits the high 32 bits of a × b. -/
  | peMulh (pe : Fin 1536)
  /-- PE_MAC32 (R114): MAC32 accumulates a × b, and with LE emits on LAST. -/
  | peMac32 (pe : Fin 1536)
  /-- PE_MAC16 (R114): MAC16 accumulates two 16-bit products, optionally DUAL. -/
  | peMac16 (pe : Fin 1536)
  /-- PE_MAC8 (R114): MAC8 accumulates four byte products. -/
  | peMac8 (pe : Fin 1536)
  /-- PE_ACCRD (R115): ACCRD emits the rounded, shifted, saturated accumulator. -/
  | peAccrd (pe : Fin 1536)
  /-- PE_ACCLD (R112): ACCLD loads the accumulator from a and b. -/
  | peAccld (pe : Fin 1536)
  /-- PE_DIVS (R116): DIVS runs n restoring division steps and emits the quotient. -/
  | peDivs (pe : Fin 1536)
  /-- PE_CORD (R117): CORD runs n CORDIC iterations and emits p0, p1 or p2. -/
  | peCord (pe : Fin 1536)
  /-- PE_LD (R93): LD loads a local memory word. -/
  | peLd (pe : Fin 1536)
  /-- PE_ST (R93): ST writes b to local memory as a read-modify-write. -/
  | peSt (pe : Fin 1536)
  /-- PE_LUT (R118): LUT returns a table word from local memory. -/
  | peLut (pe : Fin 1536)
  /-- PE_CNT (R119): CNT counts in p3 and emits it, with LE only on LAST. -/
  | peCnt (pe : Fin 1536)
  /-- PE_PCMP (R120): PCMP compares a position slice with a, and with EDGE emits on a 0-to-1 change. -/
  | pePcmp (pe : Fin 1536)
  /-- PE_ROUTE (R122): ROUTE sends each whole item to one destination. -/
  | peRoute (pe : Fin 1536)
  /-- PE_MERGE (R123): MERGE passes whole items from two inputs. -/
  | peMerge (pe : Fin 1536)
  /-- PE_SPLIT (R122): SPLIT sends successive items to destinations in turn. -/
  | peSplit (pe : Fin 1536)
  /-- PE_DROP (R122): DROP discards or passes a whole item. -/
  | peDrop (pe : Fin 1536)
  /-- PE_DUP (R122): DUP emits a imm+1 times. -/
  | peDup (pe : Fin 1536)
  /-- PE_GATE (R122): GATE passes a token when b[0] or PRED allows. -/
  | peGate (pe : Fin 1536)
  /-- PE_FOLDGEN (R156): FOLDGEN passes tokens, latches a condition and requests a wavefront fold at LAST. -/
  | peFoldgen (pe : Fin 1536)
  /-- EXPRESS_INPUT_CHANGE (R126): A changed sampled Cuff word of an enabled express port writes a token to the home PE. -/
  | expressInputChange (k : Fin 16)
  /-- LM_ACCESS_GRANT (R94): A waiting ring or DMA local-memory access proceeds in a cycle with no PE access. -/
  | lmAccessGrant (pe : Fin 1536)
  /-- LM_WAIT_TIMEOUT (R94): A ring access that waited AR_LM_WAIT.MAX completes with LM_BUSY. -/
  | lmWaitTimeout
  /-- FOLD_CMD_GO (R139): A write of PL_FOLD_CMD with GO sends a fold to the fold unit. -/
  | foldCmdGo (v : Word)
  /-- FOLD_REQ_RISE (R139): A rising fabric FOLD_REQ line sends the fold of PL_FSTRB[k]. -/
  | foldReqRise (k : Fin 8)
  /-- FOLD_ARRIVE (R138): A fold from any trigger reaches the issue queue. -/
  | foldArrive
  /-- FOLD_ISSUE (R140): The head fold is checked across its mask and issued or refused. -/
  | foldIssue
  /-- FOLD_LOAD_WAIT_TIMEOUT (R141): A fold waiting on a load for 64 NCLK is refused with code 2. -/
  | foldLoadWaitTimeout
  /-- FOLD_SWITCH_EDGE (R139): 6 ACLK after issue a global fold switches its PEs, or a wavefront injects its tokens. -/
  | foldSwitchEdge
  /-- FOLD_TOKEN_ENTER (R147): A waiting FOLD token enters its entry at the next item boundary. -/
  | foldTokenEnter
  /-- PE_FOLD (R149): A PE with FOLD tokens at every enabled head consumes them, emits FOLD tokens and changes Pleat. -/
  | peFold (pe : Fin 1536)
  /-- WAVE_STUCK (R154): A slot not complete after PL_WAVE_TMO sets WAVE_STUCK. -/
  | waveStuck (slot : Fin 16)
  /-- FOLDGEN_GRANT (R157): The fold unit grants a FOLDGEN request once earlier wavefronts have folded its PE. -/
  | foldgenGrant
  /-- CANCEL_WAVES (R154): PL_CTRL.CANCEL_WAVES cancels every wavefront in flight. -/
  | cancelWaves
  /-- PL_BLK_RST (R163): PL_CTRL.BLK_RST empties the fold and load queues and cancels wavefronts. -/
  | plBlkRst
  /-- PLEAT_LOAD_QUEUE (R159): PL_LOAD_CMD with GO queues a Pleat load, or refuses it with QFULL. -/
  | pleatLoadQueue (v : Word)
  /-- LOAD_START (R161): The next queued load is checked and starts or is refused. -/
  | loadStart
  /-- TILE_LOAD_DONE (R162): A tile's load completes and the words are checked for validity. -/
  | tileLoadDone (tile : Fin 96)
  /-- PLEAT_WORD_READ (R164): PL_WCMD.RD reads one stored Pleat word. -/
  | pleatWordRead
  /-- PLEAT_WORD_WRITE (R164): PL_WCMD.WR writes one Pleat word unless the Pleat is busy. -/
  | pleatWordWrite
  /-- QUEUE_PUSH (R168): A producer's word takes effect in a queue, or is held when the queue is full. -/
  | queuePush (q : Fin 1160) (data : Word) (tag : BitVec 4) (last fold err par lost : Bool)
  /-- QUEUE_POP (R168): A consumer pops a word, gated by CREDIT where GATED. -/
  | queuePop (q : Fin 1544)
  /-- FLUSH (R171): SQ_Q_CMD or SQ_PQ_CMD FLUSH discards stored data entries and swallows to the producer's LAST. -/
  | sqFlush (q : Fin 1160)
  /-- FLUSH_FORCED (R172): No push for SQ_FLUSH_TMO while swallowing forces the flush complete. -/
  | flushForced (q : Fin 1160)
  /-- TRUNCATION_MARKER (R173): A mid-item consumer receives the truncation marker when it can accept. -/
  | truncationMarker (q : Fin 1160)
  /-- SQ_CONFIG_WRITE (R178): A write of queue configuration, refused while enabled or invalid. -/
  | sqConfigWrite (off : BitVec 24) (v : Word)
  /-- ALIGN (R183): SQ_SP_CMD.ALIGN puts a sensor port in ALIGNING. -/
  | spAlign (p : Fin 8)
  /-- SP_ALIGN_TIMEOUT (R183): No lock within 65,536 word times returns the port to UNLOCKED. -/
  | spAlignTimeout (p : Fin 8)
  /-- SP_WORD (R182): A sensor port assembles a word or sample set from its lanes. -/
  | spWord (p : Fin 8) (lanes : BitVec 64) (tap : BitVec 7)
  /-- SP_CLOCK_LOSS (R185): No port clock edge for 1 µs makes a LOCKED port DOWN. -/
  | spClockLoss (p : Fin 8)
  /-- SQ_BLK_RST (R193): SQ_CTRL.BLK_RST empties the queues except Array-side port queues. -/
  | sqBlkRst
  /-- EN_FRAME_RECEIVE (R188): A received Ethernet frame is checked, steered and delivered as an item or dropped. -/
  | enFrameReceive (p : Fin 4) (frame : List Byte) (fcsOk hold : Bool)
  /-- EN_FRAME_TRANSMIT (R192): A port sends an item from its transmit queue as a frame. -/
  | enFrameTransmit (p : Fin 4)
  /-- EN_PTP_STEP (R191): A write of EN_PTP_STEP adds signed nanoseconds at the next YCLK. -/
  | enPtpStep (v : Word)
  /-- PTP_SET (R191): EN_CTRL.PTP_SET loads the staged 1588 time. -/
  | ptpSet
  /-- TXTS_READ (R192): A read of EN_TXTS_NS returns and removes the oldest transmit timestamp. -/
  | txtsRead (p : Fin 4)
  /-- EN_BLK_RST (R193): EN_CTRL.BLK_RST discards buffers and restarts the PCS. -/
  | enBlkRst
  /-- PACKET_HOP (R208): A router forwards a packet unit by VC priority, urgency and age. -/
  | packetHop (node : Fin 120) (out : Fin 20) (hit : Option (Fin 256))
  /-- RD (R201): A read request served at its target. -/
  | nwRd (p : Packet)
  /-- WR (R201): A write request writes enabled bytes and is acknowledged. -/
  | nwWr (p : Packet) (lost : BitVec 64)
  /-- ATOM_ADD (R226): An atomic add does a read-modify-write and returns the old value. -/
  | nwAtomAdd (p : Packet) (lost : Bool)
  /-- REG_RD (R504): A register read request answered as Table AM-2 gives. -/
  | nwRegRd (p : Packet)
  /-- REG_WR (R504): A register write request answered as Table AM-2 gives. -/
  | nwRegWr (p : Packet)
  /-- KICK (R179): A KICK request adds KICK_N to the CREDIT of a gated queue. -/
  | nwKick (p : Packet)
  /-- PEVT (R201): A position-critical event record request. -/
  | nwPevt (p : Packet)
  /-- LSEND (R201): A LACE_SEND message request to a Lace port. -/
  | nwLsend (p : Packet)
  /-- AXS (R201): An axis sample request to a Lace port. -/
  | nwAxs (p : Packet)
  /-- RDATA (R202): A read response delivered to its requester. -/
  | nwRdata (p : Packet)
  /-- ACK (R202): A write acknowledgement delivered to its requester. -/
  | nwAck (p : Packet)
  /-- MNOTE (R211): A cut notice is handled by routers, which record the cut. -/
  | nwMnote (p : Packet)
  /-- MRD (R201): A maintenance read request. -/
  | nwMrd (p : Packet)
  /-- MWR (R201): A maintenance write request. -/
  | nwMwr (p : Packet)
  /-- MRSP (R202): A maintenance response. -/
  | nwMrsp (p : Packet)
  /-- LINK_CRC_FAIL (R197): A unit fails its CRC; it and its followers are discarded and replayed. -/
  | linkCrcFail (node : Fin 120) (link : Fin 4)
  /-- LINK_IDLE_TIMEOUT (R198): No unit for 64 NCLK takes a link DOWN. -/
  | linkIdleTimeout (node : Fin 120) (link : Fin 4)
  /-- NODE_LOST_SET (R214): Setting NW_NODE_CTL.LOST cuts both rings of the node. -/
  | nodeLostSet (node : Fin 120)
  /-- RESPONSE_TIMEOUT (R216): No response within NW_RSP_TMO completes the request locally with TIMEOUT. -/
  | responseTimeout
  /-- PROBE_CLR (R220): DB_PRB_CMD.CLR clears a probe's counters and bins. -/
  | probeClr (k : Fin 16)
  /-- DB_BLK_RST (R222): DB_CTRL.BLK_RST clears the probe block and the trace buffer. -/
  | dbBlkRst
  /-- CORRECTION_WRITEBACK (R231): A corrected word is written back in the next free NCLK of its port. -/
  | correctionWriteback
  /-- SCRUB_GO (R240): SM_SCR_CMD.GO starts a range scrub. -/
  | scrubGo
  /-- SCRUB_ABORT (R240): SM_SCR_CMD.ABORT stops the scrub after the current beat. -/
  | scrubAbort
  /-- SCRUB_BEAT (R240): A range scrub reads a beat in an idle or forced cycle and acts on each word's class. -/
  | scrubBeat
  /-- BGS_WORD (R242): The background scrubber reads the next word of group 3 or 4. -/
  | bgsWord (g : Fin 2)
  /-- BGS_LATE (R242): A background pass not finished at its period end sets BGS_LATE. -/
  | bgsLate (g : Fin 2)
  /-- SCRUB_POISON_WRITE (R243): A scrubber writes the poison code over an uncorrectable word. -/
  | scrubPoisonWrite
  /-- SOFT (R239): SM_REPAIR_CMD SOFT maps a row to a spare permanently until Cold reset. -/
  | repairSoft (bank : Fin 96) (row : Fin 4096)
  /-- TEMP (R239): SM_REPAIR_CMD TEMP maps a row to a spare during a self-test. -/
  | repairTemp (bank : Fin 96) (row : Fin 4096)
  /-- REPAIR_RELEASE (R239): SM_REPAIR_CMD RELEASE copies back and frees a TEMP spare. -/
  | repairRelease (bank : Fin 96) (row : Fin 4096)
  /-- REPAIR_COPY_DONE (R239): A repair copy completes and the map changes. -/
  | repairCopyDone
  /-- MEMORY_FILL_DONE (R233): The memory fill after a reset or domain power-on completes. -/
  | memoryFillDone
  /-- SM_BLK_RST (R235): SM_CTRL.BLK_RST answers pending requests and optionally fills SMB. -/
  | smBlkRst
  /-- TL_CONTENTION (R249): Two or more enables at a monitor edge release a line's drivers and log it. -/
  | tlContention (line : Fin 128) (drivers : BitVec 8) (anyZero : Bool)
  /-- PLL_LOCK_LOSS (R252): A fabric PLL loses lock and its outputs stop low. -/
  | pllLockLoss (p : Fin 4)
  /-- PLL_LOCK (R252): A fabric PLL locks and its outputs restart. -/
  | pllLock (p : Fin 4)
  /-- CLOCK_MUX_SELECT (R253): A glitch-free multiplexer select change starts a switch. -/
  | clockMuxSelect (mux sel : Nat) (live : Bool) (falls : Fin 3)
  /-- CLOCK_MUX_TIMEOUT (R253): No edge of the current input for 1 µs moves the switch on. -/
  | clockMuxTimeout (mux : Nat) (falls : Fin 3)
  /-- BRAM_PORT_ACCESS (R256): A block RAM port read or write acts on each codeword's class. -/
  | bramPortAccess (block : Fin 240) (a b : Option BramAcc)
  /-- TIMER_MATCH (R259): A fabric timer count equal to CMP drives a MATCH pulse. -/
  | timerMatch (k : Fin 32) (edges : Word)
  /-- TIMER_CAPTURE (R260): A mark or CAPIN trigger latches the timer count. -/
  | timerCapture (k : Fin 32) (capin : Bool)
  /-- MPORT_REQUEST (R262): User logic issues a request on an enabled master port. -/
  | mportRequest (m : Fin 4) (p : Packet)
  /-- MPORT_CFG_WRITE (R262): A write of FB_MPORT_CFG; a PARTNER below 4 is refused. -/
  | mportCfgWrite (m : Fin 4) (v : Word)
  /-- UWIN_ANSWER (R263): User logic answers a user-window access. -/
  | uwinAnswer (v : Word)
  /-- UWIN_TIMEOUT (R263): No answer within FB_UWIN_TMO is answered ADDR_ERR. -/
  | uwinTimeout
  /-- USER_EVENT_RISE (R261): A rising user event line sets its FB_UEVT pending bit. -/
  | userEventRise (n : Fin 16)
  /-- RELEASE_STAGE1 (R267): Stage 1 begins when Proof, PLLs and CFG_DONE allow. -/
  | releaseStage1
  /-- RELEASE_STAGE2 (R265): 32 GCLK later write enables turn on. -/
  | releaseStage2 (region : Option (Fin 15))
  /-- RELEASE_STAGE3 (R265): 64 GCLK after stage 1 held connections become active. -/
  | releaseStage3 (region : Option (Fin 15))
  /-- FLIPFLOP_RELEASE (R266): Flip-flops leave reset at the third edge of their clock after stage 3. -/
  | flipflopRelease (clk : Fin 120)
  /-- CFG_DONE_CHANGE (R267): The sampled CFG_DONE line changes level. -/
  | cfgDoneChange (level : Bool)
  /-- FB_BLK_RST (R268): FB_CTRL.BLK_RST returns the fabric to after stage 1 and flushes its queues. -/
  | fbBlkRst
  /-- CAP_ARM (R271): FB_CAP_CMD.ARM arms a flip-flop state capture. -/
  | capArm
  /-- CAP_CANCEL (R271): FB_CAP_CMD.CANCEL clears ARMED. -/
  | capCancel
  /-- FF_CAPTURE_TAKE (R270): At the capture edge all flip-flops copy into the shadow plane. -/
  | ffCaptureTake (tap : BitVec 7) (edge : BitVec 16) (plane : List Word)
  /-- BOOT_ATTEMPT (R278): The configuration engine starts a boot attempt from its boot source. -/
  | bootAttempt (ext : List Byte)
  /-- SOURCE_TIMEOUT (R280): No DQS for 1 µs or a Lace gap over 1 ms fails the attempt with code 8. -/
  | sourceTimeout
  /-- CG_HOST_GO (R282): CG_HOST_CMD.GO starts a BOOT 11 read from SMB. -/
  | cgHostGo
  /-- SIGNATURE_VERIFY_DONE (R283): Signature or seal verification completes. -/
  | signatureVerifyDone (who : Fin 3) (units : Nat)
  /-- PROOF_END (R283): Content, FRAME_HASH and CRC are compared and the image passes or fails. -/
  | proofEnd (who : Fin 3)
  /-- BACKOFF_END (R285): After 10 ms in BACKOFF the next attempt starts. -/
  | backoffEnd (ext : List Byte)
  /-- LIB_GO (R291): CG_LIB_CMD.GO stages a Pleat library into SMB. -/
  | libGo (v : Word)
  /-- LIB_ABORT (R291): CG_CTRL.LIB_ABORT aborts library staging. -/
  | libAbort
  /-- ICP_START (R293): A start word on the ICP begins a partial load. -/
  | icpStart (start : Word) (words : List Word)
  /-- PARTIAL_FRAME (R296): A partial frame is checked against fence and region and written. -/
  | partialFrame (words : List Word) (bad : Bool)
  /-- PARTIAL_STALL (R296): The source stalls beyond CG_PL_TMO and the region becomes TORN. -/
  | partialStall
  /-- PL_ABORT (R296): CG_CTRL.PL_ABORT aborts the partial load and the region becomes TORN. -/
  | plAbort
  /-- CFG_SCRUB_WORD (R299): The configuration scrubber reads and classes the next word. -/
  | cfgScrubWord (vote badA badB : Bool)
  /-- REGION_RELOAD_DONE (R300): A region reload from its Lining completes and the region is released. -/
  | regionReloadDone
  /-- SCRUB_WDT_EXPIRY (R304): A scrub pass overruns its limit and restarts, or causes a Warm reset. -/
  | scrubWdtExpiry (straps : BitVec 4)
  /-- EBM_CHECK (R301): After stage 3 the essential-bit map hash is compared. -/
  | ebmCheck
  /-- READBACK (R305): CG_RB_CMD.RD reads a configuration or shadow word. -/
  | readback
  /-- FLASH_READ (R309): FL_CMD READ copies flash bytes into FL_BUF. -/
  | flashRead (len : BitVec 11) (pid : BitVec 10)
  /-- FLASH_PROGRAM (R311): FL_CMD PROGRAM checks units blank and programs them. -/
  | flashProgram (len : BitVec 11) (pid : BitVec 10)
  /-- FLASH_PROGRAM_DONE (R311): A page program completes. -/
  | flashProgramDone
  /-- FLASH_ERASE (R312): FL_CMD ERASE starts erasing a sector. -/
  | flashErase (pid : BitVec 10)
  /-- ERASE_PULSE_END (R312): An erase pulse ends and the sector is verified. -/
  | erasePulseEnd (erased : Bool)
  /-- BLANK_CHECK (R309): FL_CMD BLANK_CHECK reports the first unit that is not erased. -/
  | blankCheck (len : BitVec 11) (pid : BitVec 10)
  /-- TRIM_WRITE (R331): FL_CMD TRIM_WRITE writes a new trim page and kills the others. -/
  | trimWrite (pid : BitVec 10)
  /-- LOG_APPEND (R332): FL_CMD LOG_APPEND appends a repair-log record. -/
  | logAppend (pid : BitVec 10)
  /-- FLASH_SUSPEND (R313): FL_CTRL.SUSPEND stops a running erase. -/
  | flashSuspend
  /-- FLASH_RESUME (R313): FL_CTRL.RESUME restarts a suspended erase. -/
  | flashResume
  /-- FL_BLK_RST (R317): FL_CTRL.BLK_RST resets the controller and aborts its command. -/
  | flBlkRst
  /-- OTP_READ (R321): OT_CMD.RD reads an OTP word, or returns SECRET. -/
  | otpRead
  /-- OTP_PROG (R320): OT_CMD.PROG programs bits of an OTP word by pulses. -/
  | otpProg
  /-- OTP_PULSE_END (R320): An OTP pulse ends; after the last pulse the word is verified. -/
  | otpPulseEnd (ok : Bool)
  /-- ATTEST_GO (R341): SC_ATT_CMD.GO starts building an attestation report. -/
  | attestGo (pid : BitVec 10)
  /-- ATTEST_DONE (R341): The signed report is written to SMB. -/
  | attestDone
  /-- PROPOSE (R349): SC_TP_CMD.PROPOSE checks and opens a two-party proposal. -/
  | tpPropose (pid : BitVec 10)
  /-- CONSENT (R350): SC_TP_CMD.CONSENT checks party B's MAC and executes the operation. -/
  | tpConsent (pid : BitVec 10)
  /-- CANCEL (R350): SC_TP_CMD.CANCEL by the proposer closes the proposal. -/
  | tpCancel (pid : BitVec 10)
  /-- PROPOSAL_EXPIRE (R350): The 10 s window ends without consent. -/
  | proposalExpire
  /-- RDP_RAISE1 (R325): Two-party raise of RDP to level 1. -/
  | rdpRaise1
  /-- RDP_RAISE2 (R325): Two-party raise of RDP to level 2. -/
  | rdpRaise2
  /-- RDP_LOWER (R326): Two-party lowering from 1 to 0 writes BEGIN and starts the erase sequence. -/
  | rdpLower
  /-- FW_COMMIT (R346): The staged map becomes live when its digest matches, optionally persisted. -/
  | fwCommit
  /-- REVOKE (R348): Two-party revocation of an owner key digest. -/
  | keyRevoke
  /-- DEBUG_UNLOCK (R348): Two-party debug unlock for a number of minutes. -/
  | debugUnlock
  /-- DEBUG_UNLOCK_END (R348): The debug unlock time ends. -/
  | debugUnlockEnd
  /-- ICP_POLICY (R348): Two-party change of CG_ICP_POLICY.SIGNED, with a policy record. -/
  | icpPolicy
  /-- BAR0_ACCESS (R356): A host BAR0 access becomes one REG_RD or REG_WR. -/
  | bar0Access (write : Bool) (off : BitVec 24) (v : Word)
  /-- BAR2_ACCESS (R506): A host BAR2 access is split into SMB RD or WR requests. -/
  | bar2Access (write : Bool) (addr : BitVec 26) (n : Fin 4097) (data : List (Option Byte))
  /-- SUBMISSION_DOORBELL (R359): A write of a submission tail to BAR4. -/
  | submissionDoorbell (q : Fin 1024) (v : Word)
  /-- COMPLETION_DOORBELL (R359): A write of a completion head to BAR4. -/
  | completionDoorbell (q : Fin 1024) (v : Word)
  /-- EVENT_RING_DOORBELL (R359): A write of an event ring head to BAR4. -/
  | eventRingDoorbell (page : Fin 1024) (off : BitVec 12) (v : Word)
  /-- FLR (R357): A function-level reset is a host interface block reset. -/
  | flr
  /-- PCIE_LINK_DOWN (R357): A surprise link-down is a host interface block reset. -/
  | pcieLinkDown
  /-- D3HOT_ENTRY (R357): D3hot entry with a queue pair enabled is a host interface block reset. -/
  | d3hotEntry
  /-- HI_BLK_RST (R357): HI_CTRL.BLK_RST disables queue pairs and removes KIND 0 partners without records. -/
  | hiBlkRst
  /-- HI_QP_CFG_WRITE (R358): A queue pair setup write, refused while enabled or unbound. -/
  | hiQpCfgWrite (q : Fin 1024) (v : Word)
  /-- QUEUE_PAIR_DISABLE (R366): EN = 0 stops fetching and ends running descriptors with DISABLED. -/
  | queuePairDisable (q : Fin 1024) (v : Word)
  /-- DESCRIPTOR_FETCH (R360): The device fetches a descriptor in ring order and checks its GEN. -/
  | descriptorFetch (q : Fin 1024) (words image : List Word) (hostErr : Bool)
  /-- STREAM_IN (R362): Descriptor STREAM_IN pushes host words into a queue. -/
  | streamIn (q : Fin 1024) (dseq : Word) (v : Word) (hostErr : Bool)
  /-- STREAM_OUT (R362): Descriptor STREAM_OUT pops queue entries to host memory. -/
  | streamOut (q : Fin 1024) (dseq : Word)
  /-- MEM_COPY (R362): Descriptor MEM_COPY copies 32 B units. -/
  | memCopy (q : Fin 1024) (dseq : Word) (data : BitVec 256) (hostErr : Bool)
  /-- LOAD_PLEATS (R362): Descriptor LOAD_PLEATS queues a Pleat load. -/
  | loadPleats (q : Fin 1024) (dseq : Word)
  /-- FOLD_AT (R362): Descriptor FOLD_AT writes a one-shot FOLD mark. -/
  | foldAt (q : Fin 1024) (dseq : Word)
  /-- MARK_WRITE (R362): Descriptor MARK_WRITE writes a 32 B mark entry image. -/
  | markWrite (q : Fin 1024) (dseq : Word)
  /-- CONFIG_PARTIAL (R362): Descriptor CONFIG_PARTIAL runs a host partial load. -/
  | configPartial (q : Fin 1024) (dseq : Word) (hdr : List Byte) (hostErr : Bool)
  /-- QUERY (R362): Descriptor QUERY reads registers into host memory. -/
  | descQuery (q : Fin 1024) (dseq : Word)
  /-- BARRIER (R360): Descriptor BARRIER completes after all earlier descriptors. -/
  | descBarrier (q : Fin 1024) (dseq : Word)
  /-- COMPLETION_RECORD_WRITE (R363): A completion record is written when the ring has room. -/
  | completionRecordWrite (q : Fin 1024)
  /-- JOIN (R369): HI_PT_CMD.JOIN takes the lowest FREE dynamic partner entry. -/
  | ptJoin
  /-- LEAVE (R369): HI_PT_CMD.LEAVE stops the partner's work, increments GEN and frees the entry. -/
  | ptLeave
  /-- RESERVE (R371): HI_RSV_CMD.RESERVE admits a reservation or answers OVERSUB. -/
  | rsvReserve
  /-- RESERVATION_RELEASE (R371): HI_RSV_CMD.RELEASE releases a reservation. -/
  | reservationRelease (k : Fin 256)
  /-- RESERVATION_WINDOW_END (R373): At a window end deferred units are reported as a breach and become debt. -/
  | reservationWindowEnd (want : List (Fin 256 × Nat × Nat)) (room : List (Fin 96 × Nat))
  /-- LACE_AXS (R51): A received Lace axis sample replaces a receiving axis's position and velocity, and is relayed. -/
  | laceAxs (p : Fin 2) (h : LaceHdr) (axis : Fin 8) (st : BitVec 2) (pos vel : BitVec 64)
  /-- LACE_PKT (R381): A received remote request or response packet is issued or returned. -/
  | lacePkt (p : Fin 2) (h : LaceHdr) (pkt : Packet) (re : Option Word)
  /-- LACE_LSEND (R376): A received LACE_SEND message frame. -/
  | laceLsend (p : Fin 2) (h : LaceHdr) (tag : BitVec 8) (data : Word)
  /-- LACE_IMG (R383): A received image frame of a Lace image transfer. -/
  | laceImg (p : Fin 2) (h : LaceHdr) (uid : Option (BitVec 128)) (ofs : BitVec 26) (bytes : List Byte)
  /-- LACE_START (R382): A received START frame schedules the local start instant. -/
  | laceStart (p : Fin 2) (h : LaceHdr)
  /-- LACE_DLY (R377): A received delay frame updates LC_PORT_DLY and LC_PORT_OFS. -/
  | laceDly (p : Fin 2) (tap : BitVec 7) (t3 : BitVec 55) (echo : Option (BitVec 55 × BitVec 55))
  /-- LACE_DISC (R379): A discovery frame is numbered, appended and passed on. -/
  | laceDisc (p : Fin 2) (h : LaceHdr) (uids : List (BitVec 128)) (east : Option (Fin 65)) (complete : Bool)
  /-- LACE_NOTE (R380): A cut or heal notice changes addressed-frame routing. -/
  | laceNote (p : Fin 2) (h : LaceHdr) (link : Fin 64) (heal : Bool)
  /-- LACE_FRAME_CRC_FAIL (R375): A frame failing its CRC is replayed. -/
  | laceFrameCrcFail (p : Fin 2) (lost : BitVec 8)
  /-- LACE_BLOCK_TIMEOUT (R375): No valid block for 1 µs makes a port DOWN. -/
  | laceBlockTimeout (p : Fin 2) (lost : BitVec 8)
  /-- LACE_PORT_UP (R375): 1 ms free of errors makes a retraining port UP. -/
  | lacePortUp (p : Fin 2)
  /-- DLY_EXCHANGE_TIMER (R377): Every 1 µs an UP port sends a DLY frame. -/
  | dlyExchangeTimer (p : Fin 2) (tap : BitVec 7)
  /-- DISCOVER (R379): LC_CMD.DISCOVER on the root renumbers the ring. -/
  | lcDiscover
  /-- DISCOVERY_TIMER (R379): 1 ms after the root's first port is UP discovery starts. -/
  | discoveryTimer
  /-- LC_START_CMD (R382): LC_CMD.START on the root broadcasts LC_START_AT or is refused. -/
  | lcStartCmd
  /-- START_INSTANT (R382): The local start instant passes and LACE_GATE clears. -/
  | startInstant
  /-- LC_IMG_GO (R383): LC_IMG_CMD.GO sends a flash image over Lace. -/
  | lcImgGo (v : Word)
  /-- IMG_DONE (R383): An image transfer ends. -/
  | imgDone
  /-- EV_SRC_CFG_WRITE (R385): A write of EV_SRC_CFG; enabling a pending source writes a record at once. -/
  | evSrcCfgWrite (src : Fin 1536) (v : Word)
  /-- EVENT_MODERATION_TIMEOUT (R386): MOD_US elapses after the first unsignalled record and the MSI-X message is sent. -/
  | eventModerationTimeout (ring : Fin 64)
  /-- OCT_ADD (R407): Octey ADD. -/
  | octAdd (rd ra rb : Reg)
  /-- OCT_SUB (R407): Octey SUB. -/
  | octSub (rd ra rb : Reg)
  /-- OCT_AND (R407): Octey AND. -/
  | octAnd (rd ra rb : Reg)
  /-- OCT_OR (R407): Octey OR. -/
  | octOr (rd ra rb : Reg)
  /-- OCT_XOR (R407): Octey XOR. -/
  | octXor (rd ra rb : Reg)
  /-- OCT_ANDN (R407): Octey ANDN. -/
  | octAndn (rd ra rb : Reg)
  /-- OCT_SHL (R407): Octey SHL. -/
  | octShl (rd ra rb : Reg)
  /-- OCT_SHR (R407): Octey SHR. -/
  | octShr (rd ra rb : Reg)
  /-- OCT_SRA (R407): Octey SRA. -/
  | octSra (rd ra rb : Reg)
  /-- OCT_SLT (R407): Octey SLT. -/
  | octSlt (rd ra rb : Reg)
  /-- OCT_SLTU (R407): Octey SLTU. -/
  | octSltu (rd ra rb : Reg)
  /-- OCT_MIN (R407): Octey MIN. -/
  | octMin (rd ra rb : Reg)
  /-- OCT_MAX (R407): Octey MAX. -/
  | octMax (rd ra rb : Reg)
  /-- OCT_CLZ (R407): Octey CLZ. -/
  | octClz (rd ra : Reg)
  /-- OCT_POPC (R407): Octey POPC. -/
  | octPopc (rd ra : Reg)
  /-- OCT_MUL (R407): Octey MUL. -/
  | octMul (rd ra rb : Reg)
  /-- OCT_MULH (R407): Octey MULH. -/
  | octMulh (rd ra rb : Reg)
  /-- OCT_DIV (R407): Octey DIV. -/
  | octDiv (rd ra rb : Reg)
  /-- OCT_DIVU (R407): Octey DIVU. -/
  | octDivu (rd ra rb : Reg)
  /-- OCT_REM (R407): Octey REM. -/
  | octRem (rd ra rb : Reg)
  /-- OCT_ADDI (R407): Octey ADDI. -/
  | octAddi (rd ra : Reg) (imm : BitVec 16)
  /-- OCT_ANDI (R407): Octey ANDI. -/
  | octAndi (rd ra : Reg) (imm : BitVec 16)
  /-- OCT_ORI (R407): Octey ORI. -/
  | octOri (rd ra : Reg) (imm : BitVec 16)
  /-- OCT_XORI (R407): Octey XORI. -/
  | octXori (rd ra : Reg) (imm : BitVec 16)
  /-- OCT_SHLI (R407): Octey SHLI. -/
  | octShli (rd ra : Reg) (imm : BitVec 16)
  /-- OCT_SHRI (R407): Octey SHRI. -/
  | octShri (rd ra : Reg) (imm : BitVec 16)
  /-- OCT_SRAI (R407): Octey SRAI. -/
  | octSrai (rd ra : Reg) (imm : BitVec 16)
  /-- OCT_LUI (R407): Octey LUI. -/
  | octLui (rd : Reg) (imm : BitVec 16)
  /-- OCT_LDW (R404): Octey LDW. -/
  | octLdw (rd ra : Reg) (imm : BitVec 16)
  /-- OCT_LDH (R404): Octey LDH. -/
  | octLdh (rd ra : Reg) (imm : BitVec 16)
  /-- OCT_LDHU (R404): Octey LDHU. -/
  | octLdhu (rd ra : Reg) (imm : BitVec 16)
  /-- OCT_LDB (R404): Octey LDB. -/
  | octLdb (rd ra : Reg) (imm : BitVec 16)
  /-- OCT_LDBU (R404): Octey LDBU. -/
  | octLdbu (rd ra : Reg) (imm : BitVec 16)
  /-- OCT_SWAPW (R407): Octey atomic SWAPW in core memory. -/
  | octSwapw (rd ra : Reg) (imm : BitVec 16)
  /-- OCT_STW (R404): Octey STW. -/
  | octStw (rb ra : Reg) (imm : BitVec 16)
  /-- OCT_STH (R404): Octey STH. -/
  | octSth (rb ra : Reg) (imm : BitVec 16)
  /-- OCT_STB (R404): Octey STB. -/
  | octStb (rb ra : Reg) (imm : BitVec 16)
  /-- OCT_BEQ (R407): Octey BEQ. -/
  | octBeq (ra rb : Reg) (off : BitVec 16)
  /-- OCT_BNE (R407): Octey BNE. -/
  | octBne (ra rb : Reg) (off : BitVec 16)
  /-- OCT_BLT (R407): Octey BLT. -/
  | octBlt (ra rb : Reg) (off : BitVec 16)
  /-- OCT_BGE (R407): Octey BGE. -/
  | octBge (ra rb : Reg) (off : BitVec 16)
  /-- OCT_BLTU (R407): Octey BLTU. -/
  | octBltu (ra rb : Reg) (off : BitVec 16)
  /-- OCT_BGEU (R407): Octey BGEU. -/
  | octBgeu (ra rb : Reg) (off : BitVec 16)
  /-- OCT_JMP (R407): Octey JMP. -/
  | octJmp (off : BitVec 26)
  /-- OCT_CALLW (R392): Octey CALLW, or WOVF. -/
  | octCallw (off : BitVec 26)
  /-- OCT_JR (R407): Octey JR. -/
  | octJr (ra : Reg) (imm : BitVec 16)
  /-- OCT_CALLWR (R392): Octey CALLWR, or WOVF. -/
  | octCallwr (ra : Reg) (imm : BitVec 16)
  /-- OCT_MAC (R403): Octey MAC, with a lazy save switch first if due. -/
  | octMac (acc : Fin 4) (ra rb : Reg)
  /-- OCT_MACU (R403): Octey MACU. -/
  | octMacu (acc : Fin 4) (ra rb : Reg)
  /-- OCT_MAC2 (R403): Octey MAC2. -/
  | octMac2 (acc : Fin 4) (ra rb : Reg)
  /-- OCT_MACRD (R407): Octey MACRD. -/
  | octMacrd (rd : Reg) (acc : Fin 4)
  /-- OCT_MACLD (R407): Octey MACLD. -/
  | octMacld (acc : Fin 4) (ra rb : Reg)
  /-- OCT_MACCLR (R407): Octey MACCLR. -/
  | octMacclr (acc : Fin 4)
  /-- OCT_RETW (R393): Octey RETW, or WFILL or WUNDF. -/
  | octRetw
  /-- OCT_TEXIT (R396): Octey TEXIT returns from the trap window. -/
  | octTexit
  /-- OCT_TRAP (R396): Octey TRAP raises cause 12. -/
  | octTrap (arg : BitVec 12)
  /-- OCT_BRK (R407): Octey BRK traps or halts. -/
  | octBrk
  /-- OCT_WAIT (R402): Octey WAIT stops fetching until an enabled line is pending. -/
  | octWait
  /-- OCT_RDCR (R391): Octey RDCR reads a CSR. -/
  | octRdcr (rd : Reg) (arg : BitVec 12)
  /-- OCT_WRCR (R391): Octey WRCR writes a CSR. -/
  | octWrcr (arg : BitVec 12) (ra : Reg)
  /-- OCT_XRD (R395): Octey XRD reads a register of window WSEL. -/
  | octXrd (rd : Reg) (n : Fin 16)
  /-- OCT_XWR (R395): Octey XWR writes a register of window WSEL. -/
  | octXwr (n : Fin 16) (ra : Reg)
  /-- INTERRUPT_TAKE (R402): An enabled pending line is taken between instructions. -/
  | interruptTake
  /-- DOUBLE_TRAP_RESET (R397): 1 µs after a double trap with DT_RST a Run reset follows. -/
  | doubleTrapReset
  /-- CC_HALT (R414): CC_CTRL.HALT halts the core after the current instruction. -/
  | ccHalt
  /-- CC_RUN (R414): CC_CTRL.RUN resumes a halted core. -/
  | ccRun
  /-- CC_BLK_RST (R413): CC_CTRL.BLK_RST resets and restarts the core, keeping its memory. -/
  | ccBlkRst
  /-- CC_WDT_KICK (R411): A write of 0x5A5A restarts the core watchdog. -/
  | ccWdtKick (v : Word)
  /-- CC_WDT_WARN (R411): The core watchdog reaches half its limit. -/
  | ccWdtWarn
  /-- CC_WDT_EXPIRY (R411): The core watchdog reaches 0 and a Run reset follows. -/
  | ccWdtExpiry
  /-- MBOX_H2C_WRITE (R412): A host write of CC_MBOX_H2C stores the word and sets H2C_FULL. -/
  | mboxH2cWrite (v : Word)
  /-- MBOX_H2C_READ (R412): A core read of CC_MBOX_H2C clears H2C_FULL. -/
  | mboxH2cRead
  /-- MBOX_C2H_WRITE (R412): A core write of CC_MBOX_C2H stores the word and sets MBOX. -/
  | mboxC2hWrite (v : Word)
  /-- MBOX_C2H_READ (R412): A host read of CC_MBOX_C2H clears C2H_FULL. -/
  | mboxC2hRead
  /-- STARTER_START (R408): The core starts the Starter, which runs the steps for its start type. -/
  | starterStart
  /-- DETECTION (R415): A fault record reaches the fault unit and may start a recovery. -/
  | detection
  /-- RECOVERY_TEST_DONE (R428): Tests end; elements are classed and a lasting column is remapped. -/
  | recoveryTestDone (fails : BitVec 64)
  /-- TRANSFER_DONE (R430): State is restored from the twin or the Lining and replay begins. -/
  | transferDone
  /-- REPLAY_DONE (R431): Backlogs drain to live input and the recovery ends. -/
  | replayDone
  /-- CHECKPOINT_INTERVAL (R420): INTERVAL µs elapse and a checkpoint is issued. -/
  | checkpointInterval (g : Fin 32)
  /-- CKPT (R420): FT_GRP_CMD.CKPT issues a checkpoint. -/
  | ftCkpt (g : Fin 32)
  /-- CLEAR (R434): FT_GRP_CMD.CLEAR empties a FAILED group's queues and clears FAILED. -/
  | grpClear (g : Fin 32)
  /-- LINING_RECORD_WRITTEN (R421): A PE's checkpoint record has been written through port A. -/
  | liningRecordWritten (g : Fin 32)
  /-- FT_INJECT (R415): FT_INJECT with GO raises a detection of code 7. -/
  | ftInject (v : Word)
  /-- FT_GRP_CFG_WRITE (R416): A protection group write, refused while enabled or overlapping. -/
  | ftGrpCfgWrite (off : BitVec 24) (v : Word)
  /-- FT_BLK_RST (R439): FT_CTRL.BLK_RST clears Block fields when no recovery runs. -/
  | ftBlkRst
  /-- POWER_ON (R440): VIN rises through 3.0 V and a Cold sequence begins. -/
  | powerOn (straps : BitVec 4) (mv : BitVec 16)
  /-- VIN_RISE_4V5 (R440): VIN rises through 4.5 V and the core regulators start. -/
  | vinRise4v5 (mv : BitVec 16)
  /-- BROWNOUT (R440): VIN falls below 4.2 V, causing a held Cold reset. -/
  | brownout (straps : BitVec 4) (mv : BitVec 16)
  /-- PHASE_FAIL (R441): A regulator phase is lost and the device runs on. -/
  | phaseFail (phase : Fin 6)
  /-- POWER_GOOD_LOSS (R441): Core power-good falls, causing a Cold reset. -/
  | powerGoodLoss (straps : BitVec 4)
  /-- THERMAL_WARN (R443): PW_TEMP rises to WARN. -/
  | thermalWarn (tj : BitVec 16)
  /-- THERMAL_TRIP (R443): Tj reaches 125 °C, causing a Cold reset held until below 115 °C. -/
  | thermalTrip (straps : BitVec 4) (tj : BitVec 16)
  /-- THERMAL_TRIP_END (R443): PW_TEMP falls below 115 °C and the trip reset ends. -/
  | thermalTripEnd (tj : BitVec 16)
  /-- DOMAIN_OFF (R445): PW_DOM_CMD OFF is checked and the domain begins CLOSING. -/
  | domainOff (v : Word)
  /-- DRAIN_END (R445): DRAINING ends, with remaining requests forced after 4 µs. -/
  | drainEnd
  /-- ISOLATION_END (R445): After 1 µs ISOLATED the branch switches off. -/
  | isolationEnd
  /-- DOMAIN_ON (R446): PW_DOM_CMD ON switches the branch on, and the domain is RAMPING. -/
  | domainOn (v : Word)
  /-- RAMP_DONE (R446): The branch is good, the domain is refilled or reloaded, and it becomes ON. -/
  | rampDone
  /-- REF_LOSS (R448): REF is lost and the clocks switch to the holdover oscillator. -/
  | refLoss
  /-- REF_RESTORE (R448): REF is good for 10 ms and the PLLs slew back. -/
  | refRestore
  /-- ACLK_WRITE (R449): A write of CK_ACLK.N, refused unless frozen and in range. -/
  | aclkWrite (v : Word)
  /-- ACLK_RELOCK (R449): The ACLK PLL relocks after a change. -/
  | aclkRelock
  /-- NRESET (R452): nRESET goes low after its filter: Warm in QV mode, Run in HX mode. -/
  | nresetLow (straps : BitVec 4)
  /-- NRESET_RELEASE (R452): nRESET returns high after its filter. -/
  | nresetRelease
  /-- PERST (R357): PCIe PERST# asserts a held Run reset. -/
  | perst
  /-- SYSTEM_WDT_EXPIRY (R457): The system watchdog reaches 0 and a Warm reset follows. -/
  | systemWdtExpiry (straps : BitVec 4)
  /-- RS_WDT_WARN (R457): The system watchdog reaches half its limit. -/
  | rsWdtWarn
  /-- RS_WDT_KICK (R457): A write of 0xC3C3 restarts the system watchdog. -/
  | rsWdtKick (v : Word)
  /-- SOFTWARE_WARM (R451): RS_CTRL.WARM with the key causes a Warm reset. -/
  | softwareWarm (straps : BitVec 4) (v : Word)
  /-- SOFTWARE_RUN (R451): RS_CTRL.RUN with the key causes a Run reset. -/
  | softwareRun (v : Word)
  /-- JTAG_RESET (R451): The JTAG device-reset instruction causes a Warm reset. -/
  | jtagReset (straps : BitVec 4)
  /-- AON_DISAGREE (R451): The duplicated AON controllers disagree, causing a Cold reset. -/
  | aonDisagree (straps : BitVec 4)
  /-- RESET_STEP_RELEASE (R454): 64 AON cycles after the previous step, and once its condition holds, the next reset step is released. -/
  | resetStepRelease
  /-- OPTION_LOAD_DONE (R455): Option load ends, having read fuses, RDP level and AON settings. -/
  | optionLoadDone
  /-- RS_SAFE_WRITE (R459): A write of RS_SAFE releases or drives the SAFE balls. -/
  | rsSafeWrite (v : Word)
  /-- HX_BUS_READ (R463): An HX bus read is served from the unit's copy, clearing RC bits. -/
  | hxBusRead (addr : BitVec 9)
  /-- HX_BUS_WRITE (R466): An HX bus write enters the 8-entry buffer, or waits with nWAIT. -/
  | hxBusWrite (addr : BitVec 9) (v : BitVec 16)
  /-- HX_WRITE_APPLY (R464): A buffered write takes effect in bus order on the view. -/
  | hxWriteApply
  /-- TMR_EN_WRITE (R470): A CTRL.TMR_EN change enables or disables AX0 as the angle timer. -/
  | tmrEnWrite (v : BitVec 16)
  /-- TMR_CFG_WRITE (R470): A TMR_CFG write, refused while the timer is enabled. -/
  | tmrCfgWrite (v : BitVec 16)
  /-- HX_MOD_COMMIT (R470): A MOD_LO commit disarms channels, writes the modulus and rearms them. -/
  | hxModCommit (v : BitVec 16)
  /-- LOAD (R470): TMR_CMD.LOAD sets the count to PRESET through SET. -/
  | tmrLoad
  /-- CLR (R470): TMR_CMD.CLR resets the count through AX_RST. -/
  | tmrClr
  /-- CMP_COMMIT (R472): A CMP_LO or CMP_CFG commit rewrites MK[k] and the channel Cuff. -/
  | cmpCommit (k : Fin 64) (cfg : Bool) (v : BitVec 16)
  /-- CAP_CFG_WRITE (R473): A CAP_CFG write sets up the capture Cuff. -/
  | capCfgWrite (k : Fin 8) (v : BitVec 16)
  /-- HX_TICK (R471): At each 16 MHz tick boundary POS, SPEED and TMR_STAT update while PACE is 1. -/
  | hxTick
  /-- PROG_START (R476): PROG_CTRL START after the key begins receiving an HX image. -/
  | progStart
  /-- PROG_DATA_WRITE (R476): A halfword of the image stream is written to PROG_DATA. -/
  | progDataWrite (v : BitVec 16)
  /-- PROG_END (R476): PROG_CTRL END checks the image CRC and raises HX_EVT.PROG. -/
  | progEnd
  /-- PROG_ABORT (R476): PROG_CTRL abort ends programming. -/
  | progAbort
  /-- PROG_REWIND (R479): PROG_CTRL 0x0003 rewinds the compatibility report. -/
  | progRewind
  /-- PROG_DATA_READ (R479): A PROG_DATA read returns the next report halfword. -/
  | progDataRead
  /-- HX_TRANSLATE_DONE (R477): The Starter finishes translating and sealing the HX image. -/
  | hxTranslateDone
  /-- HX_FLASH_WRITE_DONE (R477): The HX area is programmed and verified, and a Warm reset follows. -/
  | hxFlashWriteDone (ok : Bool)
  /-- HX_MIX_CFG_WRITE (R482): A write of HX_MIX_CFG enables mixed use and admits its reservation. -/
  | hxMixCfgWrite (v : Word)
  /-- HX_VIEW_REQUEST (R483): A Q_REQ request word is served and answered into Q_RSP. -/
  | hxViewRequest (rst : Bool)
  /-- HX_BLK_RST (R480): HX_CTRL.BLK_RST loads the view's reset values. -/
  | hxBlkRst
  /-- REGISTER_WRITE (R504): A write of a backed register with no row of its own, including W1C and W1S bits. -/
  | registerWrite (off : BitVec 24) (v : Word)
  /-- PERST_RELEASE (R452): PCIe PERST# returns high and the held Run reach is released so the sequence can continue. -/
  | perstRelease
  /-- PCIE_LINK_UP (R354): The PCIe link trains and comes up, setting HI_LINK RATE and WIDTH. -/
  | pcieLinkUp (rate : Fin 4) (width : Fin 4)
  /-- EN_LINK_CHANGE (R187): An Ethernet port's PCS gains or loses block lock, FEC lock or link, changing EN_PORT_STAT. -/
  | enLinkChange (p : Fin 4) (block link fec : Bool)
  /-- HX_JTAG_PROGRAM (R476): An HX-1130 JTAG programming instruction stream delivers an HX image to the HX bus unit. -/
  | hxJtagProgram (words : List (BitVec 16))
  /-- TL_CONTENTION_END (R249): At a monitor edge with at most one enable set, the released drivers of a contended tristate line take effect again. -/
  | tlContentionEnd (line : Fin 128) (driver : Option Bool)
  /-- CYCLE_REACHES_TMRCMP (R401): CYCLE reaches TMRCMP and interrupt line 0 becomes pending, ending a WAIT even with IE 0. -/
  | cycleReachesTmrcmp
deriving DecidableEq, Repr

end Sys2Proof
end

