-- ==== Sys2Proof/Decode.lean ====
section
/-! DEFINITION. Command words. The rows of spec/opcode_table.json give their commands no bits, so no word spells a command: a command
reaches this block as itself, in the queue of State. -/

namespace Sys2Proof

/-- The command that a word of the opcode table's bits spells: none, since no row of the table gives bits. -/
def decodeTableWord (_nbits _w : Nat) : Option Instr := none

end Sys2Proof
end

