-- ==== Sys2Proof/Machine/RegNames.lean ====
section
/-! DEFINITION. The registers of the BAR0 space by the names of the spec: `R.NAME` is the BAR0 offset of a register
(of element i of an array, the block base of Table AM-1 (R503) plus the offset and stride of its heading), and `F.NAME_FIELD` the place
of one field in it. One line per heading and per field row of the register maps of spec/; reserved fields have no name. -/

namespace Sys2Proof.Machine

/-- A field of a 32-bit register: its lowest bit and its width in bits (R4, R5). -/
structure Fld where
  /-- lowest bit -/
  lo : Nat
  /-- width in bits -/
  w : Nat
deriving DecidableEq, Repr

/-! Block YK: 01_yoke_position_base.md. -/
def R.YK_ID : Nat := 0x10000
def F.YK_ID_VERSION : Fld := ⟨0, 8⟩
def F.YK_ID_NAXES : Fld := ⟨8, 4⟩
def R.YK_CTRL : Nat := 0x10004
def F.YK_CTRL_BLK_RST : Fld := ⟨0, 1⟩
def F.YK_CTRL_SNAP_ALL : Fld := ⟨1, 1⟩
def R.YK_TIME_LO : Nat := 0x10008
def F.YK_TIME_LO_TIME : Fld := ⟨0, 32⟩
def R.YK_TIME_HI : Nat := 0x1000c
def F.YK_TIME_HI_TIME : Fld := ⟨0, 32⟩
def R.YK_STATUS : Nat := 0x10010
def F.YK_STATUS_STATE : Fld := ⟨0, 16⟩
def F.YK_STATUS_DIR : Fld := ⟨16, 8⟩
def F.YK_STATUS_UNTRIMMED : Fld := ⟨31, 1⟩
def R.YK_EVT : Nat := 0x10014
def F.YK_EVT_LOSS : Fld := ⟨0, 8⟩
def F.YK_EVT_FROZEN : Fld := ⟨8, 8⟩
def F.YK_EVT_REACQ : Fld := ⟨16, 8⟩
def F.YK_EVT_INERR : Fld := ⟨24, 8⟩
def R.YK_CFG_ERR : Nat := 0x10018
def F.YK_CFG_ERR_AX : Fld := ⟨0, 8⟩
def R.YK_TDC_SCALE : Nat := 0x10020
def F.YK_TDC_SCALE_SCALE : Fld := ⟨0, 16⟩
def R.YK_LACE_ADJ : Nat := 0x10040
def F.YK_LACE_ADJ_EAST : Fld := ⟨0, 16⟩
def F.YK_LACE_ADJ_WEST : Fld := ⟨16, 16⟩
def R.YK_SC_OFS (n : Nat) : Nat := 0x10100 + 8 * n
def F.YK_SC_OFS_SIN_OFS : Fld := ⟨0, 16⟩
def F.YK_SC_OFS_COS_OFS : Fld := ⟨16, 16⟩
def R.YK_SC_GAIN (n : Nat) : Nat := 0x10104 + 8 * n
def F.YK_SC_GAIN_COS_GAIN : Fld := ⟨0, 16⟩
def F.YK_SC_GAIN_PHASE : Fld := ⟨16, 16⟩
def R.YK_CUFF_ADJ (n : Nat) : Nat := 0x10200 + 4 * n
def F.YK_CUFF_ADJ_ADJ : Fld := ⟨0, 8⟩
def R.YK_AX_CFG (n : Nat) : Nat := 0x11000 + 0x100 * n
def F.YK_AX_CFG_SRC : Fld := ⟨0, 4⟩
def F.YK_AX_CFG_CYCLIC : Fld := ⟨4, 1⟩
def F.YK_AX_CFG_DIRINV : Fld := ⟨5, 1⟩
def F.YK_AX_CFG_Z_MODE : Fld := ⟨6, 2⟩
def F.YK_AX_CFG_EN : Fld := ⟨31, 1⟩
def R.YK_AX_IN (n : Nat) : Nat := 0x11004 + 0x100 * n
def F.YK_AX_IN_IN_A : Fld := ⟨0, 7⟩
def F.YK_AX_IN_IN_B : Fld := ⟨8, 7⟩
def F.YK_AX_IN_IN_Z : Fld := ⟨16, 7⟩
def F.YK_AX_IN_PORT : Fld := ⟨24, 3⟩
def F.YK_AX_IN_SIN_CH : Fld := ⟨28, 2⟩
def F.YK_AX_IN_COS_CH : Fld := ⟨30, 2⟩
def R.YK_AX_FILT (n : Nat) : Nat := 0x11008 + 0x100 * n
def F.YK_AX_FILT_FILT : Fld := ⟨0, 8⟩
def F.YK_AX_FILT_MAINS_BW : Fld := ⟨8, 3⟩
def F.YK_AX_FILT_SC_AMP_MIN : Fld := ⟨16, 8⟩
def F.YK_AX_FILT_SC_AMP_MAX : Fld := ⟨24, 8⟩
def R.YK_AX_SSI (n : Nat) : Nat := 0x1100c + 0x100 * n
def F.YK_AX_SSI_BITS : Fld := ⟨0, 6⟩
def F.YK_AX_SSI_GRAY : Fld := ⟨6, 1⟩
def F.YK_AX_SSI_CRC_INV : Fld := ⟨7, 1⟩
def F.YK_AX_SSI_CRC_LEN : Fld := ⟨8, 3⟩
def F.YK_AX_SSI_CRC_POLY : Fld := ⟨16, 8⟩
def F.YK_AX_SSI_CLKDIV : Fld := ⟨24, 8⟩
def R.YK_AX_SSI_T (n : Nat) : Nat := 0x11010 + 0x100 * n
def F.YK_AX_SSI_T_PERIOD : Fld := ⟨0, 16⟩
def F.YK_AX_SSI_T_LATCH_ADJ : Fld := ⟨16, 16⟩
def R.YK_AX_GAIN (n : Nat) : Nat := 0x11014 + 0x100 * n
def F.YK_AX_GAIN_ALPHA : Fld := ⟨0, 16⟩
def F.YK_AX_GAIN_BETA : Fld := ⟨16, 16⟩
def R.YK_AX_HYST (n : Nat) : Nat := 0x11018 + 0x100 * n
def F.YK_AX_HYST_BAND : Fld := ⟨0, 32⟩
def R.YK_AX_LOSS_TMO (n : Nat) : Nat := 0x1101c + 0x100 * n
def F.YK_AX_LOSS_TMO_TMO : Fld := ⟨0, 32⟩
def R.YK_AX_VTHR (n : Nat) : Nat := 0x11020 + 0x100 * n
def F.YK_AX_VTHR_VTHR : Fld := ⟨0, 32⟩
def R.YK_AX_HOLD_TMO (n : Nat) : Nat := 0x11024 + 0x100 * n
def F.YK_AX_HOLD_TMO_TMO : Fld := ⟨0, 32⟩
def R.YK_AX_LOSSCFG (n : Nat) : Nat := 0x11028 + 0x100 * n
def F.YK_AX_LOSSCFG_CRC_FAIL_MAX : Fld := ⟨0, 8⟩
def F.YK_AX_LOSSCFG_REACQ_N : Fld := ⟨8, 8⟩
def F.YK_AX_LOSSCFG_LOSS_MULT : Fld := ⟨16, 8⟩
def R.YK_AX_MOD_LO (n : Nat) : Nat := 0x11030 + 0x100 * n
def F.YK_AX_MOD_LO_MOD : Fld := ⟨0, 32⟩
def R.YK_AX_MOD_HI (n : Nat) : Nat := 0x11034 + 0x100 * n
def F.YK_AX_MOD_HI_MOD : Fld := ⟨0, 32⟩
def R.YK_AX_ZVAL_LO (n : Nat) : Nat := 0x11038 + 0x100 * n
def F.YK_AX_ZVAL_LO_ZVAL : Fld := ⟨0, 32⟩
def R.YK_AX_ZVAL_HI (n : Nat) : Nat := 0x1103c + 0x100 * n
def F.YK_AX_ZVAL_HI_ZVAL : Fld := ⟨0, 32⟩
def R.YK_AX_RATE_LO (n : Nat) : Nat := 0x11040 + 0x100 * n
def F.YK_AX_RATE_LO_RATE : Fld := ⟨0, 32⟩
def R.YK_AX_RATE_HI (n : Nat) : Nat := 0x11044 + 0x100 * n
def F.YK_AX_RATE_HI_RATE : Fld := ⟨0, 8⟩
def R.YK_AX_LACE (n : Nat) : Nat := 0x11048 + 0x100 * n
def F.YK_AX_LACE_REM_DEV : Fld := ⟨0, 6⟩
def F.YK_AX_LACE_REM_AX : Fld := ⟨8, 3⟩
def F.YK_AX_LACE_TX : Fld := ⟨16, 1⟩
def R.YK_AX_SWPOS_LO (n : Nat) : Nat := 0x11050 + 0x100 * n
def F.YK_AX_SWPOS_LO_SWPOS : Fld := ⟨0, 32⟩
def R.YK_AX_SWPOS_HI (n : Nat) : Nat := 0x11054 + 0x100 * n
def F.YK_AX_SWPOS_HI_SWPOS : Fld := ⟨0, 32⟩
def R.YK_AX_SWVEL_LO (n : Nat) : Nat := 0x11058 + 0x100 * n
def F.YK_AX_SWVEL_LO_SWVEL : Fld := ⟨0, 32⟩
def R.YK_AX_SWVEL_HI (n : Nat) : Nat := 0x1105c + 0x100 * n
def F.YK_AX_SWVEL_HI_SWVEL : Fld := ⟨0, 8⟩
def R.YK_AX_CMD (n : Nat) : Nat := 0x11060 + 0x100 * n
def F.YK_AX_CMD_SET : Fld := ⟨0, 1⟩
def F.YK_AX_CMD_SETV : Fld := ⟨1, 1⟩
def F.YK_AX_CMD_RESUME : Fld := ⟨2, 1⟩
def F.YK_AX_CMD_AX_RST : Fld := ⟨3, 1⟩
def R.YK_AX_POS_LO (n : Nat) : Nat := 0x11080 + 0x100 * n
def F.YK_AX_POS_LO_POS : Fld := ⟨0, 32⟩
def R.YK_AX_POS_HI (n : Nat) : Nat := 0x11084 + 0x100 * n
def F.YK_AX_POS_HI_POS : Fld := ⟨0, 32⟩
def R.YK_AX_VEL_LO (n : Nat) : Nat := 0x11088 + 0x100 * n
def F.YK_AX_VEL_LO_VEL : Fld := ⟨0, 32⟩
def R.YK_AX_VEL_HI (n : Nat) : Nat := 0x1108c + 0x100 * n
def F.YK_AX_VEL_HI_VEL : Fld := ⟨0, 32⟩
def R.YK_AX_STAT (n : Nat) : Nat := 0x11090 + 0x100 * n
def F.YK_AX_STAT_STATE : Fld := ⟨0, 2⟩
def F.YK_AX_STAT_DIR : Fld := ⟨2, 1⟩
def F.YK_AX_STAT_LOCK : Fld := ⟨3, 1⟩
def F.YK_AX_STAT_CAUSE : Fld := ⟨4, 4⟩
def R.YK_AX_TURNS (n : Nat) : Nat := 0x11094 + 0x100 * n
def F.YK_AX_TURNS_TURNS : Fld := ⟨0, 32⟩
def R.YK_AX_REACQ_ERR (n : Nat) : Nat := 0x11098 + 0x100 * n
def F.YK_AX_REACQ_ERR_ERR : Fld := ⟨0, 32⟩
def R.YK_AX_ERRCNT (n : Nat) : Nat := 0x1109c + 0x100 * n
def F.YK_AX_ERRCNT_IN_ERR : Fld := ⟨0, 16⟩
def F.YK_AX_ERRCNT_CRC_ERR : Fld := ⟨16, 16⟩
/-! Block MK: 02_marks_and_cuffs.md. -/
def R.MK_ID : Nat := 0x20000
def F.MK_ID_VERSION : Fld := ⟨0, 8⟩
def F.MK_ID_NMARKS : Fld := ⟨8, 11⟩
def R.MK_CTRL : Nat := 0x20004
def F.MK_CTRL_BLK_RST : Fld := ⟨0, 1⟩
def F.MK_CTRL_DISARM_ALL : Fld := ⟨1, 1⟩
def R.MK_EVT : Nat := 0x20008
def F.MK_EVT_LATE : Fld := ⟨0, 8⟩
def F.MK_EVT_HOLD : Fld := ⟨8, 8⟩
def F.MK_EVT_SKIP : Fld := ⟨16, 8⟩
def F.MK_EVT_CFG_ERR : Fld := ⟨24, 1⟩
def R.MK_CFG_ERR : Nat := 0x2000c
def F.MK_CFG_ERR_INDEX : Fld := ⟨0, 10⟩
def F.MK_CFG_ERR_CODE : Fld := ⟨12, 4⟩
def R.MK_AX_CFG (a : Nat) : Nat := 0x20100 + 4 * a
def F.MK_AX_CFG_STEP_MODE : Fld := ⟨0, 1⟩
def F.MK_AX_CFG_INHIBIT : Fld := ⟨1, 1⟩
def R.MK_AX_STAT (a : Nat) : Nat := 0x20120 + 4 * a
def F.MK_AX_STAT_UPWIN : Fld := ⟨0, 5⟩
def F.MK_AX_STAT_DNWIN : Fld := ⟨5, 5⟩
def F.MK_AX_STAT_PEND : Fld := ⟨10, 6⟩
def F.MK_AX_STAT_ARMED : Fld := ⟨16, 11⟩
def R.MK_TMASK_W0 (k : Nat) : Nat := 0x20200 + 0x10 * k
def F.MK_TMASK_W0_TILES : Fld := ⟨0, 32⟩
def R.MK_TMASK_W1 (k : Nat) : Nat := 0x20204 + 0x10 * k
def F.MK_TMASK_W1_TILES : Fld := ⟨0, 32⟩
def R.MK_TMASK_W2 (k : Nat) : Nat := 0x20208 + 0x10 * k
def F.MK_TMASK_W2_TILES : Fld := ⟨0, 32⟩
def R.MK_CAP_STAT (k : Nat) : Nat := 0x20800 + 0x80 * k
def F.MK_CAP_STAT_VALID : Fld := ⟨0, 1⟩
def F.MK_CAP_STAT_OVR : Fld := ⟨1, 1⟩
def F.MK_CAP_STAT_SRC : Fld := ⟨4, 10⟩
def F.MK_CAP_STAT_KIND : Fld := ⟨14, 1⟩
def F.MK_CAP_STAT_AXMASK : Fld := ⟨16, 8⟩
def R.MK_CAP_TIME_LO (k : Nat) : Nat := 0x20804 + 0x80 * k
def F.MK_CAP_TIME_LO_TIME : Fld := ⟨0, 32⟩
def R.MK_CAP_TIME_HI (k : Nat) : Nat := 0x20808 + 0x80 * k
def F.MK_CAP_TIME_HI_TIME : Fld := ⟨0, 23⟩
def R.MK_CAP_POS_LO (k a : Nat) : Nat := 0x20810 + 0x80 * k + 8 * a
def F.MK_CAP_POS_LO_POS : Fld := ⟨0, 32⟩
def R.MK_CAP_POS_HI (k a : Nat) : Nat := 0x20814 + 0x80 * k + 8 * a
def F.MK_CAP_POS_HI_POS : Fld := ⟨0, 32⟩
def R.MK_ENT_CTL (n : Nat) : Nat := 0x28000 + 0x20 * n
def F.MK_ENT_CTL_CTL : Fld := ⟨0, 32⟩
def R.MK_ENT_POS_LO (n : Nat) : Nat := 0x28004 + 0x20 * n
def F.MK_ENT_POS_LO_POS : Fld := ⟨0, 32⟩
def R.MK_ENT_POS_HI (n : Nat) : Nat := 0x28008 + 0x20 * n
def F.MK_ENT_POS_HI_POS : Fld := ⟨0, 32⟩
def R.MK_ENT_PER_LO (n : Nat) : Nat := 0x28010 + 0x20 * n
def F.MK_ENT_PER_LO_PER : Fld := ⟨0, 32⟩
def R.MK_ENT_PER_HI (n : Nat) : Nat := 0x28014 + 0x20 * n
def F.MK_ENT_PER_HI_PER : Fld := ⟨0, 32⟩
def R.MK_ENT_HYST (n : Nat) : Nat := 0x2800c + 0x20 * n
def F.MK_ENT_HYST_HYST : Fld := ⟨0, 32⟩
def R.MK_ENT_ARG0 (n : Nat) : Nat := 0x28018 + 0x20 * n
def F.MK_ENT_ARG0_ARG0 : Fld := ⟨0, 32⟩
def R.MK_ENT_ARG1 (n : Nat) : Nat := 0x2801c + 0x20 * n
def F.MK_ENT_ARG1_ARG1 : Fld := ⟨0, 32⟩
def R.MK_STAT (n : Nat) : Nat := 0x30000 + 0x10 * n
def F.MK_STAT_STATE : Fld := ⟨0, 2⟩
def F.MK_STAT_LATE : Fld := ⟨2, 1⟩
def F.MK_STAT_HOLD : Fld := ⟨3, 1⟩
def F.MK_STAT_SKIPPED : Fld := ⟨4, 1⟩
def F.MK_STAT_COMMITTED : Fld := ⟨5, 1⟩
def F.MK_STAT_LATENESS : Fld := ⟨8, 24⟩
def R.MK_NEXT_LO (n : Nat) : Nat := 0x30004 + 0x10 * n
def F.MK_NEXT_LO_NEXT : Fld := ⟨0, 32⟩
def R.MK_NEXT_HI (n : Nat) : Nat := 0x30008 + 0x10 * n
def F.MK_NEXT_HI_NEXT : Fld := ⟨0, 32⟩
def R.MK_FIRES (n : Nat) : Nat := 0x3000c + 0x10 * n
def F.MK_FIRES_FIRES : Fld := ⟨0, 16⟩
def F.MK_FIRES_REMAIN : Fld := ⟨16, 16⟩
/-! Block CF: 02_marks_and_cuffs.md. -/
def R.CF_ID : Nat := 0x40000
def F.CF_ID_VERSION : Fld := ⟨0, 8⟩
def F.CF_ID_NCUFF : Fld := ⟨8, 8⟩
def R.CF_CTRL : Nat := 0x40004
def F.CF_CTRL_BLK_RST : Fld := ⟨0, 1⟩
def R.CF_EVT : Nat := 0x40008
def F.CF_EVT_OVF : Fld := ⟨0, 1⟩
def F.CF_EVT_SQUEEZE : Fld := ⟨1, 1⟩
def F.CF_EVT_OWN_ERR : Fld := ⟨2, 1⟩
def F.CF_EVT_CAP_OVR : Fld := ⟨3, 1⟩
def R.CF_TAP_CAL : Nat := 0x40010
def F.CF_TAP_CAL_SCALE : Fld := ⟨0, 16⟩
def R.CF_CFG (n : Nat) : Nat := 0x40100 + 4 * n
def F.CF_CFG_OWNER : Fld := ⟨0, 2⟩
def F.CF_CFG_EXP : Fld := ⟨2, 4⟩
def F.CF_CFG_INIT : Fld := ⟨6, 1⟩
def F.CF_CFG_ICAP_EN : Fld := ⟨7, 1⟩
def F.CF_CFG_ICAP_EDGE : Fld := ⟨8, 2⟩
def F.CF_CFG_ICAP_SLOT : Fld := ⟨10, 4⟩
def F.CF_CFG_STATIC_TAP : Fld := ⟨16, 7⟩
def F.CF_CFG_IFILT : Fld := ⟨24, 8⟩
def R.CF_OUT_ADJ (n : Nat) : Nat := 0x40300 + 4 * n
def F.CF_OUT_ADJ_ADJ : Fld := ⟨0, 8⟩
def R.CF_STAT (n : Nat) : Nat := 0x40500 + 4 * n
def F.CF_STAT_LEVEL : Fld := ⟨0, 1⟩
def F.CF_STAT_PEND : Fld := ⟨1, 4⟩
def F.CF_STAT_DROP : Fld := ⟨8, 8⟩
def F.CF_STAT_SQZ : Fld := ⟨16, 8⟩
/-! Block AR: 03_array.md. -/
def R.AR_ID : Nat := 0x100000
def F.AR_ID_VERSION : Fld := ⟨0, 8⟩
def F.AR_ID_NCOL : Fld := ⟨8, 6⟩
def F.AR_ID_NROW : Fld := ⟨14, 6⟩
def F.AR_ID_NGUSSET : Fld := ⟨20, 2⟩
def R.AR_CTRL : Nat := 0x100004
def F.AR_CTRL_BLK_RST : Fld := ⟨0, 1⟩
def F.AR_CTRL_FREEZE : Fld := ⟨1, 1⟩
def F.AR_CTRL_FROZEN : Fld := ⟨2, 1⟩
def F.AR_CTRL_FILL_ON_RST : Fld := ⟨3, 1⟩
def R.AR_EVT : Nat := 0x100008
def F.AR_EVT_PARITY : Fld := ⟨0, 1⟩
def F.AR_EVT_ALIGN : Fld := ⟨1, 1⟩
def F.AR_EVT_LM_BUSY : Fld := ⟨2, 1⟩
def F.AR_EVT_LM_ERR : Fld := ⟨3, 1⟩
def F.AR_EVT_CFG_ERR : Fld := ⟨4, 1⟩
def R.AR_CFG_ERR : Nat := 0x10000c
def F.AR_CFG_ERR_CODE : Fld := ⟨0, 4⟩
def R.AR_COLMAP : Nat := 0x100010
def F.AR_COLMAP_FAIL0 : Fld := ⟨0, 6⟩
def F.AR_COLMAP_V0 : Fld := ⟨6, 1⟩
def F.AR_COLMAP_FAIL1 : Fld := ⟨8, 6⟩
def F.AR_COLMAP_V1 : Fld := ⟨14, 1⟩
def R.AR_LM_WAIT : Nat := 0x100014
def F.AR_LM_WAIT_MAX : Fld := ⟨0, 16⟩
def R.AR_ERRCNT : Nat := 0x100018
def F.AR_ERRCNT_PARITY : Fld := ⟨0, 16⟩
def F.AR_ERRCNT_ALIGN : Fld := ⟨16, 16⟩
def R.AR_ERR_LOC : Nat := 0x10001c
def F.AR_ERR_LOC_COL : Fld := ⟨0, 6⟩
def F.AR_ERR_LOC_ROW : Fld := ⟨8, 5⟩
def F.AR_ERR_LOC_KIND : Fld := ⟨16, 4⟩
def R.AR_PE_SEL : Nat := 0x100020
def F.AR_PE_SEL_COL : Fld := ⟨0, 6⟩
def F.AR_PE_SEL_ROW : Fld := ⟨8, 5⟩
def F.AR_PE_SEL_PLEAT : Fld := ⟨16, 4⟩
def F.AR_PE_SEL_REG : Fld := ⟨24, 5⟩
def R.AR_PE_DATA : Nat := 0x100024
def F.AR_PE_DATA_DATA : Fld := ⟨0, 32⟩
def R.AR_PE_CMD : Nat := 0x100028
def F.AR_PE_CMD_RD : Fld := ⟨0, 1⟩
def F.AR_PE_CMD_WR : Fld := ⟨1, 1⟩
def F.AR_PE_CMD_DONE : Fld := ⟨2, 1⟩
def F.AR_PE_CMD_STATUS : Fld := ⟨3, 2⟩
def R.AR_EXP_CFG (k : Nat) : Nat := 0x100100 + 4 * k
def F.AR_EXP_CFG_EN : Fld := ⟨0, 1⟩
def F.AR_EXP_CFG_IN_GRP : Fld := ⟨1, 2⟩
def R.AR_EXP_IN (k : Nat) : Nat := 0x100140 + 4 * k
def F.AR_EXP_IN_WORD : Fld := ⟨0, 32⟩
def R.AR_EXP_OUT (k : Nat) : Nat := 0x100180 + 4 * k
def F.AR_EXP_OUT_WORD : Fld := ⟨0, 32⟩
def R.AR_WPORT_STAT (r : Nat) : Nat := 0x100200 + 4 * r
def F.AR_WPORT_STAT_IN_DEPTH : Fld := ⟨0, 7⟩
def F.AR_WPORT_STAT_OUT_DEPTH : Fld := ⟨8, 7⟩
def R.AR_EPORT_STAT (r : Nat) : Nat := 0x100280 + 4 * r
def F.AR_EPORT_STAT_IN_DEPTH : Fld := ⟨0, 7⟩
def F.AR_EPORT_STAT_OUT_DEPTH : Fld := ⟨8, 7⟩
def R.AR_TILE_CFG (t : Nat) : Nat := 0x100400 + 4 * t
def F.AR_TILE_CFG_TP_EN : Fld := ⟨0, 1⟩
def F.AR_TILE_CFG_LM_RING_EN : Fld := ⟨1, 1⟩
/-! Block PL: 04_pleats_and_folds.md. -/
def R.PL_ID : Nat := 0x200000
def F.PL_ID_VERSION : Fld := ⟨0, 8⟩
def F.PL_ID_NPLEAT : Fld := ⟨8, 5⟩
def F.PL_ID_NSLOT : Fld := ⟨13, 5⟩
def R.PL_CTRL : Nat := 0x200004
def F.PL_CTRL_BLK_RST : Fld := ⟨0, 1⟩
def F.PL_CTRL_CANCEL_WAVES : Fld := ⟨1, 1⟩
def R.PL_EVT : Nat := 0x200008
def F.PL_EVT_FOLD_INVALID : Fld := ⟨0, 1⟩
def F.PL_EVT_FOLD_QFULL : Fld := ⟨1, 1⟩
def F.PL_EVT_WAVE_STUCK : Fld := ⟨2, 1⟩
def F.PL_EVT_WAVE_CANCEL : Fld := ⟨3, 1⟩
def F.PL_EVT_LOAD_DONE : Fld := ⟨4, 1⟩
def F.PL_EVT_LOAD_REFUSED : Fld := ⟨5, 1⟩
def F.PL_EVT_LOAD_INVALID : Fld := ⟨6, 1⟩
def F.PL_EVT_GEN_CANCEL : Fld := ⟨7, 1⟩
def F.PL_EVT_FAB_FOLD : Fld := ⟨8, 1⟩
def F.PL_EVT_PLEAT_ERR : Fld := ⟨9, 1⟩
def R.PL_FOLD_ERR : Nat := 0x20000c
def F.PL_FOLD_ERR_CODE : Fld := ⟨0, 4⟩
def F.PL_FOLD_ERR_TARGET : Fld := ⟨4, 4⟩
def F.PL_FOLD_ERR_TRIG : Fld := ⟨8, 4⟩
def F.PL_FOLD_ERR_COL : Fld := ⟨12, 6⟩
def F.PL_FOLD_ERR_ROW : Fld := ⟨18, 5⟩
def R.PL_FOLD_MASK_W0 : Nat := 0x200010
def F.PL_FOLD_MASK_W0_TILES : Fld := ⟨0, 32⟩
def R.PL_FOLD_MASK_W1 : Nat := 0x200014
def F.PL_FOLD_MASK_W1_TILES : Fld := ⟨0, 32⟩
def R.PL_FOLD_MASK_W2 : Nat := 0x200018
def F.PL_FOLD_MASK_W2_TILES : Fld := ⟨0, 32⟩
def R.PL_FOLD_CMD : Nat := 0x20001c
def F.PL_FOLD_CMD_PLEAT : Fld := ⟨0, 4⟩
def F.PL_FOLD_CMD_KIND : Fld := ⟨4, 1⟩
def F.PL_FOLD_CMD_GO : Fld := ⟨31, 1⟩
def R.PL_FOLD_STAT : Nat := 0x200020
def F.PL_FOLD_STAT_QDEPTH : Fld := ⟨0, 5⟩
def F.PL_FOLD_STAT_WAVES : Fld := ⟨5, 5⟩
def F.PL_FOLD_STAT_SEQ : Fld := ⟨20, 12⟩
def R.PL_WAVE_TMO : Nat := 0x200024
def F.PL_WAVE_TMO_TMO : Fld := ⟨0, 32⟩
def R.PL_ERRCNT : Nat := 0x200028
def F.PL_ERRCNT_GEN_CANCEL : Fld := ⟨0, 16⟩
def F.PL_ERRCNT_FAB_FOLD : Fld := ⟨16, 16⟩
def R.PL_LIB_CFG : Nat := 0x200030
def F.PL_LIB_CFG_BASE : Fld := ⟨0, 10⟩
def F.PL_LIB_CFG_PLANES : Fld := ⟨16, 11⟩
def R.PL_LOAD_MASK_W0 : Nat := 0x200040
def F.PL_LOAD_MASK_W0_TILES : Fld := ⟨0, 32⟩
def R.PL_LOAD_MASK_W1 : Nat := 0x200044
def F.PL_LOAD_MASK_W1_TILES : Fld := ⟨0, 32⟩
def R.PL_LOAD_MASK_W2 : Nat := 0x200048
def F.PL_LOAD_MASK_W2_TILES : Fld := ⟨0, 32⟩
def R.PL_LOAD_CMD : Nat := 0x20004c
def F.PL_LOAD_CMD_PLANE : Fld := ⟨0, 10⟩
def F.PL_LOAD_CMD_SLOT : Fld := ⟨16, 4⟩
def F.PL_LOAD_CMD_GO : Fld := ⟨31, 1⟩
def R.PL_LOAD_STAT : Nat := 0x200050
def F.PL_LOAD_STAT_QDEPTH : Fld := ⟨0, 4⟩
def F.PL_LOAD_STAT_STATUS : Fld := ⟨4, 4⟩
def F.PL_LOAD_STAT_INVALID_CNT : Fld := ⟨8, 11⟩
def F.PL_LOAD_STAT_COL : Fld := ⟨19, 6⟩
def F.PL_LOAD_STAT_ROW : Fld := ⟨25, 5⟩
def R.PL_WSEL : Nat := 0x200060
def F.PL_WSEL_COL : Fld := ⟨0, 6⟩
def F.PL_WSEL_ROW : Fld := ⟨8, 5⟩
def F.PL_WSEL_PLEAT : Fld := ⟨16, 4⟩
def F.PL_WSEL_WORD : Fld := ⟨20, 3⟩
def R.PL_WDATA : Nat := 0x200064
def F.PL_WDATA_DATA : Fld := ⟨0, 32⟩
def R.PL_WCMD : Nat := 0x200068
def F.PL_WCMD_RD : Fld := ⟨0, 1⟩
def F.PL_WCMD_WR : Fld := ⟨1, 1⟩
def F.PL_WCMD_DONE : Fld := ⟨2, 1⟩
def F.PL_WCMD_STATUS : Fld := ⟨3, 2⟩
def R.PL_FSTRB (k : Nat) : Nat := 0x200100 + 4 * k
def F.PL_FSTRB_PLEAT : Fld := ⟨0, 4⟩
def F.PL_FSTRB_KIND : Fld := ⟨4, 1⟩
def F.PL_FSTRB_GMASK : Fld := ⟨8, 4⟩
def F.PL_FSTRB_EN : Fld := ⟨31, 1⟩
def R.PL_GMASK_W0 (k : Nat) : Nat := 0x200200 + 0x10 * k
def F.PL_GMASK_W0_TILES : Fld := ⟨0, 32⟩
def R.PL_GMASK_W1 (k : Nat) : Nat := 0x200204 + 0x10 * k
def F.PL_GMASK_W1_TILES : Fld := ⟨0, 32⟩
def R.PL_GMASK_W2 (k : Nat) : Nat := 0x200208 + 0x10 * k
def F.PL_GMASK_W2_TILES : Fld := ⟨0, 32⟩
def R.PL_WAVE_STAT (s : Nat) : Nat := 0x200300 + 4 * s
def F.PL_WAVE_STAT_ACTIVE : Fld := ⟨0, 1⟩
def F.PL_WAVE_STAT_PLEAT : Fld := ⟨4, 4⟩
def F.PL_WAVE_STAT_SEQ : Fld := ⟨8, 12⟩
def F.PL_WAVE_STAT_TILES_LEFT : Fld := ⟨20, 7⟩
def R.PL_HOME (t : Nat) : Nat := 0x200400 + 4 * t
def F.PL_HOME_PLEAT : Fld := ⟨0, 4⟩
def R.PL_TILE_STAT (t : Nat) : Nat := 0x200600 + 4 * t
def F.PL_TILE_STAT_VALID : Fld := ⟨0, 16⟩
def F.PL_TILE_STAT_BUSY : Fld := ⟨16, 16⟩
def R.PL_TILE_LOAD (t : Nat) : Nat := 0x200800 + 4 * t
def F.PL_TILE_LOAD_LOADING : Fld := ⟨0, 16⟩
def R.PL_PE_ACT (i : Nat) : Nat := 0x201000 + 4 * i
def F.PL_PE_ACT_ACTIVE : Fld := ⟨0, 4⟩
def F.PL_PE_ACT_WAITING : Fld := ⟨4, 1⟩
def F.PL_PE_ACT_VALID : Fld := ⟨8, 16⟩
/-! Block SQ: 05_stream_ports_and_queues.md. -/
def R.SQ_ID : Nat := 0x300000
def F.SQ_ID_VERSION : Fld := ⟨0, 8⟩
def F.SQ_ID_NSMBQ : Fld := ⟨8, 11⟩
def R.SQ_CTRL : Nat := 0x300004
def F.SQ_CTRL_BLK_RST : Fld := ⟨0, 1⟩
def R.SQ_EVT : Nat := 0x300008
def F.SQ_EVT_CFG_ERR : Fld := ⟨0, 1⟩
def F.SQ_EVT_FLUSH_FORCED : Fld := ⟨1, 1⟩
def F.SQ_EVT_SP_DOWN : Fld := ⟨2, 1⟩
def F.SQ_EVT_SP_ALIGN_FAIL : Fld := ⟨3, 1⟩
def F.SQ_EVT_SP_OVF : Fld := ⟨4, 1⟩
def F.SQ_EVT_KICK_IGN : Fld := ⟨5, 1⟩
def R.SQ_CFG_ERR : Nat := 0x30000c
def F.SQ_CFG_ERR_QNUM : Fld := ⟨0, 12⟩
def F.SQ_CFG_ERR_CODE : Fld := ⟨12, 4⟩
def R.SQ_FLUSH_TMO : Nat := 0x300010
def F.SQ_FLUSH_TMO_TMO : Fld := ⟨0, 24⟩
def R.SQ_THR_PEND (g : Nat) : Nat := 0x300100 + 4 * g
def F.SQ_THR_PEND_PEND : Fld := ⟨0, 32⟩
def R.SQ_Q_CFG (q : Nat) : Nat := 0x310000 + 0x40 * q
def F.SQ_Q_CFG_EN : Fld := ⟨0, 1⟩
def F.SQ_Q_CFG_BYPASS : Fld := ⟨1, 1⟩
def F.SQ_Q_CFG_GATED : Fld := ⟨2, 1⟩
def F.SQ_Q_CFG_SIZE : Fld := ⟨8, 5⟩
def R.SQ_Q_BASE (q : Nat) : Nat := 0x310004 + 0x40 * q
def F.SQ_Q_BASE_BASE : Fld := ⟨12, 14⟩
def R.SQ_Q_BIND (q : Nat) : Nat := 0x310008 + 0x40 * q
def F.SQ_Q_BIND_PROD_KIND : Fld := ⟨0, 4⟩
def F.SQ_Q_BIND_PROD_ID : Fld := ⟨4, 12⟩
def F.SQ_Q_BIND_CONS_KIND : Fld := ⟨16, 4⟩
def F.SQ_Q_BIND_CONS_ID : Fld := ⟨20, 12⟩
def R.SQ_Q_LIMIT (q : Nat) : Nat := 0x31000c + 0x40 * q
def F.SQ_Q_LIMIT_ITEM_MAX : Fld := ⟨0, 21⟩
def R.SQ_Q_THR (q : Nat) : Nat := 0x310010 + 0x40 * q
def F.SQ_Q_THR_LEVEL : Fld := ⟨0, 23⟩
def R.SQ_Q_KICK (q : Nat) : Nat := 0x310014 + 0x40 * q
def F.SQ_Q_KICK_KICK_N : Fld := ⟨0, 16⟩
def F.SQ_Q_KICK_CREDIT : Fld := ⟨16, 16⟩
def R.SQ_Q_STAT (q : Nat) : Nat := 0x310018 + 0x40 * q
def F.SQ_Q_STAT_DEPTH : Fld := ⟨0, 23⟩
def F.SQ_Q_STAT_FLUSHING : Fld := ⟨23, 1⟩
def F.SQ_Q_STAT_SWALLOW : Fld := ⟨24, 1⟩
def F.SQ_Q_STAT_FORCED : Fld := ⟨25, 1⟩
def F.SQ_Q_STAT_CONS_MID : Fld := ⟨26, 1⟩
def F.SQ_Q_STAT_PROD_MID : Fld := ⟨27, 1⟩
def R.SQ_Q_ITEMS (q : Nat) : Nat := 0x31001c + 0x40 * q
def F.SQ_Q_ITEMS_ITEMS : Fld := ⟨0, 21⟩
def R.SQ_Q_CMD (q : Nat) : Nat := 0x310020 + 0x40 * q
def F.SQ_Q_CMD_FLUSH : Fld := ⟨0, 1⟩
def R.SQ_PQ_THR (k : Nat) : Nat := 0x320000 + 0x10 * k
def F.SQ_PQ_THR_LEVEL : Fld := ⟨0, 10⟩
def R.SQ_PQ_STAT (k : Nat) : Nat := 0x320004 + 0x10 * k
def F.SQ_PQ_STAT_DEPTH : Fld := ⟨0, 10⟩
def F.SQ_PQ_STAT_FLUSHING : Fld := ⟨10, 1⟩
def F.SQ_PQ_STAT_SWALLOW : Fld := ⟨11, 1⟩
def F.SQ_PQ_STAT_FORCED : Fld := ⟨12, 1⟩
def R.SQ_PQ_CMD (k : Nat) : Nat := 0x320008 + 0x10 * k
def F.SQ_PQ_CMD_FLUSH : Fld := ⟨0, 1⟩
def R.SQ_SP_CFG (p : Nat) : Nat := 0x330000 + 0x20 * p
def F.SQ_SP_CFG_MODE : Fld := ⟨0, 2⟩
def F.SQ_SP_CFG_LANES_EN : Fld := ⟨2, 4⟩
def F.SQ_SP_CFG_TERM : Fld := ⟨6, 1⟩
def F.SQ_SP_CFG_SINK : Fld := ⟨7, 1⟩
def F.SQ_SP_CFG_DECIM : Fld := ⟨8, 8⟩
def F.SQ_SP_CFG_FRAME_LEN : Fld := ⟨16, 16⟩
def R.SQ_SP_DLY (p : Nat) : Nat := 0x330004 + 0x20 * p
def F.SQ_SP_DLY_D : Fld := ⟨0, 24⟩
def F.SQ_SP_DLY_CLK_DLY : Fld := ⟨24, 6⟩
def F.SQ_SP_DLY_CLK_Q90 : Fld := ⟨30, 1⟩
def R.SQ_SP_SYNC (p : Nat) : Nat := 0x330008 + 0x20 * p
def F.SQ_SP_SYNC_SYNC : Fld := ⟨0, 16⟩
def F.SQ_SP_SYNC_TADJ : Fld := ⟨16, 16⟩
def R.SQ_SP_CMD (p : Nat) : Nat := 0x33000c + 0x20 * p
def F.SQ_SP_CMD_ALIGN : Fld := ⟨0, 1⟩
def R.SQ_SP_STAT (p : Nat) : Nat := 0x330010 + 0x20 * p
def F.SQ_SP_STAT_STATE : Fld := ⟨0, 2⟩
def F.SQ_SP_STAT_LANE_LOCK : Fld := ⟨2, 4⟩
def F.SQ_SP_STAT_OVF : Fld := ⟨16, 16⟩
/-! Block EN: 05_stream_ports_and_queues.md. -/
def R.EN_ID : Nat := 0x660000
def F.EN_ID_VERSION : Fld := ⟨0, 8⟩
def F.EN_ID_NPORT : Fld := ⟨8, 4⟩
def F.EN_ID_NRULE : Fld := ⟨12, 9⟩
def R.EN_CTRL : Nat := 0x660004
def F.EN_CTRL_BLK_RST : Fld := ⟨0, 1⟩
def F.EN_CTRL_PTP_SET : Fld := ⟨1, 1⟩
def R.EN_PTP_NS : Nat := 0x660010
def F.EN_PTP_NS_NS : Fld := ⟨0, 30⟩
def R.EN_PTP_SEC_LO : Nat := 0x660014
def F.EN_PTP_SEC_LO_SEC : Fld := ⟨0, 32⟩
def R.EN_PTP_SEC_HI : Nat := 0x660018
def F.EN_PTP_SEC_HI_SEC : Fld := ⟨0, 16⟩
def R.EN_PTP_INC : Nat := 0x66001c
def F.EN_PTP_INC_INC : Fld := ⟨0, 32⟩
def R.EN_PTP_STEP : Nat := 0x660020
def F.EN_PTP_STEP_STEP : Fld := ⟨0, 32⟩
def R.EN_PORT_CFG (p : Nat) : Nat := 0x660100 + 0x40 * p
def F.EN_PORT_CFG_EN : Fld := ⟨0, 1⟩
def F.EN_PORT_CFG_SPEED : Fld := ⟨1, 1⟩
def F.EN_PORT_CFG_FEC : Fld := ⟨2, 2⟩
def F.EN_PORT_CFG_DEF_EN : Fld := ⟨4, 1⟩
def F.EN_PORT_CFG_TX_EN : Fld := ⟨5, 1⟩
def F.EN_PORT_CFG_DEFQ : Fld := ⟨6, 10⟩
def F.EN_PORT_CFG_TXQ : Fld := ⟨16, 10⟩
def R.EN_PORT_STAT (p : Nat) : Nat := 0x660104 + 0x40 * p
def F.EN_PORT_STAT_BLOCK_LOCK : Fld := ⟨0, 1⟩
def F.EN_PORT_STAT_LINK : Fld := ⟨1, 1⟩
def F.EN_PORT_STAT_FEC_LOCK : Fld := ⟨2, 1⟩
def F.EN_PORT_STAT_TX_BAD : Fld := ⟨8, 8⟩
def F.EN_PORT_STAT_TXTS_OVF : Fld := ⟨16, 8⟩
def R.EN_RXCNT (p : Nat) : Nat := 0x660108 + 0x40 * p
def F.EN_RXCNT_FRAMES : Fld := ⟨0, 32⟩
def R.EN_RXDROP (p : Nat) : Nat := 0x66010c + 0x40 * p
def F.EN_RXDROP_FCS_LEN : Fld := ⟨0, 8⟩
def F.EN_RXDROP_CHK : Fld := ⟨8, 8⟩
def F.EN_RXDROP_NOMATCH : Fld := ⟨16, 8⟩
def F.EN_RXDROP_ROOM : Fld := ⟨24, 8⟩
def R.EN_TSADJ (p : Nat) : Nat := 0x660110 + 0x40 * p
def F.EN_TSADJ_RX : Fld := ⟨0, 16⟩
def F.EN_TSADJ_TX : Fld := ⟨16, 16⟩
def R.EN_TXTS_NS (p : Nat) : Nat := 0x660114 + 0x40 * p
def F.EN_TXTS_NS_NS : Fld := ⟨0, 30⟩
def F.EN_TXTS_NS_VALID : Fld := ⟨31, 1⟩
def R.EN_TXTS_SEC (p : Nat) : Nat := 0x660118 + 0x40 * p
def F.EN_TXTS_SEC_SEC : Fld := ⟨0, 16⟩
def F.EN_TXTS_SEC_SEQ : Fld := ⟨16, 16⟩
def R.EN_RULE_CFG (i : Nat) : Nat := 0x661000 + 0x10 * i
def F.EN_RULE_CFG_EN : Fld := ⟨0, 1⟩
def F.EN_RULE_CFG_PORTMASK : Fld := ⟨1, 4⟩
def F.EN_RULE_CFG_MATCH : Fld := ⟨5, 4⟩
def F.EN_RULE_CFG_FORM : Fld := ⟨9, 1⟩
def F.EN_RULE_CFG_QNUM : Fld := ⟨10, 10⟩
def R.EN_RULE_DIP (i : Nat) : Nat := 0x661004 + 0x10 * i
def F.EN_RULE_DIP_ADDR : Fld := ⟨0, 32⟩
def R.EN_RULE_SIP (i : Nat) : Nat := 0x661008 + 0x10 * i
def F.EN_RULE_SIP_ADDR : Fld := ⟨0, 32⟩
def R.EN_RULE_PORTS (i : Nat) : Nat := 0x66100c + 0x10 * i
def F.EN_RULE_PORTS_DPORT : Fld := ⟨0, 16⟩
def F.EN_RULE_PORTS_VLAN : Fld := ⟨16, 12⟩
/-! Block NW: 06_ring_network.md. -/
def R.NW_ID : Nat := 0x340000
def F.NW_ID_VERSION : Fld := ⟨0, 8⟩
def F.NW_ID_NX : Fld := ⟨8, 4⟩
def F.NW_ID_NY : Fld := ⟨12, 4⟩
def R.NW_CTRL : Nat := 0x340004
def F.NW_CTRL_AGE_EN : Fld := ⟨0, 1⟩
def F.NW_CTRL_URG_EN : Fld := ⟨1, 1⟩
def R.NW_EVT : Nat := 0x340008
def F.NW_EVT_LINK_DOWN : Fld := ⟨0, 1⟩
def F.NW_EVT_CUT : Fld := ⟨1, 1⟩
def F.NW_EVT_NODE_LOST : Fld := ⟨2, 1⟩
def F.NW_EVT_HDR_PAR : Fld := ⟨3, 1⟩
def F.NW_EVT_BAD_PKT : Fld := ⟨4, 1⟩
def F.NW_EVT_NO_ROUTE : Fld := ⟨5, 1⟩
def F.NW_EVT_TMO : Fld := ⟨6, 1⟩
def F.NW_EVT_RSP_DISC : Fld := ⟨7, 1⟩
def F.NW_EVT_DOM_OFF : Fld := ⟨8, 1⟩
def R.NW_RSP_TMO : Nat := 0x34000c
def F.NW_RSP_TMO_TMO : Fld := ⟨0, 32⟩
def R.NW_ERR_LOG : Nat := 0x340010
def F.NW_ERR_LOG_NODE : Fld := ⟨0, 7⟩
def F.NW_ERR_LOG_POINT : Fld := ⟨8, 3⟩
def F.NW_ERR_LOG_KIND : Fld := ⟨12, 4⟩
def F.NW_ERR_LOG_CMD : Fld := ⟨16, 8⟩
def R.NW_TEST : Nat := 0x340014
def F.NW_TEST_NODE : Fld := ⟨0, 7⟩
def F.NW_TEST_LINK : Fld := ⟨8, 2⟩
def F.NW_TEST_COUNT : Fld := ⟨16, 8⟩
def R.NW_RDIR (i : Nat) : Nat := 0x341000 + 4 * i
def F.NW_RDIR_DIR : Fld := ⟨0, 24⟩
def R.NW_CDIR (i : Nat) : Nat := 0x341200 + 4 * i
def F.NW_CDIR_DIR : Fld := ⟨0, 20⟩
def R.NW_NODE_CTL (i : Nat) : Nat := 0x341400 + 4 * i
def F.NW_NODE_CTL_LOST : Fld := ⟨0, 1⟩
def R.NW_NODE_STAT (i : Nat) : Nat := 0x341600 + 4 * i
def F.NW_NODE_STAT_LINK_UP : Fld := ⟨0, 4⟩
def F.NW_NODE_STAT_XCUT : Fld := ⟨4, 4⟩
def F.NW_NODE_STAT_XCUT_V : Fld := ⟨8, 1⟩
def F.NW_NODE_STAT_YCUT : Fld := ⟨9, 4⟩
def F.NW_NODE_STAT_YCUT_V : Fld := ⟨13, 1⟩
def R.NW_LINK_ERR (i : Nat) : Nat := 0x341800 + 4 * i
def F.NW_LINK_ERR_E : Fld := ⟨0, 8⟩
def F.NW_LINK_ERR_W : Fld := ⟨8, 8⟩
def F.NW_LINK_ERR_S : Fld := ⟨16, 8⟩
def F.NW_LINK_ERR_N : Fld := ⟨24, 8⟩
/-! Block DB: 06_ring_network.md. -/
def R.DB_ID : Nat := 0x6d0000
def F.DB_ID_VERSION : Fld := ⟨0, 8⟩
def F.DB_ID_NPROBE : Fld := ⟨8, 5⟩
def R.DB_CTRL : Nat := 0x6d0004
def F.DB_CTRL_BLK_RST : Fld := ⟨0, 1⟩
def F.DB_CTRL_TRC_EN : Fld := ⟨1, 1⟩
def R.DB_EVT : Nat := 0x6d0008
def F.DB_EVT_TRC_DROP : Fld := ⟨0, 1⟩
def F.DB_EVT_TRC_END : Fld := ⟨1, 1⟩
def R.DB_TRC_CFG : Nat := 0x6d0010
def F.DB_TRC_CFG_SINK : Fld := ⟨0, 1⟩
def F.DB_TRC_CFG_WRAP : Fld := ⟨1, 1⟩
def F.DB_TRC_CFG_URG : Fld := ⟨2, 4⟩
def F.DB_TRC_CFG_SIZE : Fld := ⟨6, 5⟩
def R.DB_TRC_BASE : Nat := 0x6d0014
def F.DB_TRC_BASE_BASE : Fld := ⟨12, 14⟩
def R.DB_TRC_WPTR : Nat := 0x6d0018
def F.DB_TRC_WPTR_WPTR : Fld := ⟨0, 25⟩
def R.DB_TRC_DROP : Nat := 0x6d001c
def F.DB_TRC_DROP_DROP : Fld := ⟨0, 32⟩
def R.DB_PRB_CFG (k : Nat) : Nat := 0x6d1000 + 0x100 * k
def F.DB_PRB_CFG_EN : Fld := ⟨0, 1⟩
def F.DB_PRB_CFG_NODE : Fld := ⟨1, 7⟩
def F.DB_PRB_CFG_POINT : Fld := ⟨8, 3⟩
def F.DB_PRB_CFG_ADDR_EN : Fld := ⟨11, 1⟩
def F.DB_PRB_CFG_TRACE : Fld := ⟨12, 1⟩
def F.DB_PRB_CFG_FREEZE : Fld := ⟨13, 1⟩
def F.DB_PRB_CFG_SHIFT : Fld := ⟨14, 5⟩
def R.DB_PRB_BASE (k : Nat) : Nat := 0x6d1004 + 0x100 * k
def F.DB_PRB_BASE_BASE : Fld := ⟨0, 32⟩
def R.DB_PRB_VAL_W0 (k : Nat) : Nat := 0x6d1008 + 0x100 * k
def F.DB_PRB_VAL_W0_VAL : Fld := ⟨0, 32⟩
def R.DB_PRB_VAL_W1 (k : Nat) : Nat := 0x6d100c + 0x100 * k
def F.DB_PRB_VAL_W1_VAL : Fld := ⟨0, 32⟩
def R.DB_PRB_VAL_W2 (k : Nat) : Nat := 0x6d1010 + 0x100 * k
def F.DB_PRB_VAL_W2_VAL : Fld := ⟨0, 32⟩
def R.DB_PRB_MASK_W0 (k : Nat) : Nat := 0x6d1014 + 0x100 * k
def F.DB_PRB_MASK_W0_MASK : Fld := ⟨0, 32⟩
def R.DB_PRB_MASK_W1 (k : Nat) : Nat := 0x6d1018 + 0x100 * k
def F.DB_PRB_MASK_W1_MASK : Fld := ⟨0, 32⟩
def R.DB_PRB_MASK_W2 (k : Nat) : Nat := 0x6d101c + 0x100 * k
def F.DB_PRB_MASK_W2_MASK : Fld := ⟨0, 32⟩
def R.DB_PRB_ALO_LO (k : Nat) : Nat := 0x6d1020 + 0x100 * k
def F.DB_PRB_ALO_LO_ADDR : Fld := ⟨0, 32⟩
def R.DB_PRB_ALO_HI (k : Nat) : Nat := 0x6d1024 + 0x100 * k
def F.DB_PRB_ALO_HI_ADDR : Fld := ⟨0, 16⟩
def R.DB_PRB_AHI_LO (k : Nat) : Nat := 0x6d1028 + 0x100 * k
def F.DB_PRB_AHI_LO_ADDR : Fld := ⟨0, 32⟩
def R.DB_PRB_AHI_HI (k : Nat) : Nat := 0x6d102c + 0x100 * k
def F.DB_PRB_AHI_HI_ADDR : Fld := ⟨0, 16⟩
def R.DB_PRB_CMD (k : Nat) : Nat := 0x6d1030 + 0x100 * k
def F.DB_PRB_CMD_CLR : Fld := ⟨0, 1⟩
def R.DB_PRB_PKTS (k : Nat) : Nat := 0x6d1034 + 0x100 * k
def F.DB_PRB_PKTS_PKTS : Fld := ⟨0, 32⟩
def R.DB_PRB_BYTES_LO (k : Nat) : Nat := 0x6d1038 + 0x100 * k
def F.DB_PRB_BYTES_LO_BYTES : Fld := ⟨0, 32⟩
def R.DB_PRB_BYTES_HI (k : Nat) : Nat := 0x6d103c + 0x100 * k
def F.DB_PRB_BYTES_HI_BYTES : Fld := ⟨0, 16⟩
def R.DB_PRB_HIST (k b : Nat) : Nat := 0x6d1040 + 0x100 * k + 4 * b
def F.DB_PRB_HIST_COUNT : Fld := ⟨0, 32⟩
/-! Block SM: 07_stream_memory.md. -/
def R.SM_ID : Nat := 0x380000
def F.SM_ID_VERSION : Fld := ⟨0, 8⟩
def F.SM_ID_NBANK : Fld := ⟨8, 7⟩
def R.SM_CTRL : Nat := 0x380004
def F.SM_CTRL_BLK_RST : Fld := ⟨0, 1⟩
def F.SM_CTRL_FILL_ON_RST : Fld := ⟨1, 1⟩
def R.SM_EVT : Nat := 0x380008
def F.SM_EVT_CE : Fld := ⟨0, 1⟩
def F.SM_EVT_UE : Fld := ⟨1, 1⟩
def F.SM_EVT_POISONED : Fld := ⟨2, 1⟩
def F.SM_EVT_WRITE_LOST : Fld := ⟨3, 1⟩
def F.SM_EVT_SCR_DONE : Fld := ⟨4, 1⟩
def F.SM_EVT_LOG_FULL : Fld := ⟨5, 1⟩
def F.SM_EVT_REPAIR_DONE : Fld := ⟨6, 1⟩
def F.SM_EVT_REPAIR_FAIL : Fld := ⟨7, 1⟩
def F.SM_EVT_BGS_LATE : Fld := ⟨8, 1⟩
def R.SM_WL_CNT : Nat := 0x38000c
def F.SM_WL_CNT_COUNT : Fld := ⟨0, 32⟩
def R.SM_FLIP_CFG : Nat := 0x380010
def F.SM_FLIP_CFG_ARM : Fld := ⟨0, 1⟩
def F.SM_FLIP_CFG_MODE : Fld := ⟨1, 1⟩
def F.SM_FLIP_CFG_GROUP : Fld := ⟨2, 3⟩
def F.SM_FLIP_CFG_UNIT : Fld := ⟨5, 11⟩
def F.SM_FLIP_CFG_OFS : Fld := ⟨16, 11⟩
def R.SM_FLIP_MASK_W0 : Nat := 0x380014
def F.SM_FLIP_MASK_W0_MASK : Fld := ⟨0, 32⟩
def R.SM_FLIP_MASK_W1 : Nat := 0x380018
def F.SM_FLIP_MASK_W1_MASK : Fld := ⟨0, 32⟩
def R.SM_FLIP_MASK_W2 : Nat := 0x38001c
def F.SM_FLIP_MASK_W2_MASK : Fld := ⟨0, 8⟩
def R.SM_SCR_CFG : Nat := 0x380020
def F.SM_SCR_CFG_GROUP : Fld := ⟨0, 2⟩
def F.SM_SCR_CFG_FORCE : Fld := ⟨16, 16⟩
def R.SM_SCR_START_LO : Nat := 0x380024
def F.SM_SCR_START_LO_ADDR : Fld := ⟨0, 32⟩
def R.SM_SCR_START_HI : Nat := 0x380028
def F.SM_SCR_START_HI_ADDR : Fld := ⟨0, 16⟩
def R.SM_SCR_END_LO : Nat := 0x38002c
def F.SM_SCR_END_LO_ADDR : Fld := ⟨0, 32⟩
def R.SM_SCR_END_HI : Nat := 0x380030
def F.SM_SCR_END_HI_ADDR : Fld := ⟨0, 16⟩
def R.SM_SCR_CMD : Nat := 0x380034
def F.SM_SCR_CMD_GO : Fld := ⟨0, 1⟩
def F.SM_SCR_CMD_ABORT : Fld := ⟨1, 1⟩
def R.SM_SCR_STAT : Nat := 0x380038
def F.SM_SCR_STAT_BUSY : Fld := ⟨0, 1⟩
def F.SM_SCR_STAT_CLEAN : Fld := ⟨1, 1⟩
def F.SM_SCR_STAT_ABORTED : Fld := ⟨2, 1⟩
def R.SM_SCR_SUM_READ : Nat := 0x38003c
def F.SM_SCR_SUM_READ_COUNT : Fld := ⟨0, 32⟩
def R.SM_SCR_SUM_CE : Nat := 0x380040
def F.SM_SCR_SUM_CE_COUNT : Fld := ⟨0, 32⟩
def R.SM_SCR_SUM_UE : Nat := 0x380044
def F.SM_SCR_SUM_UE_COUNT : Fld := ⟨0, 32⟩
def R.SM_SCR_FIRST_LO : Nat := 0x380048
def F.SM_SCR_FIRST_LO_ADDR : Fld := ⟨0, 32⟩
def R.SM_SCR_FIRST_HI : Nat := 0x38004c
def F.SM_SCR_FIRST_HI_ADDR : Fld := ⟨0, 16⟩
def R.SM_SCR_LAST_LO : Nat := 0x380050
def F.SM_SCR_LAST_LO_ADDR : Fld := ⟨0, 32⟩
def R.SM_SCR_LAST_HI : Nat := 0x380054
def F.SM_SCR_LAST_HI_ADDR : Fld := ⟨0, 16⟩
def R.SM_REPAIR_CMD : Nat := 0x380060
def F.SM_REPAIR_CMD_ROW : Fld := ⟨0, 12⟩
def F.SM_REPAIR_CMD_BANK : Fld := ⟨12, 7⟩
def F.SM_REPAIR_CMD_KIND : Fld := ⟨19, 2⟩
def F.SM_REPAIR_CMD_GO : Fld := ⟨31, 1⟩
def R.SM_REPAIR_STAT : Nat := 0x380064
def F.SM_REPAIR_STAT_BUSY : Fld := ⟨0, 1⟩
def F.SM_REPAIR_STAT_STATUS : Fld := ⟨1, 3⟩
def F.SM_REPAIR_STAT_POISONED : Fld := ⟨4, 1⟩
def R.SM_BGS_CFG (g : Nat) : Nat := 0x380080 + 4 * g
def F.SM_BGS_CFG_EN : Fld := ⟨0, 1⟩
def F.SM_BGS_CFG_PERIOD : Fld := ⟨16, 16⟩
def R.SM_CE_CNT (g : Nat) : Nat := 0x380100 + 4 * g
def F.SM_CE_CNT_COUNT : Fld := ⟨0, 32⟩
def R.SM_UE_CNT (g : Nat) : Nat := 0x380120 + 4 * g
def F.SM_UE_CNT_COUNT : Fld := ⟨0, 32⟩
def R.SM_LOG_OVF (g : Nat) : Nat := 0x380140 + 4 * g
def F.SM_LOG_OVF_COUNT : Fld := ⟨0, 32⟩
def R.SM_LOG_CTL (g e : Nat) : Nat := 0x381000 + 0x100 * g + 0x10 * e
def F.SM_LOG_CTL_VALID : Fld := ⟨0, 1⟩
def F.SM_LOG_CTL_KIND : Fld := ⟨1, 3⟩
def F.SM_LOG_CTL_SOURCE : Fld := ⟨4, 3⟩
def F.SM_LOG_CTL_SYNDROME : Fld := ⟨8, 8⟩
def F.SM_LOG_CTL_REPEAT : Fld := ⟨16, 8⟩
def F.SM_LOG_CTL_BIT : Fld := ⟨24, 7⟩
def R.SM_LOG_UNIT (g e : Nat) : Nat := 0x381004 + 0x100 * g + 0x10 * e
def F.SM_LOG_UNIT_UNIT : Fld := ⟨0, 11⟩
def R.SM_LOG_ADDR (g e : Nat) : Nat := 0x381008 + 0x100 * g + 0x10 * e
def F.SM_LOG_ADDR_ADDR : Fld := ⟨0, 24⟩
def R.SM_SPARE_STAT (b : Nat) : Nat := 0x382000 + 4 * b
def F.SM_SPARE_STAT_FACTORY : Fld := ⟨0, 4⟩
def F.SM_SPARE_STAT_SOFT : Fld := ⟨4, 2⟩
def F.SM_SPARE_STAT_TEMP : Fld := ⟨6, 1⟩
def F.SM_SPARE_STAT_FREE : Fld := ⟨8, 4⟩
def R.SM_SOFT_MAP (b k : Nat) : Nat := 0x382200 + 8 * b + 4 * k
def F.SM_SOFT_MAP_ROW : Fld := ⟨0, 12⟩
def F.SM_SOFT_MAP_VALID : Fld := ⟨12, 1⟩
/-! Block FB: 08_logic_fabric.md. -/
def R.FB_ID : Nat := 0x400000
def F.FB_ID_VERSION : Fld := ⟨0, 8⟩
def F.FB_ID_NREGION : Fld := ⟨8, 4⟩
def F.FB_ID_NBRAM_DIV : Fld := ⟨12, 8⟩
def R.FB_CTRL : Nat := 0x400004
def F.FB_CTRL_BLK_RST : Fld := ⟨0, 1⟩
def R.FB_EVT : Nat := 0x400008
def F.FB_EVT_CONTENTION : Fld := ⟨0, 1⟩
def F.FB_EVT_PLL_UNLOCK : Fld := ⟨1, 1⟩
def F.FB_EVT_CAP_DONE : Fld := ⟨2, 1⟩
def F.FB_EVT_REL_DONE : Fld := ⟨3, 1⟩
def F.FB_EVT_DONE_FELL : Fld := ⟨4, 1⟩
def F.FB_EVT_BRAM_ERR : Fld := ⟨5, 1⟩
def F.FB_EVT_UWIN_TMO : Fld := ⟨6, 1⟩
def F.FB_EVT_TMR_OVR : Fld := ⟨7, 1⟩
def R.FB_REL_STAT : Nat := 0x40000c
def F.FB_REL_STAT_STAGE : Fld := ⟨0, 2⟩
def F.FB_REL_STAT_WAIT_DONE : Fld := ⟨2, 1⟩
def F.FB_REL_STAT_WAIT_PLL : Fld := ⟨3, 1⟩
def R.FB_TL_CFG (r : Nat) : Nat := 0x400100 + 4 * r
def F.FB_TL_CFG_CLK : Fld := ⟨0, 5⟩
def F.FB_TL_CFG_EN : Fld := ⟨8, 1⟩
def R.FB_TL_LOG : Nat := 0x400120
def F.FB_TL_LOG_LINE : Fld := ⟨0, 7⟩
def F.FB_TL_LOG_DRIVERS : Fld := ⟨8, 5⟩
def R.FB_TL_CNT : Nat := 0x400124
def F.FB_TL_CNT_COUNT : Fld := ⟨0, 32⟩
def R.FB_BRAM_ERR : Nat := 0x400130
def F.FB_BRAM_ERR_BLOCK : Fld := ⟨0, 8⟩
def F.FB_BRAM_ERR_PORT : Fld := ⟨8, 1⟩
def F.FB_BRAM_ERR_WRITE : Fld := ⟨9, 1⟩
def F.FB_BRAM_ERR_WORD : Fld := ⟨10, 10⟩
def R.FB_COLL_CNT : Nat := 0x400134
def F.FB_COLL_CNT_COUNT : Fld := ⟨0, 32⟩
def R.FB_UWIN_TMO : Nat := 0x400138
def F.FB_UWIN_TMO_TMO : Fld := ⟨0, 16⟩
def R.FB_UEVT_PEND : Nat := 0x400140
def F.FB_UEVT_PEND_PEND : Fld := ⟨0, 16⟩
def R.FB_PLL_CFG (p : Nat) : Nat := 0x400400 + 0x20 * p
def F.FB_PLL_CFG_RST : Fld := ⟨0, 1⟩
def F.FB_PLL_CFG_SRC : Fld := ⟨1, 4⟩
def F.FB_PLL_CFG_PREDIV : Fld := ⟨5, 7⟩
def F.FB_PLL_CFG_MULT : Fld := ⟨12, 8⟩
def R.FB_PLL_DIV (p o : Nat) : Nat := 0x400404 + 0x20 * p + 4 * o
def F.FB_PLL_DIV_DIV : Fld := ⟨0, 7⟩
def F.FB_PLL_DIV_PHASE : Fld := ⟨8, 7⟩
def F.FB_PLL_DIV_EN : Fld := ⟨31, 1⟩
def R.FB_PLL_STAT (p : Nat) : Nat := 0x40041c + 0x20 * p
def F.FB_PLL_STAT_LOCK : Fld := ⟨0, 1⟩
def F.FB_PLL_STAT_LOSS : Fld := ⟨8, 8⟩
def R.FB_CAP_CFG : Nat := 0x400600
def F.FB_CAP_CFG_CLK : Fld := ⟨0, 5⟩
def F.FB_CAP_CFG_TRIG : Fld := ⟨5, 2⟩
def F.FB_CAP_CFG_LINE : Fld := ⟨8, 6⟩
def F.FB_CAP_CFG_DELAY : Fld := ⟨16, 16⟩
def R.FB_CAP_CMD : Nat := 0x400604
def F.FB_CAP_CMD_ARM : Fld := ⟨0, 1⟩
def F.FB_CAP_CMD_CANCEL : Fld := ⟨1, 1⟩
def R.FB_CAP_STAT : Nat := 0x400608
def F.FB_CAP_STAT_ARMED : Fld := ⟨0, 1⟩
def F.FB_CAP_STAT_TAKEN : Fld := ⟨1, 1⟩
def R.FB_CAP_TIME_LO : Nat := 0x40060c
def F.FB_CAP_TIME_LO_TIME : Fld := ⟨0, 32⟩
def R.FB_CAP_TIME_HI : Nat := 0x400610
def F.FB_CAP_TIME_HI_TIME : Fld := ⟨0, 23⟩
def R.FB_MPORT_CFG (m : Nat) : Nat := 0x400800 + 4 * m
def F.FB_MPORT_CFG_PARTNER : Fld := ⟨0, 10⟩
def F.FB_MPORT_CFG_URG : Fld := ⟨10, 4⟩
def F.FB_MPORT_CFG_EN : Fld := ⟨31, 1⟩
def R.FB_TMR_CFG (k : Nat) : Nat := 0x401000 + 0x10 * k
def F.FB_TMR_CFG_EN : Fld := ⟨0, 1⟩
def F.FB_TMR_CFG_CLK : Fld := ⟨1, 5⟩
def F.FB_TMR_CFG_PRESC : Fld := ⟨8, 8⟩
def F.FB_TMR_CFG_CAP_VALID : Fld := ⟨16, 1⟩
def F.FB_TMR_CFG_CAP_OVR : Fld := ⟨17, 1⟩
def F.FB_TMR_CFG_CAP_SRC : Fld := ⟨18, 2⟩
def R.FB_TMR_CNT (k : Nat) : Nat := 0x401004 + 0x10 * k
def F.FB_TMR_CNT_COUNT : Fld := ⟨0, 32⟩
def R.FB_TMR_CAP (k : Nat) : Nat := 0x401008 + 0x10 * k
def F.FB_TMR_CAP_CAP : Fld := ⟨0, 32⟩
def R.FB_TMR_CMP (k : Nat) : Nat := 0x40100c + 0x10 * k
def F.FB_TMR_CMP_CMP : Fld := ⟨0, 32⟩
/-! Block CG: 09_configuration.md. -/
def R.CG_ID : Nat := 0x500000
def F.CG_ID_VERSION : Fld := ⟨0, 8⟩
def F.CG_ID_NREGION : Fld := ⟨8, 4⟩
def F.CG_ID_NFRAMES : Fld := ⟨12, 16⟩
def R.CG_CTRL : Nat := 0x500004
def F.CG_CTRL_PL_ABORT : Fld := ⟨0, 1⟩
def F.CG_CTRL_LIB_ABORT : Fld := ⟨1, 1⟩
def R.CG_EVT : Nat := 0x500008
def F.CG_EVT_PROOF_FAIL : Fld := ⟨0, 1⟩
def F.CG_EVT_PL_DONE : Fld := ⟨1, 1⟩
def F.CG_EVT_TORN : Fld := ⟨2, 1⟩
def F.CG_EVT_NONESS : Fld := ⟨3, 1⟩
def F.CG_EVT_ESS : Fld := ⟨4, 1⟩
def F.CG_EVT_ESS_STATIC : Fld := ⟨5, 1⟩
def F.CG_EVT_EBM_BAD : Fld := ⟨6, 1⟩
def F.CG_EVT_SCRUB_WDT : Fld := ⟨7, 1⟩
def F.CG_EVT_COPY_FIX : Fld := ⟨8, 1⟩
def F.CG_EVT_LIB_DONE : Fld := ⟨9, 1⟩
def F.CG_EVT_LIB_FAIL : Fld := ⟨10, 1⟩
def R.CG_STATUS : Nat := 0x50000c
def F.CG_STATUS_STATE : Fld := ⟨0, 3⟩
def F.CG_STATUS_BOOT : Fld := ⟨3, 2⟩
def F.CG_STATUS_HX : Fld := ⟨5, 1⟩
def F.CG_STATUS_SLOT : Fld := ⟨6, 1⟩
def F.CG_STATUS_DONE_OUT : Fld := ⟨7, 1⟩
def F.CG_STATUS_DONE_IN : Fld := ⟨8, 1⟩
def F.CG_STATUS_PL_BUSY : Fld := ⟨9, 1⟩
def F.CG_STATUS_LIB_BUSY : Fld := ⟨10, 1⟩
def R.CG_RETRY_COUNT : Nat := 0x500010
def F.CG_RETRY_COUNT_COUNT : Fld := ⟨0, 32⟩
def R.CG_PROOF_ERR : Nat := 0x500014
def F.CG_PROOF_ERR_CODE : Fld := ⟨0, 5⟩
def F.CG_PROOF_ERR_PARTIAL : Fld := ⟨5, 1⟩
def F.CG_PROOF_ERR_FRAME : Fld := ⟨16, 16⟩
def R.CG_HOST_BASE : Nat := 0x500020
def F.CG_HOST_BASE_BASE : Fld := ⟨12, 14⟩
def R.CG_HOST_CMD : Nat := 0x500024
def F.CG_HOST_CMD_GO : Fld := ⟨0, 1⟩
def R.CG_START : Nat := 0x500028
def F.CG_START_LACE_GATE : Fld := ⟨0, 1⟩
def R.CG_ICP_FENCE : Nat := 0x500030
def F.CG_ICP_FENCE_FIRST : Fld := ⟨0, 16⟩
def F.CG_ICP_FENCE_LAST : Fld := ⟨16, 16⟩
def R.CG_HOST_FENCE : Nat := 0x500034
def F.CG_HOST_FENCE_FIRST : Fld := ⟨0, 16⟩
def F.CG_HOST_FENCE_LAST : Fld := ⟨16, 16⟩
def R.CG_ICP_POLICY : Nat := 0x500038
def F.CG_ICP_POLICY_SIGNED : Fld := ⟨0, 1⟩
def R.CG_PL_STAT : Nat := 0x500040
def F.CG_PL_STAT_STATUS : Fld := ⟨0, 4⟩
def F.CG_PL_STAT_REGION : Fld := ⟨4, 4⟩
def F.CG_PL_STAT_SRC : Fld := ⟨8, 1⟩
def F.CG_PL_STAT_FRAME : Fld := ⟨16, 16⟩
def R.CG_PL_TMO : Nat := 0x500044
def F.CG_PL_TMO_TMO : Fld := ⟨0, 32⟩
def R.CG_SCRUB_CFG : Nat := 0x500050
def F.CG_SCRUB_CFG_EN : Fld := ⟨0, 1⟩
def F.CG_SCRUB_CFG_WDT_ACT : Fld := ⟨1, 1⟩
def F.CG_SCRUB_CFG_PERIOD : Fld := ⟨16, 16⟩
def R.CG_SCRUB_WDT : Nat := 0x500054
def F.CG_SCRUB_WDT_LIMIT : Fld := ⟨0, 16⟩
def R.CG_SCRUB_STAT : Nat := 0x500058
def F.CG_SCRUB_STAT_EBM_OK : Fld := ⟨0, 1⟩
def F.CG_SCRUB_STAT_RUNNING : Fld := ⟨1, 1⟩
def F.CG_SCRUB_STAT_PASSES : Fld := ⟨16, 16⟩
def R.CG_SCRUB_CNT : Nat := 0x50005c
def F.CG_SCRUB_CNT_NONESS : Fld := ⟨0, 16⟩
def F.CG_SCRUB_CNT_ESS : Fld := ⟨16, 16⟩
def R.CG_SCRUB_FIX : Nat := 0x500060
def F.CG_SCRUB_FIX_COPY_FIX : Fld := ⟨0, 8⟩
def F.CG_SCRUB_FIX_VOTE_FIX : Fld := ⟨8, 8⟩
def F.CG_SCRUB_FIX_WDT : Fld := ⟨16, 8⟩
def R.CG_RB_SEL : Nat := 0x500070
def F.CG_RB_SEL_FRAME : Fld := ⟨0, 16⟩
def F.CG_RB_SEL_WORD : Fld := ⟨16, 7⟩
def F.CG_RB_SEL_PLANE : Fld := ⟨23, 1⟩
def R.CG_RB_DATA : Nat := 0x500074
def F.CG_RB_DATA_DATA : Fld := ⟨0, 32⟩
def R.CG_RB_CMD : Nat := 0x500078
def F.CG_RB_CMD_RD : Fld := ⟨0, 1⟩
def F.CG_RB_CMD_DONE : Fld := ⟨1, 1⟩
def F.CG_RB_CMD_STATUS : Fld := ⟨2, 2⟩
def R.CG_LIB_CMD : Nat := 0x500080
def F.CG_LIB_CMD_GO : Fld := ⟨0, 1⟩
def F.CG_LIB_CMD_SRC : Fld := ⟨1, 1⟩
def F.CG_LIB_CMD_BCAST : Fld := ⟨2, 1⟩
def F.CG_LIB_CMD_BASE : Fld := ⟨16, 10⟩
def R.CG_LIB_STAT : Nat := 0x500084
def F.CG_LIB_STAT_BUSY : Fld := ⟨0, 1⟩
def F.CG_LIB_STAT_STATUS : Fld := ⟨1, 3⟩
def F.CG_LIB_STAT_PLANES : Fld := ⟨16, 9⟩
def R.CG_REG_RANGE (r : Nat) : Nat := 0x500100 + 0x10 * r
def F.CG_REG_RANGE_FIRST : Fld := ⟨0, 16⟩
def F.CG_REG_RANGE_LAST : Fld := ⟨16, 16⟩
def R.CG_REG_STAT (r : Nat) : Nat := 0x500104 + 0x10 * r
def F.CG_REG_STAT_STATE : Fld := ⟨0, 3⟩
def F.CG_REG_STAT_NOLINING : Fld := ⟨3, 1⟩
def R.CG_REG_LINING (r : Nat) : Nat := 0x500108 + 0x10 * r
def F.CG_REG_LINING_OFS : Fld := ⟨0, 14⟩
def F.CG_REG_LINING_VALID : Fld := ⟨15, 1⟩
/-! Block FL: 10_flash_otp_protection.md. -/
def R.FL_ID : Nat := 0x540000
def F.FL_ID_VERSION : Fld := ⟨0, 8⟩
def F.FL_ID_SIZE : Fld := ⟨8, 8⟩
def R.FL_CTRL : Nat := 0x540004
def F.FL_CTRL_BLK_RST : Fld := ⟨0, 1⟩
def F.FL_CTRL_SUSPEND : Fld := ⟨1, 1⟩
def F.FL_CTRL_RESUME : Fld := ⟨2, 1⟩
def F.FL_CTRL_CRM_EN : Fld := ⟨3, 1⟩
def R.FL_EVT : Nat := 0x540008
def F.FL_EVT_DONE : Fld := ⟨0, 1⟩
def F.FL_EVT_FAIL : Fld := ⟨1, 1⟩
def F.FL_EVT_UE : Fld := ⟨2, 1⟩
def F.FL_EVT_LOG_FULL : Fld := ⟨3, 1⟩
def R.FL_STAT : Nat := 0x54000c
def F.FL_STAT_BUSY : Fld := ⟨0, 1⟩
def F.FL_STAT_SUSPENDED : Fld := ⟨1, 1⟩
def F.FL_STAT_DIE_BUSY : Fld := ⟨2, 1⟩
def F.FL_STAT_STATUS : Fld := ⟨4, 4⟩
def F.FL_STAT_LOCK : Fld := ⟨8, 2⟩
def R.FL_ADDR : Nat := 0x540010
def F.FL_ADDR_ADDR : Fld := ⟨0, 26⟩
def R.FL_CMD : Nat := 0x540014
def F.FL_CMD_OP : Fld := ⟨0, 4⟩
def F.FL_CMD_LEN : Fld := ⟨4, 11⟩
def F.FL_CMD_GO : Fld := ⟨31, 1⟩
def R.FL_ERASE_PROGRESS : Nat := 0x540018
def F.FL_ERASE_PROGRESS_PULSES : Fld := ⟨0, 8⟩
def F.FL_ERASE_PROGRESS_SECTOR : Fld := ⟨8, 10⟩
def R.FL_ECC : Nat := 0x54001c
def F.FL_ECC_CE : Fld := ⟨0, 16⟩
def F.FL_ECC_UE : Fld := ⟨16, 16⟩
def R.FL_ERR_ADDR : Nat := 0x540020
def F.FL_ERR_ADDR_ADDR : Fld := ⟨0, 26⟩
def R.FL_RDP_STAT : Nat := 0x540024
def F.FL_RDP_STAT_PHASE : Fld := ⟨0, 3⟩
def F.FL_RDP_STAT_SECTOR : Fld := ⟨3, 10⟩
def R.FL_LOG_STAT : Nat := 0x540028
def F.FL_LOG_STAT_USED : Fld := ⟨0, 12⟩
def F.FL_LOG_STAT_APPLIED : Fld := ⟨12, 8⟩
def F.FL_LOG_STAT_BAD : Fld := ⟨20, 6⟩
def F.FL_LOG_STAT_SKIP : Fld := ⟨26, 6⟩
def R.FL_BUF (k : Nat) : Nat := 0x541000 + 4 * k
def F.FL_BUF_DATA : Fld := ⟨0, 32⟩
/-! Block OT: 10_flash_otp_protection.md. -/
def R.OT_ID : Nat := 0x550000
def F.OT_ID_VERSION : Fld := ⟨0, 8⟩
def F.OT_ID_NBITS : Fld := ⟨8, 16⟩
def R.OT_STAT : Nat := 0x550004
def F.OT_STAT_BUSY : Fld := ⟨0, 1⟩
def F.OT_STAT_STATUS : Fld := ⟨1, 4⟩
def F.OT_STAT_RDP : Fld := ⟨5, 2⟩
def F.OT_STAT_L1_COUNT : Fld := ⟨7, 7⟩
def F.OT_STAT_FLOCK : Fld := ⟨14, 1⟩
def R.OT_WSEL : Nat := 0x550008
def F.OT_WSEL_WORD : Fld := ⟨0, 8⟩
def R.OT_WDATA : Nat := 0x55000c
def F.OT_WDATA_DATA : Fld := ⟨0, 32⟩
def R.OT_CMD : Nat := 0x550010
def F.OT_CMD_RD : Fld := ⟨0, 1⟩
def F.OT_CMD_PROG : Fld := ⟨1, 1⟩
def F.OT_CMD_DONE : Fld := ⟨2, 1⟩
def R.OT_UID (k : Nat) : Nat := 0x550040 + 4 * k
def F.OT_UID_UID : Fld := ⟨0, 32⟩
/-! Block TR: 10_flash_otp_protection.md. -/
def R.TR_ID : Nat := 0x6e0000
def F.TR_ID_VERSION : Fld := ⟨0, 8⟩
def R.TR_STAT : Nat := 0x6e0004
def F.TR_STAT_UNTRIMMED : Fld := ⟨0, 1⟩
def F.TR_STAT_SLOT : Fld := ⟨1, 4⟩
def F.TR_STAT_SOURCE : Fld := ⟨5, 1⟩
def F.TR_STAT_FREE : Fld := ⟨6, 5⟩
def R.TR_TSENS : Nat := 0x6e0008
def F.TR_TSENS_GAIN : Fld := ⟨0, 16⟩
def F.TR_TSENS_OFS : Fld := ⟨16, 16⟩
def R.TR_VSENS : Nat := 0x6e000c
def F.TR_VSENS_GAIN : Fld := ⟨0, 16⟩
def F.TR_VSENS_OFS : Fld := ⟨16, 16⟩
def R.TR_VIN : Nat := 0x6e0010
def F.TR_VIN_BOR : Fld := ⟨0, 8⟩
def F.TR_VIN_PG : Fld := ⟨8, 8⟩
def R.TR_SERDES_LO (l : Nat) : Nat := 0x6e0100 + 8 * l
def F.TR_SERDES_LO_SWING : Fld := ⟨0, 8⟩
def F.TR_SERDES_LO_PRE : Fld := ⟨8, 8⟩
def F.TR_SERDES_LO_POST : Fld := ⟨16, 8⟩
def F.TR_SERDES_LO_CTLE : Fld := ⟨24, 8⟩
def R.TR_SERDES_HI (l : Nat) : Nat := 0x6e0104 + 8 * l
def F.TR_SERDES_HI_DFE : Fld := ⟨0, 8⟩
def F.TR_SERDES_HI_CDR_BW : Fld := ⟨8, 8⟩
/-! Block SC: 11_signatures_and_two_party_control.md. -/
def R.SC_ID : Nat := 0x560000
def F.SC_ID_VERSION : Fld := ⟨0, 8⟩
def R.SC_EVT : Nat := 0x560004
def F.SC_EVT_TP_DONE : Fld := ⟨0, 1⟩
def F.SC_EVT_TP_REJECT : Fld := ⟨1, 1⟩
def F.SC_EVT_TP_LOCK : Fld := ⟨2, 1⟩
def F.SC_EVT_ATT_DONE : Fld := ⟨3, 1⟩
def F.SC_EVT_FW_DENY : Fld := ⟨4, 1⟩
def F.SC_EVT_DBG_END : Fld := ⟨5, 1⟩
def R.SC_STAT : Nat := 0x560008
def F.SC_STAT_BOOTKEY : Fld := ⟨0, 8⟩
def F.SC_STAT_ID_BAD : Fld := ⟨8, 1⟩
def F.SC_STAT_VERIFY_BUSY : Fld := ⟨9, 1⟩
def R.SC_KEY_STAT : Nat := 0x56000c
def F.SC_KEY_STAT_PRESENT : Fld := ⟨0, 4⟩
def F.SC_KEY_STAT_REVOKE : Fld := ⟨4, 4⟩
def F.SC_KEY_STAT_KA_SET : Fld := ⟨8, 1⟩
def F.SC_KEY_STAT_KB_SET : Fld := ⟨9, 1⟩
def R.SC_DBG_STAT : Nat := 0x560010
def F.SC_DBG_STAT_UNLOCKED : Fld := ⟨0, 1⟩
def F.SC_DBG_STAT_MINUTES : Fld := ⟨1, 11⟩
def R.SC_FW_DENY : Nat := 0x560014
def F.SC_FW_DENY_PARTNER : Fld := ⟨0, 10⟩
def F.SC_FW_DENY_KIND : Fld := ⟨10, 2⟩
def F.SC_FW_DENY_WRITE : Fld := ⟨12, 1⟩
def F.SC_FW_DENY_PART : Fld := ⟨13, 3⟩
def F.SC_FW_DENY_COUNT : Fld := ⟨16, 16⟩
def R.SC_FW_DENY_ADDR : Nat := 0x560018
def F.SC_FW_DENY_ADDR_ADDR : Fld := ⟨0, 32⟩
def R.SC_ATT_CMD : Nat := 0x560100
def F.SC_ATT_CMD_GO : Fld := ⟨0, 1⟩
def R.SC_ATT_BASE : Nat := 0x560104
def F.SC_ATT_BASE_BASE : Fld := ⟨12, 14⟩
def R.SC_ATT_STAT : Nat := 0x560108
def F.SC_ATT_STAT_BUSY : Fld := ⟨0, 1⟩
def F.SC_ATT_STAT_STATUS : Fld := ⟨1, 3⟩
def R.SC_ATT_NONCE (k : Nat) : Nat := 0x560120 + 4 * k
def F.SC_ATT_NONCE_NONCE : Fld := ⟨0, 32⟩
def R.SC_TP_CMD : Nat := 0x560200
def F.SC_TP_CMD_PROPOSE : Fld := ⟨0, 1⟩
def F.SC_TP_CMD_CONSENT : Fld := ⟨1, 1⟩
def F.SC_TP_CMD_CANCEL : Fld := ⟨2, 1⟩
def R.SC_TP_STAT : Nat := 0x560204
def F.SC_TP_STAT_STATE : Fld := ⟨0, 2⟩
def F.SC_TP_STAT_RESULT : Fld := ⟨4, 4⟩
def F.SC_TP_STAT_OP : Fld := ⟨8, 4⟩
def F.SC_TP_STAT_PROPOSER : Fld := ⟨12, 10⟩
def F.SC_TP_STAT_REJ : Fld := ⟨22, 4⟩
def F.SC_TP_STAT_SECONDS : Fld := ⟨26, 4⟩
def R.SC_TP_CHAL (k : Nat) : Nat := 0x560240 + 4 * k
def F.SC_TP_CHAL_CHAL : Fld := ⟨0, 32⟩
def R.SC_TP_PROP (k : Nat) : Nat := 0x560280 + 4 * k
def F.SC_TP_PROP_DATA : Fld := ⟨0, 32⟩
def R.SC_TP_CONS (k : Nat) : Nat := 0x560340 + 4 * k
def F.SC_TP_CONS_DATA : Fld := ⟨0, 32⟩
def R.SC_FW_DIG (k : Nat) : Nat := 0x560400 + 4 * k
def F.SC_FW_DIG_DIG : Fld := ⟨0, 32⟩
def R.SC_PID_PART (j : Nat) : Nat := 0x561000 + 4 * j
def F.SC_PID_PART_PART : Fld := ⟨0, 24⟩
def R.SC_FW_SMB_BASE (w : Nat) : Nat := 0x561200 + 0xc * w
def F.SC_FW_SMB_BASE_UNIT : Fld := ⟨0, 14⟩
def R.SC_FW_SMB_LIMIT (w : Nat) : Nat := 0x561204 + 0xc * w
def F.SC_FW_SMB_LIMIT_UNIT : Fld := ⟨0, 14⟩
def R.SC_FW_SMB_ACC (w : Nat) : Nat := 0x561208 + 0xc * w
def F.SC_FW_SMB_ACC_RD : Fld := ⟨0, 8⟩
def F.SC_FW_SMB_ACC_WR : Fld := ⟨8, 8⟩
def F.SC_FW_SMB_ACC_EN : Fld := ⟨31, 1⟩
def R.SC_FW_REG (b : Nat) : Nat := 0x5612c0 + 4 * b
def F.SC_FW_REG_RD : Fld := ⟨0, 8⟩
def F.SC_FW_REG_WR : Fld := ⟨8, 8⟩
def R.SC_FW_FL_RANGE (w : Nat) : Nat := 0x561320 + 8 * w
def F.SC_FW_FL_RANGE_FIRST : Fld := ⟨0, 10⟩
def F.SC_FW_FL_RANGE_LAST : Fld := ⟨16, 10⟩
def R.SC_FW_FL_ACC (w : Nat) : Nat := 0x561324 + 8 * w
def F.SC_FW_FL_ACC_RD : Fld := ⟨0, 8⟩
def F.SC_FW_FL_ACC_WR : Fld := ⟨8, 8⟩
def F.SC_FW_FL_ACC_EN : Fld := ⟨31, 1⟩
/-! Block HI: 12_host_partners_events.md. -/
def R.HI_ID : Nat := 0x580000
def F.HI_ID_DEVICE : Fld := ⟨0, 16⟩
def F.HI_ID_VERSION : Fld := ⟨16, 8⟩
def R.HI_CTRL : Nat := 0x580004
def F.HI_CTRL_BLK_RST : Fld := ⟨0, 1⟩
def F.HI_CTRL_MMIO_PID : Fld := ⟨16, 10⟩
def R.HI_EVT : Nat := 0x580008
def F.HI_EVT_CFG_ERR : Fld := ⟨0, 1⟩
def F.HI_EVT_DB_ERR : Fld := ⟨1, 1⟩
def F.HI_EVT_MMIO_ERR : Fld := ⟨2, 1⟩
def F.HI_EVT_PT_LEFT : Fld := ⟨3, 1⟩
def F.HI_EVT_REPAY_LOST : Fld := ⟨4, 1⟩
def F.HI_EVT_LINK_DOWN : Fld := ⟨5, 1⟩
def F.HI_EVT_FLR : Fld := ⟨6, 1⟩
def F.HI_EVT_CQ_FULL : Fld := ⟨7, 1⟩
def F.HI_EVT_BREACH : Fld := ⟨8, 1⟩
def R.HI_LINK : Nat := 0x58000c
def F.HI_LINK_RATE : Fld := ⟨0, 3⟩
def F.HI_LINK_WIDTH : Fld := ⟨3, 4⟩
def R.HI_RSV_WIN : Nat := 0x580010
def F.HI_RSV_WIN_US : Fld := ⟨0, 10⟩
def F.HI_RSV_WIN_ADMIT : Fld := ⟨16, 7⟩
def R.HI_PT_REQ : Nat := 0x580020
def F.HI_PT_REQ_KIND : Fld := ⟨0, 1⟩
def F.HI_PT_REQ_REF : Fld := ⟨1, 10⟩
def F.HI_PT_REQ_PRIO : Fld := ⟨11, 4⟩
def F.HI_PT_REQ_ID : Fld := ⟨16, 10⟩
def R.HI_PT_CMD : Nat := 0x580024
def F.HI_PT_CMD_JOIN : Fld := ⟨0, 1⟩
def F.HI_PT_CMD_LEAVE : Fld := ⟨1, 1⟩
def R.HI_PT_RSP : Nat := 0x580028
def F.HI_PT_RSP_STATUS : Fld := ⟨0, 2⟩
def F.HI_PT_RSP_DONE : Fld := ⟨2, 1⟩
def F.HI_PT_RSP_ID : Fld := ⟨8, 10⟩
def F.HI_PT_RSP_GEN : Fld := ⟨24, 8⟩
def R.HI_RSV_REQ : Nat := 0x580030
def F.HI_RSV_REQ_PARTNER : Fld := ⟨0, 10⟩
def F.HI_RSV_REQ_CLASS : Fld := ⟨10, 1⟩
def F.HI_RSV_REQ_QUEUE : Fld := ⟨12, 10⟩
def F.HI_RSV_REQ_LAT : Fld := ⟨22, 10⟩
def R.HI_RSV_RATE : Nat := 0x580034
def F.HI_RSV_RATE_RATE : Fld := ⟨0, 24⟩
def R.HI_RSV_CMD : Nat := 0x580038
def F.HI_RSV_CMD_RESERVE : Fld := ⟨0, 1⟩
def F.HI_RSV_CMD_RELEASE : Fld := ⟨1, 1⟩
def F.HI_RSV_CMD_INDEX : Fld := ⟨16, 8⟩
def R.HI_RSV_RSP : Nat := 0x58003c
def F.HI_RSV_RSP_STATUS : Fld := ⟨0, 2⟩
def F.HI_RSV_RSP_INDEX : Fld := ⟨8, 8⟩
def R.HI_QP_SQ_BASE_LO (q : Nat) : Nat := 0x590000 + 0x20 * q
def F.HI_QP_SQ_BASE_LO_ADDR : Fld := ⟨0, 32⟩
def R.HI_QP_SQ_BASE_HI (q : Nat) : Nat := 0x590004 + 0x20 * q
def F.HI_QP_SQ_BASE_HI_ADDR : Fld := ⟨0, 32⟩
def R.HI_QP_CQ_BASE_LO (q : Nat) : Nat := 0x590008 + 0x20 * q
def F.HI_QP_CQ_BASE_LO_ADDR : Fld := ⟨0, 32⟩
def R.HI_QP_CQ_BASE_HI (q : Nat) : Nat := 0x59000c + 0x20 * q
def F.HI_QP_CQ_BASE_HI_ADDR : Fld := ⟨0, 32⟩
def R.HI_QP_CFG (q : Nat) : Nat := 0x590010 + 0x20 * q
def F.HI_QP_CFG_EN : Fld := ⟨0, 1⟩
def F.HI_QP_CFG_SQ_SIZE : Fld := ⟨1, 4⟩
def F.HI_QP_CFG_CQ_SIZE : Fld := ⟨5, 4⟩
def F.HI_QP_CFG_VEC : Fld := ⟨9, 6⟩
def F.HI_QP_CFG_BOUND : Fld := ⟨15, 1⟩
def F.HI_QP_CFG_PARTNER : Fld := ⟨16, 10⟩
def R.HI_QP_STAT (q : Nat) : Nat := 0x590014 + 0x20 * q
def F.HI_QP_STAT_STATE : Fld := ⟨0, 2⟩
def F.HI_QP_STAT_CQ_FULL : Fld := ⟨2, 1⟩
def F.HI_QP_STAT_INFLIGHT : Fld := ⟨8, 6⟩
def F.HI_QP_STAT_SQ_HEAD : Fld := ⟨16, 16⟩
def R.HI_PT (p : Nat) : Nat := 0x5b0000 + 4 * p
def F.HI_PT_STATE : Fld := ⟨0, 2⟩
def F.HI_PT_KIND : Fld := ⟨2, 1⟩
def F.HI_PT_REF : Fld := ⟨3, 10⟩
def F.HI_PT_PRIO : Fld := ⟨13, 4⟩
def F.HI_PT_GEN : Fld := ⟨24, 8⟩
def R.HI_RSV_CFG (k : Nat) : Nat := 0x5b2000 + 0x10 * k
def F.HI_RSV_CFG_PARTNER : Fld := ⟨0, 10⟩
def F.HI_RSV_CFG_CLASS : Fld := ⟨10, 1⟩
def F.HI_RSV_CFG_VALID : Fld := ⟨11, 1⟩
def F.HI_RSV_CFG_QUEUE : Fld := ⟨12, 10⟩
def F.HI_RSV_CFG_LAT : Fld := ⟨22, 10⟩
def R.HI_RSV_ORDER (k : Nat) : Nat := 0x5b2004 + 0x10 * k
def F.HI_RSV_ORDER_ORDER : Fld := ⟨0, 32⟩
def R.HI_RSV_STAT (k : Nat) : Nat := 0x5b2008 + 0x10 * k
def F.HI_RSV_STAT_BREACHES : Fld := ⟨0, 16⟩
def F.HI_RSV_STAT_LOST : Fld := ⟨16, 16⟩
def R.HI_RSV_DEBT (k : Nat) : Nat := 0x5b200c + 0x10 * k
def F.HI_RSV_DEBT_DEBT : Fld := ⟨0, 24⟩
def R.HI_MSIX_ADDR_LO (v : Nat) : Nat := 0x581000 + 0x10 * v
def F.HI_MSIX_ADDR_LO_ADDR : Fld := ⟨0, 32⟩
def R.HI_MSIX_ADDR_HI (v : Nat) : Nat := 0x581004 + 0x10 * v
def F.HI_MSIX_ADDR_HI_ADDR : Fld := ⟨0, 32⟩
def R.HI_MSIX_DATA (v : Nat) : Nat := 0x581008 + 0x10 * v
def F.HI_MSIX_DATA_DATA : Fld := ⟨0, 32⟩
def R.HI_MSIX_CTL (v : Nat) : Nat := 0x58100c + 0x10 * v
def F.HI_MSIX_CTL_MASK : Fld := ⟨0, 1⟩
def R.HI_MSIX_PBA (i : Nat) : Nat := 0x581400 + 4 * i
def F.HI_MSIX_PBA_PEND : Fld := ⟨0, 32⟩
/-! Block LC: 12_host_partners_events.md. -/
def R.LC_ID : Nat := 0x640000
def F.LC_ID_VERSION : Fld := ⟨0, 8⟩
def R.LC_CFG : Nat := 0x640004
def F.LC_CFG_ROOT : Fld := ⟨0, 1⟩
def R.LC_CMD : Nat := 0x640008
def F.LC_CMD_DISCOVER : Fld := ⟨0, 1⟩
def F.LC_CMD_START : Fld := ⟨1, 1⟩
def R.LC_EVT : Nat := 0x64000c
def F.LC_EVT_LINK_DOWN : Fld := ⟨0, 2⟩
def F.LC_EVT_LINK_UP : Fld := ⟨2, 2⟩
def F.LC_EVT_TOPO : Fld := ⟨4, 1⟩
def F.LC_EVT_NUMBERED : Fld := ⟨5, 1⟩
def F.LC_EVT_START : Fld := ⟨6, 1⟩
def F.LC_EVT_START_LATE : Fld := ⟨7, 1⟩
def F.LC_EVT_START_REF : Fld := ⟨8, 1⟩
def F.LC_EVT_LOST : Fld := ⟨9, 1⟩
def F.LC_EVT_IMG_DONE : Fld := ⟨10, 1⟩
def F.LC_EVT_EXCESS : Fld := ⟨11, 1⟩
def R.LC_STAT : Nat := 0x640010
def F.LC_STAT_DEV : Fld := ⟨0, 6⟩
def F.LC_STAT_NDEV : Fld := ⟨6, 7⟩
def F.LC_STAT_TOPO : Fld := ⟨13, 1⟩
def F.LC_STAT_EXCESS : Fld := ⟨14, 1⟩
def R.LC_LOST : Nat := 0x640014
def F.LC_LOST_COUNT : Fld := ⟨0, 32⟩
def R.LC_START_AT_LO : Nat := 0x640018
def F.LC_START_AT_LO_TIME : Fld := ⟨0, 32⟩
def R.LC_START_AT_HI : Nat := 0x64001c
def F.LC_START_AT_HI_TIME : Fld := ⟨0, 16⟩
def R.LC_PORT_STAT (p : Nat) : Nat := 0x640100 + 0x20 * p
def F.LC_PORT_STAT_UP : Fld := ⟨0, 1⟩
def F.LC_PORT_STAT_REPLAY : Fld := ⟨8, 8⟩
def R.LC_PORT_DLY (p : Nat) : Nat := 0x640104 + 0x20 * p
def F.LC_PORT_DLY_DLY : Fld := ⟨0, 32⟩
def R.LC_PORT_OFS_LO (p : Nat) : Nat := 0x640108 + 0x20 * p
def F.LC_PORT_OFS_LO_OFS : Fld := ⟨0, 32⟩
def R.LC_PORT_OFS_HI (p : Nat) : Nat := 0x64010c + 0x20 * p
def F.LC_PORT_OFS_HI_OFS : Fld := ⟨0, 23⟩
def R.LC_IMG_CMD : Nat := 0x640200
def F.LC_IMG_CMD_GO : Fld := ⟨0, 1⟩
def F.LC_IMG_CMD_BCAST : Fld := ⟨1, 1⟩
def F.LC_IMG_CMD_OFS : Fld := ⟨16, 14⟩
def R.LC_IMG_UID (k : Nat) : Nat := 0x640204 + 4 * k
def F.LC_IMG_UID_UID : Fld := ⟨0, 32⟩
def R.LC_IMG_STAT : Nat := 0x640214
def F.LC_IMG_STAT_BUSY : Fld := ⟨0, 1⟩
def F.LC_IMG_STAT_STATUS : Fld := ⟨1, 2⟩
/-! Block EV: 12_host_partners_events.md. -/
def R.EV_ID : Nat := 0x600000
def F.EV_ID_VERSION : Fld := ⟨0, 8⟩
def F.EV_ID_NSRC : Fld := ⟨8, 11⟩
def R.EV_STAT : Nat := 0x600004
def F.EV_STAT_PEND_ANY : Fld := ⟨0, 1⟩
def R.EV_MK_PEND (g : Nat) : Nat := 0x600100 + 4 * g
def F.EV_MK_PEND_PEND : Fld := ⟨0, 32⟩
def R.EV_SRC_CFG (s : Nat) : Nat := 0x601000 + 4 * s
def F.EV_SRC_CFG_EN : Fld := ⟨0, 1⟩
def F.EV_SRC_CFG_AUTOCLR : Fld := ⟨1, 1⟩
def F.EV_SRC_CFG_RING : Fld := ⟨2, 6⟩
def R.EV_RING_BASE_LO (r : Nat) : Nat := 0x604000 + 0x20 * r
def F.EV_RING_BASE_LO_ADDR : Fld := ⟨0, 32⟩
def R.EV_RING_BASE_HI (r : Nat) : Nat := 0x604004 + 0x20 * r
def F.EV_RING_BASE_HI_ADDR : Fld := ⟨0, 32⟩
def R.EV_RING_CFG (r : Nat) : Nat := 0x604008 + 0x20 * r
def F.EV_RING_CFG_EN : Fld := ⟨0, 1⟩
def F.EV_RING_CFG_SIZE : Fld := ⟨1, 4⟩
def F.EV_RING_CFG_IRQ_EN : Fld := ⟨5, 1⟩
def R.EV_RING_MOD (r : Nat) : Nat := 0x60400c + 0x20 * r
def F.EV_RING_MOD_MOD_CNT : Fld := ⟨0, 16⟩
def F.EV_RING_MOD_MOD_US : Fld := ⟨16, 16⟩
def R.EV_RING_STAT (r : Nat) : Nat := 0x604010 + 0x20 * r
def F.EV_RING_STAT_TAIL : Fld := ⟨0, 16⟩
def F.EV_RING_STAT_OVF : Fld := ⟨16, 16⟩
/-! Block CC: 13_octey_control_core.md. -/
def R.CC_ID : Nat := 0x680000
def F.CC_ID_VERSION : Fld := ⟨0, 8⟩
def F.CC_ID_NWIN : Fld := ⟨8, 4⟩
def R.CC_CTRL : Nat := 0x680004
def F.CC_CTRL_BLK_RST : Fld := ⟨0, 1⟩
def F.CC_CTRL_HALT : Fld := ⟨1, 1⟩
def F.CC_CTRL_RUN : Fld := ⟨2, 1⟩
def R.CC_EVT : Nat := 0x680008
def F.CC_EVT_DOUBLE_TRAP : Fld := ⟨0, 1⟩
def F.CC_EVT_HALTED : Fld := ⟨1, 1⟩
def F.CC_EVT_MBOX : Fld := ⟨2, 1⟩
def F.CC_EVT_MEM_UE : Fld := ⟨3, 1⟩
def F.CC_EVT_RT_FAIL : Fld := ⟨4, 1⟩
def F.CC_EVT_WDT_WARN : Fld := ⟨5, 1⟩
def R.CC_STAT : Nat := 0x68000c
def F.CC_STAT_HALT : Fld := ⟨0, 1⟩
def F.CC_STAT_DT : Fld := ⟨1, 1⟩
def F.CC_STAT_PRIV : Fld := ⟨2, 1⟩
def F.CC_STAT_TW : Fld := ⟨3, 1⟩
def F.CC_STAT_WAITING : Fld := ⟨4, 1⟩
def F.CC_STAT_START : Fld := ⟨8, 2⟩
def F.CC_STAT_RT : Fld := ⟨10, 2⟩
def R.CC_CFG : Nat := 0x680010
def F.CC_CFG_DT_RST : Fld := ⟨0, 1⟩
def F.CC_CFG_BRK_HALT : Fld := ⟨1, 1⟩
def R.CC_PID : Nat := 0x680014
def F.CC_PID_PRIV : Fld := ⟨0, 10⟩
def F.CC_PID_USER : Fld := ⟨16, 10⟩
def R.CC_DT_INFO : Nat := 0x680018
def F.CC_DT_INFO_FIRST : Fld := ⟨0, 6⟩
def F.CC_DT_INFO_SECOND : Fld := ⟨8, 6⟩
def R.CC_DT_PC : Nat := 0x68001c
def F.CC_DT_PC_PC : Fld := ⟨0, 32⟩
def R.CC_PC : Nat := 0x680020
def F.CC_PC_PC : Fld := ⟨0, 32⟩
def R.CC_RESTART : Nat := 0x680024
def F.CC_RESTART_ENTRY : Fld := ⟨0, 32⟩
def R.CC_BOOT : Nat := 0x680028
def F.CC_BOOT_CFG_GO : Fld := ⟨0, 1⟩
def F.CC_BOOT_ARRAY_GO : Fld := ⟨1, 1⟩
def F.CC_BOOT_RT_CODE : Fld := ⟨4, 5⟩
def R.CC_WDT_CFG : Nat := 0x680030
def F.CC_WDT_CFG_EN : Fld := ⟨0, 1⟩
def F.CC_WDT_CFG_PAUSE : Fld := ⟨1, 1⟩
def F.CC_WDT_CFG_LIMIT : Fld := ⟨16, 16⟩
def R.CC_WDT_KICK : Nat := 0x680034
def F.CC_WDT_KICK_KEY : Fld := ⟨0, 16⟩
def R.CC_WDT_LEFT : Nat := 0x680038
def F.CC_WDT_LEFT_LEFT : Fld := ⟨0, 16⟩
def R.CC_MBOX_H2C : Nat := 0x680040
def F.CC_MBOX_H2C_DATA : Fld := ⟨0, 32⟩
def R.CC_MBOX_C2H : Nat := 0x680044
def F.CC_MBOX_C2H_DATA : Fld := ⟨0, 32⟩
def R.CC_MBOX_STAT : Nat := 0x680048
def F.CC_MBOX_STAT_H2C_FULL : Fld := ⟨0, 1⟩
def F.CC_MBOX_STAT_C2H_FULL : Fld := ⟨1, 1⟩
def F.CC_MBOX_STAT_LOST : Fld := ⟨2, 1⟩
def R.CC_IRQ_SEL (k : Nat) : Nat := 0x680100 + 4 * k
def F.CC_IRQ_SEL_SOURCE : Fld := ⟨0, 11⟩
def F.CC_IRQ_SEL_EN : Fld := ⟨31, 1⟩
/-! Block FT: 14_fault_containment.md. -/
def R.FT_ID : Nat := 0x6a0000
def F.FT_ID_VERSION : Fld := ⟨0, 8⟩
def F.FT_ID_NGROUP : Fld := ⟨8, 6⟩
def F.FT_ID_NLOG : Fld := ⟨14, 7⟩
def R.FT_CTRL : Nat := 0x6a0004
def F.FT_CTRL_BLK_RST : Fld := ⟨0, 1⟩
def F.FT_CTRL_EN : Fld := ⟨1, 1⟩
def F.FT_CTRL_LOG_APPEND : Fld := ⟨2, 1⟩
def R.FT_EVT : Nat := 0x6a0008
def F.FT_EVT_DETECT : Fld := ⟨0, 1⟩
def F.FT_EVT_RECOVERED : Fld := ⟨1, 1⟩
def F.FT_EVT_PARTIAL : Fld := ⟨2, 1⟩
def F.FT_EVT_LASTING : Fld := ⟨3, 1⟩
def F.FT_EVT_TRANSIENT : Fld := ⟨4, 1⟩
def F.FT_EVT_NO_GUSSET : Fld := ⟨5, 1⟩
def F.FT_EVT_EXPRESS : Fld := ⟨6, 1⟩
def F.FT_EVT_PAIR : Fld := ⟨7, 1⟩
def F.FT_EVT_CKPT_LOST : Fld := ⟨8, 1⟩
def F.FT_EVT_OPEN : Fld := ⟨9, 1⟩
def F.FT_EVT_NODE_MOVED : Fld := ⟨10, 1⟩
def F.FT_EVT_LOG_FULL : Fld := ⟨11, 1⟩
def F.FT_EVT_OVERRUN : Fld := ⟨12, 1⟩
def F.FT_EVT_UNPROT : Fld := ⟨13, 1⟩
def F.FT_EVT_CFG_ERR : Fld := ⟨14, 1⟩
def R.FT_STAT : Nat := 0x6a000c
def F.FT_STAT_STATE : Fld := ⟨0, 3⟩
def F.FT_STAT_GUSSET_FREE : Fld := ⟨3, 2⟩
def F.FT_STAT_QUEUED : Fld := ⟨5, 4⟩
def F.FT_STAT_GROUP : Fld := ⟨9, 5⟩
def F.FT_STAT_GROUP_V : Fld := ⟨14, 1⟩
def R.FT_REC_TIME : Nat := 0x6a0010
def F.FT_REC_TIME_NCLK : Fld := ⟨0, 32⟩
def R.FT_REC_MAX : Nat := 0x6a0014
def F.FT_REC_MAX_NCLK : Fld := ⟨0, 32⟩
def R.FT_PAIR_CNT : Nat := 0x6a0018
def F.FT_PAIR_CNT_COUNT : Fld := ⟨0, 32⟩
def R.FT_GRP_PEND : Nat := 0x6a001c
def F.FT_GRP_PEND_PEND : Fld := ⟨0, 32⟩
def R.FT_INJECT : Nat := 0x6a0020
def F.FT_INJECT_COL : Fld := ⟨0, 6⟩
def F.FT_INJECT_ROW : Fld := ⟨6, 5⟩
def F.FT_INJECT_GO : Fld := ⟨31, 1⟩
def R.FT_EXIT_SEL : Nat := 0x6a0030
def F.FT_EXIT_SEL_EXIT : Fld := ⟨0, 9⟩
def R.FT_EXIT_CNT : Nat := 0x6a0034
def F.FT_EXIT_CNT_COUNT : Fld := ⟨0, 28⟩
def R.FT_EXIT_CKPT : Nat := 0x6a0038
def F.FT_EXIT_CKPT_COUNT : Fld := ⟨0, 28⟩
def R.FT_GRP_MASK_W0 (g : Nat) : Nat := 0x6a0100 + 0x20 * g
def F.FT_GRP_MASK_W0_TILES : Fld := ⟨0, 32⟩
def R.FT_GRP_MASK_W1 (g : Nat) : Nat := 0x6a0104 + 0x20 * g
def F.FT_GRP_MASK_W1_TILES : Fld := ⟨0, 32⟩
def R.FT_GRP_MASK_W2 (g : Nat) : Nat := 0x6a0108 + 0x20 * g
def F.FT_GRP_MASK_W2_TILES : Fld := ⟨0, 32⟩
def R.FT_GRP_CFG (g : Nat) : Nat := 0x6a010c + 0x20 * g
def F.FT_GRP_CFG_MODE : Fld := ⟨0, 2⟩
def F.FT_GRP_CFG_INTERVAL : Fld := ⟨2, 10⟩
def F.FT_GRP_CFG_LIN_BASE : Fld := ⟨12, 7⟩
def F.FT_GRP_CFG_MIRROR : Fld := ⟨19, 1⟩
def F.FT_GRP_CFG_SPARE : Fld := ⟨20, 7⟩
def F.FT_GRP_CFG_SPARE_V : Fld := ⟨27, 1⟩
def F.FT_GRP_CFG_EN : Fld := ⟨31, 1⟩
def R.FT_GRP_FB (g : Nat) : Nat := 0x6a0118 + 0x20 * g
def F.FT_GRP_FB_FALLBACK : Fld := ⟨0, 4⟩
def R.FT_GRP_STAT (g : Nat) : Nat := 0x6a0110 + 0x20 * g
def F.FT_GRP_STAT_CKPT : Fld := ⟨0, 12⟩
def F.FT_GRP_STAT_CKPT_V : Fld := ⟨12, 1⟩
def F.FT_GRP_STAT_OPEN : Fld := ⟨13, 1⟩
def F.FT_GRP_STAT_FAILED : Fld := ⟨14, 1⟩
def F.FT_GRP_STAT_BUSY : Fld := ⟨15, 1⟩
def F.FT_GRP_STAT_RECOVERIES : Fld := ⟨16, 16⟩
def R.FT_GRP_CMD (g : Nat) : Nat := 0x6a0114 + 0x20 * g
def F.FT_GRP_CMD_CKPT : Fld := ⟨0, 1⟩
def F.FT_GRP_CMD_CLEAR : Fld := ⟨1, 1⟩
def R.FT_LOG_CTL (e : Nat) : Nat := 0x6a1000 + 0x10 * e
def F.FT_LOG_CTL_VALID : Fld := ⟨0, 1⟩
def F.FT_LOG_CTL_CLASS : Fld := ⟨1, 3⟩
def F.FT_LOG_CTL_DETECTOR : Fld := ⟨4, 4⟩
def F.FT_LOG_CTL_ELEMENT : Fld := ⟨8, 4⟩
def F.FT_LOG_CTL_RESULT : Fld := ⟨12, 4⟩
def F.FT_LOG_CTL_GROUP : Fld := ⟨16, 5⟩
def F.FT_LOG_CTL_GROUP_V : Fld := ⟨21, 1⟩
def F.FT_LOG_CTL_REPEAT : Fld := ⟨22, 8⟩
def R.FT_LOG_LOC (e : Nat) : Nat := 0x6a1004 + 0x10 * e
def F.FT_LOG_LOC_LOC : Fld := ⟨0, 32⟩
def R.FT_LOG_TIME (e : Nat) : Nat := 0x6a1008 + 0x10 * e
def F.FT_LOG_TIME_VALUE : Fld := ⟨0, 32⟩
def R.FT_LOG_REC (e : Nat) : Nat := 0x6a100c + 0x10 * e
def F.FT_LOG_REC_VALUE : Fld := ⟨0, 32⟩
/-! Block RS: 15_power_reset_clocks.md. -/
def R.RS_ID : Nat := 0x1000
def F.RS_ID_VERSION : Fld := ⟨0, 8⟩
def R.RS_CAUSE : Nat := 0x1004
def F.RS_CAUSE_CODE : Fld := ⟨0, 6⟩
def F.RS_CAUSE_REACH : Fld := ⟨6, 2⟩
def F.RS_CAUSE_DETAIL : Fld := ⟨8, 8⟩
def R.RS_COUNT : Nat := 0x1008
def F.RS_COUNT_WARM : Fld := ⟨0, 16⟩
def F.RS_COUNT_RUN : Fld := ⟨16, 16⟩
def R.RS_STRAP : Nat := 0x100c
def F.RS_STRAP_MODE : Fld := ⟨0, 1⟩
def F.RS_STRAP_BOOT : Fld := ⟨1, 2⟩
def F.RS_STRAP_CLKSEL : Fld := ⟨3, 1⟩
def R.RS_CTRL : Nat := 0x1010
def F.RS_CTRL_WARM : Fld := ⟨0, 1⟩
def F.RS_CTRL_RUN : Fld := ⟨1, 1⟩
def F.RS_CTRL_KEY : Fld := ⟨16, 16⟩
def R.RS_EVT : Nat := 0x1014
def F.RS_EVT_WDT_WARN : Fld := ⟨0, 1⟩
def F.RS_EVT_UNION : Fld := ⟨1, 1⟩
def F.RS_EVT_OPT_RESTART : Fld := ⟨2, 1⟩
def F.RS_EVT_RUN_DONE : Fld := ⟨3, 1⟩
def R.RS_SEQ : Nat := 0x1018
def F.RS_SEQ_STEP : Fld := ⟨0, 4⟩
def F.RS_SEQ_HELD : Fld := ⟨4, 3⟩
def R.RS_WDT_CFG : Nat := 0x1020
def F.RS_WDT_CFG_EN : Fld := ⟨0, 1⟩
def F.RS_WDT_CFG_PAUSE : Fld := ⟨1, 1⟩
def F.RS_WDT_CFG_LIMIT : Fld := ⟨16, 16⟩
def R.RS_WDT_KICK : Nat := 0x1024
def F.RS_WDT_KICK_KEY : Fld := ⟨0, 16⟩
def R.RS_WDT_LEFT : Nat := 0x1028
def F.RS_WDT_LEFT_LEFT : Fld := ⟨0, 16⟩
def R.RS_SAFE : Nat := 0x1030
def F.RS_SAFE_REL : Fld := ⟨0, 8⟩
def F.RS_SAFE_LEVEL : Fld := ⟨8, 8⟩
def F.RS_SAFE_RUN_LOW : Fld := ⟨16, 8⟩
def R.RS_NFAULT : Nat := 0x1034
def F.RS_NFAULT_ASSERT : Fld := ⟨0, 1⟩
/-! Block PW: 15_power_reset_clocks.md. -/
def R.PW_ID : Nat := 0x1100
def F.PW_ID_VERSION : Fld := ⟨0, 8⟩
def F.PW_ID_NDOM : Fld := ⟨8, 5⟩
def R.PW_EVT : Nat := 0x1104
def F.PW_EVT_PHASE_FAIL : Fld := ⟨0, 1⟩
def F.PW_EVT_THERM_WARN : Fld := ⟨1, 1⟩
def F.PW_EVT_DOM_DONE : Fld := ⟨2, 1⟩
def F.PW_EVT_DOM_REFUSED : Fld := ⟨3, 1⟩
def F.PW_EVT_DRAIN_FORCED : Fld := ⟨4, 1⟩
def R.PW_STAT : Nat := 0x1108
def F.PW_STAT_PHASE_OK : Fld := ⟨0, 6⟩
def F.PW_STAT_PG : Fld := ⟨6, 1⟩
def R.PW_VIN : Nat := 0x110c
def F.PW_VIN_MV : Fld := ⟨0, 16⟩
def R.PW_TEMP : Nat := 0x1110
def F.PW_TEMP_TJ : Fld := ⟨0, 16⟩
def R.PW_THERM : Nat := 0x1114
def F.PW_THERM_WARN : Fld := ⟨0, 8⟩
def R.PW_DOM_CMD : Nat := 0x1120
def F.PW_DOM_CMD_DOM : Fld := ⟨0, 5⟩
def F.PW_DOM_CMD_OP : Fld := ⟨8, 2⟩
def F.PW_DOM_CMD_GO : Fld := ⟨31, 1⟩
def R.PW_DOM_ERR : Nat := 0x1124
def F.PW_DOM_ERR_DOM : Fld := ⟨0, 5⟩
def F.PW_DOM_ERR_CODE : Fld := ⟨8, 4⟩
def R.PW_DOM_STAT (d : Nat) : Nat := 0x1140 + 4 * d
def F.PW_DOM_STAT_STATE : Fld := ⟨0, 3⟩
/-! Block CK: 15_power_reset_clocks.md. -/
def R.CK_ID : Nat := 0x1200
def F.CK_ID_VERSION : Fld := ⟨0, 8⟩
def R.CK_EVT : Nat := 0x1204
def F.CK_EVT_REF_LOSS : Fld := ⟨0, 1⟩
def F.CK_EVT_REF_BACK : Fld := ⟨1, 1⟩
def F.CK_EVT_ACLK_REFUSED : Fld := ⟨2, 1⟩
def F.CK_EVT_ACLK_LOCKED : Fld := ⟨3, 1⟩
def R.CK_STAT : Nat := 0x1208
def F.CK_STAT_REF_OK : Fld := ⟨0, 1⟩
def F.CK_STAT_HOLDOVER : Fld := ⟨1, 1⟩
def F.CK_STAT_ACLK_LOCK : Fld := ⟨2, 1⟩
def F.CK_STAT_GRADE : Fld := ⟨3, 1⟩
def R.CK_ACLK : Nat := 0x120c
def F.CK_ACLK_N : Fld := ⟨0, 5⟩
/-! Block HX: 16_hx_compatibility.md. -/
def R.HX_ID : Nat := 0x6c0000
def F.HX_ID_VERSION : Fld := ⟨0, 8⟩
def R.HX_CTRL : Nat := 0x6c0004
def F.HX_CTRL_BLK_RST : Fld := ⟨0, 1⟩
def R.HX_EVT : Nat := 0x6c0008
def F.HX_EVT_CAP : Fld := ⟨0, 8⟩
def F.HX_EVT_CNT_ERR : Fld := ⟨8, 1⟩
def F.HX_EVT_INDEX : Fld := ⟨9, 1⟩
def F.HX_EVT_WRAP : Fld := ⟨10, 1⟩
def F.HX_EVT_PROG : Fld := ⟨11, 1⟩
def F.HX_EVT_CFG_ERR : Fld := ⟨12, 1⟩
def F.HX_EVT_IRQ : Fld := ⟨13, 1⟩
def R.HX_CFG : Nat := 0x6c000c
def F.HX_CFG_PACE : Fld := ⟨0, 1⟩
def F.HX_CFG_PAD : Fld := ⟨1, 1⟩
def R.HX_STAT : Nat := 0x6c0010
def F.HX_STAT_HX_MODE : Fld := ⟨0, 1⟩
def F.HX_STAT_PROG_BUSY : Fld := ⟨1, 1⟩
def F.HX_STAT_MIXED : Fld := ⟨2, 1⟩
def F.HX_STAT_RESULT : Fld := ⟨4, 4⟩
def R.HX_COMPAT_REPORT : Nat := 0x6c0014
def F.HX_COMPAT_REPORT_ENTRIES : Fld := ⟨0, 12⟩
def F.HX_COMPAT_REPORT_REFUSED : Fld := ⟨12, 1⟩
def F.HX_COMPAT_REPORT_FRAMES : Fld := ⟨16, 11⟩
def R.HX_MIX_CFG : Nat := 0x6c0020
def F.HX_MIX_CFG_EN : Fld := ⟨0, 1⟩
def F.HX_MIX_CFG_PATH : Fld := ⟨1, 1⟩
def F.HX_MIX_CFG_AXIS : Fld := ⟨2, 3⟩
def F.HX_MIX_CFG_MBASE : Fld := ⟨5, 4⟩
def F.HX_MIX_CFG_SLOT_HI : Fld := ⟨9, 1⟩
def F.HX_MIX_CFG_OUT_BASE : Fld := ⟨10, 7⟩
def R.HX_MIX_IN : Nat := 0x6c0024
def F.HX_MIX_IN_IN_A : Fld := ⟨0, 7⟩
def F.HX_MIX_IN_IN_B : Fld := ⟨8, 7⟩
def F.HX_MIX_IN_IN_Z : Fld := ⟨16, 7⟩
def R.HX_MIX_Q : Nat := 0x6c0028
def F.HX_MIX_Q_Q_REQ : Fld := ⟨0, 10⟩
def F.HX_MIX_Q_Q_RSP : Fld := ⟨10, 10⟩
def F.HX_MIX_Q_CHAN : Fld := ⟨20, 5⟩
def F.HX_MIX_Q_LAT : Fld := ⟨25, 7⟩
def R.HX_MAP (i : Nat) : Nat := 0x6c1000 + 4 * i
def F.HX_MAP_VALUE : Fld := ⟨0, 16⟩
/-! Block GL: 18_address_map.md. -/
def R.GL_ID : Nat := 0
def F.GL_ID_PART : Fld := ⟨0, 16⟩
def F.GL_ID_STEPPING : Fld := ⟨16, 8⟩
def R.GL_STAT : Nat := 4
def F.GL_STAT_MODE : Fld := ⟨0, 1⟩
def F.GL_STAT_BOOT : Fld := ⟨1, 2⟩
def F.GL_STAT_CLKSEL : Fld := ⟨3, 1⟩
def F.GL_STAT_GRADE : Fld := ⟨4, 1⟩
def F.GL_STAT_RDP : Fld := ⟨5, 2⟩
def F.GL_STAT_UNTRIMMED : Fld := ⟨7, 1⟩
def R.GL_SCRATCH : Nat := 8
def F.GL_SCRATCH_DATA : Fld := ⟨0, 32⟩

end Sys2Proof.Machine
end

