-- ==== Sys2Proof/Machine/Bits.lean ====
section
/-! DEFINITION. Bit fields, sign extension, rounding and saturation: the arithmetic that every block shares.
Values are computed exactly in Nat or Int and narrowed at the end. -/

namespace Sys2Proof.Machine

/-- The value of a field of a register (R4: bit 0 is the least significant). -/
def Fld.get (f : Fld) (v : Word) : Nat := (v.toNat >>> f.lo) % 2 ^ f.w

/-- The register with a field replaced by the low bits of `x`. -/
def Fld.put (f : Fld) (v : Word) (x : Nat) : Word :=
  BitVec.ofNat 32 (v.toNat - (f.get v <<< f.lo) + ((x % 2 ^ f.w) <<< f.lo))

/-- A field of one bit, read as a flag. -/
def Fld.bit (f : Fld) (v : Word) : Bool := f.get v != 0

/-- Bits `lo .. lo+w-1` of a number. -/
def bitsOf (x lo w : Nat) : Nat := (x >>> lo) % 2 ^ w

/-- The two's-complement value of the low `w` bits of `x`. -/
def sext (w x : Nat) : Int :=
  let y := x % 2 ^ w
  if 2 * y < 2 ^ w then (y : Int) else (y : Int) - (2 ^ w : Nat)

/-- The low `w` bits of an integer, as a number. -/
def trunc (w : Nat) (i : Int) : Nat := (i % (2 ^ w : Nat)).toNat

/-- An integer narrowed into a signed `w`-bit range by saturation. -/
def satS (w : Nat) (i : Int) : Int :=
  let m : Int := (2 ^ (w - 1) : Nat)
  if i ≥ m then m - 1 else if i < -m then -m else i

/-- A number held at a ceiling (saturating counters). -/
def satN (m x : Nat) : Nat := if x ≤ m then x else m

/-- `num / den` rounded to nearest, ties away from zero (R33); `den` positive. -/
def rndDiv (num : Int) (den : Nat) : Int :=
  if num ≥ 0 then (2 * num + den) / (2 * den : Nat) else -((2 * (-num) + den) / (2 * den : Nat))

/-- Integer square root, rounded down (bit by bit; `fuel` bits of result). -/
def isqrtGo (x : Nat) : Nat → Nat → Nat
  | 0, r => r
  | k + 1, r => if (r + 2 ^ k) * (r + 2 ^ k) ≤ x then isqrtGo x k (r + 2 ^ k) else isqrtGo x k r

/-- Integer square root of a number below 2^64. -/
def isqrt (x : Nat) : Nat := isqrtGo x 33 0

/-- The number of ones among the low `w` bits. -/
def popc : Nat → Nat → Nat
  | 0, _ => 0
  | w + 1, x => x % 2 + popc w (x / 2)

/-- Leading zeros of a `w`-bit number. -/
def clz (w x : Nat) : Nat := if x % 2 ^ w = 0 then w else w - 1 - Nat.log2 (x % 2 ^ w)

/-- A 32-bit word from a number. -/
def w32 (x : Nat) : Word := BitVec.ofNat 32 x

/-- One flag as a number. -/
def b2n (b : Bool) : Nat := if b then 1 else 0

/-- A number with bit `i` set. -/
def setBit (x i : Nat) : Nat := x ||| (1 <<< i)

/-- A number with bit `i` cleared. -/
def clrBit (x i : Nat) : Nat := if x.testBit i then x - (1 <<< i) else x

/-- `x` with the bits of `m` cleared (both below 2^32 or wider). -/
def andNot (x m : Nat) : Nat := x - (x &&& m)

/-- Is bit `i` of a word set? -/
def wbit (v : Word) (i : Nat) : Bool := v.toNat.testBit i

/-- Indices of the set bits among the low `w` bits, ascending. -/
def bitList (w x : Nat) : List Nat := (List.range w).filter (fun i => x.testBit i)

/-- The list with element `i` replaced. -/
def setAt {α : Type} (l : List α) (i : Nat) (v : α) : List α := l.set i v

/-- One bit of a reflected CRC of 32 bits. -/
def crcStep (poly : Nat) : Nat → Nat → Nat
  | 0, c => c
  | n + 1, c => crcStep poly n (if c % 2 = 1 then (c / 2) ^^^ poly else c / 2)

/-- A reflected CRC-32 over bytes: initial value and final complement all ones. -/
def crc32 (poly : Nat) (l : List Byte) : Nat :=
  (l.foldl (fun c b => crcStep poly 8 (c ^^^ b.toNat)) 0xFFFFFFFF) ^^^ 0xFFFFFFFF

/-- CRC-32C (R276). -/
def crc32c (l : List Byte) : Nat := crc32 0x82F63B78 l

/-- Bytes of a number, least significant first (R4). -/
def bytesLE : Nat → Nat → List Byte
  | 0, _ => []
  | n + 1, x => BitVec.ofNat 8 x :: bytesLE n (x / 256)

/-- The number that bytes spell, least significant first (R4). -/
def ofBytesLE : List Byte → Nat
  | [] => 0
  | b :: r => b.toNat + 256 * ofBytesLE r

end Sys2Proof.Machine
end

