-- ==== Sys2Proof/Machine/PacketOps.lean ====
section
/-! DEFINITION. The header of a network packet (Table NW-3) and the shape of its response (Table NW-4). -/

namespace Sys2Proof.Machine

/-- The index of N(x,y) (R194). -/
def nodeIx (x y : Nat) : Nat := 12 * y + x

/-- Even parity of a number's low 32 bits. -/
def parity32 (x : Nat) : Nat := popc 32 x % 2

end Sys2Proof.Machine

namespace Sys2Proof
open Machine

/-- A packet's destination node and source node. -/
def Packet.dst (p : Packet) : Nat := nodeIx p.dstX.toNat p.dstY.toNat
def Packet.src (p : Packet) : Nat := nodeIx p.srcX.toNat p.srcY.toNat

/-- Header bits [247:0] as a number (Table NW-3). -/
def Packet.body (p : Packet) : Nat :=
  let w0 := p.dstX.toNat + 2 ^ 4 * p.dstY.toNat + 2 ^ 8 * p.dstPort.toNat + 2 ^ 12 * p.srcX.toNat + 2 ^ 16 * p.srcY.toNat
    + 2 ^ 20 * p.srcPort.toNat + 2 ^ 24 * p.vc.toNat + 2 ^ 26 * b2n p.dl + 2 ^ 27 * b2n p.dirx + 2 ^ 28 * b2n p.diry
  let w1 := p.cmd.toNat + 2 ^ 8 * p.tag.toNat + 2 ^ 18 * p.len.toNat + 2 ^ 23 * b2n p.esc + 2 ^ 24 * p.urg.toNat
    + 2 ^ 28 * p.age.toNat
  let w2 := p.partner.toNat + 2 ^ 10 * p.status.toNat
  w0 + 2 ^ 32 * w1 + 2 ^ 64 * w2 + 2 ^ 96 * p.addr.toNat + 2 ^ 160 * p.be.toNat + 2 ^ 192 * p.pstamp.toNat

/-- The header unit as a number (Table NW-3). -/
def Packet.header (p : Packet) : Nat := p.body + 2 ^ 248 * p.par.toNat

/-- The parity bits that agree with a header (Table NW-3): even parity of each 32-bit word, of [247:224] in the last. -/
def Packet.evenPar (p : Packet) : BitVec 8 :=
  BitVec.ofNat 8 ((List.range 8).foldl (fun a i => a + 2 ^ i * parity32 (bitsOf p.body (32 * i) 32)) 0)

/-- Do all eight parity bits agree (R200)? -/
def Packet.parOk (p : Packet) : Bool := p.par == p.evenPar

/-- A header with its parity written (R200). -/
def Packet.sealed (p : Packet) : Packet := { p with par := p.evenPar }

/-- A header that a router has changed from `old` (R200): the parity of the words it changed computed again, the other bits kept. -/
def Packet.resealed (p old : Packet) : Packet :=
  { p with par := BitVec.ofNat 8 ((List.range 8).foldl (fun a i =>
      let changed := bitsOf p.body (32 * i) 32 != bitsOf old.body (32 * i) 32
      a + 2 ^ i * b2n (if changed then p.evenPar.getLsbD i else old.par.getLsbD i)) 0) }

/-- A header bit upset on its way (R200). A reserved bit has no field: its upset shows in the parity alone. -/
def Packet.upset (p : Packet) (b : Nat) : Packet :=
  let x := p.header ^^^ 2 ^ b
  let f := fun (lo n : Nat) => bitsOf x lo n
  let q : Packet :=
    { dstX := BitVec.ofNat 4 (f 0 4), dstY := BitVec.ofNat 4 (f 4 4), dstPort := BitVec.ofNat 4 (f 8 4),
      srcX := BitVec.ofNat 4 (f 12 4), srcY := BitVec.ofNat 4 (f 16 4), srcPort := BitVec.ofNat 4 (f 20 4),
      vc := BitVec.ofNat 2 (f 24 2), dl := x.testBit 26, dirx := x.testBit 27, diry := x.testBit 28,
      cmd := BitVec.ofNat 8 (f 32 8), tag := BitVec.ofNat 10 (f 40 10), len := BitVec.ofNat 5 (f 50 5), esc := x.testBit 55,
      urg := BitVec.ofNat 4 (f 56 4), age := BitVec.ofNat 4 (f 60 4), partner := BitVec.ofNat 10 (f 64 10),
      status := BitVec.ofNat 6 (f 74 6), addr := BitVec.ofNat 48 (f 96 48), be := BitVec.ofNat 32 (f 160 32),
      pstamp := BitVec.ofNat 32 (f 192 32), par := BitVec.ofNat 8 (f 248 8), bad := p.bad, data := p.data }
  if q.header = x then q else { q with par := q.par ^^^ BitVec.ofNat 8 (2 ^ (b / 32)) }

/-- The response to a request (R201, R202): source and destination swapped, the requester's tag. -/
def Packet.reply (p : Packet) (status : Nat) (data : List (BitVec 256)) : Packet :=
  let c := p.cmd.toNat
  let rc : Nat := if c = 0x01 ∨ c = 0x03 ∨ c = 0x04 then 0x20 else if c = 0x31 ∨ c = 0x32 then 0x33 else 0x21
  { dstX := p.srcX, dstY := p.srcY, dstPort := p.srcPort, srcX := p.dstX, srcY := p.dstY, srcPort := p.dstPort,
    vc := if rc = 0x33 then 3 else 1, dl := false, dirx := false, diry := false, cmd := BitVec.ofNat 8 rc, tag := p.tag,
    len := BitVec.ofNat 5 data.length, esc := false, urg := p.urg, age := 0, partner := p.partner,
    status := BitVec.ofNat 6 status, addr := p.addr, be := 0, pstamp := 0, par := 0, bad := false, data := data }

/-- How many data units the response to a request carries (Table NW-4). -/
def Packet.replyUnits (p : Packet) : Nat :=
  let c := p.cmd.toNat
  if c = 0x01 then p.len.toNat else if c = 0x03 ∨ c = 0x04 ∨ c = 0x31 then 1 else 0

end Sys2Proof
end

