-- ==== Sys2Proof/Machine/AddrMap.lean ====
section
/-! DEFINITION. The BAR0 blocks (18_address_map.md, R503, Table AM-1): index in SC_FW_REG, node, power domain. -/

namespace Sys2Proof.Machine

/-- First offset past each block of Table AM-1, in order of index. -/
def blockEnds : List Nat :=
  [0x1000, 0x10000, 0x20000, 0x40000, 0x100000, 0x200000, 0x300000, 0x340000, 0x380000, 0x400000, 0x500000, 0x540000,
   0x550000, 0x560000, 0x580000, 0x600000, 0x640000, 0x660000, 0x680000, 0x6A0000, 0x6C0000, 0x6D0000, 0x6E0000, 0x6F0000]

/-- The block of a BAR0 offset; 24 at or above 0x6F_0000. -/
def blockOf (off : Nat) : Nat := (blockEnds.filter (fun e => decide (e ≤ off))).length

/-- The node that serves a block. -/
def blockNode (b : Nat) : Nat :=
  match b with
  | 0 => nodeIx 6 9 | 1 => nodeIx 6 9 | 2 => nodeIx 5 0 | 3 => nodeIx 5 0 | 4 => nodeIx 5 0 | 5 => nodeIx 8 0 | 6 => nodeIx 8 0
  | 7 => nodeIx 7 9 | 8 => nodeIx 7 9 | 9 => nodeIx 7 9 | 10 => nodeIx 0 0 | 11 => nodeIx 4 0 | 12 => nodeIx 7 0
  | 13 => nodeIx 3 0 | 14 => nodeIx 3 0 | 15 => nodeIx 1 0 | 16 => nodeIx 6 0 | 17 => nodeIx 3 9 | 18 => nodeIx 1 9
  | 19 => nodeIx 2 0 | 20 => nodeIx 9 0 | 21 => nodeIx 10 0 | 22 => nodeIx 8 9 | _ => nodeIx 7 0

/-- The power domain of a block's registers: YOKE for YK, MK and CF, FAB_W for the fabric (DEDUCED from Table PW-3, R263),
AON for RS, PW, CK, else CTL. -/
def blockDomain (b : Nat) : Nat :=
  match b with
  | 1 => 0 | 2 => 16 | 3 => 16 | 4 => 16 | 10 => 10 | _ => 1

/-- The node of the tile whose bank holds an SMB offset (R195, R223). -/
def smbNode (off : Nat) : Nat := off / 0x80000 + 12

end Sys2Proof.Machine
end

