-- ==== Sys2Proof/Config.lean ====
section
/-! DEFINITION. What the spec leaves open: free values. Each is an opaque constant without a body, so that nothing in
Lean can evaluate it and a statement about it holds for every value it may take. `State.freeCtr` counts their uses. -/

namespace Sys2Proof

/-- Whether an 18-bit angle takes the upper of the two neighbours of the true angle (R24 states no rounding). -/
opaque Config.arctanUp : Int → Int → Bool

/-- The mains tracker, whose dynamics R28 does not give: what it holds after a sample, from what it held, the loop bandwidth MAINS_BW, the
sample and its time in taps. -/
opaque Config.mainsNext : BitVec 64 → Nat → Int → Int → BitVec 64
/-- What the tracker shows of what it holds: whether its loop is settled, the amplitude of its input in sample units, its phase after the positive-going
zero crossing as a fraction of a period in 2^-32, and its frequency in 2^-16 Hz (R28, R29). -/
opaque Config.mainsSettled : BitVec 64 → Bool
opaque Config.mainsAmp : BitVec 64 → Nat
opaque Config.mainsPhase : BitVec 64 → BitVec 32
opaque Config.mainsFreq : BitVec 64 → BitVec 32

/-- The lane width, 32, 16 or 8 bits, under the reserved code 3 of W, by operation: Table AR-7 gives none, and Table PL-2 does not make such a Pleat
not valid. -/
opaque Config.reservedWidth : Nat → Fin 3

/-- The destination that ROUTE takes for an index past its named destinations (R122 states none). -/
opaque Config.routePick : Nat → Nat

/-- The reset value of the fabric's flip-flops under an image, by its header, in words of the shadow plane (R246): which bits of an image
give it no rule says. -/
opaque Config.ffInit : List Byte → Nat → BitVec 32

/-- The flip-flops of one configuration region on one user clock under an image: a mask for each word of the shadow plane. -/
opaque Config.ffClocked : List Byte → Nat → Nat → Nat → BitVec 32

/-- What the image's logic makes of its flip-flops, in words of the shadow plane. -/
opaque Config.ffLogic : Nat → List (BitVec 32)

/-- Where a flip-flop drives the output register of a user I/O ball under an image: its clock, and the level and enable that it gives in
reset (R265); none where logic forms the output. -/
opaque Config.outFf : List Byte → Nat → Option (Nat × Bool × Bool)

/-- The clock region whose serial blocks act in a cycle of the user logic. -/
opaque Config.serialAt : Nat → Nat
/-- What happens there, as a number (Machine.SerEvent.of). -/
opaque Config.serialDoes : Nat → Nat

/-- How many beats of a write were done that the SM block reset met at a bank port (R235: any prefix). -/
opaque Config.beatsDone : Nat → Nat

/-- The rows of each bank that the factory fuse map replaces (R238). -/
opaque Config.fuseRows : Nat → List Nat

/-- The contents, but for ERR, of a queue entry whose word in the ring buffer is uncorrectable or poisoned (no rule states them). -/
opaque Config.badEntry : Nat → Nat

/-- How many YCLK a number of cycles of the user clock of an outbound fabric port, by queue, lasts beyond one each: the image names the
clock (R261), which runs to 500 MHz (R250), and its form is not given. -/
opaque Config.userYclk : Nat → Nat → Nat

/-- The data of a stored word that is uncorrectable or poisoned, where a register returns it (no rule states it). -/
opaque Config.badWord : Nat → Word

/-- The data units of a response that carries an error status (R202 gives the status only). -/
opaque Config.errUnit : Nat → BitVec 256

/-- The Starter ROM, whose contents the spec does not give (R404, R408). -/
opaque Config.romByte : Nat → Byte

/-- What RDCR of a number that Table CC-1 does not list returns. -/
opaque Config.csrValue : Nat → Word

/-- The factory's OTP words: unique ID, device-unique secret, factory data (R319), and the grade fuse (R449). -/
opaque Config.otpFactory : Nat → Word
opaque Config.gradeI2 : Bool

/-- SHA-384 and HMAC-SHA-384 (key, message), whose algorithms are those of the standards that R334 names. -/
opaque Config.sha384 : List Byte → BitVec 384
opaque Config.hmac384 : List Byte → List Byte → BitVec 384
/-- RSASSA-PSS and SLH-DSA verification (public key, message, signature) and signing by identity (message) (R336, R337, R340). -/
opaque Config.rsaVerify : List Byte → List Byte → List Byte → Bool
opaque Config.slhVerify : List Byte → List Byte → List Byte → Bool
opaque Config.rsaSign : Nat → List Byte → List Byte
opaque Config.slhSign : Nat → List Byte → List Byte
/-- The entropy source (R334, R349). -/
opaque Config.entropy : Nat → Word
/-- A word of a sector left partly erased, and its syndrome (R317). -/
opaque Config.partErased : Nat → BitVec 64
opaque Config.partErasedSyn : Nat → BitVec 8
/-- What an OTP bit reads as when a loss of core power-good cuts its pulse (R322). -/
opaque Config.otpCut : Nat → Bool
/-- Whether the identity store, of these bytes, passes its authentication (R340 gives no layout). -/
opaque Config.idStoreOk : List Byte → Bool
/-- The identity public keys, RSA then SLH-DSA, that an identity store of these bytes holds (R340 gives no layout). -/
opaque Config.idPublic : List Byte → List Byte
/-- A w register at a start of the core (R390). -/
opaque Config.startReg : Nat → Word

/-- The detail code of a FOLD_AT whose fold a reset of the fold unit removes (R362 and Table PL-7 state none). -/
opaque Config.foldFlush : Nat → Nat
/-- Which exit of a group's serves the stream of a STREAM_IN, where it has several (R364, R424). -/
opaque Config.streamExit : Nat → Nat
/-- Which way a half tap of LC_PORT_DLY or LC_PORT_OFS is rounded (R377). -/
opaque Config.halfUp : Nat → Bool

/-- The neighbour to which the HX view's SPEED is rounded (R471 states no rounding). -/
opaque Config.hxSpeedUp : Int → Bool
/-- The HX-1130 image's own CRC (R476), and the translation of an image of these halfwords: whether it fits, the frames it takes, the KIND 3
image without its seal, the compatibility report (R477, R479). -/
opaque Config.hxCrcOk : List (BitVec 16) → Bool
opaque Config.hxFits : List (BitVec 16) → Bool
opaque Config.hxFrames : List (BitVec 16) → Nat
opaque Config.hxImage : List (BitVec 16) → List Byte
opaque Config.hxReport : List (BitVec 16) → List Byte
/-- A halfword past the end of the HX area's report (R479). -/
opaque Config.hxPast : Nat → BitVec 16

end Sys2Proof
end

