-- ==== Sys2Proof/Machine/RegMap.lean ====
section
/-! DEFINITION. The register map as data: for every register (or array of registers) of the spec's register maps its access
masks (R5), its reset value and the masks of the bits that each reset reach returns to it (R6, R7). A field written "W1S … clears
itself" is a command: it holds no bit, so no mask here names it; a WO field holds none either. -/

namespace Sys2Proof.Machine

/-- One register, or one array of registers, of a register map.
The element with indices i < n0 and j < n1 lies at `base + s0 * i + s1 * j`; a single register has n0 = n1 = 1. -/
structure RegDesc where
  base : Nat
  n0 : Nat
  s0 : Nat
  n1 : Nat
  s1 : Nat
  /-- bits a write stores (RW) -/
  rw : Nat
  /-- bits that a written 1 clears (W1C) -/
  w1c : Nat
  /-- bits that a written 1 sets and that stay set (W1S) -/
  ws : Nat
  /-- bits that a read clears (RC) -/
  rc : Nat
  /-- the reset value -/
  rst : Nat
  /-- bits cleared by Block and every wider reach -/
  blk : Nat
  /-- bits whose narrowest clearing reach is Run -/
  run : Nat
  /-- bits whose narrowest clearing reach is Warm -/
  warm : Nat
  /-- bits cleared by Cold alone -/
  cold : Nat
deriving DecidableEq, Repr

/-- Register map of block YK (01_yoke_position_base.md). -/
def regTabYK : List RegDesc := [
  ⟨0x10000, 1, 4, 1, 0, 0, 0, 0, 0, 0x802, 0, 0, 0, 0⟩,  -- YK_ID
  ⟨0x10004, 1, 4, 1, 0, 0, 0, 0, 0, 0, 3, 0, 0, 0⟩,  -- YK_CTRL
  ⟨0x10008, 1, 4, 1, 0, 0, 0, 0, 0, 0, 0, 0, 0xffffffff, 0⟩,  -- YK_TIME_LO
  ⟨0x1000c, 1, 4, 1, 0, 0, 0, 0, 0, 0, 0, 0, 0xffffffff, 0⟩,  -- YK_TIME_HI
  ⟨0x10010, 1, 4, 1, 0, 0, 0, 0, 0, 0, 0xffffff, 0, 0x80000000, 0⟩,  -- YK_STATUS
  ⟨0x10014, 1, 4, 1, 0, 0, 0xffffffff, 0, 0, 0, 0xffffffff, 0, 0, 0⟩,  -- YK_EVT
  ⟨0x10018, 1, 4, 1, 0, 0, 0xff, 0, 0, 0, 0xff, 0, 0, 0⟩,  -- YK_CFG_ERR
  ⟨0x10020, 1, 4, 1, 0, 0xffff, 0, 0, 0, 0x8000, 0, 0, 0xffff, 0⟩,  -- YK_TDC_SCALE
  ⟨0x10040, 1, 4, 1, 0, 0xffffffff, 0, 0, 0, 0, 0xffffffff, 0, 0, 0⟩,  -- YK_LACE_ADJ
  ⟨0x10100, 8, 8, 1, 0, 0xffffffff, 0, 0, 0, 0, 0xffffffff, 0, 0, 0⟩,  -- YK_SC_OFS
  ⟨0x10104, 8, 8, 1, 0, 0xffffffff, 0, 0, 0, 0x4000, 0xffffffff, 0, 0, 0⟩,  -- YK_SC_GAIN
  ⟨0x10200, 128, 4, 1, 0, 0xff, 0, 0, 0, 0, 0, 0, 0xff, 0⟩,  -- YK_CUFF_ADJ
  ⟨0x11000, 8, 0x100, 1, 0, 0x800000ff, 0, 0, 0, 0, 0x800000ff, 0, 0, 0⟩,  -- YK_AX_CFG
  ⟨0x11004, 8, 0x100, 1, 0, 0xf77f7f7f, 0, 0, 0, 0, 0xf77f7f7f, 0, 0, 0⟩,  -- YK_AX_IN
  ⟨0x11008, 8, 0x100, 1, 0, 0xffff07ff, 0, 0, 0, 0xf0400000, 0xffff07ff, 0, 0, 0⟩,  -- YK_AX_FILT
  ⟨0x1100c, 8, 0x100, 1, 0, 0xffff07ff, 0, 0, 0, 0x3100000d, 0xffff07ff, 0, 0, 0⟩,  -- YK_AX_SSI
  ⟨0x11010, 8, 0x100, 1, 0, 0xffffffff, 0, 0, 0, 0x2710, 0xffffffff, 0, 0, 0⟩,  -- YK_AX_SSI_T
  ⟨0x11014, 8, 0x100, 1, 0, 0xffffffff, 0, 0, 0, 0x2aab8000, 0xffffffff, 0, 0, 0⟩,  -- YK_AX_GAIN
  ⟨0x11018, 8, 0x100, 1, 0, 0xffffffff, 0, 0, 0, 0x10000, 0xffffffff, 0, 0, 0⟩,  -- YK_AX_HYST
  ⟨0x1101c, 8, 0x100, 1, 0, 0xffffffff, 0, 0, 0, 0x7a120, 0xffffffff, 0, 0, 0⟩,  -- YK_AX_LOSS_TMO
  ⟨0x11020, 8, 0x100, 1, 0, 0xffffffff, 0, 0, 0, 0, 0xffffffff, 0, 0, 0⟩,  -- YK_AX_VTHR
  ⟨0x11024, 8, 0x100, 1, 0, 0xffffffff, 0, 0, 0, 0, 0xffffffff, 0, 0, 0⟩,  -- YK_AX_HOLD_TMO
  ⟨0x11028, 8, 0x100, 1, 0, 0xffffff, 0, 0, 0, 0x803, 0xffffff, 0, 0, 0⟩,  -- YK_AX_LOSSCFG
  ⟨0x11030, 8, 0x100, 1, 0, 0xffffffff, 0, 0, 0, 0, 0xffffffff, 0, 0, 0⟩,  -- YK_AX_MOD_LO
  ⟨0x11034, 8, 0x100, 1, 0, 0xffffffff, 0, 0, 0, 0, 0xffffffff, 0, 0, 0⟩,  -- YK_AX_MOD_HI
  ⟨0x11038, 8, 0x100, 1, 0, 0xffffffff, 0, 0, 0, 0, 0xffffffff, 0, 0, 0⟩,  -- YK_AX_ZVAL_LO
  ⟨0x1103c, 8, 0x100, 1, 0, 0xffffffff, 0, 0, 0, 0, 0xffffffff, 0, 0, 0⟩,  -- YK_AX_ZVAL_HI
  ⟨0x11040, 8, 0x100, 1, 0, 0xffffffff, 0, 0, 0, 0, 0xffffffff, 0, 0, 0⟩,  -- YK_AX_RATE_LO
  ⟨0x11044, 8, 0x100, 1, 0, 0xff, 0, 0, 0, 0, 0xff, 0, 0, 0⟩,  -- YK_AX_RATE_HI
  ⟨0x11048, 8, 0x100, 1, 0, 0x1073f, 0, 0, 0, 0, 0x1073f, 0, 0, 0⟩,  -- YK_AX_LACE
  ⟨0x11050, 8, 0x100, 1, 0, 0xffffffff, 0, 0, 0, 0, 0xffffffff, 0, 0, 0⟩,  -- YK_AX_SWPOS_LO
  ⟨0x11054, 8, 0x100, 1, 0, 0xffffffff, 0, 0, 0, 0, 0xffffffff, 0, 0, 0⟩,  -- YK_AX_SWPOS_HI
  ⟨0x11058, 8, 0x100, 1, 0, 0xffffffff, 0, 0, 0, 0, 0xffffffff, 0, 0, 0⟩,  -- YK_AX_SWVEL_LO
  ⟨0x1105c, 8, 0x100, 1, 0, 0xff, 0, 0, 0, 0, 0xff, 0, 0, 0⟩,  -- YK_AX_SWVEL_HI
  ⟨0x11060, 8, 0x100, 1, 0, 0, 0, 0, 0, 0, 0xf, 0, 0, 0⟩,  -- YK_AX_CMD
  ⟨0x11080, 8, 0x100, 1, 0, 0, 0, 0, 0, 0, 0xffffffff, 0, 0, 0⟩,  -- YK_AX_POS_LO
  ⟨0x11084, 8, 0x100, 1, 0, 0, 0, 0, 0, 0, 0xffffffff, 0, 0, 0⟩,  -- YK_AX_POS_HI
  ⟨0x11088, 8, 0x100, 1, 0, 0, 0, 0, 0, 0, 0xffffffff, 0, 0, 0⟩,  -- YK_AX_VEL_LO
  ⟨0x1108c, 8, 0x100, 1, 0, 0, 0, 0, 0, 0, 0xffffffff, 0, 0, 0⟩,  -- YK_AX_VEL_HI
  ⟨0x11090, 8, 0x100, 1, 0, 0, 0, 0, 0, 0, 0xff, 0, 0, 0⟩,  -- YK_AX_STAT
  ⟨0x11094, 8, 0x100, 1, 0, 0, 0, 0, 0, 0, 0xffffffff, 0, 0, 0⟩,  -- YK_AX_TURNS
  ⟨0x11098, 8, 0x100, 1, 0, 0, 0, 0, 0, 0, 0xffffffff, 0, 0, 0⟩,  -- YK_AX_REACQ_ERR
  ⟨0x1109c, 8, 0x100, 1, 0, 0, 0, 0, 0xffffffff, 0, 0xffffffff, 0, 0, 0⟩]  -- YK_AX_ERRCNT

/-- Register map of block MK (02_marks_and_cuffs.md). -/
def regTabMK : List RegDesc := [
  ⟨0x20000, 1, 4, 1, 0, 0, 0, 0, 0, 0x40001, 0, 0, 0, 0⟩,  -- MK_ID
  ⟨0x20004, 1, 4, 1, 0, 0, 0, 0, 0, 0, 3, 0, 0, 0⟩,  -- MK_CTRL
  ⟨0x20008, 1, 4, 1, 0, 0, 0x1ffffff, 0, 0, 0, 0x1ffffff, 0, 0, 0⟩,  -- MK_EVT
  ⟨0x2000c, 1, 4, 1, 0, 0, 0, 0, 0, 0, 0xf3ff, 0, 0, 0⟩,  -- MK_CFG_ERR
  ⟨0x20100, 8, 4, 1, 0, 3, 0, 0, 0, 0, 3, 0, 0, 0⟩,  -- MK_AX_CFG
  ⟨0x20120, 8, 4, 1, 0, 0, 0, 0, 0, 0, 0x7ffffff, 0, 0, 0⟩,  -- MK_AX_STAT
  ⟨0x20200, 16, 0x10, 1, 0, 0xffffffff, 0, 0, 0, 0, 0xffffffff, 0, 0, 0⟩,  -- MK_TMASK_W0
  ⟨0x20204, 16, 0x10, 1, 0, 0xffffffff, 0, 0, 0, 0, 0xffffffff, 0, 0, 0⟩,  -- MK_TMASK_W1
  ⟨0x20208, 16, 0x10, 1, 0, 0xffffffff, 0, 0, 0, 0, 0xffffffff, 0, 0, 0⟩,  -- MK_TMASK_W2
  ⟨0x20800, 16, 0x80, 1, 0, 0, 3, 0, 0, 0, 0xff7ff3, 0, 0, 0⟩,  -- MK_CAP_STAT
  ⟨0x20804, 16, 0x80, 1, 0, 0, 0, 0, 0, 0, 0xffffffff, 0, 0, 0⟩,  -- MK_CAP_TIME_LO
  ⟨0x20808, 16, 0x80, 1, 0, 0, 0, 0, 0, 0, 0x7fffff, 0, 0, 0⟩,  -- MK_CAP_TIME_HI
  ⟨0x20810, 16, 0x80, 8, 8, 0, 0, 0, 0, 0, 0xffffffff, 0, 0, 0⟩,  -- MK_CAP_POS_LO
  ⟨0x20814, 16, 0x80, 8, 8, 0, 0, 0, 0, 0, 0xffffffff, 0, 0, 0⟩,  -- MK_CAP_POS_HI
  ⟨0x28000, 1024, 0x20, 1, 0, 0xffffffff, 0, 0, 0, 0, 0xffffffff, 0, 0, 0⟩,  -- MK_ENT_CTL
  ⟨0x28004, 1024, 0x20, 1, 0, 0xffffffff, 0, 0, 0, 0, 0xffffffff, 0, 0, 0⟩,  -- MK_ENT_POS_LO
  ⟨0x28008, 1024, 0x20, 1, 0, 0xffffffff, 0, 0, 0, 0, 0xffffffff, 0, 0, 0⟩,  -- MK_ENT_POS_HI
  ⟨0x28010, 1024, 0x20, 1, 0, 0xffffffff, 0, 0, 0, 0, 0xffffffff, 0, 0, 0⟩,  -- MK_ENT_PER_LO
  ⟨0x28014, 1024, 0x20, 1, 0, 0xffffffff, 0, 0, 0, 0, 0xffffffff, 0, 0, 0⟩,  -- MK_ENT_PER_HI
  ⟨0x2800c, 1024, 0x20, 1, 0, 0xffffffff, 0, 0, 0, 0, 0xffffffff, 0, 0, 0⟩,  -- MK_ENT_HYST
  ⟨0x28018, 1024, 0x20, 1, 0, 0xffffffff, 0, 0, 0, 0, 0xffffffff, 0, 0, 0⟩,  -- MK_ENT_ARG0
  ⟨0x2801c, 1024, 0x20, 1, 0, 0xffffffff, 0, 0, 0, 0, 0xffffffff, 0, 0, 0⟩,  -- MK_ENT_ARG1
  ⟨0x30000, 1024, 0x10, 1, 0, 0, 0, 0, 0, 0, 0xffffff3f, 0, 0, 0⟩,  -- MK_STAT
  ⟨0x30004, 1024, 0x10, 1, 0, 0, 0, 0, 0, 0, 0xffffffff, 0, 0, 0⟩,  -- MK_NEXT_LO
  ⟨0x30008, 1024, 0x10, 1, 0, 0, 0, 0, 0, 0, 0xffffffff, 0, 0, 0⟩,  -- MK_NEXT_HI
  ⟨0x3000c, 1024, 0x10, 1, 0, 0, 0, 0, 0, 0, 0xffffffff, 0, 0, 0⟩]  -- MK_FIRES

/-- Register map of block CF (02_marks_and_cuffs.md). -/
def regTabCF : List RegDesc := [
  ⟨0x40000, 1, 4, 1, 0, 0, 0, 0, 0, 0x8001, 0, 0, 0, 0⟩,  -- CF_ID
  ⟨0x40004, 1, 4, 1, 0, 0, 0, 0, 0, 0, 1, 0, 0, 0⟩,  -- CF_CTRL
  ⟨0x40008, 1, 4, 1, 0, 0, 0xf, 0, 0, 0, 0xf, 0, 0, 0⟩,  -- CF_EVT
  ⟨0x40010, 1, 4, 1, 0, 0xffff, 0, 0, 0, 0x8000, 0, 0, 0xffff, 0⟩,  -- CF_TAP_CAL
  ⟨0x40100, 128, 4, 1, 0, 0xff7f3fff, 0, 0, 0, 0, 0xff7f3fff, 0, 0, 0⟩,  -- CF_CFG
  ⟨0x40300, 128, 4, 1, 0, 0xff, 0, 0, 0, 0, 0, 0, 0xff, 0⟩,  -- CF_OUT_ADJ
  ⟨0x40500, 128, 4, 1, 0, 0, 0, 0, 0xffff00, 0, 0xffff1f, 0, 0, 0⟩]  -- CF_STAT

/-- Register map of block AR (03_array.md). -/
def regTabAR : List RegDesc := [
  ⟨0x100000, 1, 4, 1, 0, 0, 0, 0, 0, 0x283001, 0, 0, 0, 0⟩,  -- AR_ID
  ⟨0x100004, 1, 4, 1, 0, 0xa, 0, 0, 0, 0, 0xf, 0, 0, 0⟩,  -- AR_CTRL
  ⟨0x100008, 1, 4, 1, 0, 0, 0x1f, 0, 0, 0, 0x1f, 0, 0, 0⟩,  -- AR_EVT
  ⟨0x10000c, 1, 4, 1, 0, 0, 0, 0, 0, 0, 0xf, 0, 0, 0⟩,  -- AR_CFG_ERR
  ⟨0x100010, 1, 4, 1, 0, 0x7f7f, 0, 0, 0, 0, 0, 0, 0, 0x7f7f⟩,  -- AR_COLMAP
  ⟨0x100014, 1, 4, 1, 0, 0xffff, 0, 0, 0, 0x1000, 0xffff, 0, 0, 0⟩,  -- AR_LM_WAIT
  ⟨0x100018, 1, 4, 1, 0, 0, 0, 0, 0xffffffff, 0, 0xffffffff, 0, 0, 0⟩,  -- AR_ERRCNT
  ⟨0x10001c, 1, 4, 1, 0, 0, 0, 0, 0, 0, 0xf1f3f, 0, 0, 0⟩,  -- AR_ERR_LOC
  ⟨0x100020, 1, 4, 1, 0, 0x1f0f1f3f, 0, 0, 0, 0, 0x1f0f1f3f, 0, 0, 0⟩,  -- AR_PE_SEL
  ⟨0x100024, 1, 4, 1, 0, 0xffffffff, 0, 0, 0, 0, 0xffffffff, 0, 0, 0⟩,  -- AR_PE_DATA
  ⟨0x100028, 1, 4, 1, 0, 0, 0, 0, 0, 0, 0x1f, 0, 0, 0⟩,  -- AR_PE_CMD
  ⟨0x100100, 16, 4, 1, 0, 7, 0, 0, 0, 0, 7, 0, 0, 0⟩,  -- AR_EXP_CFG
  ⟨0x100140, 16, 4, 1, 0, 0, 0, 0, 0, 0, 0xffffffff, 0, 0, 0⟩,  -- AR_EXP_IN
  ⟨0x100180, 16, 4, 1, 0, 0, 0, 0, 0, 0, 0xffffffff, 0, 0, 0⟩,  -- AR_EXP_OUT
  ⟨0x100200, 32, 4, 1, 0, 0, 0, 0, 0, 0, 0x7f7f, 0, 0, 0⟩,  -- AR_WPORT_STAT
  ⟨0x100280, 32, 4, 1, 0, 0, 0, 0, 0, 0, 0x7f7f, 0, 0, 0⟩,  -- AR_EPORT_STAT
  ⟨0x100400, 96, 4, 1, 0, 3, 0, 0, 0, 2, 3, 0, 0, 0⟩]  -- AR_TILE_CFG

/-- Register map of block PL (04_pleats_and_folds.md). -/
def regTabPL : List RegDesc := [
  ⟨0x200000, 1, 4, 1, 0, 0, 0, 0, 0, 0x21001, 0, 0, 0, 0⟩,  -- PL_ID
  ⟨0x200004, 1, 4, 1, 0, 0, 0, 0, 0, 0, 3, 0, 0, 0⟩,  -- PL_CTRL
  ⟨0x200008, 1, 4, 1, 0, 0, 0x3ff, 0, 0, 0, 0x3ff, 0, 0, 0⟩,  -- PL_EVT
  ⟨0x20000c, 1, 4, 1, 0, 0, 0, 0, 0, 0, 0x7fffff, 0, 0, 0⟩,  -- PL_FOLD_ERR
  ⟨0x200010, 1, 4, 1, 0, 0xffffffff, 0, 0, 0, 0, 0xffffffff, 0, 0, 0⟩,  -- PL_FOLD_MASK_W0
  ⟨0x200014, 1, 4, 1, 0, 0xffffffff, 0, 0, 0, 0, 0xffffffff, 0, 0, 0⟩,  -- PL_FOLD_MASK_W1
  ⟨0x200018, 1, 4, 1, 0, 0xffffffff, 0, 0, 0, 0, 0xffffffff, 0, 0, 0⟩,  -- PL_FOLD_MASK_W2
  ⟨0x20001c, 1, 4, 1, 0, 0, 0, 0, 0, 0, 0x8000001f, 0, 0, 0⟩,  -- PL_FOLD_CMD
  ⟨0x200020, 1, 4, 1, 0, 0, 0, 0, 0, 0, 0xfff003ff, 0, 0, 0⟩,  -- PL_FOLD_STAT
  ⟨0x200024, 1, 4, 1, 0, 0xffffffff, 0, 0, 0, 0x100000, 0xffffffff, 0, 0, 0⟩,  -- PL_WAVE_TMO
  ⟨0x200028, 1, 4, 1, 0, 0, 0, 0, 0xffffffff, 0, 0xffffffff, 0, 0, 0⟩,  -- PL_ERRCNT
  ⟨0x200030, 1, 4, 1, 0, 0x7ff03ff, 0, 0, 0, 0, 0, 0, 0x7ff03ff, 0⟩,  -- PL_LIB_CFG
  ⟨0x200040, 1, 4, 1, 0, 0xffffffff, 0, 0, 0, 0, 0xffffffff, 0, 0, 0⟩,  -- PL_LOAD_MASK_W0
  ⟨0x200044, 1, 4, 1, 0, 0xffffffff, 0, 0, 0, 0, 0xffffffff, 0, 0, 0⟩,  -- PL_LOAD_MASK_W1
  ⟨0x200048, 1, 4, 1, 0, 0xffffffff, 0, 0, 0, 0, 0xffffffff, 0, 0, 0⟩,  -- PL_LOAD_MASK_W2
  ⟨0x20004c, 1, 4, 1, 0, 0, 0, 0, 0, 0, 0x800f03ff, 0, 0, 0⟩,  -- PL_LOAD_CMD
  ⟨0x200050, 1, 4, 1, 0, 0, 0, 0, 0, 0, 0x3fffffff, 0, 0, 0⟩,  -- PL_LOAD_STAT
  ⟨0x200060, 1, 4, 1, 0, 0x7f1f3f, 0, 0, 0, 0, 0x7f1f3f, 0, 0, 0⟩,  -- PL_WSEL
  ⟨0x200064, 1, 4, 1, 0, 0xffffffff, 0, 0, 0, 0, 0xffffffff, 0, 0, 0⟩,  -- PL_WDATA
  ⟨0x200068, 1, 4, 1, 0, 0, 0, 0, 0, 0, 0x1f, 0, 0, 0⟩,  -- PL_WCMD
  ⟨0x200100, 8, 4, 1, 0, 0x80000f1f, 0, 0, 0, 0, 0x80000f1f, 0, 0, 0⟩,  -- PL_FSTRB
  ⟨0x200200, 16, 0x10, 1, 0, 0xffffffff, 0, 0, 0, 0, 0xffffffff, 0, 0, 0⟩,  -- PL_GMASK_W0
  ⟨0x200204, 16, 0x10, 1, 0, 0xffffffff, 0, 0, 0, 0, 0xffffffff, 0, 0, 0⟩,  -- PL_GMASK_W1
  ⟨0x200208, 16, 0x10, 1, 0, 0xffffffff, 0, 0, 0, 0, 0xffffffff, 0, 0, 0⟩,  -- PL_GMASK_W2
  ⟨0x200300, 16, 4, 1, 0, 0, 0, 0, 0, 0, 0x7fffff1, 0, 0, 0⟩,  -- PL_WAVE_STAT
  ⟨0x200400, 96, 4, 1, 0, 0xf, 0, 0, 0, 0, 0, 0, 0xf, 0⟩,  -- PL_HOME
  ⟨0x200600, 96, 4, 1, 0, 0, 0, 0, 0, 0, 0, 0xffff0000, 0xffff, 0⟩,  -- PL_TILE_STAT
  ⟨0x200800, 96, 4, 1, 0, 0, 0, 0, 0, 0, 0, 0xffff, 0, 0⟩,  -- PL_TILE_LOAD
  ⟨0x201000, 1536, 4, 1, 0, 0, 0, 0, 0, 0, 0, 0x1f, 0xffff00, 0⟩]  -- PL_PE_ACT

/-- Register map of block SQ (05_stream_ports_and_queues.md). -/
def regTabSQ : List RegDesc := [
  ⟨0x300000, 1, 4, 1, 0, 0, 0, 0, 0, 0x40001, 0, 0, 0, 0⟩,  -- SQ_ID
  ⟨0x300004, 1, 4, 1, 0, 0, 0, 0, 0, 0, 1, 0, 0, 0⟩,  -- SQ_CTRL
  ⟨0x300008, 1, 4, 1, 0, 0, 0x3f, 0, 0, 0, 0x3f, 0, 0, 0⟩,  -- SQ_EVT
  ⟨0x30000c, 1, 4, 1, 0, 0, 0, 0, 0, 0, 0xffff, 0, 0, 0⟩,  -- SQ_CFG_ERR
  ⟨0x300010, 1, 4, 1, 0, 0xffffff, 0, 0, 0, 0x10000, 0, 0, 0xffffff, 0⟩,  -- SQ_FLUSH_TMO
  ⟨0x300100, 37, 4, 1, 0, 0, 0xffffffff, 0, 0, 0, 0, 0xffffffff, 0, 0⟩,  -- SQ_THR_PEND
  ⟨0x310000, 1024, 0x40, 1, 0, 0x1f07, 0, 0, 0, 0xc02, 0, 0, 0x1f07, 0⟩,  -- SQ_Q_CFG
  ⟨0x310004, 1024, 0x40, 1, 0, 0x3fff000, 0, 0, 0, 0, 0, 0, 0x3fff000, 0⟩,  -- SQ_Q_BASE
  ⟨0x310008, 1024, 0x40, 1, 0, 0xffffffff, 0, 0, 0, 0, 0, 0, 0xffffffff, 0⟩,  -- SQ_Q_BIND
  ⟨0x31000c, 1024, 0x40, 1, 0, 0x1fffff, 0, 0, 0, 0, 0, 0, 0x1fffff, 0⟩,  -- SQ_Q_LIMIT
  ⟨0x310010, 1024, 0x40, 1, 0, 0x7fffff, 0, 0, 0, 0, 0, 0, 0x7fffff, 0⟩,  -- SQ_Q_THR
  ⟨0x310014, 1024, 0x40, 1, 0, 0xffff, 0, 0, 0, 1, 0, 0xffff0000, 0xffff, 0⟩,  -- SQ_Q_KICK
  ⟨0x310018, 1024, 0x40, 1, 0, 0, 0, 0, 0, 0, 0, 0xfffffff, 0, 0⟩,  -- SQ_Q_STAT
  ⟨0x31001c, 1024, 0x40, 1, 0, 0, 0, 0, 0, 0, 0, 0x1fffff, 0, 0⟩,  -- SQ_Q_ITEMS
  ⟨0x310020, 1024, 0x40, 1, 0, 0, 0, 0, 0, 0, 1, 0, 0, 0⟩,  -- SQ_Q_CMD
  ⟨0x320000, 136, 0x10, 1, 0, 0x3ff, 0, 0, 0, 0, 0, 0, 0x3ff, 0⟩,  -- SQ_PQ_THR
  ⟨0x320004, 136, 0x10, 1, 0, 0, 0, 0, 0, 0, 0, 0x1fff, 0, 0⟩,  -- SQ_PQ_STAT
  ⟨0x320008, 136, 0x10, 1, 0, 0, 0, 0, 0, 0, 1, 0, 0, 0⟩,  -- SQ_PQ_CMD
  ⟨0x330000, 8, 0x20, 1, 0, 0xffffffff, 0, 0, 0, 0x7c, 0, 0, 0xffffffff, 0⟩,  -- SQ_SP_CFG
  ⟨0x330004, 8, 0x20, 1, 0, 0x7fffffff, 0, 0, 0, 0, 0, 0, 0x7fffffff, 0⟩,  -- SQ_SP_DLY
  ⟨0x330008, 8, 0x20, 1, 0, 0xffffffff, 0, 0, 0, 0xf0a5, 0, 0, 0xffffffff, 0⟩,  -- SQ_SP_SYNC
  ⟨0x33000c, 8, 0x20, 1, 0, 0, 0, 0, 0, 0, 1, 0, 0, 0⟩,  -- SQ_SP_CMD
  ⟨0x330010, 8, 0x20, 1, 0, 0, 0, 0, 0xffff0000, 0, 0, 0xffff0000, 0x3f, 0⟩]  -- SQ_SP_STAT

/-- Register map of block EN (05_stream_ports_and_queues.md). -/
def regTabEN : List RegDesc := [
  ⟨0x660000, 1, 4, 1, 0, 0, 0, 0, 0, 0x100401, 0, 0, 0, 0⟩,  -- EN_ID
  ⟨0x660004, 1, 4, 1, 0, 0, 0, 0, 0, 0, 3, 0, 0, 0⟩,  -- EN_CTRL
  ⟨0x660010, 1, 4, 1, 0, 0x3fffffff, 0, 0, 0, 0, 0, 0, 0x3fffffff, 0⟩,  -- EN_PTP_NS
  ⟨0x660014, 1, 4, 1, 0, 0xffffffff, 0, 0, 0, 0, 0, 0, 0xffffffff, 0⟩,  -- EN_PTP_SEC_LO
  ⟨0x660018, 1, 4, 1, 0, 0xffff, 0, 0, 0, 0, 0, 0, 0xffff, 0⟩,  -- EN_PTP_SEC_HI
  ⟨0x66001c, 1, 4, 1, 0, 0xffffffff, 0, 0, 0, 0x2000000, 0, 0, 0xffffffff, 0⟩,  -- EN_PTP_INC
  ⟨0x660020, 1, 4, 1, 0, 0, 0, 0, 0, 0, 0xffffffff, 0, 0, 0⟩,  -- EN_PTP_STEP
  ⟨0x660100, 4, 0x40, 1, 0, 0x3ffffff, 0, 0, 0, 0, 0, 0, 0x3ffffff, 0⟩,  -- EN_PORT_CFG
  ⟨0x660104, 4, 0x40, 1, 0, 0, 0, 0, 0xffff00, 0, 7, 0xffff00, 0, 0⟩,  -- EN_PORT_STAT
  ⟨0x660108, 4, 0x40, 1, 0, 0, 0, 0, 0xffffffff, 0, 0, 0xffffffff, 0, 0⟩,  -- EN_RXCNT
  ⟨0x66010c, 4, 0x40, 1, 0, 0, 0, 0, 0xffffffff, 0, 0, 0xffffffff, 0, 0⟩,  -- EN_RXDROP
  ⟨0x660110, 4, 0x40, 1, 0, 0xffffffff, 0, 0, 0, 0, 0, 0, 0xffffffff, 0⟩,  -- EN_TSADJ
  ⟨0x660114, 4, 0x40, 1, 0, 0, 0, 0, 0xbfffffff, 0, 0, 0xbfffffff, 0, 0⟩,  -- EN_TXTS_NS
  ⟨0x660118, 4, 0x40, 1, 0, 0, 0, 0, 0, 0, 0, 0xffffffff, 0, 0⟩,  -- EN_TXTS_SEC
  ⟨0x661000, 256, 0x10, 1, 0, 0xfffff, 0, 0, 0, 0, 0, 0, 0xfffff, 0⟩,  -- EN_RULE_CFG
  ⟨0x661004, 256, 0x10, 1, 0, 0xffffffff, 0, 0, 0, 0, 0, 0, 0xffffffff, 0⟩,  -- EN_RULE_DIP
  ⟨0x661008, 256, 0x10, 1, 0, 0xffffffff, 0, 0, 0, 0, 0, 0, 0xffffffff, 0⟩,  -- EN_RULE_SIP
  ⟨0x66100c, 256, 0x10, 1, 0, 0xfffffff, 0, 0, 0, 0, 0, 0, 0xfffffff, 0⟩]  -- EN_RULE_PORTS

/-- Register map of block NW (06_ring_network.md). -/
def regTabNW : List RegDesc := [
  ⟨0x340000, 1, 4, 1, 0, 0, 0, 0, 0, 0xac01, 0, 0, 0, 0⟩,  -- NW_ID
  ⟨0x340004, 1, 4, 1, 0, 3, 0, 0, 0, 3, 0, 0, 3, 0⟩,  -- NW_CTRL
  ⟨0x340008, 1, 4, 1, 0, 0, 0x1ff, 0, 0, 0, 0, 0x1f8, 7, 0⟩,  -- NW_EVT
  ⟨0x34000c, 1, 4, 1, 0, 0xffffffff, 0, 0, 0, 0x100000, 0, 0, 0xffffffff, 0⟩,  -- NW_RSP_TMO
  ⟨0x340010, 1, 4, 1, 0, 0, 0, 0, 0, 0, 0, 0xfff77f, 0, 0⟩,  -- NW_ERR_LOG
  ⟨0x340014, 1, 4, 1, 0, 0xff037f, 0, 0, 0, 0, 0, 0, 0xff037f, 0⟩,  -- NW_TEST
  ⟨0x341000, 120, 4, 1, 0, 0xffffff, 0, 0, 0, 0, 0, 0, 0xffffff, 0⟩,  -- NW_RDIR
  ⟨0x341200, 120, 4, 1, 0, 0xfffff, 0, 0, 0, 0, 0, 0, 0xfffff, 0⟩,  -- NW_CDIR
  ⟨0x341400, 120, 4, 1, 0, 1, 0, 0, 0, 0, 0, 0, 0, 1⟩,  -- NW_NODE_CTL
  ⟨0x341600, 120, 4, 1, 0, 0, 0, 0, 0, 0xf, 0, 0, 0x3fff, 0⟩,  -- NW_NODE_STAT
  ⟨0x341800, 120, 4, 1, 0, 0, 0, 0, 0xffffffff, 0, 0, 0xffffffff, 0, 0⟩]  -- NW_LINK_ERR

/-- Register map of block DB (06_ring_network.md). -/
def regTabDB : List RegDesc := [
  ⟨0x6d0000, 1, 4, 1, 0, 0, 0, 0, 0, 0x1001, 0, 0, 0, 0⟩,  -- DB_ID
  ⟨0x6d0004, 1, 4, 1, 0, 2, 0, 0, 0, 0, 3, 0, 0, 0⟩,  -- DB_CTRL
  ⟨0x6d0008, 1, 4, 1, 0, 0, 3, 0, 0, 0, 0, 3, 0, 0⟩,  -- DB_EVT
  ⟨0x6d0010, 1, 4, 1, 0, 0x7ff, 0, 0, 0, 0x302, 0, 0, 0x7ff, 0⟩,  -- DB_TRC_CFG
  ⟨0x6d0014, 1, 4, 1, 0, 0x3fff000, 0, 0, 0, 0, 0, 0, 0x3fff000, 0⟩,  -- DB_TRC_BASE
  ⟨0x6d0018, 1, 4, 1, 0, 0, 0, 0, 0, 0, 0, 0x1ffffff, 0, 0⟩,  -- DB_TRC_WPTR
  ⟨0x6d001c, 1, 4, 1, 0, 0, 0, 0, 0xffffffff, 0, 0, 0xffffffff, 0, 0⟩,  -- DB_TRC_DROP
  ⟨0x6d1000, 16, 0x100, 1, 0, 0x7ffff, 0, 0, 0, 0, 0, 0, 0x7ffff, 0⟩,  -- DB_PRB_CFG
  ⟨0x6d1004, 16, 0x100, 1, 0, 0xffffffff, 0, 0, 0, 0, 0, 0, 0xffffffff, 0⟩,  -- DB_PRB_BASE
  ⟨0x6d1008, 16, 0x100, 1, 0, 0xffffffff, 0, 0, 0, 0, 0, 0, 0xffffffff, 0⟩,  -- DB_PRB_VAL_W0
  ⟨0x6d100c, 16, 0x100, 1, 0, 0xffffffff, 0, 0, 0, 0, 0, 0, 0xffffffff, 0⟩,  -- DB_PRB_VAL_W1
  ⟨0x6d1010, 16, 0x100, 1, 0, 0xffffffff, 0, 0, 0, 0, 0, 0, 0xffffffff, 0⟩,  -- DB_PRB_VAL_W2
  ⟨0x6d1014, 16, 0x100, 1, 0, 0xffffffff, 0, 0, 0, 0, 0, 0, 0xffffffff, 0⟩,  -- DB_PRB_MASK_W0
  ⟨0x6d1018, 16, 0x100, 1, 0, 0xffffffff, 0, 0, 0, 0, 0, 0, 0xffffffff, 0⟩,  -- DB_PRB_MASK_W1
  ⟨0x6d101c, 16, 0x100, 1, 0, 0xffffffff, 0, 0, 0, 0, 0, 0, 0xffffffff, 0⟩,  -- DB_PRB_MASK_W2
  ⟨0x6d1020, 16, 0x100, 1, 0, 0xffffffff, 0, 0, 0, 0, 0, 0, 0xffffffff, 0⟩,  -- DB_PRB_ALO_LO
  ⟨0x6d1024, 16, 0x100, 1, 0, 0xffff, 0, 0, 0, 0, 0, 0, 0xffff, 0⟩,  -- DB_PRB_ALO_HI
  ⟨0x6d1028, 16, 0x100, 1, 0, 0xffffffff, 0, 0, 0, 0, 0, 0, 0xffffffff, 0⟩,  -- DB_PRB_AHI_LO
  ⟨0x6d102c, 16, 0x100, 1, 0, 0xffff, 0, 0, 0, 0, 0, 0, 0xffff, 0⟩,  -- DB_PRB_AHI_HI
  ⟨0x6d1030, 16, 0x100, 1, 0, 0, 0, 0, 0, 0, 1, 0, 0, 0⟩,  -- DB_PRB_CMD
  ⟨0x6d1034, 16, 0x100, 1, 0, 0, 0, 0, 0, 0, 0, 0xffffffff, 0, 0⟩,  -- DB_PRB_PKTS
  ⟨0x6d1038, 16, 0x100, 1, 0, 0, 0, 0, 0, 0, 0, 0xffffffff, 0, 0⟩,  -- DB_PRB_BYTES_LO
  ⟨0x6d103c, 16, 0x100, 1, 0, 0, 0, 0, 0, 0, 0, 0xffff, 0, 0⟩,  -- DB_PRB_BYTES_HI
  ⟨0x6d1040, 16, 0x100, 16, 4, 0, 0, 0, 0, 0, 0, 0xffffffff, 0, 0⟩]  -- DB_PRB_HIST

/-- Register map of block SM (07_stream_memory.md). -/
def regTabSM : List RegDesc := [
  ⟨0x380000, 1, 4, 1, 0, 0, 0, 0, 0, 0x6001, 0, 0, 0, 0⟩,  -- SM_ID
  ⟨0x380004, 1, 4, 1, 0, 2, 0, 0, 0, 0, 1, 0, 2, 0⟩,  -- SM_CTRL
  ⟨0x380008, 1, 4, 1, 0, 0, 0x1ff, 0, 0, 0, 0x1ff, 0, 0, 0⟩,  -- SM_EVT
  ⟨0x38000c, 1, 4, 1, 0, 0, 0, 0, 0xffffffff, 0, 0xffffffff, 0, 0, 0⟩,  -- SM_WL_CNT
  ⟨0x380010, 1, 4, 1, 0, 0x7ffffff, 0, 0, 0, 0, 0x7ffffff, 0, 0, 0⟩,  -- SM_FLIP_CFG
  ⟨0x380014, 1, 4, 1, 0, 0xffffffff, 0, 0, 0, 0, 0xffffffff, 0, 0, 0⟩,  -- SM_FLIP_MASK_W0
  ⟨0x380018, 1, 4, 1, 0, 0xffffffff, 0, 0, 0, 0, 0xffffffff, 0, 0, 0⟩,  -- SM_FLIP_MASK_W1
  ⟨0x38001c, 1, 4, 1, 0, 0xff, 0, 0, 0, 0, 0xff, 0, 0, 0⟩,  -- SM_FLIP_MASK_W2
  ⟨0x380020, 1, 4, 1, 0, 0xffff0003, 0, 0, 0, 0, 0xffff0003, 0, 0, 0⟩,  -- SM_SCR_CFG
  ⟨0x380024, 1, 4, 1, 0, 0xffffffff, 0, 0, 0, 0, 0xffffffff, 0, 0, 0⟩,  -- SM_SCR_START_LO
  ⟨0x380028, 1, 4, 1, 0, 0xffff, 0, 0, 0, 0, 0xffff, 0, 0, 0⟩,  -- SM_SCR_START_HI
  ⟨0x38002c, 1, 4, 1, 0, 0xffffffff, 0, 0, 0, 0, 0xffffffff, 0, 0, 0⟩,  -- SM_SCR_END_LO
  ⟨0x380030, 1, 4, 1, 0, 0xffff, 0, 0, 0, 0, 0xffff, 0, 0, 0⟩,  -- SM_SCR_END_HI
  ⟨0x380034, 1, 4, 1, 0, 0, 0, 0, 0, 0, 3, 0, 0, 0⟩,  -- SM_SCR_CMD
  ⟨0x380038, 1, 4, 1, 0, 0, 0, 0, 0, 0, 7, 0, 0, 0⟩,  -- SM_SCR_STAT
  ⟨0x38003c, 1, 4, 1, 0, 0, 0, 0, 0, 0, 0xffffffff, 0, 0, 0⟩,  -- SM_SCR_SUM_READ
  ⟨0x380040, 1, 4, 1, 0, 0, 0, 0, 0, 0, 0xffffffff, 0, 0, 0⟩,  -- SM_SCR_SUM_CE
  ⟨0x380044, 1, 4, 1, 0, 0, 0, 0, 0, 0, 0xffffffff, 0, 0, 0⟩,  -- SM_SCR_SUM_UE
  ⟨0x380048, 1, 4, 1, 0, 0, 0, 0, 0, 0, 0xffffffff, 0, 0, 0⟩,  -- SM_SCR_FIRST_LO
  ⟨0x38004c, 1, 4, 1, 0, 0, 0, 0, 0, 0, 0xffff, 0, 0, 0⟩,  -- SM_SCR_FIRST_HI
  ⟨0x380050, 1, 4, 1, 0, 0, 0, 0, 0, 0, 0xffffffff, 0, 0, 0⟩,  -- SM_SCR_LAST_LO
  ⟨0x380054, 1, 4, 1, 0, 0, 0, 0, 0, 0, 0xffff, 0, 0, 0⟩,  -- SM_SCR_LAST_HI
  ⟨0x380060, 1, 4, 1, 0, 0, 0, 0, 0, 0, 0x801fffff, 0, 0, 0⟩,  -- SM_REPAIR_CMD
  ⟨0x380064, 1, 4, 1, 0, 0, 0, 0, 0, 0, 0x1f, 0, 0, 0⟩,  -- SM_REPAIR_STAT
  ⟨0x38008c, 2, 4, 1, 0, 0xffff0001, 0, 0, 0, 1, 0, 0, 0xffff0001, 0⟩,  -- SM_BGS_CFG
  ⟨0x380100, 6, 4, 1, 0, 0, 0, 0, 0xffffffff, 0, 0, 0, 0xffffffff, 0⟩,  -- SM_CE_CNT
  ⟨0x380120, 6, 4, 1, 0, 0, 0, 0, 0xffffffff, 0, 0, 0, 0xffffffff, 0⟩,  -- SM_UE_CNT
  ⟨0x380140, 6, 4, 1, 0, 0, 0, 0, 0xffffffff, 0, 0, 0, 0xffffffff, 0⟩,  -- SM_LOG_OVF
  ⟨0x381000, 6, 0x100, 16, 16, 0, 1, 0, 0, 0, 0, 0, 0x7fffff7f, 0⟩,  -- SM_LOG_CTL
  ⟨0x381004, 6, 0x100, 16, 16, 0, 0, 0, 0, 0, 0, 0, 0x7ff, 0⟩,  -- SM_LOG_UNIT
  ⟨0x381008, 6, 0x100, 16, 16, 0, 0, 0, 0, 0, 0, 0, 0xffffff, 0⟩,  -- SM_LOG_ADDR
  ⟨0x382000, 96, 4, 1, 0, 0, 0, 0, 0, 0, 0, 0, 0, 0xf7f⟩,  -- SM_SPARE_STAT
  ⟨0x382200, 96, 8, 2, 4, 0, 0, 0, 0, 0, 0, 0, 0, 0x1fff⟩]  -- SM_SOFT_MAP

/-- Register map of block FB (08_logic_fabric.md). -/
def regTabFB : List RegDesc := [
  ⟨0x400000, 1, 4, 1, 0, 0, 0, 0, 0, 0xf0801, 0, 0, 0, 0⟩,  -- FB_ID
  ⟨0x400004, 1, 4, 1, 0, 0, 0, 0, 0, 0, 1, 0, 0, 0⟩,  -- FB_CTRL
  ⟨0x400008, 1, 4, 1, 0, 0, 0xff, 0, 0, 0, 0xff, 0, 0, 0⟩,  -- FB_EVT
  ⟨0x40000c, 1, 4, 1, 0, 0, 0, 0, 0, 0, 0, 0, 0xf, 0⟩,  -- FB_REL_STAT
  ⟨0x400100, 8, 4, 1, 0, 0x11f, 0, 0, 0, 0x100, 0, 0, 0x11f, 0⟩,  -- FB_TL_CFG
  ⟨0x400120, 1, 4, 1, 0, 0, 0, 0, 0, 0, 0x1f7f, 0, 0, 0⟩,  -- FB_TL_LOG
  ⟨0x400124, 1, 4, 1, 0, 0, 0, 0, 0xffffffff, 0, 0xffffffff, 0, 0, 0⟩,  -- FB_TL_CNT
  ⟨0x400130, 1, 4, 1, 0, 0, 0, 0, 0, 0, 0xfffff, 0, 0, 0⟩,  -- FB_BRAM_ERR
  ⟨0x400134, 1, 4, 1, 0, 0, 0, 0, 0xffffffff, 0, 0xffffffff, 0, 0, 0⟩,  -- FB_COLL_CNT
  ⟨0x400138, 1, 4, 1, 0, 0xffff, 0, 0, 0, 0x1000, 0, 0, 0xffff, 0⟩,  -- FB_UWIN_TMO
  ⟨0x400140, 1, 4, 1, 0, 0, 0xffff, 0, 0, 0, 0xffff, 0, 0, 0⟩,  -- FB_UEVT_PEND
  ⟨0x400400, 4, 0x20, 1, 0, 0xfffff, 0, 0, 0, 0x20001, 0, 0, 0xfffff, 0⟩,  -- FB_PLL_CFG
  ⟨0x400404, 4, 0x20, 6, 4, 0x80007f7f, 0, 0, 0, 0, 0, 0, 0x80007f7f, 0⟩,  -- FB_PLL_DIV
  ⟨0x40041c, 4, 0x20, 1, 0, 0, 0, 0, 0xff00, 0, 0, 0, 0xff01, 0⟩,  -- FB_PLL_STAT
  ⟨0x400600, 1, 4, 1, 0, 0xffff3f7f, 0, 0, 0, 0, 0xffff3f7f, 0, 0, 0⟩,  -- FB_CAP_CFG
  ⟨0x400604, 1, 4, 1, 0, 0, 0, 0, 0, 0, 3, 0, 0, 0⟩,  -- FB_CAP_CMD
  ⟨0x400608, 1, 4, 1, 0, 0, 0, 0, 0, 0, 3, 0, 0, 0⟩,  -- FB_CAP_STAT
  ⟨0x40060c, 1, 4, 1, 0, 0, 0, 0, 0, 0, 0xffffffff, 0, 0, 0⟩,  -- FB_CAP_TIME_LO
  ⟨0x400610, 1, 4, 1, 0, 0, 0, 0, 0, 0, 0x7fffff, 0, 0, 0⟩,  -- FB_CAP_TIME_HI
  ⟨0x400800, 4, 4, 1, 0, 0x80003fff, 0, 0, 0, 0, 0, 0, 0x80003fff, 0⟩,  -- FB_MPORT_CFG
  ⟨0x401000, 32, 0x10, 1, 0, 0xff3f, 0x30000, 0, 0, 0, 0xfff3f, 0, 0, 0⟩,  -- FB_TMR_CFG
  ⟨0x401004, 32, 0x10, 1, 0, 0, 0, 0, 0, 0, 0xffffffff, 0, 0, 0⟩,  -- FB_TMR_CNT
  ⟨0x401008, 32, 0x10, 1, 0, 0, 0, 0, 0, 0, 0xffffffff, 0, 0, 0⟩,  -- FB_TMR_CAP
  ⟨0x40100c, 32, 0x10, 1, 0, 0xffffffff, 0, 0, 0, 0xffffffff, 0xffffffff, 0, 0, 0⟩]  -- FB_TMR_CMP

/-- Register map of block CG (09_configuration.md). -/
def regTabCG : List RegDesc := [
  ⟨0x500000, 1, 4, 1, 0, 0, 0, 0, 0, 0x8ca0f01, 0, 0, 0, 0⟩,  -- CG_ID
  ⟨0x500004, 1, 4, 1, 0, 0, 0, 0, 0, 0, 0, 0, 3, 0⟩,  -- CG_CTRL
  ⟨0x500008, 1, 4, 1, 0, 0, 0x7ff, 0, 0, 0, 0, 0, 0x7ff, 0⟩,  -- CG_EVT
  ⟨0x50000c, 1, 4, 1, 0, 0, 0, 0, 0, 0, 0, 0x600, 0x1ff, 0⟩,  -- CG_STATUS
  ⟨0x500010, 1, 4, 1, 0, 0, 0, 0, 0, 0, 0, 0, 0xffffffff, 0⟩,  -- CG_RETRY_COUNT
  ⟨0x500014, 1, 4, 1, 0, 0, 0, 0, 0, 0, 0, 0, 0xffff003f, 0⟩,  -- CG_PROOF_ERR
  ⟨0x500020, 1, 4, 1, 0, 0x3fff000, 0, 0, 0, 0, 0, 0, 0x3fff000, 0⟩,  -- CG_HOST_BASE
  ⟨0x500024, 1, 4, 1, 0, 0, 0, 0, 0, 0, 0, 0, 1, 0⟩,  -- CG_HOST_CMD
  ⟨0x500028, 1, 4, 1, 0, 1, 0, 0, 0, 0, 0, 0, 1, 0⟩,  -- CG_START
  ⟨0x500030, 1, 4, 1, 0, 0xffffffff, 0, 0, 0, 0xffff, 0, 0, 0xffffffff, 0⟩,  -- CG_ICP_FENCE
  ⟨0x500034, 1, 4, 1, 0, 0xffffffff, 0, 0, 0, 0xffff, 0, 0, 0xffffffff, 0⟩,  -- CG_HOST_FENCE
  ⟨0x500038, 1, 4, 1, 0, 0, 0, 0, 0, 1, 0, 0, 1, 0⟩,  -- CG_ICP_POLICY
  ⟨0x500040, 1, 4, 1, 0, 0, 0, 0, 0, 0, 0, 0, 0xffff01ff, 0⟩,  -- CG_PL_STAT
  ⟨0x500044, 1, 4, 1, 0, 0xffffffff, 0, 0, 0, 0x1000000, 0, 0, 0xffffffff, 0⟩,  -- CG_PL_TMO
  ⟨0x500050, 1, 4, 1, 0, 0xffff0003, 0, 0, 0, 0xa0001, 0, 0, 0xffff0003, 0⟩,  -- CG_SCRUB_CFG
  ⟨0x500054, 1, 4, 1, 0, 0xffff, 0, 0, 0, 0x14, 0, 0, 0xffff, 0⟩,  -- CG_SCRUB_WDT
  ⟨0x500058, 1, 4, 1, 0, 0, 0, 0, 0, 0, 0, 0, 0xffff0003, 0⟩,  -- CG_SCRUB_STAT
  ⟨0x50005c, 1, 4, 1, 0, 0, 0, 0, 0xffffffff, 0, 0, 0, 0xffffffff, 0⟩,  -- CG_SCRUB_CNT
  ⟨0x500060, 1, 4, 1, 0, 0, 0, 0, 0xffffff, 0, 0, 0, 0xffffff, 0⟩,  -- CG_SCRUB_FIX
  ⟨0x500070, 1, 4, 1, 0, 0xffffff, 0, 0, 0, 0, 0, 0, 0xffffff, 0⟩,  -- CG_RB_SEL
  ⟨0x500074, 1, 4, 1, 0, 0, 0, 0, 0, 0, 0, 0, 0xffffffff, 0⟩,  -- CG_RB_DATA
  ⟨0x500078, 1, 4, 1, 0, 0, 0, 0, 0, 0, 0, 0, 0xf, 0⟩,  -- CG_RB_CMD
  ⟨0x500080, 1, 4, 1, 0, 0, 0, 0, 0, 0, 0, 0, 0x3ff0007, 0⟩,  -- CG_LIB_CMD
  ⟨0x500084, 1, 4, 1, 0, 0, 0, 0, 0, 0, 0, 0, 0x1ff000f, 0⟩,  -- CG_LIB_STAT
  ⟨0x500100, 15, 0x10, 1, 0, 0, 0, 0, 0, 0, 0, 0, 0xffffffff, 0⟩,  -- CG_REG_RANGE
  ⟨0x500104, 15, 0x10, 1, 0, 0, 0, 0, 0, 0, 0, 0, 0xf, 0⟩,  -- CG_REG_STAT
  ⟨0x500108, 15, 0x10, 1, 0, 0, 0, 0, 0, 0, 0, 0, 0xbfff, 0⟩]  -- CG_REG_LINING

/-- Register map of block FL (10_flash_otp_protection.md). -/
def regTabFL : List RegDesc := [
  ⟨0x540000, 1, 4, 1, 0, 0, 0, 0, 0, 0x4001, 0, 0, 0, 0⟩,  -- FL_ID
  ⟨0x540004, 1, 4, 1, 0, 8, 0, 0, 0, 8, 7, 0, 8, 0⟩,  -- FL_CTRL
  ⟨0x540008, 1, 4, 1, 0, 0, 0xf, 0, 0, 0, 0xf, 0, 0, 0⟩,  -- FL_EVT
  ⟨0x54000c, 1, 4, 1, 0, 0, 0, 0, 0, 0, 0xf3, 0, 0x300, 0⟩,  -- FL_STAT
  ⟨0x540010, 1, 4, 1, 0, 0x3ffffff, 0, 0, 0, 0, 0x3ffffff, 0, 0, 0⟩,  -- FL_ADDR
  ⟨0x540014, 1, 4, 1, 0, 0, 0, 0, 0, 0, 0x80007fff, 0, 0, 0⟩,  -- FL_CMD
  ⟨0x540018, 1, 4, 1, 0, 0, 0, 0, 0, 0, 0x3ffff, 0, 0, 0⟩,  -- FL_ERASE_PROGRESS
  ⟨0x54001c, 1, 4, 1, 0, 0, 0, 0, 0xffffffff, 0, 0, 0, 0xffffffff, 0⟩,  -- FL_ECC
  ⟨0x540020, 1, 4, 1, 0, 0, 0, 0, 0, 0, 0x3ffffff, 0, 0, 0⟩,  -- FL_ERR_ADDR
  ⟨0x540024, 1, 4, 1, 0, 0, 0, 0, 0, 0, 0, 0, 0, 0⟩,  -- FL_RDP_STAT
  ⟨0x540028, 1, 4, 1, 0, 0, 0, 0, 0, 0, 0, 0, 0xfff, 0xfffff000⟩,  -- FL_LOG_STAT
  ⟨0x541000, 256, 4, 1, 0, 0xffffffff, 0, 0, 0, 0, 0xffffffff, 0, 0, 0⟩]  -- FL_BUF

/-- Register map of block OT (10_flash_otp_protection.md). -/
def regTabOT : List RegDesc := [
  ⟨0x550000, 1, 4, 1, 0, 0, 0, 0, 0, 0x200001, 0, 0, 0, 0⟩,  -- OT_ID
  ⟨0x550004, 1, 4, 1, 0, 0, 0, 0, 0, 0, 0, 0, 0x1f, 0x7fe0⟩,  -- OT_STAT
  ⟨0x550008, 1, 4, 1, 0, 0xff, 0, 0, 0, 0, 0, 0, 0xff, 0⟩,  -- OT_WSEL
  ⟨0x55000c, 1, 4, 1, 0, 0xffffffff, 0, 0, 0, 0, 0, 0, 0xffffffff, 0⟩,  -- OT_WDATA
  ⟨0x550010, 1, 4, 1, 0, 0, 0, 0, 0, 0, 0, 0, 7, 0⟩,  -- OT_CMD
  ⟨0x550040, 4, 4, 1, 0, 0, 0, 0, 0, 0, 0, 0, 0, 0xffffffff⟩]  -- OT_UID

/-- Register map of block TR (10_flash_otp_protection.md). -/
def regTabTR : List RegDesc := [
  ⟨0x6e0000, 1, 4, 1, 0, 0, 0, 0, 0, 1, 0, 0, 0, 0⟩,  -- TR_ID
  ⟨0x6e0004, 1, 4, 1, 0, 0, 0, 0, 0, 0, 0, 0, 0x7ff, 0⟩,  -- TR_STAT
  ⟨0x6e0008, 1, 4, 1, 0, 0xffffffff, 0, 0, 0, 0x4000, 0, 0, 0xffffffff, 0⟩,  -- TR_TSENS
  ⟨0x6e000c, 1, 4, 1, 0, 0xffffffff, 0, 0, 0, 0x4000, 0, 0, 0xffffffff, 0⟩,  -- TR_VSENS
  ⟨0x6e0010, 1, 4, 1, 0, 0xffff, 0, 0, 0, 0, 0, 0, 0xffff, 0⟩,  -- TR_VIN
  ⟨0x6e0100, 16, 8, 1, 0, 0xffffffff, 0, 0, 0, 0x8100080, 0, 0, 0xffffffff, 0⟩,  -- TR_SERDES_LO
  ⟨0x6e0104, 16, 8, 1, 0, 0xffff, 0, 0, 0, 0x404, 0, 0, 0xffff, 0⟩]  -- TR_SERDES_HI

/-- Register map of block SC (11_signatures_and_two_party_control.md). -/
def regTabSC : List RegDesc := [
  ⟨0x560000, 1, 4, 1, 0, 0, 0, 0, 0, 1, 0, 0, 0, 0⟩,  -- SC_ID
  ⟨0x560004, 1, 4, 1, 0, 0, 0x3f, 0, 0, 0, 0, 0, 0x3f, 0⟩,  -- SC_EVT
  ⟨0x560008, 1, 4, 1, 0, 0, 0, 0, 0, 0xff, 0, 0, 0x3ff, 0⟩,  -- SC_STAT
  ⟨0x56000c, 1, 4, 1, 0, 0, 0, 0, 0, 0, 0, 0, 0x3ff, 0⟩,  -- SC_KEY_STAT
  ⟨0x560010, 1, 4, 1, 0, 0, 0, 0, 0, 0, 0, 0, 0xfff, 0⟩,  -- SC_DBG_STAT
  ⟨0x560014, 1, 4, 1, 0, 0, 0, 0, 0, 0, 0, 0, 0xffffffff, 0⟩,  -- SC_FW_DENY
  ⟨0x560018, 1, 4, 1, 0, 0, 0, 0, 0, 0, 0, 0, 0xffffffff, 0⟩,  -- SC_FW_DENY_ADDR
  ⟨0x560100, 1, 4, 1, 0, 0, 0, 0, 0, 0, 0, 0, 1, 0⟩,  -- SC_ATT_CMD
  ⟨0x560104, 1, 4, 1, 0, 0x3fff000, 0, 0, 0, 0, 0, 0, 0x3fff000, 0⟩,  -- SC_ATT_BASE
  ⟨0x560108, 1, 4, 1, 0, 0, 0, 0, 0, 0, 0, 0, 0xf, 0⟩,  -- SC_ATT_STAT
  ⟨0x560120, 8, 4, 1, 0, 0xffffffff, 0, 0, 0, 0, 0, 0, 0xffffffff, 0⟩,  -- SC_ATT_NONCE
  ⟨0x560200, 1, 4, 1, 0, 0, 0, 0, 0, 0, 0, 0, 7, 0⟩,  -- SC_TP_CMD
  ⟨0x560204, 1, 4, 1, 0, 0, 0, 0, 0, 0, 0, 0, 0x3ffffff3, 0⟩,  -- SC_TP_STAT
  ⟨0x560240, 12, 4, 1, 0, 0, 0, 0, 0, 0, 0, 0, 0xffffffff, 0⟩,  -- SC_TP_CHAL
  ⟨0x560280, 42, 4, 1, 0, 0xffffffff, 0, 0, 0, 0, 0, 0, 0xffffffff, 0⟩,  -- SC_TP_PROP
  ⟨0x560340, 12, 4, 1, 0, 0xffffffff, 0, 0, 0, 0, 0, 0, 0xffffffff, 0⟩,  -- SC_TP_CONS
  ⟨0x560400, 12, 4, 1, 0, 0, 0, 0, 0, 0, 0, 0, 0xffffffff, 0⟩,  -- SC_FW_DIG
  ⟨0x561000, 128, 4, 1, 0, 0xffffff, 0, 0, 0, 0, 0, 0, 0xffffff, 0⟩,  -- SC_PID_PART
  ⟨0x561200, 16, 0xc, 1, 0, 0x3fff, 0, 0, 0, 0, 0, 0, 0x3fff, 0⟩,  -- SC_FW_SMB_BASE
  ⟨0x561204, 16, 0xc, 1, 0, 0x3fff, 0, 0, 0, 0, 0, 0, 0x3fff, 0⟩,  -- SC_FW_SMB_LIMIT
  ⟨0x561208, 16, 0xc, 1, 0, 0x8000ffff, 0, 0, 0, 0, 0, 0, 0x8000ffff, 0⟩,  -- SC_FW_SMB_ACC
  ⟨0x5612c0, 24, 4, 1, 0, 0xffff, 0, 0, 0, 0, 0, 0, 0xffff, 0⟩,  -- SC_FW_REG
  ⟨0x561320, 16, 8, 1, 0, 0x3ff03ff, 0, 0, 0, 0, 0, 0, 0x3ff03ff, 0⟩,  -- SC_FW_FL_RANGE
  ⟨0x561324, 16, 8, 1, 0, 0x8000ffff, 0, 0, 0, 0, 0, 0, 0x8000ffff, 0⟩]  -- SC_FW_FL_ACC

/-- Register map of block HI (12_host_partners_events.md). -/
def regTabHI : List RegDesc := [
  ⟨0x580000, 1, 4, 1, 0, 0, 0, 0, 0, 0x10096, 0, 0, 0, 0⟩,  -- HI_ID
  ⟨0x580004, 1, 4, 1, 0, 0x3ff0000, 0, 0, 0, 0x10000, 0x3ff0001, 0, 0, 0⟩,  -- HI_CTRL
  ⟨0x580008, 1, 4, 1, 0, 0, 0x1ff, 0, 0, 0, 0x19f, 0, 0x60, 0⟩,  -- HI_EVT
  ⟨0x58000c, 1, 4, 1, 0, 0, 0, 0, 0, 0, 0, 0, 0x7f, 0⟩,  -- HI_LINK
  ⟨0x580010, 1, 4, 1, 0, 0x7f03ff, 0, 0, 0, 0x4b000a, 0, 0, 0x7f03ff, 0⟩,  -- HI_RSV_WIN
  ⟨0x580020, 1, 4, 1, 0, 0x3ff7fff, 0, 0, 0, 0, 0x3ff7fff, 0, 0, 0⟩,  -- HI_PT_REQ
  ⟨0x580024, 1, 4, 1, 0, 0, 0, 0, 0, 0, 3, 0, 0, 0⟩,  -- HI_PT_CMD
  ⟨0x580028, 1, 4, 1, 0, 0, 0, 0, 0, 0, 0xff03ff07, 0, 0, 0⟩,  -- HI_PT_RSP
  ⟨0x580030, 1, 4, 1, 0, 0xfffff7ff, 0, 0, 0, 0, 0xfffff7ff, 0, 0, 0⟩,  -- HI_RSV_REQ
  ⟨0x580034, 1, 4, 1, 0, 0xffffff, 0, 0, 0, 0, 0xffffff, 0, 0, 0⟩,  -- HI_RSV_RATE
  ⟨0x580038, 1, 4, 1, 0, 0, 0, 0, 0, 0, 0xff0003, 0, 0, 0⟩,  -- HI_RSV_CMD
  ⟨0x58003c, 1, 4, 1, 0, 0, 0, 0, 0, 0, 0xff03, 0, 0, 0⟩,  -- HI_RSV_RSP
  ⟨0x590000, 1024, 0x20, 1, 0, 0xffffffff, 0, 0, 0, 0, 0, 0xffffffff, 0, 0⟩,  -- HI_QP_SQ_BASE_LO
  ⟨0x590004, 1024, 0x20, 1, 0, 0xffffffff, 0, 0, 0, 0, 0, 0xffffffff, 0, 0⟩,  -- HI_QP_SQ_BASE_HI
  ⟨0x590008, 1024, 0x20, 1, 0, 0xffffffff, 0, 0, 0, 0, 0, 0xffffffff, 0, 0⟩,  -- HI_QP_CQ_BASE_LO
  ⟨0x59000c, 1024, 0x20, 1, 0, 0xffffffff, 0, 0, 0, 0, 0, 0xffffffff, 0, 0⟩,  -- HI_QP_CQ_BASE_HI
  ⟨0x590010, 1024, 0x20, 1, 0, 0x7fff, 0, 0, 0, 0x88, 0, 0x3ffffff, 0, 0⟩,  -- HI_QP_CFG
  ⟨0x590014, 1024, 0x20, 1, 0, 0, 0, 0, 0, 0, 0, 0xffff3f07, 0, 0⟩,  -- HI_QP_STAT
  ⟨0x5b0000, 1024, 4, 1, 0, 0, 0, 0, 0, 0, 0x1ffff, 0, 0xff000000, 0⟩,  -- HI_PT
  ⟨0x5b2000, 256, 0x10, 1, 0, 0, 0, 0, 0, 0, 0, 0xffffffff, 0, 0⟩,  -- HI_RSV_CFG
  ⟨0x5b2004, 256, 0x10, 1, 0, 0, 0, 0, 0, 0, 0, 0xffffffff, 0, 0⟩,  -- HI_RSV_ORDER
  ⟨0x5b2008, 256, 0x10, 1, 0, 0, 0, 0, 0xffffffff, 0, 0, 0xffffffff, 0, 0⟩,  -- HI_RSV_STAT
  ⟨0x5b200c, 256, 0x10, 1, 0, 0, 0, 0, 0, 0, 0, 0xffffff, 0, 0⟩,  -- HI_RSV_DEBT
  ⟨0x581000, 64, 0x10, 1, 0, 0xffffffff, 0, 0, 0, 0, 0, 0xffffffff, 0, 0⟩,  -- HI_MSIX_ADDR_LO
  ⟨0x581004, 64, 0x10, 1, 0, 0xffffffff, 0, 0, 0, 0, 0, 0xffffffff, 0, 0⟩,  -- HI_MSIX_ADDR_HI
  ⟨0x581008, 64, 0x10, 1, 0, 0xffffffff, 0, 0, 0, 0, 0, 0xffffffff, 0, 0⟩,  -- HI_MSIX_DATA
  ⟨0x58100c, 64, 0x10, 1, 0, 1, 0, 0, 0, 1, 0, 1, 0, 0⟩,  -- HI_MSIX_CTL
  ⟨0x581400, 2, 4, 1, 0, 0, 0, 0, 0, 0, 0, 0xffffffff, 0, 0⟩]  -- HI_MSIX_PBA

/-- Register map of block LC (12_host_partners_events.md). -/
def regTabLC : List RegDesc := [
  ⟨0x640000, 1, 4, 1, 0, 0, 0, 0, 0, 1, 0, 0, 0, 0⟩,  -- LC_ID
  ⟨0x640004, 1, 4, 1, 0, 1, 0, 0, 0, 0, 0, 0, 1, 0⟩,  -- LC_CFG
  ⟨0x640008, 1, 4, 1, 0, 0, 0, 0, 0, 0, 0, 0, 3, 0⟩,  -- LC_CMD
  ⟨0x64000c, 1, 4, 1, 0, 0, 0xfff, 0, 0, 0, 0, 0, 0xfff, 0⟩,  -- LC_EVT
  ⟨0x640010, 1, 4, 1, 0, 0, 0, 0, 0, 0x3f, 0, 0, 0x7fff, 0⟩,  -- LC_STAT
  ⟨0x640014, 1, 4, 1, 0, 0, 0, 0, 0xffffffff, 0, 0, 0, 0xffffffff, 0⟩,  -- LC_LOST
  ⟨0x640018, 1, 4, 1, 0, 0xffffffff, 0, 0, 0, 0, 0, 0, 0xffffffff, 0⟩,  -- LC_START_AT_LO
  ⟨0x64001c, 1, 4, 1, 0, 0xffff, 0, 0, 0, 0, 0, 0, 0xffff, 0⟩,  -- LC_START_AT_HI
  ⟨0x640100, 2, 0x20, 1, 0, 0, 0, 0, 0xff00, 0, 0, 0, 0xff01, 0⟩,  -- LC_PORT_STAT
  ⟨0x640104, 2, 0x20, 1, 0, 0, 0, 0, 0, 0, 0, 0, 0xffffffff, 0⟩,  -- LC_PORT_DLY
  ⟨0x640108, 2, 0x20, 1, 0, 0, 0, 0, 0, 0, 0, 0, 0xffffffff, 0⟩,  -- LC_PORT_OFS_LO
  ⟨0x64010c, 2, 0x20, 1, 0, 0, 0, 0, 0, 0, 0, 0, 0x7fffff, 0⟩,  -- LC_PORT_OFS_HI
  ⟨0x640200, 1, 4, 1, 0, 0, 0, 0, 0, 0, 0, 0, 0x3fff0003, 0⟩,  -- LC_IMG_CMD
  ⟨0x640204, 4, 4, 1, 0, 0xffffffff, 0, 0, 0, 0, 0, 0, 0xffffffff, 0⟩,  -- LC_IMG_UID
  ⟨0x640214, 1, 4, 1, 0, 0, 0, 0, 0, 0, 0, 0, 7, 0⟩]  -- LC_IMG_STAT

/-- Register map of block EV (12_host_partners_events.md). -/
def regTabEV : List RegDesc := [
  ⟨0x600000, 1, 4, 1, 0, 0, 0, 0, 0, 0x60001, 0, 0, 0, 0⟩,  -- EV_ID
  ⟨0x600004, 1, 4, 1, 0, 0, 0, 0, 0, 0, 0, 1, 0, 0⟩,  -- EV_STAT
  ⟨0x600100, 32, 4, 1, 0, 0, 0xffffffff, 0, 0, 0, 0, 0xffffffff, 0, 0⟩,  -- EV_MK_PEND
  ⟨0x601000, 1536, 4, 1, 0, 0xff, 0, 0, 0, 0, 0, 0, 0xff, 0⟩,  -- EV_SRC_CFG
  ⟨0x604000, 64, 0x20, 1, 0, 0xffffffff, 0, 0, 0, 0, 0, 0xffffffff, 0, 0⟩,  -- EV_RING_BASE_LO
  ⟨0x604004, 64, 0x20, 1, 0, 0xffffffff, 0, 0, 0, 0, 0, 0xffffffff, 0, 0⟩,  -- EV_RING_BASE_HI
  ⟨0x604008, 64, 0x20, 1, 0, 0x3f, 0, 0, 0, 8, 0, 0x3f, 0, 0⟩,  -- EV_RING_CFG
  ⟨0x60400c, 64, 0x20, 1, 0, 0xffffffff, 0, 0, 0, 0, 0, 0xffffffff, 0, 0⟩,  -- EV_RING_MOD
  ⟨0x604010, 64, 0x20, 1, 0, 0, 0, 0, 0xffff0000, 0, 0, 0xffffffff, 0, 0⟩]  -- EV_RING_STAT

/-- Register map of block CC (13_octey_control_core.md). -/
def regTabCC : List RegDesc := [
  ⟨0x680000, 1, 4, 1, 0, 0, 0, 0, 0, 0xc01, 0, 0, 0, 0⟩,  -- CC_ID
  ⟨0x680004, 1, 4, 1, 0, 0, 0, 0, 0, 0, 7, 0, 0, 0⟩,  -- CC_CTRL
  ⟨0x680008, 1, 4, 1, 0, 0, 0x3f, 0, 0, 0, 0x2e, 0, 0x11, 0⟩,  -- CC_EVT
  ⟨0x68000c, 1, 4, 1, 0, 0, 0, 0, 0, 4, 0xf1f, 0, 0, 0⟩,  -- CC_STAT
  ⟨0x680010, 1, 4, 1, 0, 3, 0, 0, 0, 0, 0, 0, 3, 0⟩,  -- CC_CFG
  ⟨0x680014, 1, 4, 1, 0, 0x3ff03ff, 0, 0, 0, 0x30002, 0, 0, 0x3ff03ff, 0⟩,  -- CC_PID
  ⟨0x680018, 1, 4, 1, 0, 0, 0, 0, 0, 0, 0, 0, 0x3f3f, 0⟩,  -- CC_DT_INFO
  ⟨0x68001c, 1, 4, 1, 0, 0, 0, 0, 0, 0, 0, 0, 0xffffffff, 0⟩,  -- CC_DT_PC
  ⟨0x680020, 1, 4, 1, 0, 0, 0, 0, 0, 0xfff00000, 0xffffffff, 0, 0, 0⟩,  -- CC_PC
  ⟨0x680024, 1, 4, 1, 0, 0xffffffff, 0, 0, 0, 0, 0, 0, 0xffffffff, 0⟩,  -- CC_RESTART
  ⟨0x680028, 1, 4, 1, 0, 0, 0, 0, 0, 0, 0, 0, 0x1f3, 0⟩,  -- CC_BOOT
  ⟨0x680030, 1, 4, 1, 0, 0xffff0002, 0, 1, 0, 0x27100000, 0xffff0003, 0, 0, 0⟩,  -- CC_WDT_CFG
  ⟨0x680034, 1, 4, 1, 0, 0, 0, 0, 0, 0, 0xffff, 0, 0, 0⟩,  -- CC_WDT_KICK
  ⟨0x680038, 1, 4, 1, 0, 0, 0, 0, 0, 0, 0xffff, 0, 0, 0⟩,  -- CC_WDT_LEFT
  ⟨0x680040, 1, 4, 1, 0, 0xffffffff, 0, 0, 0, 0, 0xffffffff, 0, 0, 0⟩,  -- CC_MBOX_H2C
  ⟨0x680044, 1, 4, 1, 0, 0xffffffff, 0, 0, 0, 0, 0xffffffff, 0, 0, 0⟩,  -- CC_MBOX_C2H
  ⟨0x680048, 1, 4, 1, 0, 0, 0, 0, 4, 0, 7, 0, 0, 0⟩,  -- CC_MBOX_STAT
  ⟨0x680108, 30, 4, 1, 0, 0x800007ff, 0, 0, 0, 0, 0x800007ff, 0, 0, 0⟩]  -- CC_IRQ_SEL

/-- Register map of block FT (14_fault_containment.md). -/
def regTabFT : List RegDesc := [
  ⟨0x6a0000, 1, 4, 1, 0, 0, 0, 0, 0, 0x102001, 0, 0, 0, 0⟩,  -- FT_ID
  ⟨0x6a0004, 1, 4, 1, 0, 6, 0, 0, 0, 6, 1, 0, 6, 0⟩,  -- FT_CTRL
  ⟨0x6a0008, 1, 4, 1, 0, 0, 0x7fff, 0, 0, 0, 0x7fff, 0, 0, 0⟩,  -- FT_EVT
  ⟨0x6a000c, 1, 4, 1, 0, 0, 0, 0, 0, 0x10, 0, 0x7fe7, 0, 0x18⟩,  -- FT_STAT
  ⟨0x6a0010, 1, 4, 1, 0, 0, 0, 0, 0, 0, 0, 0, 0xffffffff, 0⟩,  -- FT_REC_TIME
  ⟨0x6a0014, 1, 4, 1, 0, 0, 0, 0, 0xffffffff, 0, 0, 0, 0xffffffff, 0⟩,  -- FT_REC_MAX
  ⟨0x6a0018, 1, 4, 1, 0, 0, 0, 0, 0xffffffff, 0, 0, 0, 0xffffffff, 0⟩,  -- FT_PAIR_CNT
  ⟨0x6a001c, 1, 4, 1, 0, 0, 0xffffffff, 0, 0, 0, 0xffffffff, 0, 0, 0⟩,  -- FT_GRP_PEND
  ⟨0x6a0020, 1, 4, 1, 0, 0, 0, 0, 0, 0, 0x800007ff, 0, 0, 0⟩,  -- FT_INJECT
  ⟨0x6a0030, 1, 4, 1, 0, 0x1ff, 0, 0, 0, 0, 0x1ff, 0, 0, 0⟩,  -- FT_EXIT_SEL
  ⟨0x6a0034, 1, 4, 1, 0, 0, 0, 0, 0, 0, 0, 0xfffffff, 0, 0⟩,  -- FT_EXIT_CNT
  ⟨0x6a0038, 1, 4, 1, 0, 0, 0, 0, 0, 0, 0, 0xfffffff, 0, 0⟩,  -- FT_EXIT_CKPT
  ⟨0x6a0100, 32, 0x20, 1, 0, 0xffffffff, 0, 0, 0, 0, 0, 0, 0xffffffff, 0⟩,  -- FT_GRP_MASK_W0
  ⟨0x6a0104, 32, 0x20, 1, 0, 0xffffffff, 0, 0, 0, 0, 0, 0, 0xffffffff, 0⟩,  -- FT_GRP_MASK_W1
  ⟨0x6a0108, 32, 0x20, 1, 0, 0xffffffff, 0, 0, 0, 0, 0, 0, 0xffffffff, 0⟩,  -- FT_GRP_MASK_W2
  ⟨0x6a010c, 32, 0x20, 1, 0, 0x8fffffff, 0, 0, 0, 0, 0, 0, 0x8fffffff, 0⟩,  -- FT_GRP_CFG
  ⟨0x6a0118, 32, 0x20, 1, 0, 0xf, 0, 0, 0, 0, 0, 0, 0xf, 0⟩,  -- FT_GRP_FB
  ⟨0x6a0110, 32, 0x20, 1, 0, 0, 0, 0, 0, 0, 0, 0x9000, 0xffff6fff, 0⟩,  -- FT_GRP_STAT
  ⟨0x6a0114, 32, 0x20, 1, 0, 0, 0, 0, 0, 0, 3, 0, 0, 0⟩,  -- FT_GRP_CMD
  ⟨0x6a1000, 64, 0x10, 1, 0, 0, 1, 0, 0, 0, 0, 0, 0x3fffffff, 0⟩,  -- FT_LOG_CTL
  ⟨0x6a1004, 64, 0x10, 1, 0, 0, 0, 0, 0, 0, 0, 0, 0xffffffff, 0⟩,  -- FT_LOG_LOC
  ⟨0x6a1008, 64, 0x10, 1, 0, 0, 0, 0, 0, 0, 0, 0, 0xffffffff, 0⟩,  -- FT_LOG_TIME
  ⟨0x6a100c, 64, 0x10, 1, 0, 0, 0, 0, 0, 0, 0, 0, 0xffffffff, 0⟩]  -- FT_LOG_REC

/-- Register map of block RS (15_power_reset_clocks.md). -/
def regTabRS : List RegDesc := [
  ⟨0x1000, 1, 4, 1, 0, 0, 0, 0, 0, 1, 0, 0, 0, 0⟩,  -- RS_ID
  ⟨0x1004, 1, 4, 1, 0, 0, 0, 0, 0, 0, 0, 0, 0, 0⟩,  -- RS_CAUSE
  ⟨0x1008, 1, 4, 1, 0, 0, 0, 0, 0, 0, 0, 0, 0, 0xffffffff⟩,  -- RS_COUNT
  ⟨0x100c, 1, 4, 1, 0, 0, 0, 0, 0, 0, 0, 0, 0xf, 0⟩,  -- RS_STRAP
  ⟨0x1010, 1, 4, 1, 0, 0, 0, 0, 0, 0, 0, 0, 0, 0⟩,  -- RS_CTRL
  ⟨0x1014, 1, 4, 1, 0, 0, 0xf, 0, 0, 0, 0, 0, 0xb, 4⟩,  -- RS_EVT
  ⟨0x1018, 1, 4, 1, 0, 0, 0, 0, 0, 0, 0, 0, 0, 0⟩,  -- RS_SEQ
  ⟨0x1020, 1, 4, 1, 0, 0xffff0002, 0, 1, 0, 0x3e80000, 0, 0, 0xffff0003, 0⟩,  -- RS_WDT_CFG
  ⟨0x1024, 1, 4, 1, 0, 0, 0, 0, 0, 0, 0, 0, 0xffff, 0⟩,  -- RS_WDT_KICK
  ⟨0x1028, 1, 4, 1, 0, 0, 0, 0, 0, 0, 0, 0, 0xffff, 0⟩,  -- RS_WDT_LEFT
  ⟨0x1030, 1, 4, 1, 0, 0xffffff, 0, 0, 0, 0xff0000, 0, 0, 0xffffff, 0⟩,  -- RS_SAFE
  ⟨0x1034, 1, 4, 1, 0, 1, 0, 0, 0, 0, 0, 0, 1, 0⟩]  -- RS_NFAULT

/-- Register map of block PW (15_power_reset_clocks.md). -/
def regTabPW : List RegDesc := [
  ⟨0x1100, 1, 4, 1, 0, 0, 0, 0, 0, 0x1101, 0, 0, 0, 0⟩,  -- PW_ID
  ⟨0x1104, 1, 4, 1, 0, 0, 0x1f, 0, 0, 0, 0, 0, 0x1f, 0⟩,  -- PW_EVT
  ⟨0x1108, 1, 4, 1, 0, 0, 0, 0, 0, 0x7f, 0, 0, 0, 0x3f⟩,  -- PW_STAT
  ⟨0x110c, 1, 4, 1, 0, 0, 0, 0, 0, 0, 0, 0, 0, 0⟩,  -- PW_VIN
  ⟨0x1110, 1, 4, 1, 0, 0, 0, 0, 0, 0, 0, 0, 0, 0⟩,  -- PW_TEMP
  ⟨0x1114, 1, 4, 1, 0, 0xff, 0, 0, 0, 0x64, 0, 0, 0xff, 0⟩,  -- PW_THERM
  ⟨0x1120, 1, 4, 1, 0, 0, 0, 0, 0, 0, 0, 0, 0x8000031f, 0⟩,  -- PW_DOM_CMD
  ⟨0x1124, 1, 4, 1, 0, 0, 0, 0, 0, 0, 0, 0, 0xf1f, 0⟩,  -- PW_DOM_ERR
  ⟨0x1140, 17, 4, 1, 0, 0, 0, 0, 0, 2, 0, 0, 7, 0⟩]  -- PW_DOM_STAT

/-- Register map of block CK (15_power_reset_clocks.md). -/
def regTabCK : List RegDesc := [
  ⟨0x1200, 1, 4, 1, 0, 0, 0, 0, 0, 1, 0, 0, 0, 0⟩,  -- CK_ID
  ⟨0x1204, 1, 4, 1, 0, 0, 0xf, 0, 0, 0, 0, 0, 0xf, 0⟩,  -- CK_EVT
  ⟨0x1208, 1, 4, 1, 0, 0, 0, 0, 0, 0, 0, 0, 7, 0⟩,  -- CK_STAT
  ⟨0x120c, 1, 4, 1, 0, 0x1f, 0, 0, 0, 0x14, 0, 0, 0x1f, 0⟩]  -- CK_ACLK

/-- Register map of block HX (16_hx_compatibility.md). -/
def regTabHX : List RegDesc := [
  ⟨0x6c0000, 1, 4, 1, 0, 0, 0, 0, 0, 1, 0, 0, 0, 0⟩,  -- HX_ID
  ⟨0x6c0004, 1, 4, 1, 0, 0, 0, 0, 0, 0, 1, 0, 0, 0⟩,  -- HX_CTRL
  ⟨0x6c0008, 1, 4, 1, 0, 0, 0x3fff, 0, 0, 0, 0, 0x3fff, 0, 0⟩,  -- HX_EVT
  ⟨0x6c000c, 1, 4, 1, 0, 3, 0, 0, 0, 3, 0, 0, 3, 0⟩,  -- HX_CFG
  ⟨0x6c0010, 1, 4, 1, 0, 0, 0, 0, 0, 0, 0, 0xf2, 5, 0⟩,  -- HX_STAT
  ⟨0x6c0014, 1, 4, 1, 0, 0, 0, 0, 0, 0, 0, 0, 0x7ff1fff, 0⟩,  -- HX_COMPAT_REPORT
  ⟨0x6c0020, 1, 4, 1, 0, 0x1ffff, 0, 0, 0, 0, 0, 0, 0x1ffff, 0⟩,  -- HX_MIX_CFG
  ⟨0x6c0024, 1, 4, 1, 0, 0x7f7f7f, 0, 0, 0, 0, 0, 0, 0x7f7f7f, 0⟩,  -- HX_MIX_IN
  ⟨0x6c0028, 1, 4, 1, 0, 0xffffffff, 0, 0, 0, 0x14000000, 0, 0, 0xffffffff, 0⟩,  -- HX_MIX_Q
  ⟨0x6c1000, 256, 4, 1, 0, 0xffff, 0, 0, 0, 0, 0, 0xffff, 0, 0⟩]  -- HX_MAP

/-- Register map of block GL (18_address_map.md). -/
def regTabGL : List RegDesc := [
  ⟨0, 1, 4, 1, 0, 0, 0, 0, 0, 0x420096, 0, 0, 0, 0⟩,  -- GL_ID
  ⟨4, 1, 4, 1, 0, 0, 0, 0, 0, 0, 0, 0, 0x8f, 0x60⟩,  -- GL_STAT
  ⟨8, 1, 4, 1, 0, 0xffffffff, 0, 0, 0, 0, 0, 0, 0, 0xffffffff⟩]  -- GL_SCRATCH

end Sys2Proof.Machine
end

