-- ==== Sys2Proof/Machine/Sparse.lean ====
section
/-! DEFINITION. Sparse tables as plain data: a list of (key, value) pairs in ONE canonical form. Keys rise strictly
and no entry equals what an unlisted key reads as (`d`), so equal tables are equal lists. Registers, memory and
every array of records are held this way. -/

namespace Sys2Proof.Machine

/-- A sparse table. -/
abbrev Tab (α : Type) := List (Nat × α)

/-- The value at a key: the entry, else the default there. -/
def Tab.get {α : Type} (d : Nat → α) : Tab α → Nat → α
  | [], k => d k
  | (j, v) :: r, k => if j = k then v else Tab.get d r k

/-- An entry put before the first key above its own. -/
def Tab.ins {α : Type} (k : Nat) (v : α) : Tab α → Tab α
  | [] => [(k, v)]
  | (j, w) :: r => if k < j then (k, v) :: (j, w) :: r else (j, w) :: Tab.ins k v r

/-- The table without a key. -/
def Tab.erase {α : Type} (t : Tab α) (k : Nat) : Tab α := t.filter (fun e => e.1 ≠ k)

/-- A write: the entry replaced, or dropped where the value is the default. -/
def Tab.put {α : Type} [DecidableEq α] (d : Nat → α) (t : Tab α) (k : Nat) (v : α) : Tab α :=
  if v = d k then Tab.erase t k else Tab.ins k v (Tab.erase t k)

/-- Every value of the table sent through `f` (which may depend on the key); entries that become the default drop. -/
def Tab.mapKeep {α : Type} [DecidableEq α] (d : Nat → α) (f : Nat → α → α) (t : Tab α) : Tab α :=
  (t.map (fun e => (e.1, f e.1 (Tab.get d t e.1)))).filter (fun e => e.2 ≠ d e.1)

/-- Keys rise strictly from above `lo`. -/
def Tab.rising {α : Type} : Option Nat → Tab α → Bool
  | _, [] => true
  | none, (k, _) :: r => Tab.rising (some k) r
  | some lo, (k, _) :: r => decide (lo < k) && Tab.rising (some k) r

/-- The canonical form. -/
def Tab.wf {α : Type} [DecidableEq α] (d : Nat → α) (t : Tab α) : Bool :=
  Tab.rising none t && t.all (fun e => decide (e.2 ≠ d e.1))

end Sys2Proof.Machine
end

