-- ==== Sys2Proof/Machine/RegSem.lean ====
section
/-! DEFINITION. How a register answers (R5–R7, R504): which descriptor an offset has, its reset value, what a write
stores, what an RC read clears, and what a reset reach returns to its reset value. -/

namespace Sys2Proof.Machine

/-- Does an offset name an element of this register array? -/
def RegDesc.has (d : RegDesc) (a : Nat) : Bool :=
  if a < d.base then false
  else if d.s1 = 0 then
    if d.n0 = 1 then a == d.base
    else (a - d.base) % d.s0 == 0 && decide ((a - d.base) / d.s0 < d.n0)
  else
    let i := (a - d.base) / d.s0
    let r := (a - d.base) % d.s0
    decide (i < d.n0) && r % d.s1 == 0 && decide (r / d.s1 < d.n1)

/-- The register maps of the block whose range (Table AM-1, R503) holds an offset. -/
def regTabOf (a : Nat) : List RegDesc :=
  if a < 0x1000 then regTabGL
  else if a < 0x10000 then regTabRS ++ regTabPW ++ regTabCK
  else if a < 0x20000 then regTabYK
  else if a < 0x40000 then regTabMK
  else if a < 0x100000 then regTabCF
  else if a < 0x200000 then regTabAR
  else if a < 0x300000 then regTabPL
  else if a < 0x340000 then regTabSQ
  else if a < 0x380000 then regTabNW
  else if a < 0x400000 then regTabSM
  else if a < 0x500000 then regTabFB
  else if a < 0x540000 then regTabCG
  else if a < 0x550000 then regTabFL
  else if a < 0x560000 then regTabOT
  else if a < 0x580000 then regTabSC
  else if a < 0x600000 then regTabHI
  else if a < 0x640000 then regTabEV
  else if a < 0x660000 then regTabLC
  else if a < 0x680000 then regTabEN
  else if a < 0x6A0000 then regTabCC
  else if a < 0x6C0000 then regTabFT
  else if a < 0x6D0000 then regTabHX
  else if a < 0x6E0000 then regTabDB
  else if a < 0x6F0000 then regTabTR
  else []

/-- The descriptor of an offset; none where it is unbacked (R503). -/
def findReg (a : Nat) : Option RegDesc := (regTabOf a).find? (fun d => d.has a)

/-- The reset value of register i of the HX-1130 view (Tables HX-4 to HX-7). -/
def hxMapReset (i : Nat) : Nat :=
  if i = 0 then 0x1130 else if i = 1 then 4 else 0

/-- The reset value of the register at an offset. Some have elements with values of their own, or values from the fuses, OTP or
entropy: RS_CAUSE (1 at power-on, Table RS-2), SM_BGS_CFG.PERIOD, FB_MPORT_CFG.PARTNER (4 + m), HI_PT.STATE (3 for p < 8), HX_MAP (Tables HX-4 to HX-7), CK_STAT.GRADE, GL_STAT.GRADE,
OT_STAT.FLOCK (R319), OT_UID, SC_TP_CHAL. -/
def regReset (a : Nat) : Word :=
  if a = 0x38008C then 0x00640001
  else if a = 0x380090 then 0x000A0001
  else if 0x400800 ≤ a ∧ a < 0x400810 ∧ a % 4 = 0 then w32 (4 + (a - 0x400800) / 4)
  else if 0x5B0000 ≤ a ∧ a < 0x5B0020 ∧ a % 4 = 0 then 3
  else if 0x6C1000 ≤ a ∧ a < 0x6C1400 ∧ a % 4 = 0 then w32 (hxMapReset ((a - 0x6C1000) / 4))
  else if a = R.RS_CAUSE then 1
  else if a = R.CK_STAT then (if Config.gradeI2 then 8 else 0)
  else if a = R.GL_STAT then (if Config.gradeI2 then 16 else 0)
  else if a = R.OT_STAT then 0x4000
  else if R.OT_UID 0 ≤ a ∧ a < R.OT_UID 4 ∧ a % 4 = 0 then Config.otpFactory ((a - R.OT_UID 0) / 4)
  else if R.SC_TP_CHAL 0 ≤ a ∧ a < R.SC_TP_CHAL 12 ∧ a % 4 = 0 then Config.entropy ((a - R.SC_TP_CHAL 0) / 4)
  else match findReg a with
    | some d => w32 d.rst
    | none => 0

/-- What a register holds after a write of `v` over `old` (R5, R7): RW bits take the written bits, W1C bits clear,
W1S bits that stay set, set; every other bit keeps its value, and reserved bits are discarded. -/
def RegDesc.write (d : RegDesc) (old v : Word) : Word :=
  let o := old.toNat
  let x := v.toNat
  w32 ((andNot (andNot o d.rw) (x &&& d.w1c)) ||| (x &&& d.rw) ||| (x &&& d.ws))

/-- What a register holds after a read (R5): its RC bits are cleared. -/
def RegDesc.afterRead (d : RegDesc) (old : Word) : Word := w32 (andNot old.toNat d.rc)

/-- Reset reaches, narrow to wide (R6, R451). -/
inductive Reach where
  | block | run | warm | cold
deriving DecidableEq, Repr

/-- The bits of a register that a reach returns to their reset value (R6). -/
def RegDesc.clearMask (d : RegDesc) : Reach → Nat
  | .block => d.blk
  | .run   => d.blk ||| d.run
  | .warm  => d.blk ||| d.run ||| d.warm
  | .cold  => d.blk ||| d.run ||| d.warm ||| d.cold

/-- A register value after a reset of a reach. -/
def clearReg (rch : Reach) (a : Nat) (v : Word) : Word :=
  match findReg a with
  | some d =>
    let m := d.clearMask rch
    w32 (andNot v.toNat m ||| ((regReset a).toNat &&& m))
  | none => v

end Sys2Proof.Machine
end

