-- ==== Sys2Proof/Machine/TypesBase.lean ====
section
/-! DEFINITION. What the part sends out of itself, and the event unit's own state (R384–R388). -/

namespace Sys2Proof.Machine

/-- One thing that left the part. `State.out` keeps them in order, oldest first. -/
inductive Out where
  /-- words written to host memory at an address (event records, completion records, STREAM_OUT, QUERY …) -/
  | hostWrite (addr : Nat) (words : List Word)
  /-- an MSI-X message for a vector (R386, R363) -/
  | msix (vec : Nat)
  /-- a Lace frame on a port: its type (Table LC-1) and its fields in the order of that table -/
  | lace (port : Nat) (typ : Nat) (fields : List Int)
  /-- an Ethernet frame on a port -/
  | eth (port : Nat) (bytes : List Byte)
  /-- a word delivered by a queue to its consumer outside the Array: queue, DATA, TAG, LAST, FOLD, ERR -/
  | word (q : Nat) (data : Word) (tag : Nat) (last fold err : Bool)
  /-- a trace record on the trace port (R222) -/
  | trace (bytes : List Byte)
  /-- a strobe on a fabric line with its tap (R75) -/
  | strobe (line : Nat) (tap : Nat)
  /-- a response to a network requester: node, port, tag, status (Table NW-5), data words -/
  | resp (node port tag status : Nat) (data : List Word)
  /-- a PCIe read completion: status and words (R356) -/
  | pcie (ur : Bool) (words : List Word)
  /-- a halfword driven on the HX bus in answer to a read (R463) -/
  | hxBus (v : BitVec 16)
  /-- a signal toward the user logic: 0 timer MATCH, 1 CKPT_DONE, 2 REWIND, 3 user window access, 4 a stream channel held, 5 a status
word of the Internal Configuration Port, with its region (R293) -/
  | fabric (kind idx v : Nat)
  /-- a LACE_SEND message that came for this device: sender, TAG, DATA, its time in local taps (R376) -/
  | laceMsg (src tag : Nat) (data : Word) (time : Int)
  /-- a command sent to external flash (R280): in 8D-8D-8D or 1S-1S-1S, its bytes -/
  | xspi (ddr : Bool) (bytes : List Byte)
  /-- a pulse of 1 µs on nCFG_STATUS (R286) -/
  | cfgStatusPulse
  /-- the value that a register read returned to its reader (REG_RD, QUERY, the core) -/
  | readBack (off : Nat) (v : Word)
deriving DecidableEq, Repr

/-- A fault record on its way to the fault unit (R415): the detector (Table FT-1), the elements it names, each with its
FT_LOG_CTL.ELEMENT code and its FT_LOG_LOC, and the YK_TIME of the detection. -/
structure FaultRec where
  det   : Nat
  elems : List (Nat × Nat)
  time  : Nat
deriving DecidableEq, Repr

/-- A sensor port (R181–R186): its state, the lanes that have found the pattern, frame and item counters, and the last
sample set that it passed to the Yoke. -/
inductive SpState where
  | unlocked | aligning | locked | down
deriving DecidableEq, Repr

/-- The SQ_SP_STAT code of a sensor port state (Table SQ-7 order). -/
def SpState.code : SpState → Nat
  | .unlocked => 0 | .aligning => 1 | .locked => 2 | .down => 3

/-- A sensor port's state beside its registers. -/
structure SensorPort where
  st       : SpState
  laneLock : Nat
  words    : Nat
  frames   : Nat
  midItem  : Bool
  discard  : Bool
  decim    : Nat
  /-- consecutive word times in which each lane showed the pattern (R183) -/
  runs     : List Nat
  /-- how many bits each lane's word boundary lies back, and the bits that each lane captured in the last word time (R183) -/
  slide    : List Nat
  prev     : List Nat
  /-- samples passed to the Yoke so far, the last one's four lanes and its instant in taps (R184) -/
  yokeSeq  : Nat
  yokeSet  : List (BitVec 16)
  yokeTs   : Int
deriving DecidableEq, Repr

/-- A sensor port after reset. -/
def SensorPort.idle : SensorPort :=
  { st := .unlocked, laneLock := 0, words := 0, frames := 0, midItem := false, discard := false, decim := 0, runs := [0, 0, 0, 0],
    slide := [0, 0, 0, 0], prev := [0, 0, 0, 0],
    yokeSeq := 0, yokeSet := [], yokeTs := 0 }

/-- Event ring state beside its registers: the doorbell head, the unread records, the phase of the next record, the
records not yet signalled and the YK_TIME of the first of them (R386). -/
structure EvRing where
  head   : Nat
  unread : Nat
  phase  : Bool
  unsig  : Nat
  firstAt : Nat
deriving DecidableEq, Repr

/-- A ring after reset: empty, PHASE 1 on the first pass (R363). -/
def EvRing.idle : EvRing := { head := 0, unread := 0, phase := true, unsig := 0, firstAt := 0 }

/-- Event unit state beside its registers: the sources whose next record carries COAL (R385). -/
structure EvUnit where
  rings : Tab EvRing
  coal  : List Nat
deriving DecidableEq, Repr

/-- The event unit after reset. -/
def EvUnit.reset : EvUnit := { rings := [], coal := [] }

end Sys2Proof.Machine
end

