-- ==== Sys2Proof/Machine/TypesArray.lean ====
section
/-! DEFINITION. State of the Array, the fold unit, the Pleat loader and the queues beside their registers and memories
(03_array.md, 04_pleats_and_folds.md, 05_stream_ports_and_queues.md). -/

namespace Sys2Proof.Machine

/-- A token (Table AR-3); its slot holds one, so VALID is 1. `src` is the logical PE that produced it, which R160's counts need; the
fabric and the ports have none. -/
structure Token where
  data : Word
  tag  : Nat
  last : Bool
  fold : Bool
  err  : Bool
  par0 : Bool
  par1 : Bool
  src  : Option Nat
deriving DecidableEq, Repr

/-- The parity of the low w bits of a number. -/
def parBit (x w : Nat) : Bool := (List.range w).foldl (fun a i => a != x.testBit i) false

/-- Even parity over DATA[15:0] (Table AR-3). -/
def Token.even0 (t : Token) : Bool := parBit t.data.toNat 16

/-- Even parity over DATA[31:16], TAG, LAST, FOLD and ERR (Table AR-3). -/
def Token.even1 (t : Token) : Bool := ((parBit (t.data.toNat / 2 ^ 16) 16 != parBit t.tag 4) != t.last) != (t.fold != t.err)

/-- A token with its parity computed (R99). -/
def Token.seal (t : Token) : Token := { t with par0 := t.even0, par1 := t.even1 }

/-- Does a token pass the parity check (R99)? -/
def Token.parOk (t : Token) : Bool := t.par0 == t.even0 && t.par1 == t.even1

/-- A token as its producer makes it (R99). -/
def Token.make (data : Word) (tag : Nat) (last fold err : Bool) (src : Option Nat) : Token :=
  Token.seal { data := data, tag := tag, last := last, fold := fold, err := err, par0 := false, par1 := false, src := src }

/-- A data word without TAG from a port or an engine. -/
def Token.word (data : Word) (last : Bool) : Token := Token.make data 0 last false false none

/-- The marker that ends a truncated item (R173, R185, R186). -/
def Token.marker (tag : Nat) : Token := Token.make 0 tag true false true none

/-- A token with one of its bits upset on the way, numbered as Table AR-3 numbers them. An upset of VALID, which no parity covers, is not
modelled (log entry 35). -/
def Token.upset (t : Token) (b : Nat) : Token :=
  if b < 32 then { t with data := t.data ^^^ BitVec.ofNat 32 (2 ^ b) }
  else if b < 36 then { t with tag := t.tag ^^^ 2 ^ (b - 32) }
  else match b with
    | 37 => { t with last := !t.last }
    | 38 => { t with fold := !t.fold }
    | 39 => { t with err := !t.err }
    | 40 => { t with par0 := !t.par0 }
    | 41 => { t with par1 := !t.par1 }
    | _ => t

/-- The flags of a Pleat (Table AR-1). -/
structure PeFlags where
  z    : Bool
  n    : Bool
  c    : Bool
  v    : Bool
  sat  : Bool
  pred : Bool
deriving DecidableEq, Repr

/-- All clear. -/
def PeFlags.zero : PeFlags := { z := false, n := false, c := false, v := false, sat := false, pred := false }

/-- The private state of one Pleat at one PE (R91, R135). -/
structure Priv where
  p0   : Word
  p1   : Word
  p2   : Word
  p3   : Word
  acc0 : BitVec 72
  acc1 : BitVec 72
  fl   : PeFlags
  /-- address generator pointer -/
  ptr  : Nat
  /-- the held ROUTE or DROP decision -/
  dec  : Option Nat
  /-- the SPLIT turn -/
  turn : Nat
  /-- MERGE: mid-item on input B (true) or A (false), and the input served last -/
  mSide : Option Bool
  mLast : Bool
  /-- the latched FOLDGEN condition -/
  latch : Bool
  /-- a DUP still emitting: its token and the copies to come (R122) -/
  dup  : Option (Token × Nat)
  /-- PCMP with EDGE: an emission that waits, with its ERR (R121) -/
  edge : Option (Word × Bool)
deriving DecidableEq, Repr

/-- Private state after a reset (R133). -/
def Priv.zero : Priv :=
  { p0 := 0, p1 := 0, p2 := 0, p3 := 0, acc0 := 0, acc1 := 0, fl := PeFlags.zero, ptr := 0, dec := none, turn := 0,
    mSide := none, mLast := true, latch := false, dup := none, edge := none }

/-- One FIFO of a PE: its tokens, oldest first, at most 4; FOLD tokens that wait to enter (R147); the last data token
written had no LAST. -/
structure Fifo where
  toks : List Token
  pend : List Token
  mid  : Bool
deriving DecidableEq, Repr

/-- Empty. -/
def Fifo.empty : Fifo := { toks := [], pend := [], mid := false }

/-- A physical PE (R91): shared registers, FIFOs N, E, S, W, the active Pleat, and a FOLDGEN request that waits (R156). -/
structure Pe where
  s    : List Word
  n    : Fifo
  e    : Fifo
  so   : Fifo
  w    : Fifo
  act  : Nat
  gen  : Bool
deriving DecidableEq, Repr

/-- A PE after a Cold or Warm reset (R133, R137). -/
def Pe.idle : Pe :=
  { s := List.replicate 8 0, n := Fifo.empty, e := Fifo.empty, so := Fifo.empty, w := Fifo.empty, act := 0, gen := false }

/-! Folds -/

/-- A fold on its way (R138): target, kind (true = wavefront), tile mask, trigger (Table PL-4; 5 a checkpoint of group
`grp`, R420), the PE of a FOLDGEN, the FOLD_AT descriptor it carries out (queue pair, DSEQ, the mark's LATENESS). -/
structure FoldReq where
  target : Nat
  wave   : Bool
  mask   : Nat
  trig   : Nat
  gen    : Option Nat
  grp    : Nat
  desc   : Option (Nat × Nat × Nat)
deriving DecidableEq, Repr

/-- An issued fold before its switch edge (R139). -/
structure Switch where
  req  : FoldReq
  slot : Nat
  seq  : Nat
deriving DecidableEq, Repr

/-- A wavefront in flight (R145): its fold, sequence number, PEs that have not folded, YK_TIME of its injection edge, WAVE_STUCK
given; one that a replay injects again (R431). -/
structure Slot where
  id     : Nat
  req    : FoldReq
  seq    : Nat
  todo   : List Nat
  t0     : Nat
  stuck  : Bool
  replay : Bool
deriving DecidableEq, Repr

/-- A FOLDGEN request (R156). -/
structure GenReq where
  pe     : Nat
  target : Nat
  mask   : Nat
deriving DecidableEq, Repr

/-- A Pleat load (R159). `src` names the descriptor it belongs to: queue pair and number; none for PL_LOAD_CMD. -/
structure LoadReq where
  plane : Nat
  slot  : Nat
  mask  : Nat
  src   : Option (Nat × Nat)
deriving DecidableEq, Repr

/-- A running load: tiles still to complete, PEs left not valid, the first of them. -/
structure LoadRun where
  req   : LoadReq
  tiles : List Nat
  bad   : Nat
  first : Option Nat
deriving DecidableEq, Repr

/-- A local memory access that waits for its PE (R94). -/
structure LmWait where
  pkt  : Packet
  time : Nat
deriving DecidableEq, Repr

/-- The Array and its fold unit. -/
structure Arr where
  /-- by physical PE index 32 × column + row (R240) -/
  pes     : Tab Pe
  /-- by 16 × physical PE index + Pleat -/
  privs   : Tab Priv
  /-- Pleats (16 × physical PE index + Pleat) whose load was aborted and that no load or write has completed since -/
  aborted : List Nat
  foldIn  : List FoldReq
  foldQ   : List FoldReq
  /-- NCLK at which the head of the fold queue reached it, and the tiles in which a load of its target has completed since (R140, R141) -/
  headAt  : Nat
  headIn  : List Nat
  sw      : List Switch
  slots   : List Slot
  seq     : Nat
  genReqs : List GenReq
  loadQ   : List LoadReq
  loadRun : Option LoadRun
  /-- express ports enabled with no word written yet, and words that wait for a full FIFO (R126) -/
  expNew  : List Nat
  expPend : List (Nat × Word)
  lmWait  : List LmWait
deriving DecidableEq, Repr

/-- The Array after a Cold or Warm reset. -/
def Arr.reset : Arr :=
  { pes := [], privs := [], aborted := [], foldIn := [], foldQ := [], headAt := 0, headIn := [], sw := [], slots := [], seq := 0,
    genReqs := [], loadQ := [], loadRun := none, expNew := [], expPend := [], lmWait := [] }

/-! Queues -/

/-- A queue (R165): SMB-resident 0–1023, port queues 1024–1151, sensor ports 1152–1159, tile port inbound lanes 1160 + lane. -/
structure Queue where
  ents    : List Token
  pend    : List Token
  items   : Nat
  prodMid : Bool
  consMid : Bool
  /-- TAG of the last word the consumer received, and a truncation marker due to it (R173) -/
  lastTag : Nat
  marker  : Bool
  flushing : Bool
  swallow : Bool
  forced  : Bool
  /-- YK_TIME of the last push (R172) -/
  lastAt  : Nat
  /-- YK_TIME at which the consumer of a bypassing queue last found it empty and waits (R168) -/
  popAt   : Option Nat
  /-- FOLD tokens that a flush kept: before the entries, counted in the depth no more (R171) -/
  held    : List Token
  /-- entries that the engine has asked another bank for: byte offset in the ring buffer, number of the request (R176) -/
  away    : List (Nat × Nat)
  /-- byte offset in the ring buffer at which the next entry is written (R175) -/
  wptr    : Nat
  /-- replay window of an inbound port of a Single group (R423), and how many of its tokens the checkpoint in flight will
  let go -/
  kept    : List Token
  keptOld : Nat
  /-- at an inbound fabric port, what the user logic must push again, with the FOLD tokens at their places (R423, R431) -/
  replay  : List Token
deriving DecidableEq, Repr

/-- An empty queue (R193). -/
def Queue.empty : Queue :=
  { ents := [], pend := [], items := 0, prodMid := false, consMid := false, lastTag := 0, marker := false, flushing := false,
    swallow := false, forced := false, lastAt := 0, popAt := none, held := [], away := [], wptr := 0, kept := [], keptOld := 0, replay := [] }

end Sys2Proof.Machine
end

