-- ==== Sys2Proof/Machine/TypesCc.lean ====
section
/-! DEFINITION. State of the Octey control core beside its registers in the CC block (13_octey_control_core.md), and of a
watchdog. -/

namespace Sys2Proof.Machine

/-- A request of the core that waits for its response (R404): a load names its register, its size and whether it extends the
sign; `lo` is the byte place in the unit. -/
structure CcBus where
  load   : Option Reg
  size   : Nat
  signed : Bool
  lo     : Nat
  addr   : BitVec 32
deriving DecidableEq, Repr

/-- A watchdog: the YK_TIME at its last restart, and the count left while it is paused. -/
structure Wdt where
  at_  : Int
  left : Option Nat
deriving DecidableEq, Repr

/-- The reset value of a control and status register (Table CC-1). -/
def csrReset (n : Nat) : BitVec 32 :=
  if n = 0 then 1 else if n = 5 then 0xFFF00000 else if n = 0x11 then 1
  else if n = 0x44 ∨ n = 0x45 then 0xFFFFFFFF else 0

/-- The core (R390–R403). -/
structure Cc where
  /-- g0–g15 -/
  g     : Tab (BitVec 32)
  /-- w registers: 16 × window + number; window 12 is the trap window T -/
  w     : Tab (BitVec 32)
  csr   : Tab (BitVec 32)
  /-- macc0–macc3 -/
  macc  : Tab (BitVec 72)
  pc    : BitVec 32
  /-- YK_TIME of the core's last start, for CYCLE -/
  start : Nat
  /-- halted (CC_CTRL.HALT, R413, R397), after a double trap; WAITING (R402) -/
  halt  : Bool
  dt    : Bool
  wait  : Bool
  /-- the network access that the core waits for (R404) -/
  bus   : Option CcBus
  /-- the core stands at the first instruction of the Starter (R408) -/
  boot  : Bool
  /-- the core watchdog (CC_WDT_CFG, R411) -/
  wdt   : Wdt
deriving DecidableEq, Repr

/-- The core at its start (R408): the w registers hold no value that the spec gives; 0 at the first. -/
def Cc.reset : Cc :=
  { g := [], w := [], csr := [], macc := [], pc := 0xFFF00000, start := 0, halt := false, dt := false, wait := false,
    bus := none, boot := true, wdt := { at_ := 0, left := none } }

end Sys2Proof.Machine
end

