-- ==== Sys2Proof/Machine/TypesCg.lean ====
section
/-! DEFINITION. State of the configuration engine, the flash and OTP controllers and the security controller beside their
registers (09_configuration.md, 10_flash_otp_protection.md, 11_signatures_and_two_party_control.md). -/

namespace Sys2Proof.Machine

/-! Configuration -/

/-- Where an image is read from (R278–R282, R291, R293): flash from a base, SMB from a base, or bytes that came from outside. -/
inductive ImgSrc where
  | flash (base : Nat)
  | smb (base : Nat)
  | held (bytes : List Byte)
deriving DecidableEq, Repr

/-- A boot attempt under way (R283): its source, what it is measured as (Table SC-6 INDEX), the image's first 0x6000 bytes (empty
while the source has not come), the digest that accepted its key pair once step 2 has passed (4 for a seal), the content units
written and their bytes. -/
structure BootRun where
  src   : ImgSrc
  idx   : Nat
  hdr   : List Byte
  sig   : Option Nat
  units : Nat
  got   : List Byte
deriving DecidableEq, Repr

/-- A partial load under way (R293–R298): target region, source (host, with its descriptor: queue pair and DSEQ; or ICP), Lining, the image's first 0x6000 bytes, step 2
passed, the content that has come, the units written of it, and the last frame reached. `lastAt` is the YK_TIME of the last word. -/
structure PartRun where
  region  : Nat
  host    : Bool
  desc    : Option (Nat × Nat)
  lining  : Option Nat
  hdr     : List Byte
  sig     : Bool
  content : List Byte
  units   : Nat
  frame   : Nat
  lastAt  : Nat
deriving DecidableEq, Repr

/-- A library staging under way (R291, R292); a header that has not come yet is empty. `got` is the content read so far, which has been written to the
banks and, with BCAST, sent. -/
structure LibRun where
  lace  : Bool
  bcast : Bool
  base  : Nat
  hdr   : List Byte
  sig   : Bool
  src   : ImgSrc
  got   : List Byte
deriving DecidableEq, Repr

/-- A configuration region beside its registers: its last stage reached (0 while Sleeved) and the YK_TIME of it, the header
of the image now in it (R295, R297, Table SC-6), and, in a region released by itself, the clocks whose flip-flops have left reset there
(R266, R297). -/
structure Region where
  stage : Nat
  at_   : Nat
  hdr   : List Byte
  own   : Option (List Nat)
deriving DecidableEq, Repr

/-- A region with nothing Sleeved. -/
def Region.idle : Region := { stage := 3, at_ := 0, hdr := [], own := none }

/-- The configuration engine. -/
structure Cg where
  boot    : Option BootRun
  part    : Option PartRun
  lib     : Option LibRun
  /-- regions under repair (R300) -/
  repair  : List Nat
  /-- the image that boot Proof passed: its header and its base in flash -/
  hdr     : List Byte
  active  : Option Nat
  /-- what it is measured as (Table SC-6 INDEX) -/
  idx     : Nat
  /-- the header of the staged Pleat library (Table SC-6) -/
  libHdr  : List Byte
  regions : Tab Region
  /-- YK_TIME of the last failed attempt (R285) -/
  failAt  : Nat
  /-- the preferred slot, and failed attempts since (R279) -/
  tries   : Nat
  /-- the configuration scrubber: next word, YK_TIME of the start of its pass, consecutive expiries (R299, R304) -/
  scrub   : Nat
  scrubAt : Nat
  expired : Nat
deriving DecidableEq, Repr

/-- After a Cold or Warm reset. -/
def Cg.reset : Cg :=
  { boot := none, part := none, lib := none, repair := [], hdr := [], active := none, idx := 0, libHdr := [], regions := [], failAt := 0,
    tries := 0, scrub := 0, scrubAt := 0, expired := 0 }

/-! Flash and OTP -/

/-- A flash command under way (R309): units being programmed, page by page, or an erase (sector, pulses). -/
inductive FlRun where
  | program (pages : List (Nat × List Byte))
  | erase (sector pulses : Nat)
deriving DecidableEq, Repr

/-- What a record that the hardware writes into the system sector is for (R315): the journal's BEGIN or END (R326), or a policy record
(R347). -/
inductive FlWhy where
  | lowerBegin | lowerEnd | policy
deriving DecidableEq, Repr

/-- A record to be programmed: its first offset, its bytes with their CRC last, what it is for. -/
structure FlRec where
  off   : Nat
  bytes : List Byte
  why   : FlWhy
deriving DecidableEq, Repr

/-- The flash controller: its command, a suspended erase (sector, pulses; whether it resumes by itself, R313), a lowering of the RDP
level under way: the sector to erase next (R326), records that the hardware programs when no command runs, first in first out, and
whether the die still completes a page or a pulse that a reset cut short (R317). -/
structure Fl where
  run   : Option FlRun
  susp  : Option (Nat × Nat × Bool)
  lower : Option Nat
  recs  : List FlRec
  die   : Bool
deriving DecidableEq, Repr

/-- Nothing under way. -/
def Fl.reset : Fl := { run := none, susp := none, lower := none, recs := [], die := false }

/-- Why OTP bits are pulsed: OT_CMD.PROG, or a two-party operation (Table SC-7), or the end of a lowering (R326). -/
inductive OtWhy where
  | prog | raise1 | raise2 | revoke | lower
deriving DecidableEq, Repr

/-- Pulses under way: the word and bit of each that remains, those done, the reason. -/
structure OtRun where
  left : List (Nat × Nat)
  done : List (Nat × Nat)
  why  : OtWhy
deriving DecidableEq, Repr

/-- The OTP row and its controller; a reset that waits for a pulse is held by the reset controller. -/
structure Ot where
  words : Tab (BitVec 32)
  run   : Option OtRun
deriving DecidableEq, Repr

/-- Nothing programmed beyond the factory's words. -/
def Ot.reset : Ot := { words := [], run := none }

/-! Security -/

/-- An open proposal (R349): its 120 bytes, proposer and YK_TIME of acceptance; executing once consent has come. -/
structure Proposal where
  bytes : List Byte
  by_   : Nat
  time  : Nat
  exec  : Bool
deriving DecidableEq, Repr

/-- An attestation report asked for (R341): the partner ID of the GO write, the nonce, the SMB offset it goes to. -/
structure Attest where
  pid   : Nat
  nonce : List Byte
  base  : Nat
deriving DecidableEq, Repr

/-- The security controller: the live firewall map by BAR0 offset (R346), the open proposal, the report being built, and the YK_TIME at
which a debug unlock ends. -/
structure Sc where
  live   : Tab (BitVec 32)
  prop   : Option Proposal
  att    : Option Attest
  dbgEnd : Nat
deriving DecidableEq, Repr

/-- After a Cold or Warm reset. -/
def Sc.reset : Sc := { live := [], prop := none, att := none, dbgEnd := 0 }

end Sys2Proof.Machine
end

