-- ==== Sys2Proof/Machine/TypesEn.lean ====
section
/-! DEFINITION. State of the Ethernet unit beside its registers (05_stream_ports_and_queues.md, R187–R192). -/

namespace Sys2Proof.Machine

/-- A transmit timestamp: nanoseconds, seconds, transmit sequence count (R192). -/
structure TxTs where
  ns  : Nat
  sec : Nat
  seq : Nat
deriving DecidableEq, Repr

/-- A frame whole in the receive buffer of a port, without its FCS, and its timestamp (R188, R191). -/
structure RxFrame where
  bytes : List (BitVec 8)
  ts    : Nat
deriving DecidableEq, Repr

/-- An Ethernet port: its EN_TXTS queue, the frames it has sent, its receive buffer (R188), and the words taken so far of the item that it is
sending (R192). -/
structure EnPort where
  txts : List TxTs
  seq  : Nat
  rx   : List RxFrame
  tx   : Option (List (BitVec 32))
deriving DecidableEq, Repr

/-- A port after reset. -/
def EnPort.idle : EnPort := { txts := [], seq := 0, rx := [], tx := none }

/-- The Ethernet unit: the 1588 clock in 2^-24 ns at YK_TIME `ptpAt`, the seconds latched by the last read of EN_PTP_NS
(R191), and the ports. -/
structure En where
  ptp   : Nat
  ptpAt : Nat
  latch : Nat
  ports : Tab EnPort
deriving DecidableEq, Repr

/-- The unit after reset. -/
def En.reset : En := { ptp := 0, ptpAt := 0, latch := 0, ports := [] }

end Sys2Proof.Machine
end

