-- ==== Sys2Proof/Machine/TypesFb.lean ====
section
/-! DEFINITION. State of the logic fabric beside its registers (08_logic_fabric.md). The user logic itself is outside: what it
does at the fabric's connections comes as commands. -/

namespace Sys2Proof.Machine

/-- A tristate long line (R248, R249): its keeper value, its drivers released. -/
structure TLine where
  keep : Bool
  rel  : Bool
deriving DecidableEq, Repr

/-- After the staged release. -/
def TLine.idle : TLine := { keep := true, rel := false }

/-- A glitch-free multiplexer (R253): the input it follows; during a switch the new input, whether the output is low by now (step 2), and the
falling edges of the new input since; a select that came during the switch; the YCLK of the last edge seen of the current input. -/
structure ClkMux where
  cur  : Nat
  goal : Option Nat
  low  : Bool
  fell : Nat
  pend : Option Nat
  edge : Nat
deriving DecidableEq, Repr

/-- Following input 0. -/
def ClkMux.idle : ClkMux := { cur := 0, goal := none, low := false, fell := 0, pend := none, edge := 0 }

/-! The hardened serial blocks (R258, Table FB-4) -/

/-- SPI: its role and frame as user logic sets them; words each way; the chip select that it drives as master. -/
structure Spi where
  master : Bool
  bits   : Nat
  mode   : Nat
  lsb    : Bool
  cs     : Nat
  tx     : List (BitVec 32)
  rx     : List (BitVec 32)
deriving DecidableEq, Repr

/-- I²C: its role, rate and address form; bytes each way; whether it stretches the clock; a lost arbitration reported to user logic. -/
structure I2c where
  target  : Bool
  rate    : Nat
  ten     : Bool
  tx      : List (BitVec 8)
  rx      : List (BitVec 8)
  stretch : Bool
  lost    : Bool
deriving DecidableEq, Repr

/-- UART: its frame (data bits; parity 0 none, 1 even, 2 odd; stop bits); characters each way; the CTS that it sees; a break seen. -/
structure Uart where
  bits   : Nat
  parity : Nat
  stop   : Nat
  tx     : List (BitVec 9)
  rx     : List (BitVec 9)
  cts    : Bool
  brk    : Bool
deriving DecidableEq, Repr

/-- The three serial blocks of a clock region. -/
structure Serial where
  spi  : Spi
  i2c  : I2c
  uart : Uart
deriving DecidableEq, Repr

/-- In reset (the values are the model's: R258 gives none; DESIGN CHOICE, log entry 170). -/
def Serial.idle : Serial :=
  { spi := { master := false, bits := 8, mode := 0, lsb := false, cs := 0, tx := [], rx := [] }
    i2c := { target := false, rate := 0, ten := false, tx := [], rx := [], stretch := false, lost := false }
    uart := { bits := 8, parity := 0, stop := 1, tx := [], rx := [], cts := true, brk := false } }

/-- What user logic or a ball does at a serial block in a cycle of its user clock: settings; a word put into the outgoing queue or taken from
the incoming one; a frame on the balls. -/
inductive SerEvent where
  | none
  | spiSet (master : Bool) (bits : Nat) (mode : Fin 4) (lsb : Bool) (cs : Fin 4)
  | spiPut (w : BitVec 32)
  | spiGet
  | spiFrame (inp : BitVec 32)
  | i2cSet (target : Bool) (rate : Fin 3) (ten : Bool)
  | i2cPut (b : BitVec 8)
  | i2cGet
  | i2cSent
  | i2cCame (b : BitVec 8)
  | i2cLost
  | uartSet (bits : Nat) (parity : Fin 3) (stop : Bool)
  | uartPut (c : BitVec 9)
  | uartGet
  | uartSent
  | uartCame (c : BitVec 9)
  | uartCts (level : Bool)
  | uartBreak
deriving DecidableEq, Repr

/-- A user I/O ball that is no Cuff (R264): level and enable of the fabric's output register, level at the ball, input level. -/
structure UserIo where
  src   : Bool
  oe    : Bool
  level : Bool
  inp   : Bool
deriving DecidableEq, Repr

/-- A user I/O ball after reset. -/
def UserIo.idle : UserIo := { src := false, oe := false, level := false, inp := false }

/-- What a block RAM port shows (R255–R257). -/
structure BramPort where
  dout : Nat
  err  : Bool
  werr : Bool
  coll : Bool
deriving DecidableEq, Repr

/-- Nothing read. -/
def BramPort.idle : BramPort := { dout := 0, err := false, werr := false, coll := false }

/-- The fabric. -/
structure Fb where
  tl      : Tab TLine
  mux     : Tab ClkMux
  /-- by 2 × block + port -/
  bram    : Tab BramPort
  /-- prescaler counts of the timers, and timers with a mark's capture on its way (R260) -/
  presc   : Tab Nat
  tmrTrig : List Nat
  /-- timers whose MATCH pulse for the present count has come (R259) -/
  tmrHit  : List Nat
  /-- the serial blocks, by clock region (R258), and user I/O 128–199, by ball (R264) -/
  serial  : Tab Serial
  io      : Tab UserIo
  /-- user window accesses that wait for user logic: its requester (none = BAR0), offset, write data, NCLK (R263) -/
  uwin    : List (Option Packet × Nat × Option (BitVec 32) × Nat)
  /-- YK_TIME of the last stage reached; held by a reset; an FB_CTRL.BLK_RST sequence runs (R265, R268) -/
  relAt   : Nat
  hold    : Bool
  blk     : Bool
  /-- clocks whose flip-flops have left reset (R266) -/
  ffRel   : List Nat
  /-- what the flip-flops that have left reset hold, in words of the shadow plane (R246, R270) -/
  ffs     : List (BitVec 32)
  /-- sampled level of CFG_DONE; YK_TIME at which the PLLs were started (R267) -/
  cfgDone : Bool
  pllAt   : Nat
  /-- the trigger of an armed capture has come, and the shadow plane (R270) -/
  capTrig : Bool
  shadow  : List (BitVec 32)
deriving DecidableEq, Repr

/-- The fabric after a Warm reset. -/
def Fb.reset : Fb :=
  { tl := [], mux := [], bram := [], presc := [], tmrTrig := [], tmrHit := [], serial := [], io := [], uwin := [], relAt := 0, hold := false, blk := false,
    ffRel := [], ffs := [], cfgDone := false, pllAt := 0, capTrig := false, shadow := [] }

end Sys2Proof.Machine
end

