-- ==== Sys2Proof/Machine/TypesFt.lean ====
section
/-! DEFINITION. State of the fault unit beside its registers (14_fault_containment.md, R415–R439). -/

namespace Sys2Proof.Machine

/-- An exit (R424): its 28-bit count, the tokens still to drop at a replay (R431), its count at the checkpoint in flight
and at the current Lining. -/
structure ExitCnt where
  cnt : Nat
  sup : Nat
  new : Option Nat
  cur : Nat
deriving DecidableEq, Repr

/-- An exit after a Run reset. -/
def ExitCnt.zero : ExitCnt := { cnt := 0, sup := 0, new := none, cur := 0 }

/-- A checkpoint in flight (R420–R422): its number, records that wait in the shadow to be written (PE and 640 bytes), and
the Pleat that was active at each PE's barrier. -/
structure CkFlight where
  num    : Nat
  shadow : List (Nat × List Byte)
  act    : List (Nat × Nat)
deriving DecidableEq, Repr

/-- A protection group beside its registers: the next checkpoint number, YK_TIME of the last issue, the checkpoint in
flight and the further ones asked for, the active Pleats of the current Lining, the wavefronts issued into it since (R423), and how many of
them were issued before the checkpoint in flight. -/
structure Grp where
  num     : Nat
  lastAt  : Nat
  flight  : Option CkFlight
  more    : Nat
  act     : List (Nat × Nat)
  waves   : List Slot
  wavesOld : Nat
deriving DecidableEq, Repr

/-- A group after a Warm reset. -/
def Grp.idle : Grp := { num := 0, lastAt := 0, flight := none, more := 0, act := [], waves := [], wavesOld := 0 }

/-- An element under test (R428): its FT_LOG_CTL.ELEMENT code and FT_LOG_LOC, the detector and time of its detection, its class (0 not
yet tested, 1 TRANSIENT, 2 LASTING), further detections of it, and its entry in FT_LOG. -/
structure FtElem where
  code : Nat
  loc  : Nat
  det  : Nat
  time : Nat
  cls  : Nat
  rep  : Nat
  log  : Option Nat
deriving DecidableEq, Repr

/-- A recovery or a test under way: group if any, its elements, its step (Table FT-4), time of detection, whether it froze the
Array, the logical columns tested with whether they failed, and whether it cannot continue. -/
structure Recovery where
  grp    : Option Nat
  els    : List FtElem
  step   : Nat
  t0     : Nat
  freeze : Bool
  cols   : List (Nat × Bool)
  cannot : Bool
deriving DecidableEq, Repr

/-- The fault unit. A detection that waits is held with the number of further detections of the same elements. -/
structure Ft where
  exits : Tab ExitCnt
  grps  : Tab Grp
  run   : Option Recovery
  queue : List (FaultRec × Nat)
deriving DecidableEq, Repr

/-- The fault unit after reset. -/
def Ft.reset : Ft := { exits := [], grps := [], run := none, queue := [] }

end Sys2Proof.Machine
end

