-- ==== Sys2Proof/Machine/TypesHi.lean ====
section
/-! DEFINITION. State of the host interface, the partners and the Lace unit beside their registers
(12_host_partners_events.md, R354–R383). -/

namespace Sys2Proof.Machine

/-! Host interface -/

/-- A descriptor fetched and without a record (R360): its number, its eight words and, for MARK_WRITE, the image that the next
ring entry held; the units done; whether it has started; whether a word with ERR has passed (Table HI-5 TRUNC). -/
structure Desc where
  dseq    : Nat
  w       : List Word
  image   : List Word
  units   : Nat
  started : Bool
  trunc   : Bool
deriving DecidableEq, Repr

/-- A finished record that waits for the completion ring: its four words without PHASE, and IRQ (R361, R363). -/
structure HiRec where
  words : List Word
  irq   : Bool
deriving DecidableEq, Repr

/-- A queue pair beside its registers (R358–R367): DSEQ of the next descriptor, the submission tail, descriptors in flight in
ring order, records that wait, the place of the next record, the completion head, records unread, PHASE of the next. -/
structure Qp where
  next   : Nat
  tail   : Nat
  infl   : List Desc
  recs   : List HiRec
  cqTail : Nat
  cqHead : Nat
  unread : Nat
  phase  : Bool
deriving DecidableEq, Repr

/-- A queue pair that has just been enabled. -/
def Qp.idle : Qp :=
  { next := 0, tail := 0, infl := [], recs := [], cqTail := 0, cqHead := 0, unread := 0, phase := true }

/-- A FOLD_AT descriptor whose mark has not fired (R362): mark, queue pair, DSEQ; the mark has committed. -/
structure FoldWait where
  mark  : Nat
  qp    : Nat
  dseq  : Nat
  fired : Bool
deriving DecidableEq, Repr

/-- One part of a PCIe request under way (R356, R506): the request it belongs to, the number of its network request (none for a part that is
unbacked), whether it reads, the words of the response before those asked for and how many are asked for, and its response
once that has come: failed, words. -/
structure Mmio where
  req  : Nat
  key  : Option Nat
  read : Bool
  skip : Nat
  cnt  : Nat
  done : Option (Bool × List Word)
deriving DecidableEq, Repr

/-- G1 units that wait at their engine (R372): the YCLK in which they came, how many, and that they have been deferred. -/
structure RsvWait where
  came  : Nat
  units : Nat
  late  : Bool
deriving DecidableEq, Repr

/-- The host interface. -/
structure Hi where
  qps   : Tab Qp
  folds : List FoldWait
  mmio  : List Mmio
  /-- admissions so far, reservation windows ended (R371, R373) -/
  order : Nat
  win   : Nat
  /-- YK_TIME at which the present window began -/
  winAt : Nat
  /-- debt of each reservation by age in windows, youngest first, at most 8 (R374) -/
  debts : Tab (List Nat)
  /-- G1 units that wait, by reservation, the oldest first (R372) -/
  waits : Tab (List RsvWait)
  /-- RATE of each reservation (R371) -/
  rates : Tab Nat
  /-- number of the next PCIe request -/
  reqs  : Nat
deriving DecidableEq, Repr

/-- After a Run reset. -/
def Hi.reset : Hi := { qps := [], folds := [], mmio := [], order := 0, win := 0, winAt := 0, debts := [], waits := [], rates := [], reqs := 0 }

/-! Lace -/

/-- An image being sent (R383): base in flash, bytes, next byte, to all or to a unique ID. -/
structure ImgSend where
  base  : Nat
  len   : Nat
  next  : Nat
  bcast : Bool
deriving DecidableEq, Repr

/-- A remote request of this device without its response (R381): SEQ of its PKT frame, the request, the device, the port it
left on. -/
structure RemReq where
  seq  : Nat
  req  : Packet
  dev  : Nat
  port : Nat
deriving DecidableEq, Repr

/-- A remote request of another device issued here (R381): number of the local request, the sender, SEQ of its frame, its entry and
the GEN it had. -/
structure RemServe where
  key  : Nat
  dev  : Nat
  seq  : Nat
  ent  : Nat
  gen  : Nat
deriving DecidableEq, Repr

/-- The Lace unit. -/
structure Lc where
  /-- SEQ of the next frame of this origin; (origin, SEQ) already seen (R376) -/
  seq    : Nat
  seen   : List (Nat × Nat)
  /-- unique IDs in order of number, how many of them lie on the east way from the root, and the cut links by the place of the
  device west of each (R379, R380) -/
  uids   : List (BitVec 128)
  east   : Nat
  cuts   : List Nat
  /-- YK_TIME at which the first port came UP on the root, while discovery is to start (R379) -/
  discAt : Option Nat
  /-- consecutive failures of one frame by port (R375) -/
  fails  : Tab Nat
  /-- by port: send time and receive time of the neighbour's last DLY frame, taps (R377) -/
  dly    : Tab (Int × Int)
  /-- YK_TIME of the last DLY frame sent by port -/
  dlyAt  : Tab Nat
  /-- OFS_HI latched by a read of OFS_LO, by port -/
  ofsHi  : Tab (BitVec 32)
  /-- local start instant, taps (R382) -/
  start  : Option Int
  send   : Option ImgSend
  /-- bytes of the image that is arriving over Lace and YK_TIME of its last frame (R281, R292) -/
  recv   : List Byte
  recvAt : Nat
  reqs   : List RemReq
  served : List RemServe
deriving DecidableEq, Repr

/-- After a Warm reset. -/
def Lc.reset : Lc :=
  { seq := 0, seen := [], uids := [], east := 0, cuts := [], discAt := none, fails := [], dly := [], dlyAt := [], ofsHi := [],
    start := none, send := none, recv := [], recvAt := 0, reqs := [], served := [] }

end Sys2Proof.Machine
end

