-- ==== Sys2Proof/Machine/TypesHx.lean ====
section
/-! DEFINITION. State of the HX bus unit beside its registers (16_hx_compatibility.md). -/

namespace Sys2Proof.Machine

/-- PROG_CTRL.STATE (Table HX-4). -/
inductive ProgState where
  | idle | receiving | translating | writing | done
deriving DecidableEq, Repr

/-- The Table HX-4 code. -/
def ProgState.code : ProgState → Nat
  | .idle => 0 | .receiving => 1 | .translating => 2 | .writing => 3 | .done => 4

/-- What the view shows of the angle timer while PACE is 1: the values of the last tick boundary (R471). -/
structure HxShown where
  pos     : Int
  vel     : Int
  down    : Bool
  indexed : Bool
deriving DecidableEq, Repr

/-- The HX bus unit. -/
structure Hx where
  /-- the unit's own count (R471) -/
  cnt     : Int
  shown   : HxShown
  /-- a Z edge has preset the count since enable -/
  indexed : Bool
  /-- _HI partners latched by a read of their _LO register, by view address (R464) -/
  latch   : Tab (BitVec 16)
  /-- _HI halves written that wait for their _LO write (R464) -/
  stage   : Tab (BitVec 16)
  /-- the write buffer, oldest first, at most 8, and the write that waits with nWAIT low (R466) -/
  buf     : List (Nat × BitVec 16)
  held    : Option (Nat × BitVec 16)
  /-- the last bus write was PROG_CTRL = 0xA5C3 (R476) -/
  unlock  : Bool
  prog    : ProgState
  result  : Nat
  /-- the stream in progress came through JTAG -/
  jtag    : Bool
  /-- halfwords of the image stream so far, oldest first -/
  stream  : List (BitVec 16)
  /-- the translated image and the report on their way to the HX area -/
  image   : List (BitVec 8)
  report  : List (BitVec 8)
  /-- next halfword of the report that a PROG_DATA read returns (R479) -/
  rptAt   : Nat
  /-- bus accesses are answered: nRESET is high and step 10 has passed (R480) -/
  live    : Bool
deriving DecidableEq, Repr

/-- The unit after its reset values are loaded (R469, R480). -/
def Hx.idle : Hx :=
  { cnt := 0, shown := { pos := 0, vel := 0, down := false, indexed := false }, indexed := false, latch := [], stage := [], buf := [], held := none,
    unlock := false, prog := .idle, result := 0, jtag := false, stream := [], image := [], report := [], rptAt := 0, live := true }

end Sys2Proof.Machine
end

