-- ==== Sys2Proof/Machine/TypesMem.lean ====
section
/-! DEFINITION. State of the protected memories beside their contents and registers (07_stream_memory.md). -/

namespace Sys2Proof.Machine

/-- Why a row is served from a spare row (R238, R239). -/
inductive RepairKind where
  | factory | soft | temp
deriving DecidableEq, Repr

/-- A row of a bank mapped to a spare row. -/
structure Repair where
  bank  : Nat
  row   : Nat
  spare : Nat
  kind  : RepairKind
deriving DecidableEq, Repr

/-- A repair copy under way (R239): into a spare row, or back from it. -/
structure RepairRun where
  bank  : Nat
  row   : Nat
  spare : Nat
  kind  : RepairKind
  back  : Bool
deriving DecidableEq, Repr

/-- A range scrub (R240, R241): its group, next word and end, the bad words seen, first and last, and the row
domains that have left ON while it ran (R244). -/
structure Scrub where
  group : Nat
  next  : Nat
  last  : Nat
  stop  : Bool
  bad   : Option (Nat × Nat)
  left  : List Nat
deriving DecidableEq, Repr

/-- A background scrubber (R242): next word, YK_TIME at which its period began, pass finished. -/
structure Bgs where
  next  : Nat
  start : Nat
  done  : Bool
deriving DecidableEq, Repr

/-- At the start of a pass. -/
def Bgs.idle : Bgs := { next := 0, start := 0, done := false }

/-- A fill under way (R233, R234): the ranges of the model's memory that it clears, and the domain that waits for it. -/
structure Fill where
  ranges : List (Nat × Nat)
  dom    : Option Nat
deriving DecidableEq, Repr

/-- The protected memories. -/
structure Smm where
  repairs : List Repair
  run     : Option RepairRun
  scrub   : Option Scrub
  bgs3    : Bgs
  bgs4    : Bgs
  /-- words whose corrected codeword waits to be written back, and words that wait to be poisoned (R231, R243) -/
  wbq     : List Nat
  poison  : List Nat
  fills   : List Fill
deriving DecidableEq, Repr

/-- After a Cold reset. -/
def Smm.reset : Smm :=
  { repairs := [], run := none, scrub := none, bgs3 := Bgs.idle, bgs4 := Bgs.idle, wbq := [], poison := [], fills := [] }

end Sys2Proof.Machine
end

