-- ==== Sys2Proof/Machine/TypesNet.lean ====
section
/-! DEFINITION. State of the ring network beside its registers (06_ring_network.md): the units that wait at every
router input, the packets they belong to, what requesters wait for. -/

namespace Sys2Proof.Machine

/-- One 256-bit unit of a packet: the packet's number, its place in the packet (0 is the header), its BAD bit (R196), and
the NCLK at which it came to the router where it waits. -/
structure NetUnit where
  pid   : Nat
  idx   : Nat
  bad   : Bool
  since : Nat
deriving DecidableEq, Repr

/-- An input queue of a router (R207): node, input (0 E, 1 W, 2 S, 3 N, 4 + p local port p), VC and dateline class. -/
structure QKey where
  node : Nat
  inp  : Nat
  vc   : Nat
  dl   : Bool
deriving DecidableEq, Repr

/-- A queue held by a packet from its header to its last unit (R208), with the units that have entered it. -/
structure Hold where
  key  : QKey
  pid  : Nat
  sent : Nat
deriving DecidableEq, Repr

/-- A request without its response yet (R202, R216): its requester, its packet, the NCLK of issue, whether it is itself a
reissue (R213), and the number by which its requester knows it. -/
structure Outst where
  node  : Nat
  port  : Nat
  tag   : Nat
  req   : Packet
  time  : Nat
  again : Bool
  key   : Nat
deriving DecidableEq, Repr

/-- A tag that its requester must not use again before `time` (NCLK, R216). -/
structure Quar where
  node : Nat
  port : Nat
  tag  : Nat
  time : Nat
deriving DecidableEq, Repr

/-- A request that waits at its requester for a free tag (R210, R216). -/
structure Held where
  req   : Packet
  again : Bool
  key   : Nat
deriving DecidableEq, Repr

/-- The network. -/
structure Net where
  /-- packets in flight by number, and the next number -/
  pkts   : List (Nat × Packet)
  nextId : Nat
  queues : List (QKey × List NetUnit)
  /-- units that wait at a local port for room in its router's input queue (R207), by that queue -/
  wait   : List (QKey × List NetUnit)
  /-- requests that wait for a tag, oldest first, and the number of the next request -/
  held   : List Held
  nextKey : Nat
  /-- holds of queues, in the order taken -/
  holds  : List Hold
  /-- round-robin pointer of each output link: node, link, and the input and VC granted last (R208) -/
  rr     : List (Nat × Nat × Nat)
  /-- BAD units seen so far of packets leaving at their destination -/
  badIn  : List Nat
  /-- consecutive CRC failures of one unit by receiving node and link (R198) -/
  crcRun : List (Nat × Nat × Nat)
  /-- units that failed their CRC and are sent again before any other of their link: sending node, link, and the queue whose
  head the unit is (R197) -/
  replay : List (Nat × Nat × QKey)
  /-- cuts that a router has recorded (R211): router, 0 its row ring or 1 its column ring, the lower end of the cut -/
  cuts   : List (Nat × Nat × Nat)
  /-- packets delivered at their destination port, oldest first -/
  inbox  : List Packet
  outst  : List Outst
  /-- requests that reached the Seam of a domain before it began to close, and packets of which only the header had (R218) -/
  inTime : List Packet
  late   : List Nat
  /-- tags that must not be used again before their time (R216) -/
  quar   : List Quar
  /-- trace records that wait for the trace output, at most 64 (R222) -/
  trace  : List (List (BitVec 8))
  /-- BYTES_HI of a probe latched by a read of BYTES_LO -/
  hiLatch : Tab (BitVec 32)
deriving DecidableEq, Repr

/-- Nothing in flight (R219). -/
def Net.reset : Net :=
  { pkts := [], nextId := 0, queues := [], wait := [], held := [], nextKey := 0, holds := [], rr := [], badIn := [], crcRun := [],
    replay := [], cuts := [], inbox := [], outst := [], inTime := [], late := [], quar := [], trace := [], hiLatch := [] }

end Sys2Proof.Machine
end

