-- ==== Sys2Proof/Machine/TypesRs.lean ====
section
/-! DEFINITION. State of the reset, power and clock controllers beside their registers (15_power_reset_clocks.md). -/

namespace Sys2Proof.Machine

/-- A reset sequence under way (R454): its reach (0 Cold, 1 Warm, 2 Run), the last step released (0 none), whether the parts of the
next step outside a held narrower reach are out (Table RS-5), its cause and DETAIL. -/
structure RsSeq where
  reach  : Nat
  step   : Nat
  half   : Bool
  code   : Nat
  detail : Nat
deriving DecidableEq, Repr

/-- The controllers. -/
structure Rs where
  /-- sources whose condition lasts: their Table RS-2 codes (R452) -/
  held     : List Nat
  seq      : Option RsSeq
  /-- a reset that waits for the end of an OTP pulse (R322): code and DETAIL -/
  deferred : List (Nat × Nat)
  /-- strap balls: MODE, BOOT0, BOOT1, CLKSEL from bit 0 (R453) -/
  straps   : BitVec 4
  /-- VIN has passed 3.0 V; VIN has risen through 4.5 V and not fallen below 4.2 V (R440) -/
  aon      : Bool
  vin      : Bool
  /-- option load is running, or has ended since the Cold reset (R455) -/
  optRun   : Bool
  optDone  : Bool
  /-- the domain command that runs: domain, ON, and the YK_TIME of its present step (R444–R446) -/
  dom      : Option (Nat × Bool × Nat)
  /-- an OFF command that waits for the end of a recovery (R447) -/
  domWait  : Option Nat
  /-- ACLK stands and its PLL relocks after a write of CK_ACLK (R449) -/
  relock   : Bool
  /-- the system watchdog (RS_WDT_CFG, R457) -/
  wdt      : Wdt
deriving DecidableEq, Repr

/-- No source held, no sequence under way, every domain powered. -/
def Rs.reset : Rs :=
  { held := [], seq := none, deferred := [], straps := 0, aon := true, vin := true, optRun := false, optDone := true, dom := none,
    domWait := none, relock := false, wdt := { at_ := 0, left := none } }

end Sys2Proof.Machine
end

