-- ==== Sys2Proof/Machine/TypesYoke.lean ====
section
/-! DEFINITION. State of the Yoke, the mark engine and the Cuffs that is not a register
(01_yoke_position_base.md, 02_marks_and_cuffs.md). Positions inside the observer are integers in units of 2^-32 count,
velocities in 2^-32 count per YCLK (R10); positions on the bus are in 2^-16 count (Table YK-2); instants are in
taps of 1/128 YCLK (R12). -/

namespace Sys2Proof.Machine

/-- Axis states (Table YK-5). -/
inductive AxState where
  | off | tracking | holdover | frozen
deriving DecidableEq, Repr

/-- The Table YK-5 code of a state. -/
def AxState.code : AxState → Nat
  | .off => 0 | .tracking => 1 | .holdover => 2 | .frozen => 3

/-- The three decoder inputs of an axis (YK_AX_IN). -/
inductive InRole where
  | a | b | z
deriving DecidableEq, Repr

/-- An input edge on its way to the observer: its level after the edge, its timestamp in taps (R509) and the YCLK in
which it occurred (R12–R14). -/
structure InEdge where
  role  : InRole
  level : Bool
  ts    : Int
  cyc   : Nat
deriving DecidableEq, Repr

/-- A measurement that the observer uses in the coming YCLK (R33): a position, the instant it belongs to, and the
velocity that a replacing sample brings (mains, Lace). -/
structure Meas where
  pos : Int
  ts  : Int
  vel : Option Int
  /-- the state a Lace sample carries (R45) -/
  mst : Option AxState
deriving DecidableEq, Repr

/-- One axis of the Yoke. -/
structure Axis where
  st       : AxState
  /-- internal position and velocity (R10) -/
  p        : Int
  v        : Int
  /-- DIR is down, and the extreme reached in DIR (R38) -/
  down     : Bool
  ext      : Int
  turns    : Word
  reacqErr : Word
  cause    : Nat
  /-- mains tracker locked, and what else the tracker holds between samples (R28; its dynamics are free) -/
  lock     : Bool
  trk      : BitVec 64
  /-- position of the last edge, or the lattice origin before one (R15); whether an edge has come, and its direction -/
  lat      : Int
  latValid : Bool
  latUp    : Bool
  /-- YCLK in which the last edge was used (R18) -/
  tEdge    : Nat
  /-- last measured position, YCLK of its acceptance, velocity then (v_e) -/
  mPos     : Int
  tMeas    : Nat
  ve       : Int
  /-- measurements accepted since start, 0, 1 or 2 (R34); loss detection armed (R34) -/
  startN   : Nat
  armed    : Bool
  /-- consecutive valid measurements toward a reacquire; RESUME given (R42, R44) -/
  reacq    : Nat
  resumed  : Bool
  /-- YCLK in which HOLDOVER began (R43) -/
  tHold    : Nat
  /-- the first Z after enable or RESUME is still to come (R19) -/
  zArm     : Bool
  /-- delivered levels of A and B -/
  lvA      : Bool
  lvB      : Bool
  /-- edges under way (R14), and edges delivered for the coming YCLK -/
  edges    : List InEdge
  now      : List InEdge
  /-- a measurement of another source delivered for the coming YCLK -/
  meas     : Option Meas
  /-- consecutive SSI CRC failures (R40); the first falling clock edge of the frame being read, in taps (R22); YCLK of its start -/
  crcRun   : Nat
  ssiT0    : Option Int
  ssiLast  : Option Nat
  /-- last sine/cosine angle, 18 bits, and the unwrapped position (R26) -/
  scAng    : Option Nat
  scPos    : Int
  /-- number of the last sample set of its sensor port that the axis took (R184) -/
  scSeq    : Nat
  /-- MOD_LO staged for the next MOD_HI write (R36) -/
  modStage : Option Word
  /-- commands written and not yet taken at a YCLK (R32, R44, R47) -/
  cSet     : Bool
  cSetv    : Bool
  cResume  : Bool
  cRst     : Bool
  /-- bus flags of the last YCLK (Table YK-7) -/
  wrap     : Bool
  wdir     : Bool
  step     : Bool
  /-- AX_RST was applied in the last YCLK (R73) -/
  rstStep  : Bool
  /-- a wrap that a write or a CRC loss made since the last YCLK, shown with the coming one: whether it was downward (R36) -/
  owrap    : Option Bool
deriving DecidableEq, Repr

/-- An axis after a Block reset of the Yoke (R55): everything at its reset value, DIR UP. -/
def Axis.idle : Axis :=
  { st := .off, p := 0, v := 0, down := false, ext := 0, turns := 0, reacqErr := 0, cause := 0, lock := false, trk := 0,
    lat := 0, latValid := false, latUp := true, tEdge := 0, mPos := 0, tMeas := 0, ve := 0, startN := 0, armed := false,
    reacq := 0, resumed := false, tHold := 0, zArm := true, lvA := false, lvB := false, edges := [], now := [],
    meas := none, crcRun := 0, ssiT0 := none, ssiLast := none, scAng := none, scPos := 0, scSeq := 0, modStage := none,
    cSet := false, cSetv := false, cResume := false, cRst := false, wrap := false, wdir := false, step := false,
    rstStep := false, owrap := none }

/-- One axis of a position bus sample (R48): the position in 2^-16 count, the velocity, and the status byte. -/
structure BusAxis where
  pos    : Int
  vel    : Int
  st     : AxState
  down   : Bool
  wrap   : Bool
  wdir   : Bool
  step   : Bool
  rstStep : Bool
  /-- MK_AX_CFG.INHIBIT of the axis in the YCLK of the sample (R72) -/
  inh    : Bool
deriving DecidableEq, Repr

/-- An axis as the bus shows it after reset. -/
def BusAxis.idle : BusAxis :=
  { pos := 0, vel := 0, st := .off, down := false, wrap := false, wdir := false, step := false, rstStep := false, inh := false }

/-- A position bus sample: all eight axes of one YCLK, and the stamp (R48). -/
structure BusSample where
  time : Nat
  axes : List BusAxis
deriving DecidableEq, Repr

/-- State of the Yoke beside its registers. -/
structure Yoke where
  /-- YK_TIME, the YCLK count (64 bits) -/
  time  : DWord
  axes  : Tab Axis
  /-- the last bus samples, newest first: the mark engine commits on the sample six
  YCLK old (R64), and a capture looks back as far as its filter reaches (R84) -/
  hist  : List BusSample
  /-- axes whose SNAP_ALL latch has not been read yet (R48) -/
  snap  : List Nat
  /-- time of the last Lace axis send (R50) -/
  lastTx : Nat
  /-- captures whose YCLK has no sample yet (R84): slot, axis mask, instant in taps -/
  capWait : List (Nat × Nat × Int)
  /-- the Array's copy of each axis's CYCLIC and MOD: the modulus in 2^-16 count, 0 = linear (R120) -/
  modc : List Nat
deriving DecidableEq, Repr

/-- The Yoke after reset. -/
def Yoke.reset : Yoke := { time := 0, axes := [], hist := [], snap := [], lastTx := 0, capWait := [], modc := [] }

/-! Marks -/

/-- A mark entry, as it stood at its last CTL write (Table MK-1, R57). -/
structure MarkEntry where
  axis    : Nat
  dir     : Nat
  arm     : Bool
  oneshot : Bool
  action  : Nat
  rpt     : Nat
  pos     : Int
  hyst    : Nat
  per     : Int
  arg0    : Word
  arg1    : Word
deriving DecidableEq, Repr

/-- An entry that was never written. -/
def MarkEntry.zero : MarkEntry :=
  { axis := 0, dir := 0, arm := false, oneshot := false, action := 0, rpt := 0, pos := 0, hyst := 0, per := 0,
    arg0 := 0, arg1 := 0 }

/-- State of a mark, or of one half of a mark with DIR either (Table MK-3, R68). -/
inductive MkState where
  | idle | armed | spent | done
deriving DecidableEq, Repr

/-- The Table MK-3 code. -/
def MkState.code : MkState → Nat
  | .idle => 0 | .armed => 1 | .spent => 2 | .done => 3

/-- An accepted entry that is not in force yet, with the FOLD_AT descriptor (queue pair and number) that wrote it, if one did. -/
structure MkNew where
  ent  : MarkEntry
  fold : Option (Nat × Nat)
deriving DecidableEq, Repr

/-- A mark. -/
structure Mark where
  ent      : MarkEntry
  /-- live target of a repeating mark (R69) -/
  target   : Int
  remain   : Nat
  fires    : Nat
  up       : MkState
  dn       : MkState
  /-- the half that fired last is the up half (R68) -/
  lastUp   : Bool
  late     : Bool
  hold     : Bool
  skipped  : Bool
  lateness : Nat
  /-- in the sorted list, and the YCLK in which its insertion completed (R59) -/
  inserted : Bool
  insAt    : Nat
  /-- the insertion under way is that of a repeat (R69) -/
  rep      : Bool
  /-- crossed and waiting to fire LATE, for each half: the crossing instant in taps (R66, R68) -/
  crUp     : Option Int
  crDn     : Option Int
  /-- committed actions in the pipeline (R64) -/
  inPipe   : Nat
  /-- an entry accepted behind a committed action (Table MK-5) -/
  behind   : Option MkNew
deriving DecidableEq, Repr

/-- A mark after reset: IDLE. -/
def Mark.idle : Mark :=
  { ent := MarkEntry.zero, target := 0, remain := 0, fires := 0, up := .idle, dn := .idle, lastUp := true,
    late := false, hold := false, skipped := false, lateness := 0, inserted := false, insAt := 0, rep := false, crUp := none, crDn := none,
    inPipe := 0, behind := none }

/-- A committed action on its way out of the engine (R65, R66). -/
structure Commit where
  mark     : Nat
  axis     : Nat
  /-- YCLK in which the action leaves the engine -/
  leave    : Nat
  /-- firing instant, taps -/
  inst     : Int
  late     : Bool
  lateness : Nat
  hold     : Bool
  up       : Bool
  action   : Nat
  arg0     : Word
  arg1     : Word
deriving DecidableEq, Repr

/-- Mark engine state of one axis: insertions queued (oldest first) and the YCLK in which the head reached the head,
repeats waiting for a place, and the two compare windows (R59, R61). -/
structure MkAxis where
  queue   : List Nat
  headAt  : Nat
  repWait : List Nat
  upWin   : List Nat
  dnWin   : List Nat
  /-- the windows, up and down, of the last six YCLK of the engine, newest first: a commit in c6 uses those of c1 (Table MK-4) -/
  wins    : List (List Nat × List Nat)
deriving DecidableEq, Repr

/-- Nothing queued. -/
def MkAxis.idle : MkAxis :=
  { queue := [], headAt := 0, repWait := [], upWin := [], dnWin := [], wins := [] }

/-- Mark engine state beside its registers. -/
structure MkEng where
  marks : Tab Mark
  axes  : Tab MkAxis
  pipe  : List Commit
  /-- accepted entries with their marks and the YCLK in which they take effect, in the order of the writes (R57, R60, R74) -/
  written : List (Nat × Nat × MkNew)
  /-- MK register writes, offset and value, that wait: the first is a CTL write for which the insertion queue has no place (R59) -/
  regq  : List (Nat × Word)
  /-- DISARM_ALL written: the YCLK in which it acts (R74) -/
  disarm : Option Nat
deriving DecidableEq, Repr

/-- The mark engine after reset. -/
def MkEng.reset : MkEng := { marks := [], axes := [], pipe := [], written := [], regq := [], disarm := none }

/-! Cuffs -/

/-- What a scheduled edge does to the level at its instant (R79). -/
inductive EdgeOp where
  | setHi | setLo | toggle | pulseOn | pulseOff
deriving DecidableEq, Repr

/-- A scheduled edge: its instant in taps, its operation, the commit order, and, for the return edge of a pulse, the
level before the pulse once that is known. -/
structure CuffEdge where
  inst : Int
  op   : EdgeOp
  seq  : Nat
  back : Option Bool
deriving DecidableEq, Repr

/-- One Cuff. -/
structure Cuff where
  /-- level at the ball now (R79, R83) -/
  level   : Bool
  /-- level set by the scheduled edges evaluated so far, each at its instant (R79) -/
  target  : Bool
  edges   : List CuffEdge
  /-- evaluated edges whose transitions have been moved and have still to reach the ball (R80): the instants wanted, and the levels -/
  moved   : List (Int × Bool)
  /-- instant of the last transition at the ball, taps, and transitions in its YCLK (R80) -/
  lastTr  : Option Int
  trYclk  : Nat
  /-- YCLK and delay-line steps of the last transition as the output path places it (R509) -/
  placed  : Option (Int × Nat)
  /-- level and output enable of the fabric's output register, whatever the owner (R264) -/
  src     : Bool
  oe      : Bool
  /-- input level at the ball, and capture edges under way with their timestamp and YCLK (R84, R13) -/
  inp     : Bool
  icap    : List InEdge
deriving DecidableEq, Repr

/-- A Cuff after reset. -/
def Cuff.idle : Cuff :=
  { level := false, target := false, edges := [], moved := [], lastTr := none, trYclk := 0, placed := none, src := false,
    oe := false, inp := false, icap := [] }

end Sys2Proof.Machine
end

