-- ==== Sys2Proof/Machine/State.lean ====
section
/-! DEFINITION. The state of the QV-96: its registers, its memories, what its blocks hold beside registers, the queue of
waiting commands, and the counter of free values. INVENTORY.md lists every piece with its rule and reset value. -/

namespace Sys2Proof.Machine

/-- Faults: a command that the spec says must not be given. -/
inductive Fault where
  /-- raised by no meaning of this model: the spec names no condition under which the part stops -/
  | stuck
deriving DecidableEq, Repr

/-- Refusals: what the model does not run. -/
inductive Refusal where
  /-- an instruction that has no meaning yet; the arm of exec answers it (safe) -/
  | notModelled (mnemonic : String)
deriving DecidableEq, Repr

/-- The state of the block. -/
structure State where
  /-- every register of the BAR0 space by its offset; an unlisted one holds its reset value (R504) -/
  regs    : List (Nat × BitVec 32)
  /-- every data byte of the memories, by the model's address (Ops: memory bases); unlisted bytes read as memDefault -/
  mem     : List Host.Cell
  /-- the error syndrome of each 64-bit word that has one: stored check bits xor computed check bits (R229) -/
  syn     : List (Nat × BitVec 8)
  yk      : Yoke
  mke     : MkEng
  cuffs   : Tab Cuff
  /-- order of the next CUFF_EDGE to arrive (R79) -/
  edgeSeq : Nat
  sp      : Tab SensorPort
  ev      : EvUnit
  hx      : Hx
  arr     : Arr
  /-- queues by number -/
  qs      : Tab Queue
  sm      : Smm
  net     : Net
  ft      : Ft
  en      : En
  fb      : Fb
  cg      : Cg
  fl      : Fl
  ot      : Ot
  sc      : Sc
  cc      : Cc
  rs      : Rs
  hi      : Hi
  lc      : Lc
  /-- fault records under way to the fault unit, oldest first (R415) -/
  faults  : List FaultRec
  /-- what left the part, oldest first -/
  out     : List Out
  /-- uses of free values so far (the model's own field) -/
  freeCtr : Nat
  /-- commands waiting, first in first out (the model's own field) -/
  pending : List Instr
deriving DecidableEq, Repr

/-- The block right after reset. -/
def State.reset : State :=
  { regs := [], mem := [], syn := [], yk := Yoke.reset, mke := MkEng.reset, cuffs := [], edgeSeq := 0,
    sp := [], ev := EvUnit.reset, hx := Hx.idle, arr := Arr.reset, qs := [], sm := Smm.reset, net := Net.reset, ft := Ft.reset, en := En.reset, fb := Fb.reset, cg := Cg.reset, fl := Fl.reset, ot := Ot.reset, sc := Sc.reset, cc := Cc.reset, rs := Rs.reset, hi := Hi.reset, lc := Lc.reset,
    faults := [],
    out := [], freeCtr := 0, pending := [] }

end Sys2Proof.Machine
end

