-- ==== Sys2Proof/Machine/Ops.lean ====
section
/-! DEFINITION. The operations over registers and memory that every block shares. -/

namespace Sys2Proof.Machine

/-! Registers -/

/-- The index of an offset in an array of registers. -/
def regIx (base n stride a : Nat) : Option Nat :=
  if base ≤ a ∧ a < base + n * stride ∧ (a - base) % stride = 0 then some ((a - base) / stride) else none

/-- The value a register holds. -/
def State.rg (s : State) (a : Nat) : Word := Tab.get regReset s.regs a

/-- A register set by the part itself: the value is stored as it is. -/
def State.setRg (s : State) (a : Nat) (v : Word) : State := { s with regs := Tab.put regReset s.regs a v }

/-- A field of a register. -/
def State.rf (s : State) (a : Nat) (f : Fld) : Nat := f.get (s.rg a)

/-- A one-bit field of a register. -/
def State.rb (s : State) (a : Nat) (f : Fld) : Bool := f.bit (s.rg a)

/-- A field of a register set by the part. -/
def State.setRf (s : State) (a : Nat) (f : Fld) (x : Nat) : State := s.setRg a (f.put (s.rg a) x)

/-- A one-bit field set by the part. -/
def State.setRb (s : State) (a : Nat) (f : Fld) (x : Bool) : State := s.setRf a f (b2n x)

/-- A saturating counter field increased (counts "saturating"). -/
def State.bump (s : State) (a : Nat) (f : Fld) (k : Nat) : State :=
  s.setRf a f (satN (2 ^ f.w - 1) (s.rf a f + k))

/-- A pair of registers read as one 64-bit number: low word, high word. -/
def State.rg64 (s : State) (lo hi : Nat) : Nat := (s.rg lo).toNat + 2 ^ 32 * (s.rg hi).toNat

/-- A 64-bit number stored into a pair of registers. -/
def State.setRg64 (s : State) (lo hi : Nat) (x : Nat) : State := (s.setRg lo (w32 x)).setRg hi (w32 (x / 2 ^ 32))

/-- What a write of the bus stores by the access codes alone (R5, R7); an unbacked offset stores nothing. -/
def State.store (s : State) (a : Nat) (v : Word) : State :=
  match findReg a with
  | some d => s.setRg a (d.write (s.rg a) v)
  | none => s

/-- The RC bits of a register cleared by a read (R5). -/
def State.readClear (s : State) (a : Nat) : State :=
  match findReg a with
  | some d => if d.rc = 0 then s else s.setRg a (d.afterRead (s.rg a))
  | none => s

/-- The registers of the offsets from `lo` up to and without `hi` returned to their reset values as a reach returns
them (R6). -/
def State.clearRegs (s : State) (rch : Reach) (lo hi : Nat) : State :=
  { s with regs := Tab.mapKeep regReset (fun a v => if lo ≤ a ∧ a < hi then clearReg rch a v else v) s.regs }

/-! Time and free values -/

/-- YK_TIME, the YCLK count. -/
def State.now (s : State) : Nat := s.yk.time.toNat

/-- Something that left the part. -/
def State.emit (s : State) (o : Out) : State := { s with out := s.out ++ [o] }

/-- One free value used. -/
def State.tick (s : State) : State := { s with freeCtr := s.freeCtr + 1 }

/-! Memory. The model keeps all memories in one byte space; each memory group of Table SM-3 and the flash and OTP
arrays have a base of their own in it. -/

/-- Stream memory, 48 MiB (R223). -/
def memSMB : Nat := 0
/-- PE local memory, 8 KiB for each of 1,600 physical PEs (R93). -/
def memLM : Nat := 0x10000000
/-- Block RAM, 240 blocks; 8 KiB of the model's space each (R254). -/
def memBRAM : Nat := 0x20000000
/-- Core memory, 512 KiB (R399). -/
def memCore : Nat := 0x30000000
/-- Pleat store (R134). -/
def memPleat : Nat := 0x40000000
/-- Configuration memory (R272). -/
def memCfg : Nat := 0x50000000
/-- The flash array, 64 MiB (R308). -/
def memFlash : Nat := 0x60000000

/-- What a byte of memory that nothing has written reads as: 0 after the fill of R233, and 0xFF in erased flash. -/
def memDefault (a : Nat) : Byte := if memFlash ≤ a ∧ a < memFlash + 0x4000000 then 0xFF else 0

/-- One byte of memory. -/
def State.byteAt (s : State) (a : Nat) : Byte := Tab.get memDefault s.mem a

/-- One byte of memory written. -/
def State.setByte (s : State) (a : Nat) (v : Byte) : State := { s with mem := Tab.put memDefault s.mem a v }

/-- `n` bytes from an address, lowest first. -/
def State.bytesAt (s : State) (a n : Nat) : List Byte := (List.range n).map (fun i => s.byteAt (a + i))

/-- Bytes stored from an address upward. -/
def State.setBytes (s : State) (a : Nat) : List Byte → State
  | [] => s
  | b :: r => State.setBytes (s.setByte a b) (a + 1) r

/-- A little-endian number of `n` bytes (R4). -/
def State.numAt (s : State) (a n : Nat) : Nat := ofBytesLE (s.bytesAt a n)

/-- A little-endian number of `n` bytes stored (R4). -/
def State.setNum (s : State) (a n x : Nat) : State := s.setBytes a (bytesLE n x)

/-- The canonical form of the memory. -/
abbrev Memory.wf (m : List Host.Cell) : Bool := Tab.wf memDefault m

/-! Records of the blocks -/

/-- Axis n. -/
def State.ax (s : State) (n : Nat) : Axis := Tab.get (fun _ => Axis.idle) s.yk.axes n
/-- Axis n replaced. -/
def State.setAx (s : State) (n : Nat) (x : Axis) : State :=
  { s with yk := { s.yk with axes := Tab.put (fun _ => Axis.idle) s.yk.axes n x } }
/-- Mark n. -/
def State.mark (s : State) (n : Nat) : Mark := Tab.get (fun _ => Mark.idle) s.mke.marks n
/-- Mark n replaced. -/
def State.setMark (s : State) (n : Nat) (x : Mark) : State :=
  { s with mke := { s.mke with marks := Tab.put (fun _ => Mark.idle) s.mke.marks n x } }
/-- Mark engine state of axis a. -/
def State.mkAx (s : State) (a : Nat) : MkAxis := Tab.get (fun _ => MkAxis.idle) s.mke.axes a
/-- Mark engine state of axis a replaced. -/
def State.setMkAx (s : State) (a : Nat) (x : MkAxis) : State :=
  { s with mke := { s.mke with axes := Tab.put (fun _ => MkAxis.idle) s.mke.axes a x } }
/-- Cuff n. -/
def State.cuff (s : State) (n : Nat) : Cuff := Tab.get (fun _ => Cuff.idle) s.cuffs n
/-- Cuff n replaced. -/
def State.setCuff (s : State) (n : Nat) (x : Cuff) : State :=
  { s with cuffs := Tab.put (fun _ => Cuff.idle) s.cuffs n x }
/-- Sensor port p. -/
def State.spr (s : State) (p : Nat) : SensorPort := Tab.get (fun _ => SensorPort.idle) s.sp p
/-- Sensor port p replaced. -/
def State.setSpr (s : State) (p : Nat) (x : SensorPort) : State :=
  { s with sp := Tab.put (fun _ => SensorPort.idle) s.sp p x }
/-- Event ring r. -/
def State.ring (s : State) (r : Nat) : EvRing := Tab.get (fun _ => EvRing.idle) s.ev.rings r
/-- Event ring r replaced. -/
def State.setRing (s : State) (r : Nat) (x : EvRing) : State :=
  { s with ev := { s.ev with rings := Tab.put (fun _ => EvRing.idle) s.ev.rings r x } }

/-- A configuration region's state beside its registers. -/
def State.cgr (s : State) (r : Nat) : Region := Tab.get (fun _ => Region.idle) s.cg.regions r
/-- That replaced. -/
def State.setCgr (s : State) (r : Nat) (x : Region) : State :=
  { s with cg := { s.cg with regions := Tab.put (fun _ => Region.idle) s.cg.regions r x } }

/-- The enabled protection group that holds a tile (R416). -/
def State.tileGroup (s : State) (t : Nat) : Option Nat :=
  (List.range 32).find? (fun g =>
    let m := if t < 32 then R.FT_GRP_MASK_W0 g else if t < 64 then R.FT_GRP_MASK_W1 g else R.FT_GRP_MASK_W2 g
    s.rb (R.FT_GRP_CFG g) F.FT_GRP_CFG_EN && wbit (s.rg m) (t % 32))

/-- The MODE of that group; 0 unprotected. -/
def State.tileMode (s : State) (t : Nat) : Nat :=
  match s.tileGroup t with
  | some g => s.rf (R.FT_GRP_CFG g) F.FT_GRP_CFG_MODE
  | none => 0

/-- The state that an outcome leaves: its next state, or the state before where there is none. -/
def State.after (s : State) (o : Host.Outcome State Fault Refusal) : State :=
  match o with
  | .next t => t
  | _ => s

/-- A fold over a list of indices, left to right. -/
def State.each (s : State) (l : List Nat) (f : Nat → State → State) : State := l.foldl (fun t i => f i t) s

/-- The step that releases a block of Table AM-1 (Table RS-4), and whether a Run reset covers it. -/
def blockStep (b : Nat) : Nat × Bool :=
  match b with
  | 2 | 3 | 4 => (4, false)
  | 5 | 6 => (9, true)
  | 7 | 8 | 16 => (3, true)
  | 10 => (8, true)
  | 11 => (7, false)
  | 14 => (5, false)
  | 15 | 21 => (10, true)
  | 19 => (6, true)
  | 0 | 1 => (0, false)
  | _ => (3, false)

/-- Is a block held in reset by a sequence? -/
def State.blkHeld (s : State) (b : Nat) : Bool :=
  match s.rs.seq with
  | none => false
  | some q =>
    let (k, run) := blockStep b
    if q.reach = 2 then run && decide (q.step < k) else decide (q.step < k) && !(q.half && k == 3 && !run)

/-- A block reset (R456, last row of Table RS-5): ignored while a sequence holds the block. -/
def State.blkRst (s : State) (b : Nat) (t : State) : State := if s.blkHeld b then s else t

end Sys2Proof.Machine
end

