-- ==== Sys2Proof/Machine/Events.lean ====
section
/-! DEFINITION. The event unit (12_host_partners_events.md, R384–R388, R510): sources, records, rings, MSI-X. Every
block raises its pending bits through `State.raise`, so that a record is written in one place. -/

namespace Sys2Proof.Machine

/-- The register whose bits are pending flags, and its first source (Table EV-1). -/
def evtRegs : List (Nat × Nat × Nat) :=
  [(R.YK_EVT, 1024, 32), (R.MK_EVT, 1056, 25), (R.CF_EVT, 1088, 4), (R.AR_EVT, 1096, 5), (R.PL_EVT, 1104, 10),
   (R.SQ_EVT, 1160, 6), (R.NW_EVT, 1168, 9), (R.DB_EVT, 1180, 2), (R.SM_EVT, 1184, 9), (R.FB_EVT, 1200, 8),
   (R.FB_UEVT_PEND, 1208, 16), (R.CG_EVT, 1232, 11), (R.FL_EVT, 1248, 4), (R.SC_EVT, 1256, 6), (R.FT_EVT, 1264, 16),
   (R.FT_GRP_PEND, 1280, 32), (R.LC_EVT, 1328, 12), (R.HI_EVT, 1360, 9), (R.RS_EVT, 1392, 4), (R.PW_EVT, 1400, 5),
   (R.CK_EVT, 1412, 4), (R.CC_EVT, 1424, 6), (R.HX_EVT, 1456, 14)]

/-- The first source and the width of a pending register, for the registers of one source a bit; EV_MK_PEND[g] holds
sources 32g to 32g + 31 (R384). -/
def evtBase (a : Nat) : Option (Nat × Nat) :=
  if R.EV_MK_PEND 0 ≤ a ∧ a < R.EV_MK_PEND 32 then some (8 * (a - R.EV_MK_PEND 0), 32)
  else (evtRegs.find? (fun e => e.1 == a)).map (fun e => e.2)

/-- The pending register and mask of a source (R384); none for a reserved source. An SQ_THR source is the OR of its
register (R510). -/
def srcReg (src : Nat) : Option (Nat × Nat) :=
  if src < 1024 then some (R.EV_MK_PEND (src / 32), 1 <<< (src % 32))
  else if 1120 ≤ src ∧ src < 1157 then some (R.SQ_THR_PEND (src - 1120), 0xFFFFFFFF)
  else (evtRegs.find? (fun e => e.2.1 ≤ src && decide (src < e.2.1 + e.2.2))).map
         (fun e => (e.1, 1 <<< (src - e.2.1)))

/-- The pending flag of a source (R384). -/
def State.srcPending (s : State) (src : Nat) : Bool :=
  match srcReg src with
  | some (a, m) => (s.rg a).toNat &&& m != 0
  | none => false

/-- The latched mode is QV (R1). -/
def State.qvMode (s : State) : Bool := s.rb R.GL_STAT F.GL_STAT_MODE

/-- Is a source enabled? -/
def State.srcEn (s : State) (src : Nat) : Bool := s.rb (R.EV_SRC_CFG src) F.EV_SRC_CFG_EN

/-- The three words of a record that depend on its source (Table EV-2): flags and DETAIL of word 0, words 2 and 3. -/
structure EvData where
  late   : Bool
  hold   : Bool
  detail : Nat
  w2     : Word
  w3     : Word
deriving DecidableEq, Repr

/-- Word 0 of a record (Table EV-2). -/
def evWord0 (src : Nat) (phase coal : Bool) (d : EvData) : Word :=
  w32 (src % 2048 + 2048 * b2n phase + 4096 * b2n d.late + 8192 * b2n d.hold + 16384 * b2n coal
       + 65536 * (d.detail % 65536))

/-- The MSI-X message of a ring sent (R386); a message whose vector is masked waits in the PBA (PCIe format). -/
def State.sendMsix (s : State) (v : Nat) : State :=
  if s.rb (R.HI_MSIX_CTL v) F.HI_MSIX_CTL_MASK then
    s.setRg (R.HI_MSIX_PBA (v / 32)) (w32 ((s.rg (R.HI_MSIX_PBA (v / 32))).toNat ||| 1 <<< (v % 32)))
  else s.emit (.msix v)

/-- One record written into ring `r`, which has room (R385, R386). -/
def State.ringWrite (s : State) (r src : Nat) (coal : Bool) (d : EvData) : State :=
  let k := s.ring r
  let tail := s.rf (R.EV_RING_STAT r) F.EV_RING_STAT_TAIL
  let size := 2 ^ s.rf (R.EV_RING_CFG r) F.EV_RING_CFG_SIZE
  let base := s.rg64 (R.EV_RING_BASE_LO r) (R.EV_RING_BASE_HI r)
  let next := (tail + 1) % size
  let s1 := s.emit (.hostWrite (base + 16 * tail) [evWord0 src k.phase coal d, w32 s.now, d.w2, d.w3])
  let s2 := s1.setRf (R.EV_RING_STAT r) F.EV_RING_STAT_TAIL next
  let uns := k.unsig + 1
  let first := if k.unsig = 0 then s.now else k.firstAt
  let k1 := { k with unread := k.unread + 1, phase := if next = 0 then !k.phase else k.phase }
  if s.rb (R.EV_RING_CFG r) F.EV_RING_CFG_IRQ_EN ∧ s.rf (R.EV_RING_MOD r) F.EV_RING_MOD_MOD_CNT ≤ uns then
    (s2.setRing r { k1 with unsig := 0, firstAt := first }).sendMsix r
  else s2.setRing r { k1 with unsig := uns, firstAt := first }

/-- A record for a source attempted: written where the ring is enabled and has room, else counted in OVF (R387).
The answer says whether it was written. -/
def State.tryRecord (s : State) (src : Nat) (d : EvData) : State × Bool :=
  let r := s.rf (R.EV_SRC_CFG src) F.EV_SRC_CFG_RING
  let coal := s.ev.coal.contains src
  if s.rb (R.EV_RING_CFG r) F.EV_RING_CFG_EN ∧ (s.ring r).unread < 2 ^ s.rf (R.EV_RING_CFG r) F.EV_RING_CFG_SIZE then
    let s1 := s.ringWrite r src coal d
    ({ s1 with ev := { s1.ev with coal := s1.ev.coal.filter (· != src) } }, true)
  else (s.bump (R.EV_RING_STAT r) F.EV_RING_STAT_OVF 1, false)

/-- The next record of a source carries COAL (R385). -/
def State.addCoal (s : State) (src : Nat) : State :=
  if s.ev.coal.contains src then s else { s with ev := { s.ev with coal := s.ev.coal ++ [src] } }

/-- A source's flag has risen: its record is written in QV mode when it is enabled, and AUTOCLR clears the flag once
the record has been written (R385, R387, R388). -/
def State.record (s : State) (src : Nat) (d : EvData) : State :=
  if s.qvMode ∧ s.srcEn src then
    let (s1, ok) := s.tryRecord src d
    if ok ∧ s.rb (R.EV_SRC_CFG src) F.EV_SRC_CFG_AUTOCLR then
      match srcReg src with
      | some (a, m) => s1.setRg a (w32 (andNot (s1.rg a).toNat m))
      | none => s1
    else s1
  else s

/-- Bits of a pending register set by the part: bits already 1 mark COAL, bits that rise write a record in ascending
source order (R385, Table EV-3). Word 2 of each record is the register as it stands when the flags set. -/
def State.raise (s : State) (a m : Nat) : State :=
  let old := (s.rg a).toNat
  let now := old ||| m
  let s1 := s.setRg a (w32 now)
  match evtBase a with
  | none => s1
  | some (b, w) =>
    s1.each (bitList w m) (fun i t =>
      if old.testBit i then t.addCoal (b + i)
      else t.record (b + i) { late := false, hold := false, detail := 0, w2 := w32 now, w3 := 0 })

/-- One bit of a pending register set. -/
def State.raiseF (s : State) (a : Nat) (f : Fld) : State := s.raise a (1 <<< f.lo)

/-- One bit with its own words 0, 2 and 3 (marks and HI_BREACH, Table EV-2). -/
def State.raiseWith (s : State) (a i : Nat) (d : EvData) : State :=
  let old := (s.rg a).toNat
  let s1 := s.setRg a (w32 (setBit old i))
  match evtBase a with
  | none => s1
  | some (b, _) => if old.testBit i then s1.addCoal (b + i) else s1.record (b + i) d

/-- The threshold event of a queue (R170, R510): a bit that sets while another bit of its register is 1 is a setting
that finds the flag 1. AUTOCLR clears only the bits that word 2 holds. -/
def State.raiseThr (s : State) (q : Nat) : State :=
  let g := q / 32
  let a := R.SQ_THR_PEND g
  let old := (s.rg a).toNat
  let now := setBit old (q % 32)
  let s1 := s.setRg a (w32 now)
  if old != 0 then s1.addCoal (1120 + g)
  else s1.record (1120 + g) { late := false, hold := false, detail := q, w2 := w32 now, w3 := 0 }

/-- The data of a record for a source whose flag is already 1 (R385: enabling a pending source): words as at a setting
now. A mark's LATENESS and FIRES are those of its last firing. -/
def State.evDataOf (s : State) (src : Nat) : EvData :=
  if src < 1024 then
    let m := s.mark src
    { late := m.late, hold := m.hold, detail := m.ent.axis, w2 := w32 m.lateness, w3 := w32 (m.fires + 65536 * m.remain) }
  else match srcReg src with
    | some (a, _) =>
      { late := false, hold := false,
        detail := if 1120 ≤ src ∧ src < 1157 then
                    32 * (src - 1120) + ((bitList 32 (s.rg a).toNat).head?.getD 0) else 0,
        w2 := s.rg a, w3 := 0 }
    | none => { late := false, hold := false, detail := 0, w2 := 0, w3 := 0 }

/-- EV_SRC_CFG_WRITE (R385): enabling a source whose flag is 1 writes a record at once. -/
def execEvSrcCfgWrite (src : Fin 1536) (v : Word) (s : State) : Host.Outcome State Fault Refusal :=
  let was := s.srcEn src.val
  let s1 := s.store (R.EV_SRC_CFG src.val) v
  .next (if !was ∧ s1.srcEn src.val ∧ s1.srcPending src.val then s1.record src.val (s1.evDataOf src.val) else s1)

/-- EVENT_MODERATION_TIMEOUT (R386): MOD_US after the first record not yet signalled, the message is sent. MOD_US 0 is
no timeout. -/
def execEventModerationTimeout (ring : Fin 64) (s : State) : Host.Outcome State Fault Refusal :=
  let r := ring.val
  let k := s.ring r
  let us := s.rf (R.EV_RING_MOD r) F.EV_RING_MOD_MOD_US
  .next (if 0 < k.unsig ∧ us ≠ 0 ∧ s.rb (R.EV_RING_CFG r) F.EV_RING_CFG_IRQ_EN ∧ k.firstAt + 500 * us ≤ s.now then
    (s.setRing r { k with unsig := 0 }).sendMsix r else s)

/-- nIRQ in HX mode: low while CTRL.IRQ_EN is 1 and any enabled source is pending (R388, R468). -/
def State.nIrqLow (s : State) : Bool :=
  !s.qvMode && (s.rg (R.HX_MAP 2)).toNat.testBit 1 &&
    (List.range 1536).any (fun k => s.srcEn k && s.srcPending k)

end Sys2Proof.Machine
end

