-- ==== Sys2Proof/Machine/HiBase.lean ====
section
/-! DEFINITION. How descriptors end (12_host_partners_events.md, R360–R367), for every block that a descriptor's work passes
through. The descriptors themselves are in Host.lean. -/

namespace Sys2Proof.Machine

/-- Queue pair q. -/
def State.qp (s : State) (q : Nat) : Qp := Tab.get (fun _ => Qp.idle) s.hi.qps q
/-- Queue pair q replaced. -/
def State.setQp (s : State) (q : Nat) (x : Qp) : State :=
  { s with hi := { s.hi with qps := Tab.put (fun _ => Qp.idle) s.hi.qps q x } }

/-- A field of a descriptor's word. -/
def Desc.fld (d : Desc) (k lo w : Nat) : Nat := bitsOf (d.w.getD k 0).toNat lo w
/-- The operation of a descriptor (R361). -/
def Desc.op (d : Desc) : Nat := d.fld 0 0 8
/-- A 64-bit operand: low word k, high word k + 1. -/
def Desc.num (d : Desc) (k : Nat) : Nat := d.fld k 0 32 + 2 ^ 32 * d.fld (k + 1) 0 32

/-- A descriptor in flight. -/
def State.desc (s : State) (q dseq : Nat) : Option Desc := (s.qp q).infl.find? (fun d => d.dseq == dseq)
/-- That descriptor replaced. -/
def State.setDesc (s : State) (q : Nat) (d : Desc) : State :=
  let k := s.qp q
  s.setQp q { k with infl := k.infl.map (fun e => if e.dseq = d.dseq then d else e) }

/-- The four words of a record but for PHASE (Table HI-4). -/
def recWords (dseq status code units ckpt oseq : Nat) : List Word :=
  [w32 dseq, w32 (units % 2 ^ 24 + 2 ^ 24 * code), w32 ckpt, w32 (oseq % 2 ^ 28 + 2 ^ 28 * status)]

/-- The finished records of a queue pair that find no room in its ring: they wait (R367). -/
def State.recsWait (s : State) (q : Nat) : Nat :=
  (s.qp q).recs.length + (s.qp q).unread - 2 ^ s.rf (R.HI_QP_CFG q) F.HI_QP_CFG_CQ_SIZE

/-- A finished record put behind those that wait (R367); one that finds no room in its ring sets CQ_FULL. -/
def State.addRec (s : State) (q : Nat) (words : List Word) (irq : Bool) : State :=
  let k := s.qp q
  let s1 := s.setQp q { k with recs := k.recs ++ [{ words := words, irq := irq }] }
  if 0 < s1.recsWait q then s1.raiseF R.HI_EVT F.HI_EVT_CQ_FULL else s1

/-- A descriptor ended: STATUS 0 OK, 1 PARTIAL, 2 ERROR, 3 ABORTED; a CODE of Table HI-5; UNITS, CKPT and OSEQ (R363, R364). -/
def State.descEnd (s : State) (q dseq status code units ckpt oseq : Nat) : State :=
  match s.desc q dseq with
  | none => s
  | some d =>
    let k := s.qp q
    let s1 := s.setQp q { k with infl := k.infl.filter (fun e => e.dseq != dseq) }
    let s2 : State := { s1 with hi := { s1.hi with folds := s1.hi.folds.filter (fun f => !(f.qp == q && f.dseq == dseq)) } }
    s2.addRec q (recWords dseq status code units ckpt oseq) (d.fld 0 8 1 == 1)

/-! FOLD_AT -/

/-- The mark of a FOLD_AT rewritten or disarmed before it fired (Table HI-5 SUPERSEDED); a committed action stands (Table MK-5). -/
def State.hiMarkGone (s : State) (n : Nat) : State :=
  (s.hi.folds.filter (fun f => f.mark == n && !f.fired)).foldl (fun t f => t.descEnd f.qp f.dseq 3 17 0 0 0) s

/-- Every such mark, where every mark is disarmed. -/
def State.hiMarksGone (s : State) : State :=
  (s.hi.folds.filter (fun f => !f.fired)).foldl (fun t f => t.descEnd f.qp f.dseq 3 17 0 0 0) s

/-- The FOLD_AT descriptor of an entry that takes effect: it waits for the firing of its mark, or ends SUPERSEDED where the entry comes into force
with ARM 0 (Table MK-5). -/
def State.hiFoldIn (s : State) (n : Nat) (arm : Bool) (fold : Option (Nat × Nat)) : State :=
  match fold with
  | none => s
  | some d =>
    if arm then { s with hi := { s.hi with folds := s.hi.folds ++ [{ mark := n, qp := d.1, dseq := d.2, fired := false }] } }
    else s.descEnd d.1 d.2 3 17 0 0 0

/-- A mark commits. -/
def State.hiCommit (s : State) (n : Nat) : State :=
  { s with hi := { s.hi with folds := s.hi.folds.map (fun f => if f.mark = n then { f with fired := true } else f) } }

/-- The descriptor whose mark's FOLD action leaves the engine. -/
def State.hiFired (s : State) (n : Nat) : Option (Nat × Nat) :=
  (s.hi.folds.find? (fun f => f.mark == n && f.fired)).map (fun f => (f.qp, f.dseq))

/-- The fold of a FOLD_AT issued: OK, its SEQ in OSEQ and the mark's LATENESS in CKPT (R364). -/
def State.hiFoldDone (s : State) (d : Option (Nat × Nat × Nat)) (seq : Nat) : State :=
  match d with
  | some (q, dseq, late) => s.descEnd q dseq 0 0 1 late seq
  | none => s

/-- The fold of a FOLD_AT refused with a Table PL-3 code. -/
def State.hiFoldRefused (s : State) (d : Option (Nat × Nat × Nat)) (code : Nat) : State :=
  match d with
  | some (q, dseq, _) => s.descEnd q dseq 2 14 0 code 0
  | none => s

/-! LOAD_PLEATS -/

/-- A tile of a LOAD_PLEATS has been loaded. -/
def State.hiTile (s : State) (src : Option (Nat × Nat)) : State :=
  match src with
  | none => s
  | some (q, dseq) => match s.desc q dseq with
    | some d => s.setDesc q { d with units := d.units + 1 }
    | none => s

/-- A LOAD_PLEATS over with a PL_LOAD_STAT.STATUS (Table HI-5 LOAD). -/
def State.hiLoaded (s : State) (src : Option (Nat × Nat)) (st : Nat) : State :=
  match src with
  | none => s
  | some (q, dseq) => match s.desc q dseq with
    | some d => if st = 0 then s.descEnd q dseq 0 0 d.units d.units 0 else s.descEnd q dseq 2 15 d.units st 0
    | none => s

/-! Rings and partners -/

/-- Where a queue pair stands: 0 DISABLED, 1 ACTIVE, 2 DRAINING (R366). -/
def State.qpState (s : State) (q : Nat) : Nat :=
  let k := s.qp q
  if s.rb (R.HI_QP_CFG q) F.HI_QP_CFG_EN then 1 else if k.infl.isEmpty && k.recs.isEmpty then 0 else 2

/-- HI_QP_STAT[q]. -/
def State.hiQpStat (s : State) (q : Nat) : Word :=
  let k := s.qp q
  w32 (s.qpState q + 4 * b2n (decide (0 < s.recsWait q)) + 256 * k.infl.length
    + 2 ^ 16 * (k.next % 2 ^ s.rf (R.HI_QP_CFG q) F.HI_QP_CFG_SQ_SIZE))

/-! PCIe requests -/

/-- Parts that have their responses, passed on in order (`held`: requests with an earlier part still open): a read returns its
words or Completer Abort, a failed write is dropped and noted (R356, R506). The answer keeps the parts that stay. -/
def State.mmioGo (t : State) (held : List Nat) : List Mmio → State × List Mmio
  | [] => (t, [])
  | m :: r =>
    match m.done with
    | none => let (u, k) := t.mmioGo (m.req :: held) r; (u, m :: k)
    | some (bad, ws) =>
      if held.contains m.req then let (u, k) := t.mmioGo held r; (u, m :: k)
      else if m.read then State.mmioGo (t.emit (.pcie bad (if bad then [] else (ws.drop m.skip).take m.cnt))) held r
      else State.mmioGo (if bad then t.raiseF R.HI_EVT F.HI_EVT_MMIO_ERR else t) held r

/-- The same over every part under way. -/
def State.mmioFlush (s : State) : State :=
  let (t, keep) := s.mmioGo [] s.hi.mmio
  { t with hi := { t.hi with mmio := keep } }

/-- The eight words of a data unit. -/
def unitWords (u : BitVec 256) : List Word := (List.range 8).map (fun i => w32 (u.toNat / 2 ^ (32 * i)))

/-- A response to the host interface (R356). -/
def State.hiResponse (s : State) (key status : Nat) (data : List (BitVec 256)) : State :=
  ({ s with hi := { s.hi with mmio := s.hi.mmio.map (fun m =>
      if m.key = some key ∧ m.done.isNone then { m with done := some (status != 0, data.flatMap unitWords) } else m) } } : State).mmioFlush

end Sys2Proof.Machine
end

