-- ==== Sys2Proof/Machine/HxBase.lean ====
section
/-! DEFINITION. What the HX bus unit takes of the Yoke, the marks and the Cuffs (16_hx_compatibility.md, R462, R470–R474,
R482), and what an update of its axis and a capture do to it. The register view itself is in Hx.lean. -/

namespace Sys2Proof.Machine

/-- The resources that serve the HX view (R462, R470, R482). -/
structure HxParm where
  on    : Bool
  axis  : Nat
  mbase : Nat
  slot  : Nat
  cap   : Nat
  outB  : Nat
  inA   : Nat
  inB   : Nat
  inZ   : Nat
deriving DecidableEq, Repr

/-- In HX mode AX0, MK[0]–[63], slots 0–7, Cuffs 0–31; with mixed use those of HX_MIX_CFG and HX_MIX_IN. -/
def State.hxParm (s : State) : HxParm :=
  if !s.qvMode then
    { on := true, axis := 0, mbase := 0, slot := 0, cap := 8, outB := 16, inA := 0, inB := 1, inZ := 2 }
  else
    let c := s.rg R.HX_MIX_CFG
    let i := s.rg R.HX_MIX_IN
    let ob := F.HX_MIX_CFG_OUT_BASE.get c
    { on := F.HX_MIX_CFG_EN.bit c, axis := F.HX_MIX_CFG_AXIS.get c, mbase := 64 * F.HX_MIX_CFG_MBASE.get c,
      slot := 8 * F.HX_MIX_CFG_SLOT_HI.get c, cap := (ob + 16) % 128, outB := ob, inA := F.HX_MIX_IN_IN_A.get i,
      inB := F.HX_MIX_IN_IN_B.get i, inZ := F.HX_MIX_IN_IN_Z.get i }

/-- Is mark n one that stands for an image of the view (R472, R482)? -/
def State.hxMark (s : State) (n : Nat) : Bool :=
  let p := s.hxParm
  p.on && decide (p.mbase ≤ n) && decide (n < p.mbase + 64)

/-- A register of the view. -/
def State.hv (s : State) (i : Nat) : Nat := (s.rg (R.HX_MAP i)).toNat % 0x10000
/-- A register of the view set. -/
def State.setHv (s : State) (i x : Nat) : State := s.setRg (R.HX_MAP i) (w32 (x % 0x10000))
/-- A pair of view registers, low first. -/
def State.hv2 (s : State) (lo : Nat) : Nat := s.hv lo + 0x10000 * s.hv (lo + 1)

/-- The unit's modulus; 0 = linear 32-bit count (Table HX-5). -/
def State.hxMod (s : State) : Nat := s.hv2 0x16

/-- The count brought into its range (R471). -/
def State.hxWrapCount (s : State) (c : Int) : Int := c % (if s.hxMod = 0 then 0x100000000 else (s.hxMod : Int))

/-- The tick count (R471). -/
def State.hxTicks (s : State) : Nat := (s.now * 4 / 125) % 0x100000000

/-- What happened to the timer axis in one YCLK. -/
structure HxMove where
  /-- the count was set to this value (SET, AX_RST, Z preset) -/
  place : Option Int
  /-- change by edges -/
  delta : Int
  zp    : Bool
  ill   : Bool
  wrap  : Bool
deriving DecidableEq, Repr

/-- The unit's count and flags after a YCLK of its axis (R471, Table HX-4). -/
def State.hxFollow (s : State) (m : HxMove) : State :=
  let h := s.hx
  let c := s.hxWrapCount (match m.place with | some p => p | none => h.cnt + m.delta)
  let s1 : State := { s with hx := { h with cnt := c, indexed := h.indexed || m.zp } }
  let e := 0x100 * b2n m.ill + 0x200 * b2n m.zp + 0x400 * b2n m.wrap
  if e = 0 then s1 else s1.raise R.HX_EVT e

/-- A capture of the view's slot `k` (R473): count and tick at the instant, the channel flag, CAP_OVR where the flag was
still set. The slot's VALID is cleared by the unit. -/
def State.hxCapture (s : State) (k : Nat) (inst : Int) : State :=
  let p := s.hxParm
  if p.on ∧ p.slot ≤ k ∧ k < p.slot + 8 then
    let c := k - p.slot
    if s.hv (0x20 + 4 * c) % 4 = 0 then s
    else
      let pos := (s.hxWrapCount s.hx.cnt).toNat
      let tick := (inst / 4000).toNat
      let again := wbit (s.rg R.HX_EVT) c
      let s1 := ((s.setHv (0x21 + 4 * c) pos).setHv (0x22 + 4 * c) (pos / 0x10000)).setHv (0x23 + 4 * c) tick
      let s2 := s1.setRf (R.MK_CAP_STAT k) F.MK_CAP_STAT_VALID 0
      let s3 := s2.raise R.HX_EVT (1 <<< c)
      if again then s3.setHv 3 (setBit (s3.hv 3) 3) else s3
  else s

/-- Is a Cuff's output path disconnected for the HX bus (R462)? -/
def State.hxBusCuff (s : State) (n : Nat) : Bool :=
  96 ≤ n && n ≤ 125 && (!s.qvMode || (s.rb R.HX_MIX_CFG F.HX_MIX_CFG_EN && !s.rb R.HX_MIX_CFG F.HX_MIX_CFG_PATH))

/-- The instant at which a CUFF_EDGE of mark n is placed (R474). -/
def State.hxPace (s : State) (n : Nat) (inst : Int) : Int :=
  let p := s.hxParm
  if p.on ∧ p.mbase ≤ n ∧ n < p.mbase + 16 ∧ s.rb R.HX_CFG F.HX_CFG_PACE then (inst + 3999) / 4000 * 4000 + 8000 + 384
  else inst

end Sys2Proof.Machine
end

