-- ==== Sys2Proof/Machine/Image.lean ====
section
/-! DEFINITION. The layout of a configuration image (Table CG-1, R274–R276) as functions over its bytes: header fields, runs,
regions, balls, connections. A header is the list of the image's first bytes. -/

namespace Sys2Proof.Machine

/-- `n` bytes of a list from an offset. -/
def sliceB (l : List Byte) (o n : Nat) : List Byte := (l.drop o).take n

/-- A little-endian field of a header (R274). -/
def fieldB (h : List Byte) (o n : Nat) : Nat := ofBytesLE (sliceB h o n)

/-- Named fields (Table CG-1). -/
def imgMagic (h : List Byte) : Nat := fieldB h 0 4
def imgFormat (h : List Byte) : Nat := fieldB h 4 2
def imgKind (h : List Byte) : Nat := fieldB h 6 2
def imgPart (h : List Byte) : Nat := fieldB h 8 4
def imgStep (h : List Byte) : Nat := fieldB h 0xC 1
def imgRegion (h : List Byte) : Nat := fieldB h 0xD 1
def imgSeq (h : List Byte) : Nat := fieldB h 0x10 4
def imgLen (h : List Byte) : Nat := fieldB h 0x14 4
def imgRuns (h : List Byte) : Nat := fieldB h 0x18 2
def imgRegions (h : List Byte) : Nat := fieldB h 0x1A 2
def imgFrameHash (h : List Byte) : List Byte := sliceB h 0x20 48
def imgEbmOfs (h : List Byte) : Nat := fieldB h 0x50 4
def imgEbmLen (h : List Byte) : Nat := fieldB h 0x54 4
def imgEbmHash (h : List Byte) : List Byte := sliceB h 0x58 48
def imgPlanes (h : List Byte) : Nat := fieldB h 0x88 4

/-- One content run: whether of block RAM, start, count (R275). -/
structure ImgPart where
  bram  : Bool
  start : Nat
  count : Nat
deriving DecidableEq, Repr

/-- Run k of a header. -/
def imgRun (h : List Byte) (k : Nat) : ImgPart :=
  let w := fieldB h (0x300 + 8 * k) 4
  { bram := w.testBit 31, start := w % 0x10000, count := fieldB h (0x304 + 8 * k) 4 }

/-- The runs of an image in table order. -/
def imgRunList (h : List Byte) : List ImgPart := (List.range (imgRuns h)).map (imgRun h)

/-- Bytes that a run takes in the content. -/
def ImgPart.size (r : ImgPart) : Nat := r.count * (if r.bram then 4608 else 320)

/-- The units of an image's content in order: block RAM or frame, its number, its offset in the image. -/
def runUnits : List ImgPart → Nat → List (Bool × Nat × Nat)
  | [], _ => []
  | r :: rs, o => (List.range r.count).map (fun i => (r.bram, r.start + i, o + i * (if r.bram then 4608 else 320)))
      ++ runUnits rs (o + r.size)

/-- The units of an image (content begins at 0x6000). -/
def imgUnits (h : List Byte) : List (Bool × Nat × Nat) := runUnits (imgRunList h) 0x6000

/-- Bytes of all its runs. -/
def imgContent (h : List Byte) : Nat := ((imgRunList h).map ImgPart.size).foldl (· + ·) 0

/-- Runs ascend without overlap within the frames and block RAMs (R275). -/
def runsOk : List ImgPart → Bool
  | [] => true
  | r :: rs => decide (r.start + r.count ≤ (if r.bram then 240 else 36000))
      && rs.all (fun q => !(q.bram == r.bram) || decide (r.start + r.count ≤ q.start)) && runsOk rs

/-- Region k: first and last frame (R273). -/
def imgRegionAt (h : List Byte) (k : Nat) : Nat × Nat := (fieldB h (0x500 + 16 * k) 4, fieldB h (0x504 + 16 * k) 4)

/-- Regions lie in the frames and do not overlap (R273). -/
def regionsOk (h : List Byte) : Bool :=
  let l := (List.range (imgRegions h)).map (imgRegionAt h)
  decide (imgRegions h ≤ 15) && l.all (fun a => decide (a.1 ≤ a.2) && decide (a.2 < 36000))
    && (List.range l.length).all (fun i => (List.range i).all (fun j =>
          let a := l.getD i (0, 0)
          let b := l.getD j (0, 0)
          decide (a.2 < b.1) || decide (b.2 < a.1)))

/-- The REG_INIT list: FB offsets and values up to the first offset 0. -/
def imgRegInit (h : List Byte) : List (Nat × Nat) :=
  ((List.range 64).map (fun i => (fieldB h (0x100 + 8 * i) 4, fieldB h (0x104 + 8 * i) 4))).takeWhile (fun p => p.1 != 0)

/-- REG_INIT writes only FB offsets 0x0100–0x0FFF, and only in KIND 1 and 3 (R275). -/
def regInitOk (h : List Byte) : Bool :=
  (imgRegInit h).all (fun p => decide (0x100 ≤ p.1) && decide (p.1 ≤ 0xFFF))
    && ((imgRegInit h).isEmpty || imgKind h == 1 || imgKind h == 3)

/-- A KIND 3 image holds at most 2,000 frames and 16 block RAM contents (R290). -/
def hxSizeOk (h : List Byte) : Bool :=
  let sum := fun (b : Bool) => ((imgRunList h).filter (fun r => r.bram == b)).foldl (fun n r => n + r.count) 0
  decide (sum false ≤ 2000) && decide (sum true ≤ 16)

/-- IMAGE_LEN as its content gives it: with CRC; KIND 4 carries planes of 48 KiB (R275). -/
def lenOk (h : List Byte) : Bool :=
  if imgKind h = 4 then decide (1 ≤ imgPlanes h) && decide (imgPlanes h ≤ 340) && imgLen h == 0x6000 + 0xC000 * imgPlanes h + 4
  else decide (1 ≤ imgRuns h) && decide (imgRuns h ≤ 64) && imgLen h == 0x6000 + imgContent h + 4 && (imgKind h != 3 || hxSizeOk h)

/-- Step 1 of Proof (R283): the first failure by Table CG-4. This device is part 0x96, stepping B. -/
def headerBad (kind : Nat) (h : List Byte) : Option Nat :=
  if imgMagic h ≠ 0x46435651 ∨ imgFormat h ≠ 1 ∨ imgKind h ≠ kind then some 1
  else if imgPart h ≠ 0x96 ∨ 0x42 < imgStep h then some 2
  else if lenOk h ∧ (kind = 4 ∨ runsOk (imgRunList h)) ∧ regionsOk h ∧ regInitOk h then none else some 9

/-- BALL_HOLD and BALL_REGION of a user I/O ball, the region of a connection (Table CG-1); with no image, static. -/
def ballHold (h : List Byte) (b : Nat) : Nat := fieldB h (0x600 + b / 4) 1 / 4 ^ (b % 4) % 4
def ballRegion (h : List Byte) (b : Nat) : Nat := if h.isEmpty then 15 else fieldB h (0x640 + b / 2) 1 / 16 ^ (b % 2) % 16
def connRegion (h : List Byte) (c : Nat) : Nat := if h.isEmpty then 15 else fieldB h (0x6C0 + c / 2) 1 / 16 ^ (c % 2) % 16

end Sys2Proof.Machine
end

