-- ==== Sys2Proof/Machine/UserIo.lean ====
section
/-! DEFINITION. The fabric's stages, its flip-flops in reset, and the user I/O balls (08_logic_fabric.md, R246, R264–R266; 09_configuration.md,
R295). -/

namespace Sys2Proof.Machine

/-- The last stage of the fabric reached (R265). -/
def State.fbStage (s : State) : Nat := s.rf R.FB_REL_STAT F.FB_REL_STAT_STAGE

/-- What a user I/O ball is held at by the Sleeve of its region (R295): its BALL_HOLD value; none while user logic drives it. -/
def State.userBallHold (s : State) (b : Nat) : Option Nat :=
  if (s.cgr (ballRegion s.cg.hdr b)).stage = 0 then some (ballHold s.cg.hdr b) else none

/-- Is user I/O ball n out of the fabric's hands (R265, R295): before stage 1, or in a Sleeved region? -/
def State.ballHeld (s : State) (n : Nat) : Bool :=
  s.rf R.FB_REL_STAT F.FB_REL_STAT_STAGE == 0 || (s.cgr (ballRegion s.cg.hdr n)).stage == 0

/-! Flip-flops and the balls they drive -/

/-- Have the flip-flops of configuration region r on a clock left reset (R266, R297)? -/
def State.ffFree (s : State) (r clk : Nat) : Bool :=
  s.fbStage == 3 && (s.cgr r).stage == 3 && (match (s.cgr r).own with | some l => l.contains clk | none => s.fb.ffRel.contains clk)

/-- The flip-flops of word w of the plane that have left reset. -/
def State.ffMask (s : State) (w : Nat) : Word :=
  (List.range 16).foldl (fun m r => (List.range 120).foldl (fun n c =>
    if s.ffFree r c then n ||| Config.ffClocked s.cg.hdr r c w else n) m) 0

/-- Word w of the flip-flops (R246): reset values for those in reset, beside `v` for those that run. -/
def State.ffWith (s : State) (w : Nat) (v : Word) : Word :=
  let m := s.ffMask w
  (v &&& m) ||| (Config.ffInit s.cg.hdr w &&& ~~~ m)

/-- What the flip-flops of word w hold. -/
def State.ffWord (s : State) (w : Nat) : Word := s.ffWith w (s.fb.ffs.getD w 0)

/-- What the fabric drives toward user I/O ball n (R265): a flip-flop in reset drives its reset value; `lvl` and `oe` are what the logic gives. -/
def State.outOf (s : State) (n : Nat) (lvl oe : Bool) : Bool × Bool :=
  match Config.outFf s.cg.hdr n with
  | some (c, l, e) => if s.ffFree (ballRegion s.cg.hdr n) c then (lvl, oe) else (l, e)
  | none => (lvl, oe)

/-! User I/O that are no Cuffs (R264) -/

/-- User I/O ball n, 128 to 199. -/
def State.uio (s : State) (n : Nat) : UserIo := Tab.get (fun _ => UserIo.idle) s.fb.io n
def State.setUio (s : State) (n : Nat) (x : UserIo) : State :=
  { s with fb := { s.fb with io := Tab.put (fun _ => UserIo.idle) s.fb.io n x } }

/-- Does a ball serve the lanes of a sensor port whose MODE is not 0 (R264, 17_balls_and_electrical.md: user I/O 128 + 8p + 2k)? -/
def State.sensorBall (s : State) (n : Nat) : Bool :=
  decide (n < 192) && s.rf (R.SQ_SP_CFG ((n - 128) / 8)) F.SQ_SP_CFG_MODE != 0

/-- The fabric's output register for such a ball takes a level and an enable, and the ball follows it; a sensor port's ball does not, and a
ball out of the fabric's hands keeps its BALL_HOLD value (R295). -/
def State.uioDrive (s : State) (n : Nat) (lvl oe : Bool) : State :=
  let k := s.uio n
  let (l, e) := s.outOf n lvl oe
  let b := if s.sensorBall n then k.level
    else match s.userBallHold n with
      | some 0 => false
      | some 1 => true
      | some _ => k.level
      | none => if s.ballHeld n then k.level else l
  s.setUio n { k with src := l, oe := e, level := b }

end Sys2Proof.Machine
end

