-- ==== Sys2Proof/Machine/Yoke.lean ====
section
/-! DEFINITION. The Yoke (01_yoke_position_base.md): axis configuration, the input path, the tracking observer, loss,
HOLDOVER and FROZEN, the position bus. One YCLK is one OBSERVER_UPDATE, which advances YK_TIME. -/

namespace Sys2Proof.Machine

/-- One count in units of 2^-32 (R10). -/
def oneCount : Int := 0x100000000
/-- 2^-16 count in units of 2^-32. -/
def lsb16 : Int := 0x10000

/-! Configuration of an axis, read from its registers -/

/-- What the observer reads of an axis's registers. -/
structure AxCfg where
  en      : Bool
  src     : Nat
  /-- modulus in 2^-32 count; 0 = linear -/
  mod     : Nat
  dirInv  : Bool
  zMode   : Nat
  zval    : Int
  filt    : Nat
  alpha   : Nat
  beta    : Nat
  band    : Int
  rate    : Int
  swpos   : Int
  swvel   : Int
  reacqN  : Nat
  holdTmo : Nat
  ssiBits : Nat
deriving DecidableEq, Repr

/-- MOD of axis n as it stands in its registers, position format read as unsigned (R36). -/
def State.axModRaw (s : State) (n : Nat) : Nat := s.rg64 (R.YK_AX_MOD_LO n) (R.YK_AX_MOD_HI n)

/-- A modulus in the range of R36: 256.0 to 2^47 counts. -/
def modOk (m : Nat) : Bool := decide (0x1000000 ≤ m) && decide (m ≤ 0x8000000000000000)

/-- The modulus in force in 2^-32 count; 0 on a linear axis. -/
def State.axMod (s : State) (n : Nat) : Nat :=
  if s.rb (R.YK_AX_CFG n) F.YK_AX_CFG_CYCLIC then s.axModRaw n * 0x10000 else 0

/-- The registers of axis n as the observer reads them. -/
def State.axCfg (s : State) (n : Nat) : AxCfg :=
  let c := s.rg (R.YK_AX_CFG n)
  { en := F.YK_AX_CFG_EN.bit c
    src := F.YK_AX_CFG_SRC.get c
    mod := s.axMod n
    dirInv := F.YK_AX_CFG_DIRINV.bit c
    zMode := F.YK_AX_CFG_Z_MODE.get c
    zval := sext 64 (s.rg64 (R.YK_AX_ZVAL_LO n) (R.YK_AX_ZVAL_HI n)) * 0x10000
    filt := s.rf (R.YK_AX_FILT n) F.YK_AX_FILT_FILT
    alpha := s.rf (R.YK_AX_GAIN n) F.YK_AX_GAIN_ALPHA
    beta := s.rf (R.YK_AX_GAIN n) F.YK_AX_GAIN_BETA
    band := (s.rg (R.YK_AX_HYST n)).toNat * 0x10000
    rate := sext 40 (s.rg64 (R.YK_AX_RATE_LO n) (R.YK_AX_RATE_HI n))
    swpos := sext 64 (s.rg64 (R.YK_AX_SWPOS_LO n) (R.YK_AX_SWPOS_HI n)) * 0x10000
    swvel := sext 40 (s.rg64 (R.YK_AX_SWVEL_LO n) (R.YK_AX_SWVEL_HI n))
    reacqN := max 1 (s.rf (R.YK_AX_LOSSCFG n) F.YK_AX_LOSSCFG_REACQ_N)
    holdTmo := (s.rg (R.YK_AX_HOLD_TMO n)).toNat
    ssiBits := s.rf (R.YK_AX_SSI n) F.YK_AX_SSI_BITS }

/-- A position difference: modulo MOD into (-MOD/2, MOD/2] on a cyclic axis (R37). -/
def mdiff (mod : Nat) (d : Int) : Int :=
  if mod = 0 then d
  else let r := d % mod; if 2 * r > mod then r - mod else r

/-- A placed position brought into [0, MOD) on a cyclic axis (R32, R36). -/
def mplace (mod : Nat) (p : Int) : Int := if mod = 0 then p else p % mod

/-- The difference of an SSI measurement, modulo 2^BITS counts into [-2^(BITS-1), 2^(BITS-1)) (R23), and on a cyclic axis modulo MOD after that;
any other source's by R37. -/
def AxCfg.diff (c : AxCfg) (d : Int) : Int :=
  if c.src = 2 then
    let m : Int := (2 ^ c.ssiBits : Nat) * oneCount
    let r := (d + m / 2) % m
    mdiff c.mod (r - m / 2)
  else mdiff c.mod d

/-- Sources decoded from edges: R17, R18 and LOSS_MULT apply to them. -/
def AxCfg.decoded (c : AxCfg) : Bool := c.src == 1 || c.src == 5
/-- Sources whose start-up is that of R34. -/
def AxCfg.sampled (c : AxCfg) : Bool := c.src == 2 || c.src == 3 || c.src == 4 || c.src == 7

/-! Register writes -/

/-- A refused axis write: the bit of the axis in YK_CFG_ERR sets, the register keeps its value (R9). -/
def State.axRefuse (s : State) (n : Nat) : State :=
  s.setRg R.YK_CFG_ERR (w32 (setBit (s.rg R.YK_CFG_ERR).toNat n))

/-- An axis at the start of its motion (R34, R47): position 0.0, velocity 0, DIR up, nothing measured yet. Edges that are still in the input
path stay under way (R14). -/
def Axis.start (a : Axis) (c : AxCfg) : Axis :=
  { a with p := 0, v := 0, down := false, ext := 0, lat := 0, latValid := false, latUp := true, mPos := 0, ve := 0,
           startN := if c.sampled then 0 else 2, armed := false, reacq := 0, resumed := false, now := [],
           meas := none, crcRun := 0, ssiT0 := none, scAng := none, scPos := 0, lock := false, trk := 0 }

/-- The level that the decoder sees at an input whose ball stands at `ball`: the level before the oldest edge still in the input path (R14, R15). -/
def Axis.seen (a : Axis) (role : InRole) (ball : Bool) : Bool :=
  match a.edges.find? (fun e => decide (e.role = role)) with
  | some e => !e.level
  | none => ball

/-- The input path at the moment an axis is enabled: edges whose delivery time has passed are gone, and the decoder takes the levels it sees
at A and B (R14, R15). -/
def State.axLevels (s : State) (n : Nat) (a : Axis) : Axis :=
  let b : Axis := { a with edges := a.edges.filter (fun e => decide (s.now ≤ e.cyc + 4 + s.rf (R.YK_AX_FILT n) F.YK_AX_FILT_FILT)) }
  { b with lvA := b.seen .a (s.cuff (s.rf (R.YK_AX_IN n) F.YK_AX_IN_IN_A)).inp,
           lvB := b.seen .b (s.cuff (s.rf (R.YK_AX_IN n) F.YK_AX_IN_IN_B)).inp }

/-- The position of a cyclic axis brought into [0, MOD): each wrap counts in TURNS and shows on the bus (R36), also one that a second
measurement or a reacquire makes on its nearest way; the first measurement after enable is a placement and counts none (DESIGN CHOICE,
log entry 141). A linear axis that passes its range saturates there and the answer's flag says so (R11). -/
def Axis.commit (a : Axis) (mod : Nat) (p : Int) : Axis × Bool :=
  if mod = 0 then
    let hi : Int := 0x80000000000000000000 - lsb16
    let lo : Int := -0x80000000000000000000
    if p > hi then ({ a with p := hi }, true)
    else if p < lo then ({ a with p := lo }, true)
    else ({ a with p := p }, false)
  else
    let q := p / mod
    if q = 0 then ({ a with p := p }, false)
    else ({ a with p := p % mod, turns := w32 (trunc 32 (sext 32 a.turns.toNat + q)), wrap := true, wdir := decide (q < 0) },
          false)

/-- A wrap made between two bus samples shows with the coming one (R36). -/
def Axis.carryWrap (a b : Axis) : Axis :=
  if b.turns = a.turns then b else { b with owrap := some b.wdir, wrap := a.wrap, wdir := a.wdir }

/-- An axis kept in its range after a change of MOD or CYCLIC (R36). -/
def State.axRewrap (s : State) (n : Nat) : State :=
  if s.axMod n = 0 then s else s.setAx n ((s.ax n).carryWrap ((s.ax n).commit (s.axMod n) (s.ax n).p).1)

/-- Is a YK_AX_CFG write refused (R9, R27, R36)? A write that clears EN never is. -/
def State.axCfgBad (s : State) (n : Nat) (v : Word) : Bool :=
  let old := s.rg (R.YK_AX_CFG n)
  let wasEn := F.YK_AX_CFG_EN.bit old
  let en := F.YK_AX_CFG_EN.bit v
  let src := F.YK_AX_CFG_SRC.get v
  let cyc := F.YK_AX_CFG_CYCLIC.bit v
  if wasEn && !en then false
  else decide (9 ≤ src) || (F.YK_AX_CFG_Z_MODE.get v == 3)
    || (wasEn && en && (src != F.YK_AX_CFG_SRC.get old || cyc != F.YK_AX_CFG_CYCLIC.bit old))
    || (en && src == 4 && !cyc)
    || (cyc && !modOk (s.axModRaw n))

/-- AX_CFG_WRITE (R9, R27, R34, R35). The time of the first edge's dt (R33) and of R18 runs from the enable (DESIGN CHOICE, log entry 134). -/
def execAxCfgWrite (n : Fin 8) (v : Word) (s : State) : Host.Outcome State Fault Refusal :=
  if s.axCfgBad n v then .next (s.axRefuse n)
  else
    let was := s.rb (R.YK_AX_CFG n) F.YK_AX_CFG_EN
    let s1 := s.store (R.YK_AX_CFG n) v
    let a := s1.ax n
    let en := F.YK_AX_CFG_EN.bit v
    .next (if en && !was then
        s1.setAx n (s1.axLevels n { a.start (s1.axCfg n) with st := .tracking, zArm := true, tEdge := s1.now, tMeas := s1.now })
      else if !en && was then s1.setAx n { a with st := .off, now := [], meas := none }
      else s1.axRewrap n)

/-- AX_FILT_WRITE (R9): MAINS_BW 5–7 is refused. -/
def execAxFiltWrite (n : Fin 8) (v : Word) (s : State) : Host.Outcome State Fault Refusal :=
  .next (if 5 ≤ F.YK_AX_FILT_MAINS_BW.get v then s.axRefuse n else s.store (R.YK_AX_FILT n) v)

/-- AX_SSI_WRITE (R9, R20): BITS outside 8–40, CRC_LEN 7 or CLKDIV below 24 is refused. -/
def execAxSsiWrite (n : Fin 8) (v : Word) (s : State) : Host.Outcome State Fault Refusal :=
  let b := F.YK_AX_SSI_BITS.get v
  .next (if b < 8 ∨ 40 < b ∨ F.YK_AX_SSI_CRC_LEN.get v = 7 ∨ F.YK_AX_SSI_CLKDIV.get v < 24 then s.axRefuse n
    else s.store (R.YK_AX_SSI n) v)

/-- MOD_LO_WRITE (R36): the low word waits for the next MOD_HI write. -/
def execModLoWrite (n : Fin 8) (v : Word) (s : State) : Host.Outcome State Fault Refusal :=
  .next (s.setAx n { s.ax n with modStage := some v })

/-- MOD_HI_WRITE (R36): the pair commits, or is refused on a cyclic axis outside its range; the stage empties. -/
def execModHiWrite (n : Fin 8) (v : Word) (s : State) : Host.Outcome State Fault Refusal :=
  let lo := (s.ax n).modStage.getD (s.rg (R.YK_AX_MOD_LO n))
  let s1 := s.setAx n { s.ax n with modStage := none }
  let cyc := s.rb (R.YK_AX_CFG n) F.YK_AX_CFG_CYCLIC
  .next (if cyc ∧ ¬ modOk (lo.toNat + 2 ^ 32 * v.toNat) then s1.axRefuse n
    else ((s1.setRg (R.YK_AX_MOD_LO n) lo).setRg (R.YK_AX_MOD_HI n) v).axRewrap n)

/-! The input path -/

/-- The timestamp of an input edge on a Cuff: raw count `r` within the present YCLK, scaled and adjusted (R509). -/
def State.inputTs (s : State) (cuff r : Nat) : Int :=
  128 * (s.now : Int) + rndDiv (r * s.rf R.YK_TDC_SCALE F.YK_TDC_SCALE_SCALE) 32768
    - sext 8 (s.rf (R.YK_CUFF_ADJ cuff) F.YK_CUFF_ADJ_ADJ)

/-- An edge put on an input's list under a filter of `f` YCLK: a level that held less than `f` YCLK is discarded with
the edge that ends it (R13). -/
def filterEdge (l : List InEdge) (e : InEdge) (f : Nat) : List InEdge :=
  match (l.filter (fun x => decide (x.role = e.role))).getLast? with
  | some x => if e.cyc < x.cyc + f then l.filter (fun y => !decide (y = x)) else l ++ [e]
  | none => l ++ [e]

/-- The roles a Cuff has for an axis: A (also the line trigger and SSI data), B and Z (YK_AX_IN). The input path takes every edge of the Cuffs it
names, whatever the axis's source and enable; what the source does not use is dropped where it is delivered. -/
def State.axRoles (s : State) (n cuff : Nat) : List InRole :=
  let i := s.rg (R.YK_AX_IN n)
  let ra := if F.YK_AX_IN_IN_A.get i = cuff then [InRole.a] else []
  let rb := if F.YK_AX_IN_IN_B.get i = cuff then [InRole.b] else []
  let rz := if F.YK_AX_IN_IN_Z.get i = cuff then [InRole.z] else []
  ra ++ rb ++ rz

/-- INPUT_EDGE (R12, R13, R84): a transition at an input ball, timestamped for each axis that the Cuff feeds and for the
Cuff's own capture. A level the ball already has is no transition. From 128 on the ball is a plain user I/O, whose level goes to the fabric
only (R264). -/
def execInputEdge (cuff : Fin 200) (level : Bool) (r : BitVec 8) (s : State) : Host.Outcome State Fault Refusal :=
  let k := s.cuff cuff
  if 128 ≤ cuff.val then .next (s.setUio cuff { s.uio cuff with inp := level })
  else if k.inp = level then .next s
  else
    let ts := s.inputTs cuff r.toNat
    let e := fun role => ({ role := role, level := level, ts := ts, cyc := s.now } : InEdge)
    let f := s.rf (R.CF_CFG cuff) F.CF_CFG_IFILT
    let ic := if s.rb (R.CF_CFG cuff) F.CF_CFG_ICAP_EN then filterEdge k.icap (e .a) f else k.icap
    let s1 := s.setCuff cuff { k with inp := level, icap := ic }
    .next (s1.each (List.range 8) (fun n t =>
      (t.axRoles n cuff).foldl (fun u role =>
        u.setAx n { u.ax n with edges := filterEdge (u.ax n).edges (e role) (u.axCfg n).filt }) t))

/-- EDGE_DELIVER (R14): the oldest edge of the axis whose cycle c(4 + FILT) has come reaches the observer. -/
def execEdgeDeliver (n : Fin 8) (s : State) : Host.Outcome State Fault Refusal :=
  let a := s.ax n
  match a.edges with
  | [] => .next s
  | e :: r => .next (if e.cyc + 4 + (s.axCfg n).filt ≤ s.now then s.setAx n { a with edges := r, now := a.now ++ [e] } else s)

/-! SSI, sine/cosine, mains -/

/-- SSI_FRAME_START (R20, R22): every PERIOD YCLK a frame is clocked; its first falling clock edge gives its time. -/
def execSsiFrameStart (n : Fin 8) (s : State) : Host.Outcome State Fault Refusal :=
  let a := s.ax n
  let due := match a.ssiLast with
    | none => true
    | some t => decide (t + s.rf (R.YK_AX_SSI_T n) F.YK_AX_SSI_T_PERIOD ≤ s.now)
  .next (if (s.axCfg n).en ∧ (s.axCfg n).src = 2 ∧ due = true then
      s.setAx n { a with ssiT0 := some (128 * s.now), ssiLast := some s.now } else s)

/-- CRC of `k` bits, most significant first, with a polynomial of `w` bits and its implicit leading 1 (R21). -/
def crcBits (w poly : Nat) : Nat → Nat → Nat → Nat
  | 0, _, reg => reg
  | k + 1, data, reg =>
    let fb := (reg / 2 ^ (w - 1) + data / 2 ^ k) % 2
    let sh := reg * 2 % 2 ^ w
    crcBits w poly k data (if fb = 1 then sh ^^^ poly else sh)

/-- Gray to binary on `w` bits (R21). -/
def grayToBin : Nat → Nat → Nat
  | 0, _ => 0
  | w + 1, g =>
    let hi := grayToBin w (g / 2)
    2 * hi + (hi + g) % 2

/-- The check of an SSI frame's CRC (R21): `pos` the position bits, `crc` the bits that followed. -/
def ssiCrcOk (cfg : Word) (pos crc : Nat) : Bool :=
  let w := F.YK_AX_SSI_CRC_LEN.get cfg
  if w = 0 then true
  else
    let c := crcBits w (F.YK_AX_SSI_CRC_POLY.get cfg % 2 ^ w) (F.YK_AX_SSI_BITS.get cfg) pos 0
    let c' := if F.YK_AX_SSI_CRC_INV.bit cfg then 2 ^ w - 1 - c else c
    c' == crc

/-- The direction after an update (R38): DIR changes when the published position has come back from the extreme by more
than the band. A SET, a Z preset and a reacquire move the position and so the direction as motion does (DESIGN CHOICE, log entry 135). -/
def Axis.direct (a : Axis) (c : AxCfg) : Axis :=
  let pp := a.p / lsb16 * lsb16
  let d := mdiff c.mod (pp - a.ext)
  if !a.down then
    if d > 0 then { a with ext := pp } else if -d > c.band then { a with down := true, ext := pp } else a
  else
    if d < 0 then { a with ext := pp } else if d > c.band then { a with down := false, ext := pp } else a

/-- The axis enters HOLDOVER in YCLK `t` (R41): velocity v_e, position the last measured one plus v_e times the time
since; clamp and bound stop; the direction follows the step (R38). With HOLD_TMO 0 it is FROZEN at once. `cause` is the YK_AX_STAT code. -/
def State.enterHoldover (s : State) (n t cause : Nat) : State :=
  let a := s.ax n
  let c := s.axCfg n
  let step := mdiff c.mod (a.mPos - a.p) + a.ve * ((t : Int) - a.tMeas)
  let r := ({ a with st := .holdover, cause := cause, v := a.ve, tHold := t, reacq := 0 } : Axis).commit c.mod (a.p + step)
  let froze := r.2 || c.holdTmo == 0
  let b : Axis := if froze then { r.1 with st := .frozen, cause := if r.2 then 4 else 3, resumed := false } else r.1
  let s1 := (s.setAx n (b.direct c)).raise R.YK_EVT (1 <<< n)
  if froze then s1.raise R.YK_EVT (1 <<< (8 + n)) else s1

/-- SSI_FRAME_END (R21, R22, R40): the frame is checked, Gray-decoded and delivered. A failed CRC counts, and
CRC_FAIL_MAX failures in a row mean loss on an armed TRACKING axis (R34). -/
def execSsiFrameEnd (n : Fin 8) (bits : BitVec 46) (s : State) : Host.Outcome State Fault Refusal :=
  let a := s.ax n
  let cfg := s.rg (R.YK_AX_SSI n)
  match a.ssiT0 with
  | none => .next s
  | some t0 =>
    let w := F.YK_AX_SSI_CRC_LEN.get cfg
    let nb := F.YK_AX_SSI_BITS.get cfg
    let pos := bits.toNat / 2 ^ w % 2 ^ nb
    if ssiCrcOk cfg pos (bits.toNat % 2 ^ w) then
      let val := if F.YK_AX_SSI_GRAY.bit cfg then grayToBin nb pos else pos
      let ts := t0 + sext 16 (s.rf (R.YK_AX_SSI_T n) F.YK_AX_SSI_T_LATCH_ADJ)
      .next (s.setAx n { a with ssiT0 := none, crcRun := 0,
                                meas := some { pos := val * oneCount, ts := ts, vel := none, mst := none } })
    else
      let run := a.crcRun + 1
      let mx := s.rf (R.YK_AX_LOSSCFG n) F.YK_AX_LOSSCFG_CRC_FAIL_MAX
      let s1 := (s.setAx n { a with ssiT0 := none, crcRun := run, reacq := 0 }).bump (R.YK_AX_ERRCNT n) F.YK_AX_ERRCNT_CRC_ERR 1
      .next (if mx ≠ 0 ∧ mx ≤ run ∧ a.st = .tracking ∧ a.armed then
          let s2 := s1.enterHoldover n (s.now - 1) 2
          s2.setAx n (a.carryWrap (s2.ax n))
        else s1)

/-- arctan(2^-i) in units of 2^-34 of a period. -/
def atanTab : List Int :=
  [2147483648, 1267733622, 669835629, 340019024, 170669324, 85417861, 42719353, 21360980, 10680653, 5340347, 2670176,
   1335088, 667544, 333772, 166886, 83443, 41722, 20861, 10430, 5215, 2608, 1304, 652, 326, 163, 81, 41, 20, 10, 5, 3, 1]

/-- Vectoring: the angle of (x, y), x ≥ 0, in 2^-34 of a period, to within 64 of those units. -/
def atanGo : List Int → Nat → Int → Int → Int → Int
  | [], _, _, _, z => z
  | t :: r, i, x, y, z =>
    let p : Int := (2 ^ i : Nat)
    if y ≥ 0 then atanGo r (i + 1) (x + y / p) (y - x / p) (z + t)
    else atanGo r (i + 1) (x - y / p) (y + x / p) (z - t)

/-- The 18-bit angle of a corrected pair within one signal period (R24). Where the true angle lies between two codes the
spec gives no rounding: a free value chooses. -/
def angle18 (sn cs : Int) : Nat :=
  let k : Int := 0x1000000
  let a := if cs ≥ 0 then atanGo atanTab 0 (cs * k) (sn * k) 0
    else atanGo atanTab 0 (-cs * k) (-sn * k) 0 + 0x200000000
  let q := (a + 64) / 0x10000
  let near := decide ((a + 64) % 0x10000 < 128)
  trunc 18 (if near then q else if Config.arctanUp sn cs then q + 1 else q)

/-- An input error of an axis: IN_ERR counts and YK_EVT.INERR sets (R16, R25, R26, YK_EVT). -/
def State.inErr (s : State) (n : Nat) : State :=
  (s.bump (R.YK_AX_ERRCNT n) F.YK_AX_ERRCNT_IN_ERR 1).raise R.YK_EVT (1 <<< (24 + n))

/-- SINCOS_SAMPLE (R24–R26): the sample set that the axis's sensor port last passed to the Yoke, if the axis has not
taken it yet, is corrected, converted to an angle and unwrapped. A pair outside the amplitude limits is invalid and
counts in IN_ERR; a step above 0.375 period counts too but is applied. A step of exactly half a period is taken downward (DESIGN CHOICE, log entry 136:
both ways round are equally short). -/
def execSincosSample (n : Fin 8) (s : State) : Host.Outcome State Fault Refusal :=
  let a := s.ax n
  let i := s.rg (R.YK_AX_IN n)
  let pt := F.YK_AX_IN_PORT.get i
  let q := s.spr pt
  if ¬ ((s.axCfg n).en ∧ (s.axCfg n).src = 3 ∧ a.scSeq < q.yokeSeq) then .next s
  else
    let ofs := s.rg (R.YK_SC_OFS pt)
    let gn := s.rg (R.YK_SC_GAIN pt)
    let sv := sext 16 ((q.yokeSet.getD (F.YK_AX_IN_SIN_CH.get i) 0).toNat)
    let cv := sext 16 ((q.yokeSet.getD (F.YK_AX_IN_COS_CH.get i) 0).toNat)
    let sn := (sv - sext 16 (F.YK_SC_OFS_SIN_OFS.get ofs)) * 0x4000
    let cs := (cv - sext 16 (F.YK_SC_OFS_COS_OFS.get ofs)) * F.YK_SC_GAIN_COS_GAIN.get gn
    let mag := sn * sn + cs * cs
    let lim := fun (k : Nat) => ((128 * k * 0x4000 : Nat) : Int) * ((128 * k * 0x4000 : Nat) : Int)
    let f := s.rg (R.YK_AX_FILT n)
    if mag < lim (F.YK_AX_FILT_SC_AMP_MIN.get f) ∨ lim (F.YK_AX_FILT_SC_AMP_MAX.get f) < mag then
      .next ((s.setAx n { a with scSeq := q.yokeSeq, reacq := 0 }).inErr n)
    else
      let ang := (angle18 sn cs + 4 * F.YK_SC_GAIN_PHASE.get gn) % 0x40000
      let d : Int := match a.scAng with
        | none => ang
        | some old => let r := ((ang : Int) - old) % 0x40000; if r ≥ 0x20000 then r - 0x40000 else r
      let pos := a.scPos + d * 0x10000
      let s1 := s.setAx n { a with scSeq := q.yokeSeq, scAng := some ang, scPos := pos,
                                   meas := some { pos := pos, ts := q.yokeTs, vel := none, mst := none } }
      .next (if a.scAng.isSome ∧ (98304 < d ∨ d < -98304) then s1.inErr n else s1)

/-- Is a frequency in 2^-16 Hz one that the tracker locks to, 40-70 Hz (R28)? -/
def mainsBand (f : Nat) : Bool := decide (40 * 65536 ≤ f) && decide (f ≤ 70 * 65536)

/-- MAINS_SAMPLE (R28, R29): the tracker, whose loop bandwidth is MAINS_BW, takes the voltage sample of SIN_CH. It is locked while its loop is settled
on a fundamental of 40-70 Hz; while locked, with an amplitude of SC_AMP_MIN / 256 of 32,768 or more, phase x MOD and MOD x f / 500,000,000
replace position and velocity. The tracker's own dynamics are not in the spec: they are free functions of its inputs (log entry 16). -/
def execMainsSample (n : Fin 8) (s : State) : Host.Outcome State Fault Refusal :=
  let a := s.ax n
  let c := s.axCfg n
  let i := s.rg (R.YK_AX_IN n)
  let f := s.rg (R.YK_AX_FILT n)
  let q := s.spr (F.YK_AX_IN_PORT.get i)
  if ¬ (c.en ∧ c.src = 4 ∧ a.scSeq < q.yokeSeq) then .next s
  else
    let x := sext 16 ((q.yokeSet.getD (F.YK_AX_IN_SIN_CH.get i) 0).toNat)
    let k := Config.mainsNext a.trk (F.YK_AX_FILT_MAINS_BW.get f) x q.yokeTs
    let lk := Config.mainsSettled k && mainsBand (Config.mainsFreq k).toNat
    let ok := lk && decide (128 * F.YK_AX_FILT_SC_AMP_MIN.get f ≤ Config.mainsAmp k)
    let pos : Int := (c.mod : Int) * (Config.mainsPhase k).toNat / 0x100000000
    let vel := rndDiv ((c.mod : Int) * (Config.mainsFreq k).toNat) (500000000 * 65536)
    .next (s.setAx n (if ok then
        { a with scSeq := q.yokeSeq, lock := lk, trk := k,
                 meas := some { pos := pos, ts := q.yokeTs, vel := some (satS 40 vel), mst := none } }
      else { a with scSeq := q.yokeSeq, lock := lk, trk := k, reacq := 0 }))

/-! The observer -/

/-- What one observer update reports beside the axis: events and the number of input errors. -/
structure AxOut where
  loss  : Bool
  froze : Bool
  reacq : Bool
  inerr : Bool
deriving DecidableEq, Repr

/-- Nothing to report. -/
def AxOut.none : AxOut := { loss := false, froze := false, reacq := false, inerr := false }

/-- A valid measurement as the observer sees it: an edge or a sample, or a Z preset (R19, R33). -/
inductive Obs where
  | nothing
  | preset (p : Int)
  | value (pos : Int) (ts : Int) (vel : Option Int) (mst : Option AxState)
deriving DecidableEq, Repr

/-- The direction of a quadrature edge from the A/B phase after it (R15), A leading B counting up, before DIRINV. -/
def quadUp (role : InRole) (lvA lvB : Bool) : Bool :=
  match role with
  | .a => lvA != lvB
  | .b => lvA == lvB
  | .z => true

/-- What the decoder carries from one A or B edge of a YCLK to the next: its levels, the lattice point of the last edge, and whether one has
come. -/
structure Quad where
  lvA   : Bool
  lvB   : Bool
  lat   : Int
  valid : Bool
  up    : Bool
deriving DecidableEq, Repr

/-- One A or B edge decoded (R15): one lattice step in the direction of the A/B phase. At a reversal the model takes this step and not the
integer between the two decoder counts (DESIGN CHOICE, log entry 137); only the very first edge downward stands at the lattice origin. -/
def Quad.edge (c : AxCfg) (q : Quad) (e : InEdge) : Quad :=
  let la := if e.role = .a then e.level else q.lvA
  let lb := if e.role = .b then e.level else q.lvB
  let up := quadUp e.role la lb != c.dirInv
  let m := if up then q.lat + oneCount else if q.valid then q.lat - oneCount else q.lat
  { lvA := la, lvB := lb, lat := mplace c.mod m, valid := true, up := up }

/-- The edges delivered for this YCLK decoded (R15, R16, R19, R30): the axis with its levels and lattice moved, what it
measures, and whether the transition was illegal. Several edges of one input in one YCLK each count. -/
def Axis.decode (a : Axis) (c : AxCfg) (t : Nat) : Axis × Obs × Bool :=
  let es := a.now.filter (fun e => !decide (e.role = .z))
  let la := ((es.filter (fun e => decide (e.role = .a))).getLast?.map (fun e => e.level)).getD a.lvA
  let lb := ((es.filter (fun e => decide (e.role = .b))).getLast?.map (fun e => e.level)).getD a.lvB
  let b : Axis := { a with now := [], lvA := la, lvB := lb }
  let hasA := es.any (fun e => decide (e.role = .a))
  let hasB := es.any (fun e => decide (e.role = .b))
  let z := a.now.any (fun e => decide (e.role = .z) && e.level)
  if c.src = 5 then
    let up := es.filter (fun e => decide (e.role = .a) && e.level)
    match up.getLast? with
    | some e =>
      let d : Int := if c.dirInv then -oneCount else oneCount
      let m := mplace c.mod (b.lat + up.length * d)
      ({ b with lat := m, latValid := true, latUp := !c.dirInv, tEdge := t }, .value m e.ts none none, false)
    | none => (b, .nothing, false)
  else if c.src = 1 then
    let live := b.st == .tracking || b.st == .holdover || (b.st == .frozen && b.resumed)
    let zOn := z && live && (c.zMode == 2 || (c.zMode == 1 && b.zArm))
    let ill := hasA && hasB
    if zOn then
      let p := mplace c.mod c.zval
      ({ b with lat := p, zArm := false, tEdge := if hasA || hasB then t else b.tEdge }, .preset p, ill)
    else if ill then ({ b with reacq := 0 }, .nothing, true)
    else
      match es.getLast? with
      | some e =>
        let q := es.foldl (Quad.edge c) { lvA := a.lvA, lvB := a.lvB, lat := b.lat, valid := b.latValid, up := b.latUp }
        ({ b with lat := q.lat, latValid := true, latUp := q.up, tEdge := t }, .value q.lat e.ts none none, false)
      | none => (b, .nothing, false)
  else
    match a.meas with
    | some u => ({ b with meas := none }, .value u.pos u.ts u.vel u.mst, false)
    | none => (b, .nothing, false)

/-- The clamp of R17 on an extrapolated position: never past the next lattice point in the direction of the last edge. -/
def Axis.clamp (a : Axis) (c : AxCfg) (p : Int) : Int :=
  if !a.latValid then p
  else if a.latUp then
    let past := mdiff c.mod (p - (a.lat + oneCount - lsb16))
    if past > 0 then p - past else p
  else
    let under := mdiff c.mod (p - (a.lat - oneCount + lsb16))
    if under < 0 then p - under else p

/-- The bound of R18 on the velocity: |v| at most 1/t with no edge for t YCLK. The spec gives 1/t no rounding and the time no start: 1/t is
rounded down to 2^-32 count per YCLK, and t counts from the YCLK in which the observer used the edge (DESIGN CHOICE, log entry 138). -/
def Axis.bound (a : Axis) (t : Nat) : Int :=
  let el : Int := (t : Int) - a.tEdge
  if a.latValid ∧ el > 0 ∧ a.v.natAbs * el > oneCount then
    (if a.v > 0 then oneCount / el else -(oneCount / el))
  else a.v

/-- A measurement accepted: last measured position, on the axis's own scale, its YCLK, and v_e (R34, R39). -/
def Axis.accept (a : Axis) (t : Nat) (m : Int) : Axis := { a with mPos := m, tMeas := t, ve := a.v, armed := true }

/-- A measurement applied on a TRACKING axis (R33, R34): the axis with its velocity, and its new position. The last measured position is kept
where the error puts it, so that a linear axis on a single-turn encoder keeps its turns (R23, R41). -/
def Axis.apply (a : Axis) (c : AxCfg) (t : Nat) (p : Int) (pos ts : Int) (vel : Option Int) : Axis × Int :=
  let age : Int := 128 * (t : Int) - ts
  let dt : Nat := min (max (t - a.tMeas) 1) 0x1000000
  if a.startN = 0 then
    let b : Axis := { a with v := 0, startN := 1 }
    let m := mplace c.mod pos
    (b.accept t m, m)
  else if a.startN = 1 then
    let v := satS 40 (rndDiv (c.diff (pos - a.mPos)) dt)
    let m := p + c.diff (pos + rndDiv (v * age) 128 - p)
    let b : Axis := { a with v := v, startN := 2 }
    (b.accept t (mplace c.mod m), m)
  else
    let e := c.diff (pos + rndDiv (a.v * age) 128 - p)
    let m := mplace c.mod (p + e)
    match vel with
    | some w => (({ a with v := satS 40 w } : Axis).accept t m, p + e)
    | none =>
      let b : Axis := { a with v := satS 40 (a.v + rndDiv (c.beta * e) (65536 * dt)) }
      (b.accept t m, p + rndDiv (c.alpha * e) 65536)

/-- The step at a reacquire in Q16.16, saturating, as YK_AX_REACQ_ERR holds it (R42). -/
def reacqWord (e : Int) : Word := w32 (trunc 32 (satS 32 (e / lsb16)))

/-- A return to TRACKING (R42, R44): the measurement sets the position and restarts the velocity as in R34. -/
def Axis.reacquire (a : Axis) (c : AxCfg) (t : Nat) (p pos : Int) : Axis × Int :=
  let e := c.diff (pos - p)
  let b : Axis := { a with st := .tracking, v := 0, startN := 1, reacq := 0, resumed := false, step := true,
                           reacqErr := reacqWord e }
  (b.accept t (mplace c.mod (p + e)), p + e)

/-- The position committed, and FROZEN with OVERRANGE where a linear axis saturates (R11, R36). -/
def Axis.settle (a : Axis) (c : AxCfg) (p : Int) (o : AxOut) : Axis × AxOut :=
  let r := a.commit c.mod p
  if r.2 then ({ r.1 with st := .frozen, cause := 4, resumed := false, reacq := 0 }, { o with froze := true })
  else (r.1, o)

/-- A Lace sample sets the state of its axis (R45); HOLDOVER that begins so has its time from this YCLK (R43). -/
def Axis.master (a : Axis) (t : Nat) (mst : Option AxState) (o : AxOut) : Axis × AxOut :=
  match mst with
  | none => (a, o)
  | some m =>
    let lost := decide (m = .holdover) || decide (m = .frozen)
    ({ a with st := m, cause := if lost then 5 else a.cause, tHold := if m = .holdover ∧ a.st ≠ .holdover then t else a.tHold },
     { o with loss := o.loss || (m == .holdover && a.st != .holdover), froze := o.froze || (m == .frozen && a.st != .frozen) })

/-- Does a Lace sample govern its axis now (R45, R51)? Not while the axis's own loss has still to be reacquired (R42). -/
def Axis.follows (a : Axis) : Bool := a.st == .off || a.cause == 5

/-- The position extrapolated for this YCLK, and the velocity, under the clamp and the bound (R17, R18, R31, R33). A FROZEN axis and one whose
master is OFF hold. -/
def Axis.ahead (a : Axis) (c : AxCfg) (t : Nat) : Int × Int :=
  let v1 := if c.src = 6 ∧ a.st = .tracking then c.rate else a.v
  let p1 := if a.st = .frozen ∨ a.st = .off then a.p else a.p + v1
  if a.st = .tracking ∧ c.decoded then (a.clamp c p1, a.bound t) else (p1, v1)

/-- An axis whose EN is 1 outside a SET, AX_RST or reset: extrapolate, clamp and bound, decode, apply (R33). A Z preset of a TRACKING axis counts as
an accepted measurement; outside TRACKING it only moves the position and is none of the REACQ_N (DESIGN CHOICE, log entry 139). -/
def Axis.run (a : Axis) (c : AxCfg) (t : Nat) : Axis × AxOut :=
  let (p2, v2) := a.ahead c t
  let (b, u, ill) := ({ a with v := v2 } : Axis).decode c t
  let o := { AxOut.none with inerr := ill }
  match u with
  | .nothing => if b.st = .frozen then (b, o) else b.settle c p2 o
  | .preset p =>
    let d : Axis := { b with step := true }
    if b.st = .tracking then (d.accept t p).settle c p o else ({ d with mPos := p } : Axis).settle c p o
  | .value pos ts vel mst =>
    if b.st = .tracking ∨ (mst.isSome ∧ b.follows) then
      let (d, p3) := b.apply c t p2 pos ts vel
      let (d2, o2) := d.master t mst o
      d2.settle c p3 o2
    else if b.st = .holdover ∨ (b.st = .frozen ∧ b.resumed) then
      if b.reacq + 1 ≥ c.reacqN then
        let (d, p3) := b.reacquire c t p2 pos
        let (d2, o2) := d.master t mst { o with reacq := true }
        d2.settle c p3 o2
      else if b.st = .frozen then ({ b with reacq := b.reacq + 1 }, o)
      else ({ b with reacq := b.reacq + 1 } : Axis).settle c p2 o
    else (b, o)

/-- RESUME (R44): a FROZEN axis waits for its measurements, a software or internal-time axis is TRACKING again; the next Z counts as the first
(R19), and loss detection arms anew (R34). -/
def Axis.resume (a : Axis) (c : AxCfg) : Axis :=
  let b : Axis := { a with zArm := true, armed := false }
  if a.st ≠ .frozen then b
  else if c.src = 6 ∨ c.src = 8 then { b with st := .tracking }
  else { b with resumed := true, reacq := 0 }

/-- SET (R32, Table YK-6): the position is placed at SWPOS. The edges of the YCLK step the lattice, an illegal transition among them is one (R16), and
the step moves the lattice and the last measured position; the measurement and a Z preset are discarded. An axis that this YCLK would saturate is
FROZEN with OVERRANGE all the same. The unwrapped position of a sine/cosine axis and an SSI value stay as they are, so the next sample
pulls the position back; SET and SETV also act with EN 0 (DESIGN CHOICE, log entry 140). -/
def Axis.place (a : Axis) (c : AxCfg) (t : Nat) : Axis × AxOut :=
  let dst := mplace c.mod c.swpos
  let mv := mdiff c.mod (dst - a.p)
  let zrise := c.src == 1 && a.now.any (fun e => decide (e.role = .z) && e.level)
  let (b, _, ill) := if c.en then a.decode { c with zMode := 0 } t else ({ a with now := [], meas := none }, .nothing, false)
  let past := c.en && a.st != .frozen && (a.commit c.mod (a.ahead c t).1).2
  let d : Axis := { b with p := dst, lat := mplace c.mod (b.lat + mv), mPos := mplace c.mod (b.mPos + mv), step := true, meas := none,
                           zArm := b.zArm && !(zrise && c.zMode == 1) }
  let o := { AxOut.none with inerr := ill }
  if past then ({ d with st := .frozen, cause := 4, resumed := false, reacq := 0 }, { o with froze := true }) else (d, o)

/-- One YCLK of one axis (R33, Table YK-6). -/
def Axis.update (a0 : Axis) (c : AxCfg) (t : Nat) : Axis × AxOut :=
  let a : Axis := { a0 with wrap := a0.owrap.isSome, wdir := a0.owrap.getD false, owrap := none, step := false, rstStep := false,
                            cSet := false, cSetv := false, cResume := false, cRst := false }
  if a0.cRst then
    ({ a.start c with st := if c.en then .tracking else .off, turns := 0, reacqErr := 0, rstStep := true, tEdge := t, tMeas := t },
     AxOut.none)
  else
    let a1 : Axis := if a0.cSetv then { a with v := c.swvel } else a
    let (a2, o2) := if a0.cSet then a1.place c t else (a1, AxOut.none)
    if !c.en then ({ a2 with now := [] }, AxOut.none)
    else
      let a3 := if a0.cResume && !o2.froze then a2.resume c else a2
      let (a4, o) := if a0.cSet then (a3, o2) else a3.run c t
      (a4.direct c, o)

/-- The bus word of an axis (R48): fractions truncated toward minus infinity (R10). -/
def Axis.bus (a : Axis) : BusAxis :=
  { pos := a.p / lsb16, vel := a.v, st := a.st, down := a.down, wrap := a.wrap, wdir := a.wdir, step := a.step,
    rstStep := a.rstStep, inh := false }

/-- What the HX bus unit sees of one update of its axis (R471): the axis before and after. -/
def hxMoveOf (c : AxCfg) (a0 a : Axis) (ill : Bool) : HxMove :=
  let zp := a.step && !a0.cSet && !a0.cRst && (a0.st == .tracking || a.st != .tracking)
  { place := if a0.cRst then some 0 else if a0.cSet then some (c.swpos / oneCount)
             else if zp then some (c.zval / oneCount) else none,
    delta := mdiff c.mod (a.lat - a0.lat) / oneCount, zp := zp, ill := ill, wrap := a.wrap }

/-- One axis updated in YCLK `t` with its events. -/
def State.axisUpdate (s : State) (t n : Nat) : State :=
  let a0 := s.ax n
  let c := s.axCfg n
  let (a, o) := a0.update c t
  let s1 := s.setAx n a
  let s2 := if o.inerr then s1.inErr n else s1
  let s3 := if o.loss then s2.raise R.YK_EVT (1 <<< n) else s2
  let s4 := if o.froze then s3.raise R.YK_EVT (1 <<< (8 + n)) else s3
  let s5 := if o.reacq then s4.raise R.YK_EVT (1 <<< (16 + n)) else s4
  if s.hxParm.on ∧ s.hxParm.axis = n ∧ (s.hv 2).testBit 0 then s5.hxFollow (hxMoveOf c a0 a o.inerr) else s5

/-- The position bus sample of the axes as they stand (R48), with the mark engine's INHIBIT bits of the same YCLK (R72). -/
def State.busNow (s : State) (t : Nat) : BusSample :=
  { time := t, axes := (List.range 8).map (fun n => { (s.ax n).bus with inh := s.rb (R.MK_AX_CFG n) F.MK_AX_CFG_INHIBIT }) }

/-- The position of axis a at an instant (R84): the sample of the YCLK that holds it, projected with its own velocity,
rounded to 2^-16 count, modulo MOD on a cyclic axis. An instant older than the samples kept uses the oldest. -/
def State.posAt (s : State) (a : Nat) (inst : Int) : Int :=
  let c := inst / 128
  let smp := match s.yk.hist.find? (fun h => decide ((h.time : Int) ≤ c)) with
    | some h => h
    | none => (s.yk.hist.getLast?).getD { time := 0, axes := [] }
  let x := smp.axes.getD a BusAxis.idle
  mplace (s.axMod a / 0x10000) (x.pos + rndDiv (x.vel * (inst - 128 * (smp.time : Int))) (128 * 0x10000))

/-- The positions of a slot recorded for an instant (R84); an axis outside the mask reads 0. -/
def State.capPositions (s : State) (k mask : Nat) (inst : Int) : State :=
  s.each (List.range 8) (fun a u =>
    let p := if mask.testBit a then trunc 64 (s.posAt a inst) else 0
    (u.setRg (R.MK_CAP_POS_LO k a) (w32 p)).setRg (R.MK_CAP_POS_HI k a) (w32 (p / 2 ^ 32)))

/-- The captures that waited for the sample of their YCLK (R84). -/
def State.capSettle (s : State) : State :=
  let due := s.yk.capWait.filter (fun c => decide (c.2.2 < 128 * (s.now : Int)))
  due.foldl (fun t c => t.capPositions c.1 c.2.1 c.2.2)
    { s with yk := { s.yk with capWait := s.yk.capWait.filter (fun c => !decide (c.2.2 < 128 * (s.now : Int))) } }

/-- Modulus of an axis in 2^-16 count; 0 = linear. -/
def State.mod16 (s : State) (a : Nat) : Nat :=
  if s.rb (R.YK_AX_CFG a) F.YK_AX_CFG_CYCLIC then s.axModRaw a else 0

/-- OBSERVER_UPDATE (R33, R48, R84): one YCLK. Every axis is updated, the bus sample is broadcast, YK_TIME advances; captures of this YCLK get
their positions. -/
def execObserverUpdate (s : State) : Host.Outcome State Fault Refusal :=
  let t := s.now
  if s.rf (R.PW_DOM_STAT 16) F.PW_DOM_STAT_STATE < 2 then .next { s with yk := { s.yk with time := s.yk.time + 1 } }
  else
  let s1 := s.each (List.range 8) (fun n u => u.axisUpdate t n)
  let y : Yoke := { s1.yk with hist := (s1.busNow t :: s1.yk.hist).take 272, time := s1.yk.time + 1, modc := (List.range 8).map s.mod16 }
  .next ({ s1 with yk := y } : State).capSettle

/-- The newest bus sample shown again after a change of an axis in the same YCLK (R41: the step at HOLDOVER entry). -/
def State.rebroadcast (s : State) : State :=
  match s.yk.hist with
  | h :: r => { s with yk := { s.yk with hist := s.busNow h.time :: r } }
  | [] => s

/-- Is loss due on axis n in YCLK t (R34, R39, R45)? A valid measurement of the same YCLK has been applied and prevents it (Table YK-6). -/
def State.lossDue (s : State) (n t : Nat) : Bool :=
  let a := s.ax n
  let c := s.axCfg n
  let ve := a.ve.natAbs
  let el := t - a.tMeas
  let fresh := decide (el = 0)
  let mult := s.rf (R.YK_AX_LOSSCFG n) F.YK_AX_LOSSCFG_LOSS_MULT
  (c.decoded || c.sampled) && a.st == .tracking && a.armed && !fresh
    && decide ((s.rg (R.YK_AX_VTHR n)).toNat * 256 ≤ ve)
    && (decide ((s.rg (R.YK_AX_LOSS_TMO n)).toNat ≤ el)
        || (c.decoded && mult != 0 && decide (mult * 0x100000000 ≤ el * ve)))

/-- LOSS_DETECT (R39, R41): in the YCLK just updated no valid measurement had come for the time T. -/
def execLossDetect (n : Fin 8) (s : State) : Host.Outcome State Fault Refusal :=
  .next (if s.lossDue n (s.now - 1) then (s.enterHoldover n (s.now - 1) 1).rebroadcast else s)

/-- HOLD_TIMEOUT (R43): HOLD_TMO YCLK in HOLDOVER make the axis FROZEN. -/
def execHoldTimeout (n : Fin 8) (s : State) : Host.Outcome State Fault Refusal :=
  let a := s.ax n
  .next (if a.st = .holdover ∧ a.tHold + (s.axCfg n).holdTmo ≤ s.now - 1 then
      ((s.setAx n { a with st := .frozen, cause := 3, resumed := false, reacq := 0 }).raise R.YK_EVT (1 <<< (8 + n.val))).rebroadcast
    else s)

/-! Commands (YK_AX_CMD): they act at the next YCLK (R32) -/

/-- SET (R32). -/
def execAxSet (n : Fin 8) (s : State) : Host.Outcome State Fault Refusal := .next (s.setAx n { s.ax n with cSet := true })
/-- SETV (R32). -/
def execAxSetv (n : Fin 8) (s : State) : Host.Outcome State Fault Refusal := .next (s.setAx n { s.ax n with cSetv := true })
/-- RESUME (R44). -/
def execAxResume (n : Fin 8) (s : State) : Host.Outcome State Fault Refusal := .next (s.setAx n { s.ax n with cResume := true })
/-- AX_RST (R47). -/
def execAxRst (n : Fin 8) (s : State) : Host.Outcome State Fault Refusal := .next (s.setAx n { s.ax n with cRst := true })

/-! Reads -/

/-- YK_AX_STAT of an axis. -/
def Axis.stat (a : Axis) : Word := w32 (a.st.code + 4 * b2n a.down + 8 * b2n a.lock + 16 * (a.cause % 16))

/-- The read registers of axis n latched from one YCLK (R48). -/
def State.latchAxis (s : State) (n : Nat) : State :=
  let a := s.ax n
  let s1 := s.setRg64 (R.YK_AX_POS_LO n) (R.YK_AX_POS_HI n) (trunc 64 (a.p / lsb16))
  let s2 := s1.setRg64 (R.YK_AX_VEL_LO n) (R.YK_AX_VEL_HI n) (trunc 64 a.v)
  ((s2.setRg (R.YK_AX_STAT n) a.stat).setRg (R.YK_AX_TURNS n) a.turns).setRg (R.YK_AX_REACQ_ERR n) a.reacqErr

/-- POS_LO_READ (R48): the read latches the partner registers, unless it is the first after a SNAP_ALL. -/
def execPosLoRead (n : Fin 8) (s : State) : Host.Outcome State Fault Refusal :=
  let s1 := if s.yk.snap.contains n.val then { s with yk := { s.yk with snap := s.yk.snap.filter (· != n.val) } }
    else s.latchAxis n
  .next (s1.emit (.readBack (R.YK_AX_POS_LO n) (s1.rg (R.YK_AX_POS_LO n))))

/-- SNAP_ALL (R48): all eight axes latch in one YCLK. -/
def execSnapAll (s : State) : Host.Outcome State Fault Refusal :=
  let s1 := s.each (List.range 8) (fun n t => t.latchAxis n)
  .next { s1 with yk := { s1.yk with snap := List.range 8 } }

/-- YK_BLK_RST (R55): every Yoke field marked Block; YK_TIME and the calibration registers stay. -/
def execYkBlkRst (s : State) : Host.Outcome State Fault Refusal :=
  let s1 := s.clearRegs .block 0x10000 0x20000
  .next (s.blkRst 2 { s1 with yk := { s1.yk with axes := [], snap := [] } })

/-- YK_STATUS as it reads: states and directions of the axes beside UNTRIMMED. -/
def State.ykStatus (s : State) : Word :=
  let st := (List.range 8).foldl (fun x n => x + (s.ax n).st.code * 4 ^ n + b2n (s.ax n).down * 2 ^ (16 + n)) 0
  w32 (st + 2 ^ 31 * b2n (s.rb R.YK_STATUS F.YK_STATUS_UNTRIMMED))

end Sys2Proof.Machine
end

