-- ==== Sys2Proof/Machine/Marks.lean ====
section
/-! DEFINITION. The mark engine (02_marks_and_cuffs.md, R56–R76): entries, insertion, compare windows, crossing,
prediction, commit, repeats, steps. Positions here are in 2^-16 count, instants in taps. What an action does when it
leaves the engine is in Actions.lean. -/

namespace Sys2Proof.Machine

/-! Entries -/

/-- The entry that eight words spell (Table MK-1). -/
def entryOf (w0 w1 w2 w3 w4 w5 w6 w7 : Word) : MarkEntry :=
  { axis := bitsOf w0.toNat 0 3, dir := bitsOf w0.toNat 3 2, arm := wbit w0 5, oneshot := wbit w0 6,
    action := bitsOf w0.toNat 8 4, rpt := bitsOf w0.toNat 16 16,
    pos := sext 64 (w1.toNat + 2 ^ 32 * w2.toNat), hyst := w3.toNat, per := sext 64 (w4.toNat + 2 ^ 32 * w5.toNat),
    arg0 := w6, arg1 := w7 }

/-- The entry in the registers of mark n with CTL word `v`. -/
def State.entryRegs (s : State) (n : Nat) (v : Word) : MarkEntry :=
  entryOf v (s.rg (R.MK_ENT_POS_LO n)) (s.rg (R.MK_ENT_POS_HI n)) (s.rg (R.MK_ENT_HYST n)) (s.rg (R.MK_ENT_PER_LO n))
    (s.rg (R.MK_ENT_PER_HI n)) (s.rg (R.MK_ENT_ARG0 n)) (s.rg (R.MK_ENT_ARG1 n))

/-- The argument bits that an action uses (Table MK-7): ARG0 and ARG1. -/
def actionMask : Nat → Nat × Nat
  | 1 => (0x37F, 0xFFFFFFFF)
  | 2 => (0xF1F, 0)
  | 3 => (0xFFF, 0)
  | 5 => (0xFFF, 0xFFFFFFFF)
  | 6 => (0x3F, 0)
  | 7 => (0xFF7F, 0xFFFFFFFF)
  | _ => (0, 0)

/-- The first condition of Table MK-2 that an entry meets, by code (R58, R508); none where it is accepted. -/
def State.markRefusal (s : State) (v : Word) (e : MarkEntry) : Option Nat :=
  let cyc := s.rb (R.YK_AX_CFG e.axis) F.YK_AX_CFG_CYCLIC
  let mod : Int := s.axModRaw e.axis
  let pulse := e.action == 1 && bitsOf e.arg0.toNat 8 2 == 3
  if e.dir = 3 ∨ 8 ≤ e.action then some 1
  else if cyc ∧ (e.pos < 0 ∨ mod ≤ e.pos) then some 2
  else if e.rpt ≠ 0 ∧ (e.dir = 2 ∨ e.per = 0 ∨ e.oneshot) then some 3
  else if cyc ∧ mod ≤ 2 * e.per then some 4
  else if pulse ∧ e.arg1.toNat < 250 then some 5
  else if e.action = 1 ∧ s.rf (R.CF_CFG (e.arg0.toNat % 128)) F.CF_CFG_OWNER ≠ 1 then some 6
  else if wbit v 7 ∨ bitsOf v.toNat 12 4 ≠ 0 ∨ andNot e.arg0.toNat (actionMask e.action).1 ≠ 0
      ∨ andNot e.arg1.toNat (actionMask e.action).2 ≠ 0 then some 7
  else if e.per < 0 then some 8
  else none

/-- A mark taken out of the windows of an axis. -/
def MkAxis.dropWin (k : MkAxis) (n : Nat) : MkAxis :=
  { k with upWin := k.upWin.filter (· != n), dnWin := k.dnWin.filter (· != n) }

/-- Mark n taken out of every window and insertion list of every axis but, where `keep` names one, the insertion queue
of that axis. -/
def State.unlist (s : State) (n : Nat) (keep : Option Nat) : State :=
  s.each (List.range 8) (fun a t =>
    let k := (t.mkAx a).dropWin n
    let k1 := { k with repWait := k.repWait.filter (· != n) }
    if keep = some a then t.setMkAx a { k1 with headAt := if k1.queue.head? = some n then t.now else k1.headAt }
    else
      let headGone := decide (k1.queue.head? = some n)
      t.setMkAx a { k1 with queue := k1.queue.filter (· != n), headAt := if headGone then t.now else k1.headAt })

/-- Mark n put at the end of the insertion queue of axis a (R59). -/
def State.enqueue (s : State) (a n : Nat) : State :=
  let k := s.mkAx a
  s.setMkAx a { k with queue := k.queue ++ [n], headAt := if k.queue.isEmpty then s.now else k.headAt }

/-- The YCLK in which a CTL write of this YCLK takes effect: the next (R57, R60). -/
def State.mkNext (s : State) : Nat := s.now + 1

/-- An accepted entry put in force (R57, R59, R60): FIRES restarts, SKIPPED clears; an armed one queues for insertion,
keeping the place of the same mark where it already waits on that axis (Table MK-5). -/
def State.applyEntry (s0 : State) (n : Nat) (x : MkNew) : State :=
  let e := x.ent
  let s := (s0.hiMarkGone n).hiFoldIn n e.arm x.fold
  let m := s.mark n
  let waits := (s.mkAx e.axis).queue.contains n
  let m1 : Mark := { m with ent := e, target := e.pos, remain := e.rpt, fires := 0, skipped := false, crUp := none, crDn := none,
                            inserted := false, rep := false, behind := none,
                            up := if e.arm ∧ e.dir ≠ 1 then .armed else .idle,
                            dn := if e.arm ∧ e.dir ≠ 0 then .armed else .idle }
  if e.arm then
    let s1 := (s.unlist n (if waits then some e.axis else none)).setMark n m1
    if waits then s1 else s1.enqueue e.axis n
  else (s.unlist n none).setMark n m1

/-- A mark whose new entry waits behind a committed action (Table MK-5): the old entry commits no more, the new one applies after the action. An
entry that waited there before is replaced. -/
def State.holdEntry (s0 : State) (n : Nat) (x : MkNew) : State :=
  let s1 := s0.hiMarkGone n
  let s := s1.hiFoldIn n false (match (s1.mark n).behind with | some b => b.fold | none => none)
  let m := s.mark n
  let idle := fun (h : MkState) => if h = .armed ∨ ¬ x.ent.arm then MkState.idle else h
  (s.unlist n none).setMark n { m with behind := some x, up := idle m.up, dn := idle m.dn, inserted := false, rep := false,
                                       crUp := none, crDn := none }

/-- An entry takes effect: now, or behind a committed action. -/
def State.effectEntry (s : State) (n : Nat) (x : MkNew) : State :=
  if 0 < (s.mark n).inPipe then s.holdEntry n x else s.applyEntry n x

/-- Insertions that wait on an axis: those queued, and armed entries of the axis that are still to take effect (R59). -/
def State.mkPending (s : State) (a : Nat) : List Nat :=
  let q := (s.mkAx a).queue
  q ++ ((s.mke.written.filter (fun w => decide (w.2.2.ent.axis = a) && w.2.2.ent.arm)).map (fun w => w.2.1)).eraseDups.filter
    (fun n => !q.contains n)

/-- An insertion of mark n on axis a would be a 33rd (R59). -/
def State.insertFull (s : State) (a n : Nat) : Bool :=
  !(s.mkPending a).contains n && decide (32 ≤ (s.mkPending a).length)

/-- A CTL word written to mark n: the entry is refused by Table MK-2, or will replace the whole entry in the next YCLK (R57, R58). `fold` is the
FOLD_AT descriptor that writes it. The answer carries the refusal code. -/
def State.writeCtl (s : State) (n : Nat) (v : Word) (fold : Option (Nat × Nat)) : State × Option Nat :=
  let e := s.entryRegs n v
  let s1 := s.setRg (R.MK_ENT_CTL n) v
  match s1.markRefusal v e with
  | some c =>
    let er := F.MK_CFG_ERR_CODE.put (F.MK_CFG_ERR_INDEX.put (s1.rg R.MK_CFG_ERR) n) c
    ((s1.setRg R.MK_CFG_ERR er).raiseF R.MK_EVT F.MK_EVT_CFG_ERR, some c)
  | none =>
    ({ s1 with mke := { s1.mke with written := s1.mke.written ++ [(s1.mkNext, n, { ent := e, fold := fold })] } }, none)

/-- The mark whose CTL word stands at a register offset. -/
def mkCtlIx (a : Nat) : Option Nat := regIx (R.MK_ENT_CTL 0) 1024 0x20 a

/-- Would this MK register write have to wait for a place in an insertion queue (R59)? -/
def State.mkStalls (s : State) (a : Nat) (v : Word) : Bool :=
  match mkCtlIx a with
  | none => false
  | some n =>
    let e := s.entryRegs n v
    e.arm && decide (s.markRefusal v e = none) && s.insertFull e.axis n

/-- DISARM_ALL (R74): takes effect at the next YCLK of the engine. -/
def State.disarmNext (s : State) : State := { s with mke := { s.mke with disarm := some s.mkNext } }

/-- An MK register write taken by the block; MK_CTRL here is DISARM_ALL only. -/
def State.mkReg (s : State) (a : Nat) (v : Word) : State :=
  if a = R.MK_CTRL then (if F.MK_CTRL_DISARM_ALL.bit v then s.disarmNext else s)
  else match mkCtlIx a with
    | some n => (s.writeCtl n v none).1
    | none => s.store a v

/-- An MK register write: it waits where one waits before it, or where it is the 33rd insertion of an axis (R59). -/
def State.mkWrite (s : State) (a : Nat) (v : Word) : State :=
  if !s.mke.regq.isEmpty || s.mkStalls a v then { s with mke := { s.mke with regq := s.mke.regq ++ [(a, v)] } }
  else s.mkReg a v

/-- The waiting register writes taken in order until one has to wait (R59). -/
def State.mkDrainL : List (Nat × Word) → State → State
  | [], s => { s with mke := { s.mke with regq := [] } }
  | (a, v) :: r, s =>
    if s.mkStalls a v then { s with mke := { s.mke with regq := (a, v) :: r } } else State.mkDrainL r (s.mkReg a v)

/-- The same on a state. -/
def State.mkDrain (s : State) : State := if s.mke.regq.isEmpty then s else State.mkDrainL s.mke.regq s

/-- MARK_CTL_WRITE (R57–R60). -/
def execMarkCtlWrite (n : Fin 1024) (v : Word) (s : State) : Host.Outcome State Fault Refusal :=
  .next (s.mkWrite (R.MK_ENT_CTL n) v)

/-! Windows -/

/-- How far a target lies ahead of a position in a sense; none where it does not lie ahead (R61). -/
def aheadBy (mod : Nat) (up : Bool) (p target : Int) : Option Int :=
  let d := mdiff mod (target - p)
  if up then (if d > 0 then some d else none) else (if d < 0 then some (-d) else none)

/-- Is a target one that can be reached: on a cyclic axis a target at or beyond MOD never fires (R70). -/
def inRange (mod : Nat) (target : Int) : Bool := mod == 0 || (decide (0 ≤ target) && decide (target < mod))

/-- A half of a mark, up or down: its state, and the crossing for which it waits to fire LATE. -/
def Mark.half (m : Mark) (up : Bool) : MkState := if up then m.up else m.dn
def Mark.cr (m : Mark) (up : Bool) : Option Int := if up then m.crUp else m.crDn

/-- Does the up (or down) half of mark n wait on axis a for a crossing? -/
def State.waitsOn (s : State) (a n : Nat) (up : Bool) : Bool :=
  let m := s.mark n
  m.inserted && m.ent.axis == a && m.half up == .armed && (m.cr up).isNone && inRange (s.mod16 a) m.target

/-- May mark n stand in the up (or down) window of axis a at position p? -/
def State.winElig (s : State) (a : Nat) (up : Bool) (p : Int) (n : Nat) : Option Int :=
  if s.waitsOn a n up then aheadBy (s.mod16 a) up p (s.mark n).target else none

/-- The nearest of a list of (mark, distance), ties to the lower index. -/
def nearest : List (Nat × Int) → Option (Nat × Int)
  | [] => none
  | x :: r => match nearest r with
    | none => some x
    | some y => if y.2 < x.2 then some y else some x

/-- The farthest of a list of (mark, distance). -/
def farthest : List (Nat × Int) → Option (Nat × Int)
  | [] => none
  | x :: r => match farthest r with
    | none => some x
    | some y => if x.2 < y.2 then some y else some x

/-- A window after one YCLK (R61): marks no longer eligible leave; one mark, the nearest of those outside, enters where
there is a place or a farther mark. -/
def State.refill (s : State) (a : Nat) (up : Bool) (p : Int) (win : List Nat) : List Nat :=
  let dist := fun n => s.winElig a up p n
  let keep := win.filterMap (fun n => (dist n).map (fun d => (n, d)))
  let outs := (s.mke.marks.map (fun e => e.1)).filterMap (fun n =>
    if win.contains n then none else (dist n).map (fun d => (n, d)))
  match nearest outs with
  | none => keep.map (fun e => e.1)
  | some x =>
    if keep.length < 16 then (keep ++ [x]).map (fun e => e.1)
    else match farthest keep with
      | some f => if x.2 < f.2 then ((keep.filter (fun e => e.1 != f.1)) ++ [x]).map (fun e => e.1) else keep.map (fun e => e.1)
      | none => keep.map (fun e => e.1)

/-- An axis of the newest bus sample. -/
def State.busAx (s : State) (a : Nat) : BusAxis :=
  match s.yk.hist with
  | h :: _ => h.axes.getD a BusAxis.idle
  | [] => BusAxis.idle

/-- No mark commits on an axis that is OFF or FROZEN in this YCLK, or while INHIBIT is 1 (R72). -/
def State.mkInhibit (s : State) (a : Nat) : Bool :=
  let x := s.busAx a
  x.st == .off || x.st == .frozen || s.rb (R.MK_AX_CFG a) F.MK_AX_CFG_INHIBIT

/-- A mark passed over without firing (R71, R72): SKIPPED and MK_EVT.SKIP. -/
def State.skipMark (s : State) (a n : Nat) : State :=
  (s.setMark n { s.mark n with skipped := true }).raise R.MK_EVT (1 <<< (16 + a))

/-- A mark whose insertion completes enters a window of its axis where it is among the 16 nearest (R61); the farthest of a full window returns to
the list. -/
def State.enterWin (s : State) (a n : Nat) (up : Bool) (p : Int) : State :=
  let k := s.mkAx a
  let win := (if up then k.upWin else k.dnWin).filterMap (fun j => (s.winElig a up p j).map (fun y => (j, y)))
  match s.winElig a up p n with
  | none => s
  | some dn =>
    let nw := if win.length < 16 then win ++ [(n, dn)]
      else match farthest win with
        | some f => if dn < f.2 then (win.filter (fun e => e.1 != f.1)) ++ [(n, dn)] else win
        | none => win
    let l := nw.map (fun e => e.1)
    s.setMkAx a (if up then { k with upWin := l } else { k with dnWin := l })

/-- MARK_INSERT_DONE (R59, R61, R69): the insertion at the head of the axis's queue is complete after its 4 YCLK; the
mark is in the sorted list and, among the 16 nearest, in its window. A repeat that finds the axis at or beyond its new
target is taken as crossed. A place that frees goes to a waiting repeat first, then to a waiting write. -/
def execMarkInsertDone (a : Fin 8) (s : State) : Host.Outcome State Fault Refusal :=
  let k := s.mkAx a
  match k.queue with
  | [] => .next s
  | n :: r =>
    if s.now < k.headAt + 4 then .next s
    else
      let m := s.mark n
      let x := s.busAx a
      let up := decide (m.up = .armed)
      let d := mdiff (s.mod16 a) (x.pos - m.target)
      let beyond := m.rep && inRange (s.mod16 a) m.target && (if up then decide (0 ≤ d) else decide (d ≤ 0))
      let cr : Option Int := if beyond && !s.mkInhibit a then some (128 * (s.now : Int)) else none
      let m1 := { m with inserted := true, insAt := s.now, rep := false, crUp := if up then cr else none, crDn := if up then none else cr }
      let s1 := (s.setMkAx a { k with queue := r, headAt := s.now }).setMark n m1
      let s2 := if beyond && s.mkInhibit a then s1.skipMark a n else s1
      let s3 := (s2.enterWin a n true x.pos).enterWin a n false x.pos
      let k3 := s3.mkAx a
      .next (match k3.repWait with
        | j :: rw => (s3.setMkAx a { k3 with repWait := rw }).enqueue a j
        | [] => s3.mkDrain)

/-! Crossing and prediction -/

/-- Does the step or motion from sample y to sample x pass target P for the up (or down) half (R62, R71)? -/
def passes (mod : Nat) (up : Bool) (y x : BusAxis) (tgt : Int) : Bool :=
  if x.step || x.rstStep then
    let d := mdiff mod (x.pos - y.pos)
    let g := if mod = 0 then tgt - y.pos else (tgt - y.pos) % mod
    if up then decide (0 < d) && decide (0 < g) && decide (g ≤ d)
    else
      let g' := if mod = 0 then y.pos - tgt else (y.pos - tgt) % mod
      decide (d < 0) && decide (0 < g') && decide (g' ≤ -d)
  else if up then !x.down && decide (mdiff mod (y.pos - tgt) < 0) && decide (0 ≤ mdiff mod (x.pos - tgt))
  else x.down && decide (0 < mdiff mod (y.pos - tgt)) && decide (mdiff mod (x.pos - tgt) ≤ 0)

/-- The crossings of one mark between two samples (R62, R66, R71–R73), and the re-arm of SPENT halves (R67, R73). The samples are those of a
cycle c0 and the one before it, judged in c6; a mark takes part from the YCLK of its insertion. A mark crossed while commits are stopped, at the
crossing or in c6, is SKIPPED (R72). -/
def State.crossMark (s : State) (a : Nat) (y x : BusAxis) (t n : Nat) : State :=
  let m := s.mark n
  if ¬ (m.inserted ∧ m.ent.axis = a ∧ m.insAt ≤ t + 1) then s
  else
    let mod := s.mod16 a
    let inh := s.mkInhibit a
    let skip := inh || x.inh || x.st == .off || x.st == .frozen || x.rstStep || (x.step && s.rb (R.MK_AX_CFG a) F.MK_AX_CFG_STEP_MODE)
    let hit := fun (up : Bool) => s.waitsOn a n up && passes mod up y x m.target
    let keep := fun (up : Bool) => if inh then none else if hit up && !skip then some (128 * (t : Int)) else m.cr up
    let lost := (inh && (m.crUp.isSome || m.crDn.isSome)) || (skip && (hit true || hit false))
    let e := mdiff mod (x.pos - m.target)
    let up' := if m.up = .spent ∧ (x.rstStep ∨ (x.down ∧ e ≤ -(m.ent.hyst : Int))) then MkState.armed else m.up
    let dn' := if m.dn = .spent ∧ (x.rstStep ∨ (¬ x.down ∧ (m.ent.hyst : Int) ≤ e)) then MkState.armed else m.dn
    let s1 := s.setMark n { m with up := up', dn := dn', crUp := keep true, crDn := keep false }
    if lost then s1.skipMark a n else s1

/-- The predicted crossing time of a target in 1/128 YCLK (R63): none while v is 0 or points away. -/
def predict (mod : Nat) (up : Bool) (x : BusAxis) (tgt : Int) : Option Int :=
  let d := mdiff mod (tgt - x.pos)
  if up then (if 0 < x.vel ∧ 0 ≤ d then some (rndDiv (d * 0x10000 * 128) x.vel.natAbs) else none)
  else (if x.vel < 0 ∧ d ≤ 0 then some (rndDiv (-d * 0x10000 * 128) x.vel.natAbs) else none)

/-- A candidate for the commit of one axis: its rank (crossed first), its order within the rank, its index, its half and
its Tc in 1/128 YCLK. -/
structure Cand where
  crossed : Bool
  key     : Int
  n       : Nat
  up      : Bool
  tc      : Int
deriving DecidableEq, Repr

/-- The order in which candidates commit (R64). -/
def Cand.before (x y : Cand) : Bool :=
  if x.crossed != y.crossed then x.crossed
  else if x.key ≠ y.key then decide (x.key < y.key)
  else decide (x.n < y.n)

/-- The first candidate. -/
def firstCand : List Cand → Option Cand
  | [] => none
  | x :: r => match firstCand r with
    | none => some x
    | some y => if y.before x then some y else some x

/-- The candidates of axis a on sample x of cycle c0 (R64): halves that wait to fire LATE, and the halves of the window of the axis's DIR as it
stood in c1 (Table MK-4). -/
def State.cands (s : State) (a : Nat) (x : BusAxis) (c0 : Nat) : List Cand :=
  let mod := s.mod16 a
  let late := fun (n : Nat) (up : Bool) =>
    let m := s.mark n
    if m.ent.axis = a ∧ (m.cr up).isSome then
      [{ crossed := true, key := if up then mdiff mod (m.target - x.pos) else mdiff mod (x.pos - m.target), n := n, up := up, tc := 0 : Cand }]
    else []
  let cr := (s.mke.marks.map (fun e => e.1)).flatMap (fun n => late n true ++ late n false)
  let up := !x.down
  let k := s.mkAx a
  let w := (k.wins[5]?).getD (k.wins.getLast?.getD (k.upWin, k.dnWin))
  let pr := (if up then w.1 else w.2).filterMap (fun n =>
    if s.waitsOn a n up ∧ (s.mark n).insAt ≤ c0 + 1 then
      match predict mod up x (s.mark n).target with
      | some tc => if tc < 4096 then some { crossed := false, key := tc, n := n, up := up, tc := tc : Cand } else none
      | none => none
    else none)
  cr ++ pr

/-- A mark taken out of the window of one half, or of both. -/
def MkAxis.dropHalf (k : MkAxis) (n : Nat) (up both : Bool) : MkAxis :=
  { k with upWin := if up || both then k.upWin.filter (· != n) else k.upWin,
           dnWin := if !up || both then k.dnWin.filter (· != n) else k.dnWin }

/-- The state of a mark after its commit (R67–R69): a repeat moves its target and queues again, the last firing of a
repeating mark leaves it DONE, ONESHOT leaves it IDLE, else the half is SPENT. -/
def State.afterCommit (s : State) (a n : Nat) (up : Bool) : State :=
  let m := s.mark n
  let mod := s.mod16 a
  let both := m.ent.oneshot
  let k := (s.mkAx a).dropHalf n up both
  if m.ent.rpt ≠ 0 ∧ m.remain ≠ 0 then
    let tgt := mplace mod (if up then m.target + m.ent.per else m.target - m.ent.per)
    let m1 := { m with target := tgt, remain := if m.ent.rpt = 0xFFFF then m.remain else m.remain - 1, inserted := false,
                       rep := true, crUp := none, crDn := none }
    let s1 := (s.setMark n m1).setMkAx a k
    if 32 ≤ k.queue.length then s1.setMkAx a { k with repWait := k.repWait ++ [n] } else s1.enqueue a n
  else
    let st : MkState := if m.ent.rpt ≠ 0 then .done else if m.ent.oneshot then .idle else .spent
    let m1 := { m with crUp := if up ∨ both then none else m.crUp, crDn := if ¬ up ∨ both then none else m.crDn,
                       up := if up ∨ both then (if m.ent.dir = 1 then m.up else st) else m.up,
                       dn := if ¬ up ∨ both then (if m.ent.dir = 0 then m.dn else st) else m.dn }
    (s.setMark n m1).setMkAx a k

/-- One commit (R64–R66): the action enters the pipeline with its firing instant and lateness. -/
def State.commitMark (s : State) (a : Nat) (x : BusAxis) (c0 : Nat) (c : Cand) : State :=
  let m := s.mark c.n
  let late := c.crossed || decide (c.tc < 2048)
  let isEdge := m.ent.action == 1
  let lateInst : Int := 128 * ((c0 : Int) + (if isEdge then 16 else 7))
  let crossAt : Int := if c.crossed then (m.cr c.up).getD 0 else 128 * (c0 : Int) + c.tc
  let inst := if late then lateInst else 128 * (c0 : Int) + c.tc
  let leave := if late ∨ isEdge then c0 + 7 else c0 + (c.tc / 128).toNat
  let cm : Commit := { mark := c.n, axis := a, leave := leave, inst := inst, late := late,
                       lateness := if late then (inst - crossAt).toNat else 0, hold := decide (x.st = .holdover), up := c.up,
                       action := m.ent.action, arg0 := m.ent.arg0, arg1 := m.ent.arg1 }
  let s1 := (s.hiCommit c.n).setMark c.n { m with inPipe := m.inPipe + 1 }
  let s2 := s1.afterCommit a c.n c.up
  { s2 with mke := { s2.mke with pipe := s2.mke.pipe ++ [cm] } }

/-- One YCLK of the mark engine on one axis: the sample six YCLK old is judged against the one before it; the windows follow the newest. -/
def State.engineAxis (s : State) (a : Nat) : State :=
  let ms := s.mke.marks.map (fun e => e.1)
  let crossed := match s.yk.hist[5]?, s.yk.hist[6]? with
    | some hx, some hy => s.each ms (fun n t => t.crossMark a (hy.axes.getD a BusAxis.idle) (hx.axes.getD a BusAxis.idle) hx.time n)
    | _, _ => s
  let k := crossed.mkAx a
  let p := (s.busAx a).pos
  let u := crossed.refill a true p k.upWin
  let d := crossed.refill a false p k.dnWin
  let s2 := crossed.setMkAx a { k with upWin := u, dnWin := d, wins := ((u, d) :: k.wins).take 6 }
  match s.yk.hist[5]? with
  | some hx =>
    let x := hx.axes.getD a BusAxis.idle
    if s2.mkInhibit a then s2
    else match firstCand (s2.cands a x hx.time) with
      | some c => s2.commitMark a x hx.time c
      | none => s2
  | none => s2

/-- Every mark IDLE (R74, Table MK-5): an entry behind a committed action takes effect with ARM 0 after it, what waits for insertion leaves. -/
def State.disarmMarks (s : State) : State :=
  let s0 := s.hiMarksGone
  let s1 := s0.each (s0.mke.marks.map (fun e => e.1)) (fun n t =>
    let m := t.mark n
    let u := t.hiFoldIn n false (match m.behind with | some b => b.fold | none => none)
    u.setMark n { m with ent := { m.ent with arm := false },
                         behind := m.behind.map (fun b => { ent := { b.ent with arm := false }, fold := none }),
                         up := .idle, dn := .idle, inserted := false, rep := false, crUp := none, crDn := none })
  { s1 with mke := { s1.mke with axes := [], disarm := none } }

/-- The writes whose YCLK has come take effect, after the commits of that YCLK (Table MK-5): entries in the order of their writes, then a
DISARM_ALL, under which they come into force with ARM 0. -/
def State.mkEffects (s : State) : State :=
  let due := s.mke.written.filter (fun w => decide (w.1 ≤ s.now))
  let s1 := { s with mke := { s.mke with written := s.mke.written.filter (fun w => !decide (w.1 ≤ s.now)) } }
  let off := match s.mke.disarm with
    | some t => decide (t ≤ s.now)
    | none => false
  let s2 := due.foldl (fun t w => t.effectEntry w.2.1 (if off then { w.2.2 with ent := { w.2.2.ent with arm := false } } else w.2.2)) s1
  (if off then s2.disarmMarks else s2).mkDrain

/-- MARK_ENGINE_CYCLE (R61–R73): one YCLK of the engine on every axis, at most one commit for each. A write that takes effect in this YCLK acts
after its commits (Table MK-5). -/
def execMarkEngineCycle (s : State) : Host.Outcome State Fault Refusal :=
  if s.rf (R.PW_DOM_STAT 16) F.PW_DOM_STAT_STATE < 2 then .next s
  else .next (s.each (List.range 8) (fun a t => t.engineAxis a)).mkEffects

/-- DISARM_ALL (R74): an MK_CTRL write like any other. -/
def execDisarmAll (s : State) : Host.Outcome State Fault Refusal :=
  .next (s.mkWrite R.MK_CTRL (w32 (F.MK_CTRL_DISARM_ALL.put (0 : Word) 1).toNat))

/-- MK_BLK_RST (R86): every MK field marked Block; committed actions stay in the pipeline and complete; what waits for the block is gone. -/
def execMkBlkRst (s : State) : Host.Outcome State Fault Refusal :=
  let s1 := s.hiMarksGone.clearRegs .block 0x20000 0x40000
  .next (s.blkRst 3 { s1 with mke := { s1.mke with marks := [], axes := [], written := [], regq := [], disarm := none } })

/-! Read views -/

/-- The state MK_STAT shows: that of the half that fired last, or of the half the entry has (R68). -/
def Mark.shown (m : Mark) : MkState :=
  if m.ent.dir = 0 then m.up else if m.ent.dir = 1 then m.dn else if m.lastUp then m.up else m.dn

/-- MK_STAT[n]. -/
def Mark.stat (m : Mark) : Word :=
  w32 (m.shown.code + 4 * b2n m.late + 8 * b2n m.hold + 16 * b2n m.skipped + 32 * b2n (m.inPipe != 0)
       + 256 * satN 0xFFFFFF m.lateness)

/-- MK_FIRES[n]. -/
def Mark.firesReg (m : Mark) : Word := w32 (m.fires + 65536 * m.remain)

/-- MK_AX_STAT[a]. -/
def State.mkAxStat (s : State) (a : Nat) : Word :=
  let k := s.mkAx a
  let armed := ((s.mke.marks.map (fun e => e.2)).filter (fun m =>
    decide (m.ent.axis = a) && (m.up == .armed || m.dn == .armed))).length
  w32 (k.upWin.length + 32 * k.dnWin.length + 1024 * satN 32 k.queue.length + 65536 * armed)

end Sys2Proof.Machine
end

