-- ==== Sys2Proof/Machine/Cuffs.lean ====
section
/-! DEFINITION. The Cuffs and the capture slots (02_marks_and_cuffs.md, R77–R86): ownership, scheduled edges, squeezed
transitions, placement, captures. Instants are in taps. -/

namespace Sys2Proof.Machine

/-- The owner of a Cuff (CF_CFG.OWNER). -/
def State.cfOwner (s : State) (n : Nat) : Nat := s.rf (R.CF_CFG n) F.CF_CFG_OWNER

/-- The level that the express port of a Cuff drives on it (R127). -/
def State.expLevel (s : State) (n : Nat) : Bool :=
  wbit (s.rg (R.AR_EXP_OUT (s.rf (R.CF_CFG n) F.CF_CFG_EXP))) (n % 32)

/-- Of two scheduled edges, the one evaluated first: by instant, then by commit order (R79). -/
def CuffEdge.before (x y : CuffEdge) : Bool :=
  if x.inst ≠ y.inst then decide (x.inst < y.inst) else decide (x.seq < y.seq)

/-- The edge to evaluate next. -/
def nextEdge : List CuffEdge → Option CuffEdge
  | [] => none
  | x :: r => match nextEdge r with
    | none => some x
    | some y => if y.before x then some y else some x

/-- The level an edge targets at its instant, from the level there (R79). -/
def CuffEdge.aim (e : CuffEdge) (level : Bool) : Bool :=
  match e.op with
  | .setHi => true
  | .setLo => false
  | .toggle => !level
  | .pulseOn => !level
  | .pulseOff => e.back.getD level

/-- Where a transition reaches the ball (R80): at least 16 taps after the last one, the third of a YCLK at tap 0 of the
next. -/
def Cuff.squeeze (k : Cuff) (inst : Int) : Int :=
  match k.lastTr with
  | none => inst
  | some l =>
    let e1 := if inst < l + 16 then l + 16 else inst
    if e1 / 128 = l / 128 ∧ 2 ≤ k.trYclk then max (128 * (l / 128 + 1)) (l + 16) else e1

/-- The output path of a Cuff at an instant (R509): YCLK and delay-line steps. With SCALE 0 the edge takes 0 steps (DESIGN CHOICE, log entry 143). -/
def State.outPlace (s : State) (n : Nat) (e : Int) : Int × Nat :=
  let m := e - sext 8 (s.rf (R.CF_OUT_ADJ n) F.CF_OUT_ADJ_ADJ)
  let sc := s.rf R.CF_TAP_CAL F.CF_TAP_CAL_SCALE
  (m / 128, if sc = 0 then 0 else (rndDiv (m % 128 * 32768) sc).toNat)

/-- A transition made on Cuff n, wanted at `want` (R80, R509). -/
def State.transition (s : State) (n : Nat) (want : Int) (level : Bool) : State :=
  let k := s.cuff n
  let e := k.squeeze want
  let same := match k.lastTr with
    | some l => decide (e / 128 = l / 128)
    | none => false
  let s1 := s.setCuff n { k with level := level, lastTr := some e, trYclk := if same then k.trYclk + 1 else 1,
                                 placed := some (s.outPlace n e) }
  if e = want then s1
  else (s1.bump (R.CF_STAT n) F.CF_STAT_SQZ 1).raiseF R.CF_EVT F.CF_EVT_SQUEEZE

/-- A place that an edge takes out of a Cuff's list; the return edge of a pulse learns the level before it (R79). -/
def Cuff.without (k : Cuff) (e : CuffEdge) : List CuffEdge :=
  (k.edges.filter (fun x => !decide (x.seq = e.seq))).map (fun x =>
    if e.op = .pulseOn ∧ x.seq = e.seq + 1 ∧ x.op = .pulseOff then { x with back := some k.target } else x)

/-- What reaches its instant on a Cuff in the present YCLK (R79–R81). A scheduled edge is evaluated at its own instant: without a transition its
place is free; else its transition comes now, or, where R80 moves it past this YCLK or moved ones wait before it, joins those. With no
edge to evaluate the first moved transition comes, when its time is in this YCLK. -/
def State.cuffDue (s : State) (n : Nat) : State :=
  let k := s.cuff n
  let stop : Int := 128 * ((s.now : Int) + 1)
  match (nextEdge k.edges).filter (fun e => decide (e.inst < stop)) with
  | some e =>
    let lv := e.aim k.target
    let k1 : Cuff := { k with edges := k.without e, target := lv }
    if lv = k.target then s.setCuff n k1
    else if k.moved.isEmpty ∧ k.squeeze e.inst < stop then (s.setCuff n k1).transition n e.inst lv
    else s.setCuff n { k1 with moved := k.moved ++ [(e.inst, lv)] }
  | none =>
    match k.moved with
    | (w, lv) :: r => if k.squeeze w < stop then (s.setCuff n { k with moved := r }).transition n w lv else s
    | [] => s

/-- The level that the fabric gives Cuff n (R83, R264): its output register's, or, in a Sleeved region, the BALL_HOLD value of the ball, where 2 (Z) and
3 leave the level as it is (R295); before stage 1 nothing changes it. -/
def State.fabLevel (s : State) (n : Nat) : Bool :=
  let k := s.cuff n
  match s.userBallHold n with
  | some 0 => false
  | some 1 => true
  | some _ => k.level
  | none => if s.ballHeld n then k.level else k.src

/-- Does Cuff n drive its ball (R77, R264, R458)? Nothing does before stage 1, an input-only Cuff never; the fabric as its output enable says, or
with the BALL_HOLD value unless that is Z. -/
def State.cuffDrives (s : State) (n : Nat) : Bool :=
  if s.rf R.FB_REL_STAT F.FB_REL_STAT_STAGE = 0 then false
  else match s.cfOwner n with
    | 0 => (match s.userBallHold n with
      | some v => v != 2
      | none => (s.cuff n).oe)
    | 1 => true
    | 2 => true
    | _ => false

/-- CUFF_TRANSITION (R79, R80, R83, R127, R264): what the owner's source brings to the ball in the present YCLK. `lvl` and `oe` are the level and the
enable of the fabric's output register for the ball, which changes at tap `tap`. The mark engine's next scheduled edge; for the fabric
its register or the hold value; for an express port the bit of its output register; an input-only Cuff has no output. From 128 on the ball is a
plain user I/O (R264). -/
def execCuffTransition (n : Fin 200) (lvl oe : Bool) (tap : BitVec 7) (s0 : State) : Host.Outcome State Fault Refusal :=
  let (l1, e1) := s0.outOf n lvl oe
  let s := s0.setCuff n { s0.cuff n with src := l1, oe := e1 }
  let o := s.cfOwner n
  let follow := fun (v : Bool) =>
    let k := s.cuff n
    let s1 := s.setCuff n { k with target := v }
    if k.level = v then s1
    else s1.transition n (128 * (s.now : Int) + tap.toNat + s.rf (R.CF_CFG n) F.CF_CFG_STATIC_TAP) v
  .next (if 128 ≤ n.val then s0.uioDrive n lvl oe
         else if s.hxBusCuff n ∨ o = 3 then s
         else if o = 1 then s.cuffDue n
         else if o = 2 then follow (s.expLevel n)
         else follow (s.fabLevel n))

/-- Places taken in a Cuff (R81): edges not yet evaluated and moved transitions. -/
def Cuff.held (k : Cuff) : Nat := k.edges.length + k.moved.length

/-- Scheduled edges of a Cuff discarded (R78); `count` where they count in DROP. -/
def State.dropEdges (s : State) (n : Nat) (count : Bool) : State :=
  let k := s.cuff n
  let s1 := s.setCuff n { k with edges := [], moved := [] }
  if count then s1.bump (R.CF_STAT n) F.CF_STAT_DROP k.held else s1

/-- The level a Cuff takes from its owner's source at a change of owner (R78, R83). -/
def State.ownerLevel (s : State) (n : Nat) : Bool :=
  match s.cfOwner n with
  | 0 => s.fabLevel n
  | 1 => s.rb (R.CF_CFG n) F.CF_CFG_INIT
  | 2 => s.expLevel n
  | _ => (s.cuff n).level

/-- CF_CFG_WRITE (R77, R78): an owner change discards the scheduled edges into DROP and gives the ball the new owner's
level, INIT for the mark engine. -/
def execCfCfgWrite (n : Fin 128) (v : Word) (s : State) : Host.Outcome State Fault Refusal :=
  let was := s.cfOwner n
  let s1 := s.store (R.CF_CFG n) v
  let s2 := if s1.rb (R.CF_CFG n) F.CF_CFG_ICAP_EN then s1 else s1.setCuff n { s1.cuff n with icap := [] }
  .next (if s2.cfOwner n = was then s2
         else
           let s3 := s2.dropEdges n true
           let lv := s3.ownerLevel n
           let s4 := s3.setCuff n { s3.cuff n with target := lv }
           if (s4.cuff n).level = lv ∨ s4.hxBusCuff n then s4
           else s4.transition n (128 * ((s.now : Int) + 1)) lv)

/-! Captures -/

/-- A capture into slot `k` (R84, R85): source `src` (KIND 0 mark, 1 Cuff), axes `mask`, instant `inst`. A slot that is
VALID discards it. Where the YCLK of the instant has no sample yet, its OBSERVER_UPDATE records the positions. In HX mode the bus unit takes the captures of its slots (R473). -/
def State.capture (s : State) (k src kind mask : Nat) (inst : Int) : State :=
  let st := s.rg (R.MK_CAP_STAT k)
  if F.MK_CAP_STAT_VALID.bit st then
    (s.setRb (R.MK_CAP_STAT k) F.MK_CAP_STAT_OVR true).raiseF R.CF_EVT F.CF_EVT_CAP_OVR
  else
    let t := (inst / 128).toNat
    let s1 := s.setRg (R.MK_CAP_STAT k)
      (w32 (1 + 2 * b2n (F.MK_CAP_STAT_OVR.bit st) + 16 * src + 0x4000 * kind + 0x10000 * mask))
    let s2 := s1.setRg (R.MK_CAP_TIME_LO k) (w32 t)
    let s3 := s2.setRg (R.MK_CAP_TIME_HI k) (w32 (bitsOf t 32 16 + 0x10000 * (inst % 128).toNat))
    let s4 := if inst < 128 * (s.now : Int) then s3.capPositions k mask inst
      else { s3 with yk := { s3.yk with capWait := s3.yk.capWait ++ [(k, mask, inst)] } }
    s4.hxCapture k inst

/-- CUFF_INPUT_CAPTURE (R13, R84): the oldest edge of a capture-enabled Cuff that has held IFILT YCLK, and that ICAP_EDGE
selects, fills slot ICAP_SLOT with all eight axes. -/
def execCuffInputCapture (n : Fin 128) (s : State) : Host.Outcome State Fault Refusal :=
  let k := s.cuff n
  let cfg := s.rg (R.CF_CFG n)
  match k.icap with
  | [] => .next s
  | e :: r =>
    if s.now < e.cyc + F.CF_CFG_IFILT.get cfg then .next s
    else
      let s1 := s.setCuff n { k with icap := r }
      let sel := F.CF_CFG_ICAP_EDGE.get cfg
      let take := F.CF_CFG_ICAP_EN.bit cfg && (if e.level then sel.testBit 0 else sel.testBit 1)
      .next (if take then s1.capture (F.CF_CFG_ICAP_SLOT.get cfg) n 1 0xFF e.ts else s1)

/-- CF_BLK_RST (R86): every CF field marked Block; owners return to 0, so each ball takes the fabric's level at the next YCLK, under R80; edges
scheduled by the mark engine are discarded uncounted. -/
def execCfBlkRst (s : State) : Host.Outcome State Fault Refusal :=
  let s1 := s.clearRegs .block 0x40000 0x100000
  .next (s.blkRst 4 (s1.each (s1.cuffs.map (fun e => e.1)) (fun n t =>
    let k := t.cuff n
    let u := t.setCuff n { k with edges := [], moved := [], icap := [], target := t.fabLevel n }
    if s.cfOwner n = 0 ∨ k.level = t.fabLevel n ∨ u.hxBusCuff n then u
    else u.transition n (128 * ((s.now : Int) + 1)) (t.fabLevel n))))

/-- CF_STAT[n]: LEVEL and PEND beside the counters it holds. -/
def State.cfStat (s : State) (n : Nat) : Word :=
  let k := s.cuff n
  w32 ((andNot (s.rg (R.CF_STAT n)).toNat 0xFF) + b2n k.level + 2 * k.held)

end Sys2Proof.Machine
end

