-- ==== Sys2Proof/Machine/Ecc.lean ====
section
/-! DEFINITION. The (72,64) code, how every protected memory is read and written through it, the error log, the flip mask
and spare rows (07_stream_memory.md, R223–R239). A word is held as its 8 data bytes and its syndrome. Places are
addresses of the model's memory (Ops: memory bases). -/

namespace Sys2Proof.Machine

/-! The code -/

/-- The columns H_0 to H_63 (R228): the bytes of weight 3 in ascending order, then eight of weight 5. -/
def hCols : List Nat :=
  ((List.range 256).filter (fun x => popc 8 x == 3)) ++ [0x1F, 0x2F, 0x37, 0x3B, 0x3D, 0x3E, 0x4F, 0x57]

/-- Exclusive or of the columns of the set bits of `d`, the columns from bit `j` on. -/
def checkGo : List Nat → Nat → Nat
  | [], _ => 0
  | h :: r, d => (if d % 2 = 1 then h else 0) ^^^ checkGo r (d / 2)

/-- The check byte of 64 data bits (R228). -/
def checkByte (d : Nat) : Nat := checkGo hCols d

/-- The class of a codeword (R230). -/
inductive EccClass where
  | good | corrected (bit : Nat) | poison | uncorrectable
deriving DecidableEq, Repr

/-- The place of a value in a list. -/
def indexIn (x : Nat) : List Nat → Nat → Option Nat
  | [], _ => none
  | y :: r, i => if x = y then some i else indexIn x r (i + 1)

/-- The class by syndrome and data (R230): codeword bits 0–63 are the data, 64–71 the check bits. -/
def eccClassOf (syn d : Nat) : EccClass :=
  if syn = 0 then .good
  else match indexIn syn (hCols ++ (List.range 8).map (fun i => 2 ^ i)) 0 with
    | some b => .corrected b
    | none => if syn = 0xFF ∧ d = 0 then .poison else .uncorrectable

/-- The data with its corrected bit inverted. -/
def eccFix (c : EccClass) (d : Nat) : Nat :=
  match c with
  | .corrected b => if b < 64 then d ^^^ (1 <<< b) else d
  | _ => d

/-! Places -/

/-- Spare rows of the SMB banks. -/
def memSpare : Nat := 0x70000000

/-- The memory group of a place (Table SM-3). -/
def groupOf (a : Nat) : Nat :=
  if a < memLM then 0 else if a < memBRAM then 1 else if a < memCore then 2 else if a < memPleat then 3
  else if a < memCfg then 4 else if a < memFlash then 5 else 0

/-- The row that a spare row of a bank serves, or that is being copied into it (R238, R239). -/
def State.spareRow (s : State) (b i : Nat) : Nat :=
  match s.sm.repairs.find? (fun q => q.bank == b && q.spare == i), s.sm.run with
  | some q, _ => q.row
  | none, some r => if r.bank = b ∧ r.spare = i then r.row else i
  | none, none => i

/-- Unit number and byte offset of a place within its group; a word in a spare row has the bank offset of the row that it serves. -/
def State.unitOf (s : State) (a : Nat) : Nat × Nat :=
  match groupOf a with
  | 0 =>
    if memSpare ≤ a then
      let b := (a - memSpare) / 1024
      (b, 128 * s.spareRow b ((a - memSpare) % 1024 / 128) + a % 128)
    else (a / 0x80000, a % 0x80000)
  | 1 => ((a - memLM) / 0x2000, (a - memLM) % 0x2000)
  | 2 => ((a - memBRAM) / 0x2000, (a - memBRAM) % 0x2000)
  | 3 => (0, a - memCore)
  | 4 => ((a - memPleat) / 512, (a - memPleat) % 512)
  | _ => (0, a - memCfg)

/-- The element that an error at a place names to the fault unit (Table FT-1): the PE's column, or the SMB row. -/
def State.elemOf (s : State) (a : Nat) : List (Nat × Nat) :=
  let (u, o) := s.unitOf a
  match groupOf a with
  | 0 => [(2, o / 128 + 0x1000 * u)]
  | 1 => [(1, u / 32 + 0x100 * (u % 32))]
  | 4 => [(1, u / 32 + 0x100 * (u % 32))]
  | _ => []

/-- The place that serves an SMB offset: a spare row where its row is mapped (R238, R239). -/
def State.smbPlace (s : State) (off : Nat) : Nat :=
  let b := off / 0x80000
  let r := off % 0x80000 / 128
  match (s.sm.repairs.filter (fun q => q.bank == b && q.row == r)).getLast? with
  | some q => memSpare + 1024 * b + 128 * q.spare + off % 128
  | none => memSMB + off

/-! Words -/

/-- The syndrome that an unlisted word has, by word number: good in the protected memories; in erased flash the check bits are
all ones beside data of all ones (R308), which is 0x27 off the code. -/
def synDefault (w : Nat) : BitVec 8 := if memFlash ≤ 8 * w ∧ 8 * w < memFlash + 0x4000000 then 0x27 else 0

/-- The syndrome of the word at a place (R228). -/
def State.synAt (s : State) (a : Nat) : Nat := (Tab.get synDefault s.syn (a / 8)).toNat

/-- A syndrome set. -/
def State.setSyn (s : State) (a v : Nat) : State :=
  { s with syn := Tab.put synDefault s.syn (a / 8) (BitVec.ofNat 8 v) }

/-- The stored 64 data bits of the word at a place. -/
def State.rawAt (s : State) (a : Nat) : Nat := s.numAt (a / 8 * 8) 8

/-- The class of the word at a place. -/
def State.classAt (s : State) (a : Nat) : EccClass := eccClassOf (s.synAt a) (s.rawAt a)

/-- The corrected data of the word at a place. -/
def State.fixedAt (s : State) (a : Nat) : Nat := eccFix (s.classAt a) (s.rawAt a)

/-- A word coded and stored (R228): error, correction and poison waiting for it are gone (R231, R243). -/
def State.storeWord (s : State) (a d : Nat) : State :=
  let w := a / 8 * 8
  let s1 := (s.setNum w 8 d).setSyn w 0
  { s1 with sm := { s1.sm with wbq := s1.sm.wbq.filter (· != w), poison := s1.sm.poison.filter (· != w) } }

/-- The poison code stored (R230). -/
def State.storePoison (s : State) (a : Nat) : State := (s.storeWord a 0).setSyn a 0xFF

/-- Codeword bits inverted after coding: data mask and check mask (R237). -/
def State.invert (s : State) (a dm cm : Nat) : State :=
  let w := a / 8 * 8
  let d := s.rawAt w
  (s.setNum w 8 (d ^^^ dm)).setSyn w (s.synAt w ^^^ cm ^^^ checkByte dm)

/-- The flip mask after a write to the lowest word `a` by a requester or a PE store (R237): it applies once, to the unit
and group it names. -/
def State.flip (s : State) (a : Nat) : State :=
  let c := s.rg R.SM_FLIP_CFG
  let (u, _) := s.unitOf a
  if F.SM_FLIP_CFG_ARM.bit c ∧ F.SM_FLIP_CFG_GROUP.get c = groupOf a ∧ F.SM_FLIP_CFG_UNIT.get c = u then
    let s1 := s.setRb R.SM_FLIP_CFG F.SM_FLIP_CFG_ARM false
    let m0 := (s.rg R.SM_FLIP_MASK_W0).toNat
    if F.SM_FLIP_CFG_MODE.bit c then
      let row := a / 128 * 128
      (bitList 32 m0).foldl (fun t i =>
        let k := F.SM_FLIP_CFG_OFS.get c + i
        if 1152 ≤ k then t
        else if k / 16 < 64 then t.invert (row + 8 * (k % 16)) (1 <<< (k / 16)) 0
        else t.invert (row + 8 * (k % 16)) 0 (1 <<< (k / 16 - 64))) s1
    else
      s1.invert a (m0 + 2 ^ 32 * (s.rg R.SM_FLIP_MASK_W1).toNat) (s.rf R.SM_FLIP_MASK_W2 F.SM_FLIP_MASK_W2_MASK)
  else s

/-! The log -/

/-- An error result counted and logged (R236): KIND 1 corrected, 2 uncorrectable read, 3 poisoned by a scrubber, 4 poison
read; SOURCE as SM_LOG_CTL. -/
def State.logEcc (s : State) (a kind source syn bit : Nat) : State :=
  let g := groupOf a
  let (u, o) := s.unitOf a
  let off := o / 8 * 8
  let s1 := if kind = 1 then (s.bump (R.SM_CE_CNT g) F.SM_CE_CNT_COUNT 1).raiseF R.SM_EVT F.SM_EVT_CE
    else s.bump (R.SM_UE_CNT g) F.SM_UE_CNT_COUNT 1
  let s2 := if kind = 2 then s1.raiseF R.SM_EVT F.SM_EVT_UE else s1
  let valid := fun e => s2.rb (R.SM_LOG_CTL g e) F.SM_LOG_CTL_VALID
  let same := (List.range 16).find? (fun e => valid e && s2.rf (R.SM_LOG_UNIT g e) F.SM_LOG_UNIT_UNIT == u &&
    s2.rf (R.SM_LOG_ADDR g e) F.SM_LOG_ADDR_ADDR == off && s2.rf (R.SM_LOG_CTL g e) F.SM_LOG_CTL_KIND == kind)
  match same with
  | some e => s2.bump (R.SM_LOG_CTL g e) F.SM_LOG_CTL_REPEAT 1
  | none => match (List.range 16).find? (fun e => !valid e) with
    | some e =>
      ((s2.setRg (R.SM_LOG_CTL g e) (w32 (1 + 2 * kind + 16 * source + 256 * syn + 0x1000000 * bit))).setRg
        (R.SM_LOG_UNIT g e) (w32 u)).setRg (R.SM_LOG_ADDR g e) (w32 off)
    | none => (s2.bump (R.SM_LOG_OVF g) F.SM_LOG_OVF_COUNT 1).raiseF R.SM_EVT F.SM_EVT_LOG_FULL

/-- A fault record sent to the fault unit (R415). -/
def State.report (s : State) (det : Nat) (elems : List (Nat × Nat)) : State :=
  { s with faults := s.faults ++ [{ det := det, elems := elems, time := s.now }] }

/-! Requesters -/

/-- The status of a word read (Table NW-5): 0 OK, 2 POISON, 3 UNCORR. -/
def EccClass.status : EccClass → Nat
  | .good => 0 | .corrected _ => 0 | .poison => 2 | .uncorrectable => 3

/-- A word read by a requester (R231): the result counted, logged and reported, a correction queued for write-back. The
answer is the state, the corrected data and the status. -/
def State.readWord (s : State) (a source : Nat) : State × Nat × Nat :=
  let w := a / 8 * 8
  let c := s.classAt w
  let syn := s.synAt w
  match c with
  | .good => (s, s.rawAt w, 0)
  | .corrected b =>
    let s1 := s.logEcc w 1 source syn b
    ({ s1 with sm := { s1.sm with wbq := if s1.sm.wbq.contains w then s1.sm.wbq else s1.sm.wbq ++ [w] } }, s.fixedAt w, 0)
  | .poison => ((s.logEcc w 4 source syn 0).report 2 (s.elemOf w), 0, 2)
  | .uncorrectable => ((s.logEcc w 2 source syn 0).report 2 (s.elemOf w), 0, 3)

/-- Bytes of one word written by a requester (R226, R232): `en` enables the word's bytes. A part-word write reads the word
first and writes nothing where it is uncorrectable or poisoned. The answer is the state and the status. -/
def State.writeWord (s : State) (a source d en : Nat) : State × Nat :=
  let w := a / 8 * 8
  if en % 256 = 0 then (s, 0)
  else if en % 256 = 255 then (s.storeWord w d, 0)
  else
    let (s1, old, st) := s.readWord w source
    if st ≠ 0 then (s1, st)
    else
      let m := (List.range 8).foldl (fun acc i => if en.testBit i then acc + (0xFF <<< (8 * i)) else acc) 0
      (s1.storeWord w ((andNot old m) + (d &&& m)), 0)

/-- Of two statuses the one that is recorded: the lower, 0 being none (R508). -/
def lowStatus (a b : Nat) : Nat := if a = 0 then b else if b = 0 then a else min a b

/-- A run of words written, each as its place, its 64-bit data and its byte enables: the status, and the first place written. -/
def State.writeGo (s : State) (source : Nat) : List (Nat × Nat × Nat) → State × Nat × Option Nat
  | [] => (s, 0, none)
  | (a, d, en) :: r =>
    let (s1, st) := s.writeWord a source d en
    let (s2, st2, w) := State.writeGo s1 source r
    (s2, lowStatus st st2, if st = 0 ∧ en % 256 ≠ 0 then some a else w)

/-- A write of a requester or a PE, in ascending order of address: an armed flip mask applies to the lowest word written (R237). -/
def State.writeWords (s : State) (source : Nat) (l : List (Nat × Nat × Nat)) : State × Nat :=
  let (s1, st, w) := s.writeGo source l
  ((match w with | some a => s1.flip a | none => s1), st)

/-- A run of words read: the data and the status. -/
def State.readWords (s : State) (source : Nat) : List Nat → State × List Nat × Nat
  | [] => (s, [], 0)
  | a :: r =>
    let (s1, d, st) := s.readWord a source
    let (s2, ds, st2) := State.readWords s1 source r
    (s2, d :: ds, lowStatus st st2)

/-- Everything in a range of the model's memory cleared to zero data and check byte 0x00 (R233). -/
def State.clearMem (s : State) (lo hi : Nat) : State :=
  { s with
    mem := s.mem.filter (fun e => !(decide (lo ≤ e.1) && decide (e.1 < hi)))
    syn := s.syn.filter (fun e => !(decide (lo ≤ 8 * e.1) && decide (8 * e.1 < hi)))
    sm := { s.sm with
      wbq := s.sm.wbq.filter (fun a => !(decide (lo ≤ a) && decide (a < hi)))
      poison := s.sm.poison.filter (fun a => !(decide (lo ≤ a) && decide (a < hi))) } }

end Sys2Proof.Machine
end

