-- ==== Sys2Proof/Machine/Exits.lean ====
section
/-! DEFINITION. What tokens do to the protection groups as they pass (14_fault_containment.md, R423–R425): exits and their
counts, OPEN groups. Exits are numbered as FT_EXIT_SEL numbers them. -/

namespace Sys2Proof.Machine

/-- Exit e. -/
def State.exit (s : State) (e : Nat) : ExitCnt := Tab.get (fun _ => ExitCnt.zero) s.ft.exits e
/-- Exit e replaced. -/
def State.setExit (s : State) (e : Nat) (x : ExitCnt) : State :=
  { s with ft := { s.ft with exits := Tab.put (fun _ => ExitCnt.zero) s.ft.exits e x } }
/-- Group g. -/
def State.grp (s : State) (g : Nat) : Grp := Tab.get (fun _ => Grp.idle) s.ft.grps g
/-- Group g replaced. -/
def State.setGrp (s : State) (g : Nat) (x : Grp) : State :=
  { s with ft := { s.ft with grps := Tab.put (fun _ => Grp.idle) s.ft.grps g x } }

/-- A data token at an exit: counted, or dropped while a replay suppresses it (R424, R431). The flag says that it
leaves. -/
def State.exitPass (s : State) (e : Nat) : State × Bool :=
  let x := s.exit e
  if 0 < x.sup then (s.setExit e { x with sup := x.sup - 1 }, false)
  else (s.setExit e { x with cnt := (x.cnt + 1) % 2 ^ 28 }, true)

/-- A checkpoint token at an exit records its count (R424). -/
def State.exitMark (s : State) (e : Nat) : State := s.setExit e { s.exit e with new := some (s.exit e).cnt }

/-- A group becomes OPEN (R425). -/
def State.openGroup (s : State) (g : Nat) : State :=
  if s.rb (R.FT_GRP_STAT g) F.FT_GRP_STAT_OPEN then s
  else (s.setRb (R.FT_GRP_STAT g) F.FT_GRP_STAT_OPEN true).raiseF R.FT_EVT F.FT_EVT_OPEN

/-- A token passes from a PE of tile t1 to a PE of tile t2: a group that ends between them is OPEN (R423, R424). -/
def State.crossGroups (s : State) (t1 t2 : Nat) : State :=
  if t1 = t2 ∨ s.tileGroup t1 = s.tileGroup t2 then s
  else
    let one := fun (t : State) (k : Nat) => match s.tileGroup k with
      | some g => if s.tileMode k = 0 then t else t.openGroup g
      | none => t
    one (one s t1) t2

end Sys2Proof.Machine
end

