-- ==== Sys2Proof/Machine/Flags.lean ====
section
/-! DEFINITION. Lane arithmetic and the flags of a Pleat (03_array.md, Table AR-1, R113): every flag computation of the
PE operations. -/

namespace Sys2Proof.Machine

/-- Lane i of width w of a word. -/
def lane (w : Nat) (x : Word) (i : Nat) : Nat := bitsOf x.toNat (w * i) w

/-- A word from its lanes, lane 0 first. -/
def ofLanes (w : Nat) (l : List Nat) : Word :=
  w32 ((List.range l.length).foldl (fun acc i => acc + (l.getD i 0 % 2 ^ w) <<< (w * i)) 0)

/-- The lane indices of a width. -/
def lanesOf (w : Nat) : List Nat := List.range (32 / w)

/-- A lane as a number, unsigned with U. -/
def laneInt (u : Bool) (w x : Nat) : Int := if u then (x % 2 ^ w : Nat) else sext w x

/-- One lane of an addition or subtraction (R113): result, carry or borrow, signed overflow, and whether it was
saturated. -/
structure LaneSum where
  r   : Nat
  c   : Bool
  v   : Bool
  sat : Bool
deriving DecidableEq, Repr

/-- The narrowed result of an exact lane value: clamped with SAT, else wrapped. -/
def narrow (sat u : Bool) (w : Nat) (e : Int) : Nat × Bool :=
  let hi : Int := if u then (2 ^ w : Nat) - 1 else (2 ^ (w - 1) : Nat) - 1
  let lo : Int := if u then 0 else -(2 ^ (w - 1) : Nat)
  if sat ∧ hi < e then (trunc w hi, true)
  else if sat ∧ e < lo then (trunc w lo, true)
  else (trunc w e, false)

/-- One lane of ADD or SUB. -/
def laneSum (sub sat u : Bool) (w x y : Nat) : LaneSum :=
  let xu := x % 2 ^ w
  let yu := y % 2 ^ w
  let exact : Int := if sub then laneInt u w x - laneInt u w y else laneInt u w x + laneInt u w y
  let sx := sext w x
  let sy := sext w y
  let se := if sub then sx - sy else sx + sy
  let (r, st) := narrow sat u w exact
  { r := r, c := if sub then decide (xu < yu) else decide (2 ^ w ≤ xu + yu), v := decide (se ≠ satS w se), sat := st }

/-- Z and N of a result (Table AR-1). -/
def PeFlags.zn (f : PeFlags) (r : Word) : PeFlags := { f with z := decide (r = 0), n := r.getLsbD 31 }

/-- The flags after an addition or subtraction: C and V are the OR over lanes, SAT is sticky. -/
def PeFlags.sum (f : PeFlags) (r : Word) (l : List LaneSum) : PeFlags :=
  { f.zn r with c := l.any (fun x => x.c), v := l.any (fun x => x.v), sat := f.sat || l.any (fun x => x.sat) }

/-- SAT set by a saturated result. -/
def PeFlags.satIf (f : PeFlags) (b : Bool) : PeFlags := { f with sat := f.sat || b }

/-- The six flags as register 18 of AR_PE_SEL shows them. -/
def PeFlags.word (f : PeFlags) : Nat :=
  b2n f.z + 2 * b2n f.n + 4 * b2n f.c + 8 * b2n f.v + 16 * b2n f.sat + 32 * b2n f.pred

/-- Flags from register 18. -/
def PeFlags.ofWord (v : Word) : PeFlags :=
  { z := wbit v 0, n := wbit v 1, c := wbit v 2, v := wbit v 3, sat := wbit v 4, pred := wbit v 5 }

end Sys2Proof.Machine
end

