-- ==== Sys2Proof/Machine/LcBase.lean ====
section
/-! DEFINITION. Places, routes and frames of Lace (12_host_partners_events.md, R375–R381), for every block whose work passes over it.
The frames themselves are handled in Lace.lean. -/

namespace Sys2Proof.Machine

/-! Places -/

/-- Devices numbered, this device's number, and whether it has one (LC_STAT). -/
def State.lcN (s : State) : Nat := s.rf R.LC_STAT F.LC_STAT_NDEV
def State.lcDev (s : State) : Nat := s.rf R.LC_STAT F.LC_STAT_DEV
def State.lcNumbered (s : State) : Bool := decide (s.lcDev < s.lcN)

/-- The place of a device on the ring, counted eastward from the root (R379): on a LINE the numbers go east first, then on from the
west end toward the root's west neighbour. -/
def State.lcPlace (s : State) (d : Nat) : Nat := if d < s.lc.east then d else s.lcN - 1 - (d - s.lc.east)

/-- Is the way from place a to place b live eastward (westward)? A cut is named by the place west of it. -/
def State.lcLive (s : State) (east : Bool) (a b : Nat) : Bool :=
  let n := s.lcN
  s.lc.cuts.all (fun c => if east then decide ((b + n - a) % n ≤ (c + n - a) % n) else decide ((a + n - b) % n ≤ (a + n - (c + 1) % n) % n))

/-- A Lace port is UP (0 east, 1 west). -/
def State.lcUp (s : State) (p : Nat) : Bool := s.rb (R.LC_PORT_STAT p) F.LC_PORT_STAT_UP

/-- The port of the shorter live direction to a device (R380, R381). -/
def State.lcRoute (s : State) (d : Nat) : Option Nat :=
  if ¬ s.lcNumbered ∨ s.lcN ≤ d ∨ d = s.lcDev then none
  else
    let n := s.lcN
    let a := s.lcPlace s.lcDev
    let b := s.lcPlace d
    let e := s.lcUp 0 && s.lcLive true a b
    let w := s.lcUp 1 && s.lcLive false a b
    if e ∧ (¬ w ∨ (b + n - a) % n ≤ (a + n - b) % n) then some 0 else if w then some 1 else none

/-! Frames -/

/-- A time in taps as a frame carries it: 48 bits of YK_TIME and 7 of tap. -/
def lcStamp (t : Int) : Nat := trunc 55 t

/-- A frame sent on a port, its header before its fields (R376). -/
def State.lcEmit (s : State) (p typ src dst hops seq : Nat) (time : Int) (fields : List Int) : State :=
  s.emit (.lace p typ ([(src : Int), (dst : Int), (hops : Int), (seq : Int), (lcStamp time : Int)] ++ fields))

/-- A frame of this device's own on a port, when it is UP; without one it is lost (R380). -/
def State.lcSendOn (s : State) (p typ dst : Nat) (time : Int) (fields : List Int) : State :=
  if s.lcUp p then s.lcEmit p typ s.lcDev dst 0 s.lc.seq time fields else s

/-- The next SEQ. -/
def State.lcSeqNext (s : State) : State := { s with lc := { s.lc with seq := (s.lc.seq + 1) % 2 ^ 32 } }

/-- A broadcast of this device: on both ports, and a copy that comes back is dropped (R376). -/
def State.lcBroadcast (s : State) (typ : Nat) (time : Int) (fields : List Int) : State :=
  ((s.lcSendOn 0 typ 0xFF time fields).lcSendOn 1 typ 0xFF time fields).lcSeqNext

/-- Lost frames counted (R380). -/
def State.lcLose (s : State) (n : Nat) : State :=
  if n = 0 then s else (s.bump R.LC_LOST F.LC_LOST_COUNT n).raiseF R.LC_EVT F.LC_EVT_LOST

/-- A frame addressed to a device, in the shorter live direction; the flag says that one is live. -/
def State.lcSendTo (s : State) (typ d : Nat) (time : Int) (fields : List Int) : State × Bool :=
  match s.lcRoute d with
  | some p => ((s.lcSendOn p typ d time fields).lcSeqNext, true)
  | none => (s, false)

/-- The fields of a PKT frame: the SEQ of the request that a response answers (−1 for a request), the header unit, the data. -/
def pktFields (re : Option Nat) (p : Packet) : List Int :=
  [(match re with | some k => (k : Int) | none => -1), (p.header : Int)] ++ p.data.map (fun u => (u.toNat : Int))

/-! Remote requests served here -/

/-- The response to a request of another device sent back (R381). -/
def State.lcAnswer (s : State) (dev seq : Nat) (p : Packet) : State :=
  let (s1, ok) := s.lcSendTo 2 dev (128 * s.now) (pktFields (some seq) p)
  if ok then s1 else s1.lcLose 1

/-- The local response to a request that came over Lace (R381): FW_DENY where the sender's entry has changed meanwhile. -/
def State.lcResponse (s : State) (key status : Nat) (p : Packet) : State :=
  match s.lc.served.find? (fun r => r.key == key) with
  | none => s
  | some r =>
    let s1 : State := { s with lc := { s.lc with served := s.lc.served.erase r } }
    let e := s1.rg (R.HI_PT r.ent)
    let st := if F.HI_PT_STATE.get e = 1 ∧ F.HI_PT_GEN.get e = r.gen then status else 7
    s1.lcAnswer r.dev r.seq { p with status := BitVec.ofNat 6 st }

end Sys2Proof.Machine
end

