-- ==== Sys2Proof/Machine/OctBase.lean ====
section
/-! DEFINITION. The Octey's registers, traps and the end of its network accesses (13_octey_control_core.md, R390, R391, R396,
R397, R404, R405). -/

namespace Sys2Proof.Machine

/-- A control and status register. -/
def State.csr (s : State) (n : Nat) : Word := Tab.get csrReset s.cc.csr n
/-- A control and status register set by the core itself. -/
def State.setCsr (s : State) (n : Nat) (v : Word) : State := { s with cc := { s.cc with csr := Tab.put csrReset s.cc.csr n v } }

/-- STATUS.PRIV, STATUS.IE, STATUS.TW. -/
def State.octPriv (s : State) : Bool := wbit (s.csr 0) 0
def State.octIe (s : State) : Bool := wbit (s.csr 0) 1
def State.octTw (s : State) : Bool := wbit (s.csr 0) 2

/-- CWP. -/
def State.cwp (s : State) : Nat := (s.csr 0x10).toNat

/-- A window's register. -/
def State.winReg (s : State) (win n : Nat) : Word := Tab.get (fun _ => 0) s.cc.w (16 * win + n)
def State.setWinReg (s : State) (win n : Nat) (v : Word) : State :=
  { s with cc := { s.cc with w := Tab.put (fun _ => 0) s.cc.w (16 * win + n) v } }

/-- The window that w0–w15 name now: T while TW is 1, else CWP (R390, R396). -/
def State.curWin (s : State) : Nat := if s.octTw then 12 else s.cwp

/-- A register by its 5-bit number (R390). -/
def State.octReg (s : State) (r : Reg) : Word :=
  if r.val < 16 then Tab.get (fun _ => 0) s.cc.g r.val else s.winReg s.curWin (r.val - 16)

/-- A register written (R390). -/
def State.setOct (s : State) (r : Reg) (v : Word) : State :=
  if r.val < 16 then { s with cc := { s.cc with g := Tab.put (fun _ => 0) s.cc.g r.val v } }
  else s.setWinReg s.curWin (r.val - 16) v

/-- The program counter set. -/
def State.setPc (s : State) (v : Word) : State := { s with cc := { s.cc with pc := v } }
/-- The instruction is complete: the next one follows it. -/
def State.octNext (s : State) : State := s.setPc (s.cc.pc + 4)

/-- The core halted (CC_STAT.HALT). -/
def State.octHalt (s : State) : State := ({ s with cc := { s.cc with halt := true } } : State).raiseF R.CC_EVT F.CC_EVT_HALTED

/-- A trap condition (R396, R397): its cause with the status that TCAUSE holds for BUS_ERR, TPC and TVAL. In the trap window it
is a double trap: the core stops fetching and everything stays as it was. -/
def State.octTrap (s : State) (cause status : Nat) (tpc tval : Word) : State :=
  if s.octTw then
    let s1 := (s.setRg R.CC_DT_INFO (w32 (bitsOf (s.csr 3).toNat 0 6 + 256 * cause))).setRg R.CC_DT_PC s.cc.pc
    let s2 : State := { s1 with cc := { s1.cc with halt := true, dt := true } }
    s2.raiseF R.CC_EVT F.CC_EVT_DOUBLE_TRAP
  else
    let st := (s.csr 0).toNat
    let s1 := (((s.setCsr 1 (s.csr 0)).setCsr 2 tpc).setCsr 3 (w32 (cause + 256 * status))).setCsr 4 tval
    (s1.setCsr 0 (w32 (andNot st 7 + 5))).setPc (s1.csr 5 + BitVec.ofNat 32 (8 * cause))

/-- A trap raised by the present instruction with TPC at it. -/
def State.octFault (s : State) (cause : Nat) (tval : Word) : State := s.octTrap cause 0 s.cc.pc tval
/-- BUS_ERR with a Table NW-5 status (R405). -/
def State.octBusErr (s : State) (status : Nat) (addr : Word) : State := s.octTrap 10 status s.cc.pc addr

/-- A loaded value of `size` bytes as its register takes it (Table CC-5). -/
def loadExt (size : Nat) (signed : Bool) (x : Nat) : Word :=
  let v := x % 2 ^ (8 * size)
  if signed then BitVec.ofInt 32 (sext (8 * size) v) else w32 v

/-- The response to the core's request (R404, R405): the load's register takes its value and the next instruction follows, or
BUS_ERR with the status. -/
def State.coreResponse (s : State) (status : Nat) (data : List (BitVec 256)) : State :=
  match s.cc.bus with
  | none => s
  | some b =>
    let s1 : State := { s with cc := { s.cc with bus := none } }
    if status ≠ 0 then s1.octBusErr status b.addr
    else match b.load with
      | some r => (s1.setOct r (loadExt b.size b.signed ((data.headD 0).toNat / 2 ^ (8 * b.lo)))).octNext
      | none => s1.octNext

end Sys2Proof.Machine
end

