-- ==== Sys2Proof/Machine/QueueBase.lean ====
section
/-! DEFINITION. The ring buffer of an SMB-resident queue (05_stream_ports_and_queues.md, R175, R176): its entries, its slots, and the
end of a queue engine's reads from other banks. -/

namespace Sys2Proof.Machine

/-- Queue q. -/
def State.qu (s : State) (q : Nat) : Queue := Tab.get (fun _ => Queue.empty) s.qs q
/-- Queue q replaced. -/
def State.setQu (s : State) (q : Nat) (x : Queue) : State := { s with qs := Tab.put (fun _ => Queue.empty) s.qs q x }

/-- Bytes of the ring buffer of an SMB-resident queue, and its SMB offset (R175). -/
def State.qBytes (s : State) (q : Nat) : Nat := 2 ^ s.rf (R.SQ_Q_CFG q) F.SQ_Q_CFG_SIZE
def State.qStart (s : State) (q : Nat) : Nat := 4096 * s.rf (R.SQ_Q_BASE q) F.SQ_Q_BASE_BASE

/-- The bank that holds the first byte of a queue's buffer, and the node whose engine serves the queue (R176). -/
def State.qBank (s : State) (q : Nat) : Nat := s.qStart q / 0x80000
def State.engineNode (s : State) (q : Nat) : Nat := smbNode (0x80000 * s.qBank q)

/-- The 8 bytes of an entry in the ring buffer (Table SQ-5). -/
def Token.entry (t : Token) : Nat := t.data.toNat + 2 ^ 32 * (t.tag % 16 + 16 * b2n t.last + 32 * b2n t.err)

/-- The entry that 8 bytes of the ring buffer hold. -/
def entryToken (d : Nat) (src : Option Nat) : Token := Token.make (w32 d) (bitsOf d 32 4) (d.testBit 36) false (d.testBit 37) src

/-- How many entries of a list stand in the ring buffer: FOLD tokens have no place there. -/
def slotsOf (l : List Token) : Nat := (l.filter (fun t => !t.fold)).length

/-- The place in the ring buffer of the entry at index i, as a byte offset, in a buffer of `size` bytes. -/
def Queue.slot (k : Queue) (size i : Nat) : Nat := (k.wptr + size - 8 * slotsOf (k.ents.drop i) % size) % size

/-- The entry at index i as the engine reads it from the buffer (R231): an unreadable word gives an ERR token whose other contents are
left open. -/
def State.putEntry (s : State) (q i : Nat) (d status : Nat) : State :=
  let k := s.qu q
  let src := match k.ents[i]? with | some t => t.src | none => none
  if status = 0 then s.setQu q { k with ents := k.ents.set i (entryToken d src) }
  else
    let t := Token.seal { entryToken (Config.badEntry s.freeCtr) src with err := true }
    { s.setQu q { k with ents := k.ents.set i t } with freeCtr := s.freeCtr + 1 }

/-- The index of the entry in a slot. -/
def Queue.atSlot (k : Queue) (size ptr : Nat) : Option Nat :=
  (List.range k.ents.length).find? (fun i => k.slot size i == ptr && (match k.ents[i]? with | some t => !t.fold | none => false))

/-- The response to an engine's read of an entry in another bank (R176). Other responses to engines, acknowledgements of their writes,
change nothing. -/
def State.queueResponse (s : State) (key status : Nat) (data : List (BitVec 256)) : State :=
  match s.qs.find? (fun e => e.2.away.any (fun a => a.2 == key)) with
  | none => s
  | some (q, k) =>
    match k.away.find? (fun a => a.2 == key) with
    | none => s
    | some (ptr, _) =>
      let s1 := s.setQu q { k with away := k.away.filter (fun a => a.2 != key) }
      match k.atSlot (s.qBytes q) ptr with
      | none => s1
      | some i => s1.putEntry q i (bitsOf (data.headD 0).toNat (8 * (ptr % 32)) 64) status

/-! Places that wait -/

/-- Does a fill under way hold a place of the model's memory back (Table SM-4)? -/
def State.filling (s : State) (a : Nat) : Bool :=
  s.sm.fills.any (fun f => f.ranges.any (fun r => decide (r.1 ≤ a) && decide (a < r.2)))

/-- Does a fill or a repair copy hold the word at an SMB offset back (R239, Table SM-4)? -/
def State.smbHeld (s : State) (off : Nat) : Bool :=
  s.filling (s.smbPlace off)
    || (match s.sm.run with
        | some r => r.bank == off / 0x80000 && r.row == off % 0x80000 / 128
        | none => false)

/-- Is one of the words of a range of SMB offsets held back? -/
def State.smbRangeHeld (s : State) (off n : Nat) : Bool :=
  (!s.sm.fills.isEmpty || s.sm.run.isSome) && (List.range ((off % 8 + n + 7) / 8)).any (fun i => s.smbHeld (off + 8 * i))

/-- Is a fill of stream memory or a repair copy under way? Transfers of more than one bank wait for its end. -/
def State.smbBusy (s : State) : Bool :=
  s.sm.run.isSome || s.sm.fills.any (fun f => f.ranges.any (fun r => decide (r.1 < memLM) || decide (memSpare ≤ r.1)))

/-- A port B request that lost a word to port A (R227). -/
def State.writeLost (s : State) : State := (s.bump R.SM_WL_CNT F.SM_WL_CNT_COUNT 1).raiseF R.SM_EVT F.SM_EVT_WRITE_LOST

end Sys2Proof.Machine
end

