-- ==== Sys2Proof/Machine/Network.lean ====
section
/-! DEFINITION. The ring network (06_ring_network.md, R194–R222): routing, arbitration of units, links that fail, lost
nodes, requests and responses, probes and trace. What a request does at its target is in Serve.lean. -/

namespace Sys2Proof.Machine

/-! Places and domains -/

/-- The power domain that holds what the local ports of a node serve (Tables PW-3, NW-1): tile rows, the Yoke's blocks,
else CTL. -/
def nodeDomain (node port : Nat) : Nat :=
  let y := node / 12
  if 1 ≤ y ∧ y ≤ 8 then 1 + y
  else if node = 5 ∧ port ≤ 1 then 16
  else if (node = 0 ∨ node = 108) ∧ port = 0 then 10
  else if (node = 11 ∨ node = 119) ∧ port = 0 then 11
  else 1

/-- The state of a power domain (PW_DOM_STAT); AON and CTL are always ON. -/
def State.domState (s : State) (d : Nat) : Nat := s.rf (R.PW_DOM_STAT d) F.PW_DOM_STAT_STATE

/-- Is a domain ON? -/
def State.domOn (s : State) (d : Nat) : Bool := s.domState d == 2

/-- NCLK count: NCLK runs at twice YCLK. -/
def State.nclk (s : State) : Nat := 2 * s.now

/-- NW_ERR_LOG written. -/
def State.nwLog (s : State) (node point kind cmd : Nat) : State :=
  s.setRg R.NW_ERR_LOG (w32 (node + 256 * point + 0x1000 * kind + 0x10000 * cmd))

/-! Headers -/

/-- Is a command a response (Table NW-4)? -/
def isResponse (cmd : Nat) : Bool := cmd == 0x20 || cmd == 0x21 || cmd == 0x33

/-! Probes and trace -/

/-- Records that wait leave on the trace port while it is the sink and TRC_EN is 1 (R222). -/
def State.tracePort (s : State) : State :=
  if s.rb R.DB_CTRL F.DB_CTRL_TRC_EN ∧ ¬ s.rb R.DB_TRC_CFG F.DB_TRC_CFG_SINK then
    s.net.trace.foldl (fun u r => u.emit (.trace r)) { s with net := { s.net with trace := [] } }
  else s

/-- A trace record made (R222): it waits in the 64-record buffer; a full buffer loses it. -/
def State.traceRecord (s : State) (rec : List Byte) : State :=
  if s.net.trace.length < 64 then ({ s with net := { s.net with trace := s.net.trace ++ [rec] } } : State).tracePort
  else (s.bump R.DB_TRC_DROP F.DB_TRC_DROP_DROP 1).raiseF R.DB_EVT F.DB_EVT_TRC_DROP

/-- Does probe k match a header at a point (R220)? -/
def State.probeHit (s : State) (k node point : Nat) (p : Packet) : Bool :=
  let c := s.rg (R.DB_PRB_CFG k)
  let h := p.header % 2 ^ 96
  let val := (s.rg (R.DB_PRB_VAL_W0 k)).toNat + 2 ^ 32 * (s.rg (R.DB_PRB_VAL_W1 k)).toNat + 2 ^ 64 * (s.rg (R.DB_PRB_VAL_W2 k)).toNat
  let msk := (s.rg (R.DB_PRB_MASK_W0 k)).toNat + 2 ^ 32 * (s.rg (R.DB_PRB_MASK_W1 k)).toNat + 2 ^ 64 * (s.rg (R.DB_PRB_MASK_W2 k)).toNat
  let lo := s.rg64 (R.DB_PRB_ALO_LO k) (R.DB_PRB_ALO_HI k)
  let hi := s.rg64 (R.DB_PRB_AHI_LO k) (R.DB_PRB_AHI_HI k)
  F.DB_PRB_CFG_EN.bit c && !F.DB_PRB_CFG_FREEZE.bit c && F.DB_PRB_CFG_NODE.get c == node && F.DB_PRB_CFG_POINT.get c == point
    && (h &&& msk) == (val &&& msk)
    && (!F.DB_PRB_CFG_ADDR_EN.bit c || (decide (lo ≤ p.addr.toNat) && decide (p.addr.toNat ≤ hi)))

/-- A 48-bit saturating probe byte count (DB_PRB_BYTES_LO, _HI). -/
def State.probeBytes (s : State) (k n : Nat) : State :=
  s.setRg64 (R.DB_PRB_BYTES_LO k) (R.DB_PRB_BYTES_HI k)
    (satN (2 ^ 48 - 1) (s.rg64 (R.DB_PRB_BYTES_LO k) (R.DB_PRB_BYTES_HI k) + n))

/-- One probe at a point that a header passes (R220–R222). -/
def State.probeAt (s : State) (k node point : Nat) (p : Packet) : State :=
  if s.probeHit k node point p then
    let c := s.rg (R.DB_PRB_CFG k)
    let lat := (s.now + 2 ^ 32 - p.pstamp.toNat) % 2 ^ 32
    let base := (s.rg (R.DB_PRB_BASE k)).toNat
    let bin := if lat < base then 0 else min 15 (1 + (lat - base) >>> F.DB_PRB_CFG_SHIFT.get c)
    let s1 := ((s.bump (R.DB_PRB_PKTS k) F.DB_PRB_PKTS_PKTS 1).probeBytes k (32 * (1 + p.data.length))).bump
      (R.DB_PRB_HIST k bin) F.DB_PRB_HIST_COUNT 1
    if F.DB_PRB_CFG_TRACE.bit c then
      s1.traceRecord (bytesLE 32 p.header ++ bytesLE 4 s.now ++ [BitVec.ofNat 8 (k + 16 * point), BitVec.ofNat 8 node, 0, 0])
    else s1
  else s

/-- Every probe at a point that a header passes. -/
def State.probes (s : State) (node point : Nat) (p : Packet) : State :=
  s.each (List.range 16) (fun k t => t.probeAt k node point p)

/-! Queues -/

/-- The units in a queue. -/
def State.nq (s : State) (k : QKey) : List NetUnit :=
  match s.net.queues.find? (fun e => decide (e.1 = k)) with
  | some e => e.2
  | none => []

/-- The units of a queue replaced; an empty queue is not listed. -/
def State.setNq (s : State) (k : QKey) (l : List NetUnit) : State :=
  let rest := s.net.queues.filter (fun e => !decide (e.1 = k))
  { s with net := { s.net with queues := if l.isEmpty then rest else rest ++ [(k, l)] } }

/-- A packet in flight. -/
def State.pkt (s : State) (id : Nat) : Option Packet := (s.net.pkts.find? (fun e => e.1 == id)).map (fun e => e.2)

/-- A packet in flight with its header rewritten. -/
def State.setPkt (s : State) (id : Nat) (p : Packet) : State :=
  { s with net := { s.net with pkts := s.net.pkts.map (fun e => if e.1 = id then (id, p) else e) } }

/-- A packet and all its units out of the network. -/
def State.dropPkt (s : State) (id : Nat) : State :=
  { s with net := { s.net with
      pkts := s.net.pkts.filter (fun e => e.1 != id),
      queues := (s.net.queues.map (fun e => (e.1, e.2.filter (fun u => u.pid != id)))).filter (fun e => !e.2.isEmpty),
      wait := (s.net.wait.map (fun e => (e.1, e.2.filter (fun u => u.pid != id)))).filter (fun e => !e.2.isEmpty),
      holds := s.net.holds.filter (fun h => h.pid != id),
      badIn := s.net.badIn.filter (fun i => i != id) } }

/-! Routing -/

/-- Neighbour of a node over link 0 E, 1 W, 2 S, 3 N, and the input at which it is entered there. -/
def neighbour (node link : Nat) : Nat :=
  let x := node % 12
  let y := node / 12
  match link with
  | 0 => nodeIx ((x + 1) % 12) y
  | 1 => nodeIx ((x + 11) % 12) y
  | 2 => nodeIx x ((y + 1) % 10)
  | _ => nodeIx x ((y + 9) % 10)

/-- The opposite link. -/
def oppLink (link : Nat) : Nat :=
  match link with
  | 0 => 1 | 1 => 0 | 2 => 3 | _ => 2

/-- Is an output link UP (NW_NODE_STAT.LINK_UP)? -/
def State.linkUp (s : State) (node link : Nat) : Bool := (s.rf (R.NW_NODE_STAT node) F.NW_NODE_STAT_LINK_UP).testBit link

/-- Is a node lost (R214)? -/
def State.lost (s : State) (node : Nat) : Bool := s.rb (R.NW_NODE_CTL node) F.NW_NODE_CTL_LOST

/-- The direction chosen at entry to a ring: + is `some false`. -/
inductive Dir where
  | plus | minus | noRoute | nodeLost
deriving DecidableEq, Repr

/-- The direction from place a to place b of a ring of n (R204): `cuts` are the lower ends of the cut links, `lost` the lost places,
`tab` the entry router's table entry. -/
def ringDir (n a b : Nat) (cuts : List Nat) (lost : List Nat) (tab : Nat) : Dir :=
  let dp := (b + n - a) % n
  let dm := (a + n - b) % n
  let okP := cuts.all (fun c => decide (dp ≤ (c + n - a) % n))
    && lost.all (fun k => decide ((k + n - a) % n = 0) || decide (dp < (k + n - a) % n))
  let okM := cuts.all (fun c => decide (dm ≤ (a + n - 1 - c) % n))
    && lost.all (fun k => decide ((a + n - k) % n = 0) || decide (dm < (a + n - k) % n))
  if ¬ cuts.isEmpty ∨ ¬ lost.isEmpty then
    if okP then .plus else if okM then .minus else if lost.contains b then .nodeLost else .noRoute
  else if tab = 1 then .plus else if tab = 2 then .minus else if tab = 3 then .noRoute
  else if dp ≤ dm then .plus else .minus

/-- The cuts of its row ring (0) or column ring (1) that a router has recorded (R211). -/
def State.cutsAt (s : State) (node ring : Nat) : List Nat :=
  (s.net.cuts.filter (fun c => c.1 == node && c.2.1 == ring)).map (fun c => c.2.2)

/-- The direction on the row ring at N(x,y) to column b, and on the column ring to row b (R204). -/
def State.rowDir (s : State) (x y b : Nat) : Dir :=
  ringDir 12 x b (s.cutsAt (nodeIx x y) 0)
    ((List.range 12).filter (fun k => s.lost (nodeIx k y))) (bitsOf (s.rg (R.NW_RDIR (nodeIx x y))).toNat (2 * b) 2)
def State.colDir (s : State) (x y b : Nat) : Dir :=
  ringDir 10 y b (s.cutsAt (nodeIx x y) 1)
    ((List.range 10).filter (fun k => s.lost (nodeIx x k))) (bitsOf (s.rg (R.NW_CDIR (nodeIx x y))).toNat (2 * b) 2)

/-- What a router does with a header. -/
inductive Route where
  | eject
  | hop (link : Nat) (p : Packet)
  | answer (status : Nat)
deriving DecidableEq, Repr

/-- The column at which a packet leaves the row ring (R203, R215): that of its destination, or, where its turn node is
lost, that of the nearer neighbour along the line. -/
def State.turnCol (s : State) (x y : Nat) (p : Packet) : Nat :=
  let dx := p.dstX.toNat
  if s.lost (nodeIx dx y) ∧ p.dstY.toNat ≠ y then
    let i := (x + 23 - dx) % 12
    if i ≤ 10 - i then (dx + 1) % 12 else (dx + 11) % 12
  else dx

/-- A header sent over a link, or turned back where the link is DOWN (R212); a packet that has turned back once is not
turned again. -/
def State.sendOver (s : State) (node link : Nat) (p : Packet) : Route :=
  if s.linkUp node link then .hop link p
  else if p.esc then .answer (if s.lost p.dst then 10 else 11)
  else
    let q : Packet := { p with vc := 3, esc := true, dl := false, dirx := if link < 2 then !p.dirx else p.dirx,
                               diry := if link < 2 then p.diry else !p.diry }
    if s.linkUp node (oppLink link) then .hop (oppLink link) q else .answer (if s.lost p.dst then 10 else 11)

/-- The entry to a ring in a chosen direction: DL 0, the direction written into the header (R204, R205). -/
def State.enterRing (s : State) (node : Nat) (row : Bool) (d : Dir) (p : Packet) : Route :=
  match d with
  | .plus => s.sendOver node (if row then 0 else 2)
      (if row then { p with dl := false, dirx := false } else { p with dl := false, diry := false })
  | .minus => s.sendOver node (if row then 1 else 3)
      (if row then { p with dl := false, dirx := true } else { p with dl := false, diry := true })
  | .noRoute => .answer 11
  | .nodeLost => .answer 10

/-- What the router of a node does with a header that came in at `inp` (R203–R205, R212, R215). -/
def State.route (s : State) (node inp : Nat) (p : Packet) : Route :=
  let x := node % 12
  let y := node / 12
  let dx := p.dstX.toNat
  let dy := p.dstY.toNat
  if x = dx ∧ y = dy then .eject
  else if inp = 2 ∨ inp = 3 then
    if y ≠ dy then s.sendOver node (if p.diry then 3 else 2) { p with dl := p.dl || y == 0 }
    else s.sendOver node (if (x + 1) % 12 = dx then 0 else 1)
           { p with vc := 3, esc := true, dl := false, dirx := decide ((x + 1) % 12 ≠ dx) }
  else
    let tx := s.turnCol x y p
    if x = tx then s.enterRing node false (s.colDir x y dy) p
    else if inp < 2 then s.sendOver node (if p.dirx then 1 else 0) { p with dl := p.dl || x == 0 }
    else s.enterRing node true (s.rowDir x y tx) p

/-! Injection -/

/-- Room in a queue: 4 units, 8 on VC1; a local output always takes (R207). -/
def State.credit (s : State) (k : QKey) : Bool :=
  24 ≤ k.inp || (s.nq k).length < (if k.vc = 1 then 8 else 4)

/-- Units that wait at a local port in front of an input queue. -/
def State.waiting (s : State) (k : QKey) : List NetUnit :=
  match s.net.wait.find? (fun e => decide (e.1 = k)) with
  | some e => e.2
  | none => []
/-- Those units replaced. -/
def State.setWaiting (s : State) (k : QKey) (l : List NetUnit) : State :=
  let rest := s.net.wait.filter (fun e => !decide (e.1 = k))
  { s with net := { s.net with wait := if l.isEmpty then rest else rest ++ [(k, l)] } }

/-- A header that enters its source router (R200, R204): PSTAMP, its first direction and the parity are written; the probes of the
injection point see it. -/
def State.stamp (s : State) (k : QKey) (id : Nat) : State :=
  match s.pkt id with
  | none => s
  | some p =>
    let (dx, dy) := match s.route k.node k.inp p with
      | .hop _ q => if q.esc = p.esc then (q.dirx, q.diry) else (p.dirx, p.diry)
      | _ => (p.dirx, p.diry)
    let q := ({ p with pstamp := BitVec.ofNat 32 s.now, dirx := dx, diry := dy } : Packet).sealed
    (s.setPkt id q).probes k.node 4 q

/-- Units go from a local port into the input queue in front of it, while it has room (R207). -/
def State.nwRefill (s : State) (k : QKey) : Nat → State
  | 0 => s
  | n + 1 => match s.waiting k with
    | [] => s
    | u :: r =>
      if ¬ s.credit k then s
      else
        let s1 := (s.setWaiting k r).setNq k (s.nq k ++ [{ u with since := s.nclk }])
        State.nwRefill (if u.idx = 0 then s1.stamp k u.pid else s1) k n

/-- A packet put into the network at a local port of a node (R200). -/
def State.injectAt (s : State) (node inp : Nat) (p0 : Packet) : State :=
  let p : Packet := { p0 with bad := false }
  let id := s.net.nextId
  let key : QKey := { node := node, inp := inp, vc := p.vc.toNat, dl := false }
  let us := (List.range (1 + p.data.length)).map (fun i => ({ pid := id, idx := i, bad := false, since := s.nclk } : NetUnit))
  let s1 : State := { s with net := { s.net with pkts := (id, p) :: s.net.pkts, nextId := id + 1 } }
  (s1.setWaiting key (s1.waiting key ++ us)).nwRefill key (1 + p.data.length)

/-- A packet put into the network at its own source. -/
def State.inject (s : State) (p : Packet) : State := s.injectAt p.src (4 + p.srcPort.toNat) p

/-! Requests and responses -/

/-- A request answered with a status that carries no result: the data units of the response are left open. -/
def State.answerErr (s : State) (node inp : Nat) (p : Packet) (status : Nat) : State :=
  let data := (List.range p.replyUnits).map (fun i => Config.errUnit (s.freeCtr + i))
  let s1 : State := { s with freeCtr := s.freeCtr + p.replyUnits }
  s1.injectAt node inp (p.reply status data)

/-- A tag free at a requester (R216), other than `old`; none where all are taken or rest. -/
def State.freeTag (s : State) (node port : Nat) (old : Option Nat) : Option Nat :=
  (List.range 1024).find? (fun t =>
    !(s.net.outst.any (fun o => o.node == node && o.port == port && o.tag == t)
      || s.net.quar.any (fun q => q.node == node && q.port == port && q.tag == t && decide (s.nclk < q.time))
      || old == some t))

/-- A request issued with a tag: space for its response is taken, the response awaited (R202, R210). -/
def State.issue (s : State) (h : Held) (tag : Nat) : State :=
  let p : Packet := { h.req with tag := BitVec.ofNat 10 tag }
  let o : Outst := { node := p.src, port := p.srcPort.toNat, tag := tag, req := p, time := s.nclk, again := h.again, key := h.key }
  ({ s with net := { s.net with outst := s.net.outst ++ [o] } } : State).inject p

/-- Requests that wait for a tag issued in order, each port's while it has one (R210). -/
def State.issueHeld (s : State) : State :=
  s.net.held.foldl (fun t h =>
    let before := (t.net.held.takeWhile (fun g => !decide (g = h))).any (fun g => g.req.src == h.req.src && g.req.srcPort == h.req.srcPort)
    match t.freeTag h.req.src h.req.srcPort.toNat none with
    | some tag => if before then t else ({ t with net := { t.net with held := t.net.held.erase h } } : State).issue h tag
    | none => t) s

/-- A request made, or made again (R213), under its requester's number for it; without a free tag it waits at its requester, and
behind others that wait there. -/
def State.requestAs (s : State) (h : Held) (old : Option Nat) : State :=
  let s1 := s.issueHeld
  let queued := s1.net.held.any (fun g => g.req.src == h.req.src && g.req.srcPort == h.req.srcPort)
  match s1.freeTag h.req.src h.req.srcPort.toNat old with
  | some tag => if queued then { s1 with net := { s1.net with held := s1.net.held ++ [h] } } else s1.issue h tag
  | none => { s1 with net := { s1.net with held := s1.net.held ++ [h] } }

/-- A request made by a part of the device; its number is the `nextKey` of before. -/
def State.request (s : State) (p : Packet) : State :=
  let k := s.net.nextKey
  ({ s with net := { s.net with nextKey := k + 1 } } : State).requestAs { req := p, again := false, key := k } none

/-- A request packet between two local ports. -/
def mkRequest (src sport dst dport vc cmd addr urg partner : Nat) (data : List (BitVec 256)) : Packet :=
  { dstX := BitVec.ofNat 4 (dst % 12), dstY := BitVec.ofNat 4 (dst / 12), dstPort := BitVec.ofNat 4 dport,
    srcX := BitVec.ofNat 4 (src % 12), srcY := BitVec.ofNat 4 (src / 12), srcPort := BitVec.ofNat 4 sport,
    vc := BitVec.ofNat 2 vc, dl := false, dirx := false, diry := false, cmd := BitVec.ofNat 8 cmd, tag := 0,
    len := BitVec.ofNat 5 data.length, esc := false, urg := BitVec.ofNat 4 urg, age := 0, partner := BitVec.ofNat 10 partner,
    status := 0, addr := BitVec.ofNat 48 addr, be := 0xFFFFFFFF, pstamp := 0, par := 0, bad := false, data := data }

/-- The requesters that reissue a RD or WR answered LINK_ERR (R213): the host interface and the queue engines. -/
def reissues (o : Outst) : Bool :=
  let c := o.req.cmd.toNat
  !o.again && (c == 1 || c == 2) && ((o.node == 1 && o.port == 0) || (decide (12 ≤ o.node) && decide (o.node < 108) && o.port == 2))

/-- A header parity failure noted (R200). -/
def State.hdrPar (s : State) (p : Packet) : State :=
  ((s.raiseF R.NW_EVT F.NW_EVT_HDR_PAR).nwLog p.dst 5 3 p.cmd.toNat).report 5 [(4, p.dst)]

/-- What a requester does with the response `p` to its request: the core, the host interface, a Lace node, a queue engine, the trace
unit, which looks at none, and others, outside the model. -/
def State.reqDone (s : State) (o : Outst) (st : Nat) (p : Packet) : State :=
  if o.node = 2 ∧ o.port = 0 then s.coreResponse st p.data
  else if o.node = 1 ∧ o.port = 0 then s.hiResponse o.key st p.data
  else if o.node = 111 ∧ o.port = 0 then s.lcResponse o.key st p
  else if 12 ≤ o.node ∧ o.node < 108 ∧ o.port = 2 then s.queueResponse o.key st p.data
  else if o.node = 116 ∧ o.port = 0 then s
  else s.emit (.resp o.node o.port o.tag st (p.data.map (fun u => w32 u.toNat)))

/-- Is a packet the first of its port and VC among those delivered (R217, R225)? -/
def State.firstIn (s : State) (p : Packet) : Bool :=
  s.net.inbox.find? (fun q => q.dst == p.dst && q.dstPort == p.dstPort && q.vc == p.vc) == some p

/-- The state with a delivered packet taken. -/
def State.unboxed (s : State) (p : Packet) : State :=
  { s with net := { s.net with inbox := s.net.inbox.erase p, inTime := s.net.inTime.erase p } }

/-- A response, delivered at its requester's port, taken (R200, R202, R213, R216, R218). -/
def State.takeResponse (s : State) (p : Packet) : State :=
  let s0 := s.unboxed p
  let d := s0.domState (nodeDomain p.dst p.dstPort.toNat)
  let hit := fun (o : Outst) => o.node == p.dst && o.port == p.dstPort.toNat && o.tag == p.tag.toNat
  match s0.net.outst.find? hit with
  | none => s0.raiseF R.NW_EVT F.NW_EVT_RSP_DISC
  | some o =>
    if d = 0 ∨ d = 5 ∨ d = 1 then s0.raiseF R.NW_EVT F.NW_EVT_RSP_DISC
    else
      let s1 : State := { s0 with net := { s0.net with outst := s0.net.outst.filter (fun q => !hit q) } }
      let s2 := if p.parOk then s1 else s1.hdrPar p
      let st := if p.parOk ∧ ¬ p.bad then p.status.toNat else 9
      if st = 9 ∧ reissues o then
        s2.requestAs { req := o.req, again := true, key := o.key } (some o.tag)
      else (s2.reqDone o st p).issueHeld

/-- RDATA (R202). -/
def execNwRdata (p : Packet) (s : State) : Host.Outcome State Fault Refusal :=
  .next (if p.cmd.toNat = 0x20 ∧ s.firstIn p then s.takeResponse p else s)
/-- ACK (R202). -/
def execNwAck (p : Packet) (s : State) : Host.Outcome State Fault Refusal :=
  .next (if p.cmd.toNat = 0x21 ∧ s.firstIn p then s.takeResponse p else s)
/-- MRSP (R202). -/
def execNwMrsp (p : Packet) (s : State) : Host.Outcome State Fault Refusal :=
  .next (if p.cmd.toNat = 0x33 ∧ s.firstIn p then s.takeResponse p else s)

/-- RESPONSE_TIMEOUT (R216): the oldest request without a response for NW_RSP_TMO NCLK completes with TIMEOUT, and its
tag rests for as long again. -/
def execResponseTimeout (s : State) : Host.Outcome State Fault Refusal :=
  let tmo := (s.rg R.NW_RSP_TMO).toNat
  match s.net.outst.find? (fun o => tmo != 0 && decide (o.time + tmo ≤ s.nclk)) with
  | none => .next s
  | some o =>
    let s1 : State := { s with net := { s.net with
      outst := s.net.outst.erase o,
      quar := (s.net.quar.filter (fun q => decide (s.nclk < q.time))) ++
                [{ node := o.node, port := o.port, tag := o.tag, time := s.nclk + tmo }] } }
    let s2 := ((s1.raiseF R.NW_EVT F.NW_EVT_TMO).nwLog o.node 5 5 o.req.cmd.toNat).report 6 [(4, o.req.dst)]
    .next (s2.reqDone o 12 (o.req.reply 12 [])).issueHeld

/-- The router itself answers a request it cannot route, or discards a response (R204). -/
def State.unroutable (s : State) (node id : Nat) (p : Packet) (status : Nat) : State :=
  let s1 := s.dropPkt id
  let s2 := if status = 11 then (s1.raiseF R.NW_EVT F.NW_EVT_NO_ROUTE).nwLog node 4 6 p.cmd.toNat else s1
  if p.cmd.toNat = 0x30 then s1 else
  if isResponse p.cmd.toNat then s2.raiseF R.NW_EVT F.NW_EVT_RSP_DISC else s2.answerErr node 20 p status

/-! Arbitration -/

/-- A unit that may go out: its queue, the unit, its packet with the header as it leaves, the queue it enters. -/
structure NetCand where
  src  : QKey
  unit : NetUnit
  pkt  : Packet
  dst  : QKey
deriving DecidableEq, Repr

/-- AGE with the time waited at this router (R208). -/
def State.aged (s : State) (p : Packet) (u : NetUnit) : Packet :=
  if s.rb R.NW_CTRL F.NW_CTRL_AGE_EN then
    { p with age := BitVec.ofNat 4 (satN 15 (p.age.toNat + (s.nclk - u.since) / 32)) }
  else p

/-- The queue behind an output (0–3 links, 4 + p local port p). -/
def State.outKey (node out : Nat) (p : Packet) : QKey :=
  if out < 4 then { node := neighbour node out, inp := oppLink out, vc := p.vc.toNat, dl := p.dl }
  else { node := node, inp := 20 + out, vc := p.vc.toNat, dl := p.dl }

/-- The head of a queue as a candidate for an output (R208). -/
def State.netCand (s : State) (node out : Nat) (k : QKey) (u : NetUnit) : Option NetCand :=
  match s.pkt u.pid with
  | none => none
  | some p =>
    if u.idx = 0 then
      let q? := match s.route node k.inp p with
        | .eject => if out = 4 + p.dstPort.toNat then some (s.aged p u) else none
        | .hop l q => if l = out then some (s.aged q u) else none
        | .answer _ => none
      match q? with
      | none => none
      | some q =>
        let d := State.outKey node out q
        if s.net.holds.any (fun h => decide (h.key = d)) || !s.credit d then none
        else some { src := k, unit := u, pkt := q.resealed p, dst := d }
    else
      match s.net.holds.find? (fun h => h.pid == u.pid && h.sent == u.idx &&
          (if out < 4 then h.key.node == neighbour node out && h.key.inp == oppLink out
           else h.key.node == node && h.key.inp == 20 + out)) with
      | some h => if s.credit h.key then some { src := k, unit := u, pkt := p, dst := h.key } else none
      | none => none

/-- Effective priority (R208). -/
def State.prio (s : State) (p : Packet) : Nat :=
  satN 15 ((if s.rb R.NW_CTRL F.NW_CTRL_URG_EN then p.urg.toNat else 0) + p.age.toNat)

/-- The round-robin distance of a queue behind the one served last on an output. -/
def rrDist (last : Nat) (k : QKey) : Nat := (4 * k.inp + k.vc + 127 - last) % 128

/-- Does candidate x go before y on an output (R208)? -/
def State.netBefore (s : State) (last : Nat) (x y : NetCand) : Bool :=
  if (x.pkt.vc == 2) != (y.pkt.vc == 2) then x.pkt.vc == 2
  else if s.prio x.pkt ≠ s.prio y.pkt then decide (s.prio y.pkt < s.prio x.pkt)
  else decide (rrDist last x.src < rrDist last y.src)

/-- The candidate that goes first. -/
def State.netFirst (s : State) (last : Nat) : List NetCand → Option NetCand
  | [] => none
  | x :: r => match State.netFirst s last r with
    | none => some x
    | some y => if s.netBefore last y x then some y else some x

/-- A packet whole at its destination port (R200, R213): a BAD unit marks it. -/
def State.deliver (s : State) (id : Nat) (p : Packet) (bad : Bool) : State :=
  let s1 := s.dropPkt id
  let q : Packet := { p with bad := bad }
  { s1 with net := { s1.net with
      inbox := s1.net.inbox ++ [q],
      inTime := if s1.net.late.contains id then s1.net.inTime ++ [q] else s1.net.inTime,
      late := s1.net.late.filter (fun i => i != id) } }

/-- One unit moved from its queue to the next, or out at its destination (R208). -/
def State.moveUnit (s : State) (node out : Nat) (c : NetCand) : State :=
  let s1 := (s.setNq c.src ((s.nq c.src).drop 1)).nwRefill c.src 1
  let last := decide (c.pkt.data.length ≤ c.unit.idx)
  let hs := (s1.net.holds.map (fun h => if h.key = c.dst ∧ h.pid = c.unit.pid then { h with sent := c.unit.idx + 1 } else h))
  let hs1 := if c.unit.idx = 0 then hs ++ [{ key := c.dst, pid := c.unit.pid, sent := 1 }] else hs
  let hs2 := if last then hs1.filter (fun h => !(decide (h.key = c.dst) && h.pid == c.unit.pid)) else hs1
  let s2 : State := { s1 with net := { s1.net with
    holds := hs2,
    rr := (s1.net.rr.filter (fun e => !(e.1 == node && e.2.1 == out))) ++ [(node, out, 4 * c.src.inp + c.src.vc)] } }
  let s3 := if c.unit.idx = 0 then s2.setPkt c.unit.pid c.pkt else s2
  if out < 4 then
    let s4 := s3.setNq c.dst (s3.nq c.dst ++ [{ c.unit with since := s.nclk }])
    if c.unit.idx = 0 then s4.probes c.dst.node c.dst.inp c.pkt else s4
  else
    let s4 := if c.unit.idx = 0 then s3.probes node 5 c.pkt else s3
    let bad := c.unit.bad || s4.net.badIn.contains c.unit.pid
    let s5 : State := if c.unit.bad then { s4 with net := { s4.net with badIn := c.unit.pid :: s4.net.badIn } } else s4
    if last then s5.deliver c.unit.pid c.pkt bad else s5

/-! Links that fail -/

/-- The input field of NW_LINK_ERR. -/
def linkErrFld : Nat → Fld
  | 0 => F.NW_LINK_ERR_E | 1 => F.NW_LINK_ERR_W | 2 => F.NW_LINK_ERR_S | _ => F.NW_LINK_ERR_N

/-- A cut of the ring that link `link` of a node lies on, recorded at one router (NW_NODE_STAT). -/
def State.recordCut (s : State) (at_ node link : Nat) : State :=
  let x := node % 12
  let y := node / 12
  let a := R.NW_NODE_STAT at_
  let c := if link = 0 then x else if link = 1 then (x + 11) % 12 else if link = 2 then y else (y + 9) % 10
  let e := (at_, link / 2, c)
  let s1 : State := if s.net.cuts.contains e then s else { s with net := { s.net with cuts := s.net.cuts ++ [e] } }
  if link < 2 then (s1.setRf a F.NW_NODE_STAT_XCUT c).setRb a F.NW_NODE_STAT_XCUT_V true
  else (s1.setRf a F.NW_NODE_STAT_YCUT c).setRb a F.NW_NODE_STAT_YCUT_V true

/-- The cut notice that router `at_` sends on to the next router away from the cut (R211): ADDR names the cut, as link `link` of
node `node`. -/
def mnote (at_ node link : Nat) : Packet :=
  { mkRequest at_ 0 (neighbour at_ (oppLink link)) 0 3 0x30 (link + 4 * node) 0 0 [0] with be := 0 }

/-- That notice sent, where the link away from the cut works: so it ends at the other end of the cut, or at another cut (R211). -/
def State.sendNote (s : State) (at_ node link : Nat) : State :=
  if s.linkUp at_ (oppLink link) ∧ ¬ s.lost at_ then s.injectAt at_ 20 (mnote at_ node link) else s

/-- Packets caught across a link when it goes DOWN, completed by the router downstream with zero units marked BAD
(R213). -/
def State.cutPackets (s : State) (down inp : Nat) : State :=
  (s.net.holds.filter (fun h => h.key.node == down && h.key.inp == inp)).foldl (fun t h =>
    match t.pkt h.pid with
    | none => t
    | some p =>
      let n := p.data.length
      let up := (t.net.holds.takeWhile (fun g => !decide (g = h))).filter (fun g => g.pid == h.pid)
      let t1 : State := { t with net := { t.net with
        queues := (t.net.queues.map (fun e => (e.1, e.2.filter (fun u => !(u.pid == h.pid && decide (h.sent ≤ u.idx)))))).filter
          (fun e => !e.2.isEmpty),
        holds := t.net.holds.filter (fun g => !(decide (g = h) || up.contains g)) } }
      let t2 := t1.setPkt h.pid { p with data := p.data.take (h.sent - 1) ++ List.replicate (n + 1 - h.sent) 0 }
      let bads := (List.range (n + 1 - h.sent)).map (fun i =>
        ({ pid := h.pid, idx := h.sent + i, bad := true, since := t.nclk } : NetUnit))
      ((t2.setNq h.key (t2.nq h.key ++ bads)).raiseF R.NW_EVT F.NW_EVT_BAD_PKT).nwLog down inp 4 p.cmd.toNat) s

/-- A link between a node and its neighbour DOWN at both ends (R198, R211): both directions stop, the routers at its ends
record the cut and send notices, packets caught across it are completed, units that were to be sent again over it are not. -/
def State.linkDown (s : State) (node link : Nat) : State :=
  let m := neighbour node link
  let l2 := oppLink link
  if ¬ s.linkUp node link ∧ ¬ s.linkUp m l2 then s
  else
    let s1 := s.setRf (R.NW_NODE_STAT node) F.NW_NODE_STAT_LINK_UP (clrBit (s.rf (R.NW_NODE_STAT node) F.NW_NODE_STAT_LINK_UP) link)
    let s2 := s1.setRf (R.NW_NODE_STAT m) F.NW_NODE_STAT_LINK_UP (clrBit (s1.rf (R.NW_NODE_STAT m) F.NW_NODE_STAT_LINK_UP) l2)
    let s3 := (s2.recordCut node node link).recordCut m node link
    let s4 := (s3.cutPackets m l2).cutPackets node link
    let s5 : State := { s4 with net := { s4.net with replay := s4.net.replay.filter (fun e =>
      !((e.1 == node && e.2.1 == link) || (e.1 == m && e.2.1 == l2))) } }
    ((s5.raiseF R.NW_EVT F.NW_EVT_CUT).sendNote node node link).sendNote m m l2

/-- A link gone DOWN by its own failure (R198): events, log and detection. -/
def State.linkFails (s : State) (node link : Nat) : State :=
  let s1 := s.linkDown node link
  (((s1.raise R.NW_EVT 3).nwLog node link 2 0)).report 4 [(3, node + 256 * link)]

/-- The run of failed transmissions of the unit at an input. -/
def State.crcRunOf (s : State) (node link : Nat) : Nat :=
  match s.net.crcRun.find? (fun e => e.1 == node && e.2.1 == link) with
  | some e => e.2.2
  | none => 0

/-- That run set. -/
def State.setCrcRun (s : State) (node link n : Nat) : State :=
  let r := s.net.crcRun.filter (fun e => !(e.1 == node && e.2.1 == link))
  { s with net := { s.net with crcRun := if n = 0 then r else r ++ [(node, link, n)] } }

/-- The queue whose head must go over a link before anything else, as it failed its CRC there (R197). -/
def State.replayOf (s : State) (node link : Nat) : Option QKey :=
  (s.net.replay.find? (fun e => e.1 == node && e.2.1 == link)).map (fun e => e.2.2)

/-- The unit at the head of a queue, or none, to be sent again over a link. -/
def State.setReplay (s : State) (node link : Nat) (k : Option QKey) : State :=
  let r := s.net.replay.filter (fun e => !(e.1 == node && e.2.1 == link))
  { s with net := { s.net with replay := match k with | some q => r ++ [(node, link, q)] | none => r } }

/-- A unit that fails its CRC at input `link` of a node (R197, R198): it does not enter; the first transmission and three replays
failing take the link DOWN. -/
def State.crcFail (s : State) (node link : Nat) : State :=
  let k := s.crcRunOf node link + 1
  let s1 := (((s.bump (R.NW_LINK_ERR node) (linkErrFld link) 1).nwLog node link 1 0).setCrcRun node link k).report 4
    [(3, node + 256 * link)]
  if 4 ≤ k then (s1.setCrcRun node link 0).linkFails node link else s1

/-- LINK_IDLE_TIMEOUT (R198): no unit at an input for 64 NCLK. -/
def execLinkIdleTimeout (node : Fin 120) (link : Fin 4) (s : State) : Host.Outcome State Fault Refusal :=
  .next (if s.linkUp (neighbour node link) (oppLink link) then s.linkFails node link else s)

/-- The units at the heads of the input queues of a node. -/
def State.netHeads (s : State) (node : Nat) : List (QKey × NetUnit) :=
  s.net.queues.filterMap (fun e => match e.2 with
    | u :: _ => if e.1.node = node ∧ e.1.inp < 24 then some (e.1, u) else none
    | [] => none)

/-- The first header at a node that has no route: packet number, packet, status of the answer. -/
def State.netDead (s : State) (node : Nat) : Option (Nat × Packet × Nat) :=
  (s.netHeads node).findSome? (fun h => match s.pkt h.2.pid with
    | some p => if h.2.idx = 0 then (match s.route node h.1.inp p with
        | .answer st => some (h.2.pid, p, st)
        | _ => none) else none
    | none => none)

/-- The unit that goes out next on an output of a node (R208). -/
def State.netWinner (s : State) (node out : Nat) : Option NetCand :=
  let last := match s.net.rr.find? (fun e => e.1 == node && e.2.1 == out) with
    | some e => e.2.2
    | none => 127
  s.netFirst last ((s.netHeads node).filterMap (fun h =>
    if (s.replayOf node out).getD h.1 = h.1 then s.netCand node out h.1 h.2 else none))

/-- The unit that a node sends next on link `out` fails its CRC where it arrives (R197): it stays, and is sent again before any other
of that link. Where no unit is to be sent, an idle unit fails. -/
def State.sendFails (s : State) (node out : Nat) : State :=
  let s1 := match s.netWinner node out with
    | some c => s.setReplay node out (some c.src)
    | none => s
  s1.crcFail (neighbour node out) (oppLink out)

/-- LINK_CRC_FAIL (R197, R198) at an input that is UP: the next unit over it fails. -/
def execLinkCrcFail (node : Fin 120) (link : Fin 4) (s : State) : Host.Outcome State Fault Refusal :=
  .next (if s.linkUp (neighbour node link) (oppLink link) then s.sendFails (neighbour node link) (oppLink link) else s)

/-- One trace record written into the SMB ring, as WR packets of 32 B units (R222). -/
def State.traceWrite (s : State) (a : Nat) (rec : List Byte) : State :=
  let urg := s.rf R.DB_TRC_CFG F.DB_TRC_CFG_URG
  let line := fun (t : State) (u : Nat) =>
    let at_ := fun (i : Nat) => if u + i < a then none else rec[u + i - a]?
    let d := (List.range 32).foldl (fun acc i => acc + (match at_ i with | some b => b.toNat * 2 ^ (8 * i) | none => 0)) 0
    let en := (List.range 32).foldl (fun acc i => acc + (if (at_ i).isSome then 2 ^ i else 0)) 0
    t.request { mkRequest 116 0 (smbNode u) 0 0 2 u urg 0 [BitVec.ofNat 256 d] with be := BitVec.ofNat 32 en }
  line (line s (a / 32 * 32)) (a / 32 * 32 + 32)

/-- The oldest record that waits sent into the SMB ring (R222): it wraps, or stops at the end. -/
def State.traceNext (s : State) : State :=
  let cfg := s.rg R.DB_TRC_CFG
  match s.net.trace with
  | [] => s
  | rec :: r =>
    let size := 2 ^ F.DB_TRC_CFG_SIZE.get cfg
    let base := 4096 * s.rf R.DB_TRC_BASE F.DB_TRC_BASE_BASE
    let w := (s.rg R.DB_TRC_WPTR).toNat
    let s1 : State := { s with net := { s.net with trace := r } }
    if w + 40 ≤ size then (s1.setRg R.DB_TRC_WPTR (w32 (w + 40))).traceWrite (base + w) rec
    else if F.DB_TRC_CFG_WRAP.bit cfg then (s1.setRg R.DB_TRC_WPTR (w32 40)).traceWrite base rec
    else s1.raiseF R.DB_EVT F.DB_EVT_TRC_END

/-- The trace unit's turn at its router (R222): with SINK 1 the records that wait now, while it has tags for them. -/
def State.traceTurn (s : State) : State :=
  if s.rb R.DB_CTRL F.DB_CTRL_TRC_EN ∧ s.rb R.DB_TRC_CFG F.DB_TRC_CFG_SINK then
    s.net.trace.foldl (fun t _ => if t.net.held.any (fun h => h.req.src == 116) then t else t.traceNext) s
  else s

/-- One unit sent by the router of a node on an output, the first candidate by VC2, priority and round-robin (R208); a unit that
NW_TEST names fails its CRC. `hit` is a header bit upset in the router. -/
def State.hop (s : State) (node out : Nat) (hit : Option (Fin 256)) : State :=
  match s.netWinner node out with
  | none => s
  | some c =>
    let t := s.rg R.NW_TEST
    let n := F.NW_TEST_COUNT.get t
    if out < 4 ∧ 0 < n ∧ F.NW_TEST_NODE.get t = node ∧ F.NW_TEST_LINK.get t = out then
      (s.setRf R.NW_TEST F.NW_TEST_COUNT (n - 1)).sendFails node out
    else
      let c1 : NetCand := match hit with
        | some b => if c.unit.idx = 0 then { c with pkt := c.pkt.upset b.val } else c
        | none => c
      (if out < 4 then (s.setCrcRun (neighbour node out) (oppLink out) 0).setReplay node out none else s).moveUnit node out c1

/-- PACKET_HOP (R204, R208, R214): the router of a node sends one unit on an output; a header that has no route is answered by the
router instead. A lost node forwards nothing. The trace unit sends its records at its node. -/
def execPacketHop (node : Fin 120) (out : Fin 20) (hit : Option (Fin 256)) (s : State) : Host.Outcome State Fault Refusal :=
  .next (if s.lost node then s
    else
      let s1 := if node.val = 116 then s.traceTurn else s
      match s1.netDead node with
      | some (id, p, st) => s1.unroutable node id p st
      | none => s1.hop node out hit)

/-- MNOTE (R211): a router at which a cut notice has come records the cut and sends it on; NW_EVT.CUT sets. A notice of a link that is UP
again is dropped. -/
def execNwMnote (p : Packet) (s : State) : Host.Outcome State Fault Refusal :=
  let s0 := s.unboxed p
  let node := p.addr.toNat / 4 % 120
  let link := p.addr.toNat % 4
  .next (if p.cmd.toNat ≠ 0x30 ∨ ¬ s.firstIn p then s
    else if s0.linkUp node link then s0
    else ((s0.recordCut p.dst node link).raiseF R.NW_EVT F.NW_EVT_CUT).sendNote p.dst node link)

/-- A node marked lost (R214): its four links are cut, its queues are gone. -/
def State.loseNode (s : State) (node : Nat) : State :=
  if s.lost node then s
  else
    let s1 := s.setRb (R.NW_NODE_CTL node) F.NW_NODE_CTL_LOST true
    let s2 := s1.each [0, 1, 2, 3] (fun l t => t.linkDown node l)
    let mine := (s2.net.queues.filter (fun e => e.1.node == node)).flatMap (fun e => e.2.map (fun u => u.pid))
    let s3 := mine.foldl (fun t id => t.dropPkt id) s2
    s3.raise R.NW_EVT 6

/-- NODE_LOST_SET (R214). -/
def execNodeLostSet (node : Fin 120) (s : State) : Host.Outcome State Fault Refusal := .next (s.loseNode node)

/-- PROBE_CLR: PKTS, BYTES and the bins of a probe return to 0. -/
def execProbeClr (k : Fin 16) (s : State) : Host.Outcome State Fault Refusal :=
  let s1 := ((s.setRg (R.DB_PRB_PKTS k) 0).setRg (R.DB_PRB_BYTES_LO k) 0).setRg (R.DB_PRB_BYTES_HI k) 0
  .next (s1.each (List.range 16) (fun b t => t.setRg (R.DB_PRB_HIST k b) 0))

/-- DB_BLK_RST: every DB field marked Block or Run, and the trace buffer. -/
def execDbBlkRst (s : State) : Host.Outcome State Fault Refusal :=
  let s1 := s.clearRegs .run 0x6D0000 0x6E0000
  .next (s.blkRst 22 { s1 with net := { s1.net with trace := [], hiLatch := [] } })

/-- What a Run reset does to the network (R219): everything in flight and every tag goes; tables, DOWN links, cuts stay. -/
def State.netRunReset (s : State) : State :=
  { s with net := { Net.reset with nextId := s.net.nextId, nextKey := s.net.nextKey, cuts := s.net.cuts } }

end Sys2Proof.Machine
end

