-- ==== Sys2Proof/Machine/Operands.lean ====
section
/-! DEFINITION. The Array's geometry, the Pleat word, validity of a Pleat, and the operand forms of the PE operations
(03_array.md, 04_pleats_and_folds.md; Tables AR-4 to AR-8, PL-1, PL-2). Sides are 0 N, 1 E, 2 S, 3 W; lanes are in the
order of R134. -/

namespace Sys2Proof.Machine

/-! Geometry -/

/-- Tile, column and row of a logical PE index (R201). -/
def peTile (i : Nat) : Nat := i / 16
def peCol (i : Nat) : Nat := 4 * (i / 16 % 12) + i % 4
def peRow (i : Nat) : Nat := 4 * (i / 192) + i % 16 / 4

/-- The logical PE index of PE(c,r) (R201). -/
def peIx (c r : Nat) : Nat := 16 * (12 * (r / 4) + c / 4) + 4 * (r % 4) + c % 4

/-- The physical columns in service, in order (R89). -/
def State.colsInUse (s : State) : List Nat :=
  let m := s.rg R.AR_COLMAP
  (List.range 50).filter (fun c =>
    !((F.AR_COLMAP_V0.bit m && F.AR_COLMAP_FAIL0.get m == c) || (F.AR_COLMAP_V1.bit m && F.AR_COLMAP_FAIL1.get m == c)))

/-- The physical PE that serves a logical position: 32 × physical column + row (R89, R240). -/
def State.phys (s : State) (i : Nat) : Nat := 32 * s.colsInUse.getD (peCol i) 0 + peRow i

/-- A physical PE's record by logical position. -/
def State.pe (s : State) (i : Nat) : Pe := Tab.get (fun _ => Pe.idle) s.arr.pes (s.phys i)
/-- That record replaced. -/
def State.setPe (s : State) (i : Nat) (x : Pe) : State :=
  { s with arr := { s.arr with pes := Tab.put (fun _ => Pe.idle) s.arr.pes (s.phys i) x } }
/-- Private state of Pleat p at a logical position. -/
def State.priv (s : State) (i p : Nat) : Priv := Tab.get (fun _ => Priv.zero) s.arr.privs (16 * s.phys i + p)
/-- That state replaced. -/
def State.setPriv (s : State) (i p : Nat) (x : Priv) : State :=
  { s with arr := { s.arr with privs := Tab.put (fun _ => Priv.zero) s.arr.privs (16 * s.phys i + p) x } }

/-- A FIFO of a PE by side. -/
def Pe.fifo (x : Pe) (side : Nat) : Fifo := match side with | 0 => x.n | 1 => x.e | 2 => x.so | _ => x.w
/-- A FIFO replaced. -/
def Pe.setFifo (x : Pe) (side : Nat) (f : Fifo) : Pe :=
  match side with | 0 => { x with n := f } | 1 => { x with e := f } | 2 => { x with so := f } | _ => { x with w := f }

/-- Is a tile in an enabled group of MODE Paired (R416, R417)? -/
def State.tilePaired (s : State) (t : Nat) : Bool := s.tileMode t == 2

/-- Is a position a twin of a Paired tile (R417)? -/
def State.isTwin (s : State) (i : Nat) : Bool := s.tilePaired (peTile i) && i % 2 == 1

/-- The neighbour on a side, primaries in Paired tiles (R417); none at the edge. -/
def State.nbr (s : State) (i side : Nat) : Option Nat :=
  let c := peCol i
  let r := peRow i
  match side with
  | 0 => if r = 0 then none else some (peIx c (r - 1))
  | 2 => if r = 31 then none else some (peIx c (r + 1))
  | 1 =>
    let c2 := c + (if s.tilePaired (peTile i) then 2 else 1)
    if 48 ≤ c2 then none else some (peIx c2 r)
  | _ =>
    if c = 0 then none
    else if c % 4 = 0 then
      let q := peIx (c - 1) r
      some (if s.tilePaired (peTile q) then peIx (c - 2) r else q)
    else some (peIx (c - (if s.tilePaired (peTile i) then 2 else 1)) r)

/-- The opposite side. -/
def oppSide (side : Nat) : Nat := (side + 2) % 4

/-- Is a PE a stop of lane l (R103)? -/
def isStop (l c r : Nat) : Bool :=
  match l with
  | 0 => c % 4 == 0 | 1 => c % 4 == 0 | 2 => c % 16 == 0 | 3 => c % 16 == 0
  | 4 => r % 4 == 0 | 5 => r % 4 == 0 | 6 => r % 16 == 0 | _ => r % 16 == 0

/-- The next stop of lane l, where a segment leads on (R103). -/
def nextStop (l c r : Nat) : Option (Nat × Nat) :=
  let d := if l % 4 < 2 then 4 else 16
  match l with
  | 0 | 2 => if c + d < 48 then some (c + d, r) else none
  | 1 | 3 => if d ≤ c then some (c - d, r) else none
  | 4 | 6 => if r + d < 32 then some (c, r + d) else none
  | _ => if d ≤ r then some (c, r - d) else none

/-- The side on which lane l arrives, and the feeder code that selects it (Table AR-4). -/
def laneSide (l : Nat) : Nat := match l with | 0 | 2 => 3 | 1 | 3 => 1 | 4 | 6 => 0 | _ => 2
def laneFeed (l : Nat) : Nat := if l % 4 < 2 then 2 else 3

/-! The Pleat word -/

/-- The fields of a Pleat word (Table PL-1). -/
structure Pleat where
  op    : Nat
  mods  : Nat
  srcA  : Nat
  srcB  : Nat
  v     : Bool
  imm   : Nat
  posAx : Nat
  slice : Nat
  feed  : List Nat
  cut   : Nat
  dSide : Nat
  dXret : Bool
  eTp   : Bool
  dLane : Nat
  base  : Nat
  rst   : Bool
  stride : Int
  len   : Nat
  p0    : Word
  p1    : Word
  /-- a reserved field is non-zero -/
  junk  : Bool
deriving DecidableEq, Repr

/-- The place of a stored Pleat word (R134). -/
def State.pleatAt (s : State) (i p : Nat) : Nat := memPleat + 512 * s.phys i + 32 * p

/-- A Pleat word from its 256 bits. -/
def Pleat.ofNat (x : Nat) : Pleat :=
  let w := fun k => bitsOf x (32 * k) 32
  { op := bitsOf (w 0) 0 6, mods := bitsOf (w 0) 6 8, srcA := bitsOf (w 0) 14 5, srcB := bitsOf (w 0) 19 5, v := (w 0).testBit 31,
    imm := bitsOf (w 1) 0 16, posAx := bitsOf (w 1) 16 3, slice := bitsOf (w 1) 19 2,
    feed := [bitsOf (w 2) 0 3, bitsOf (w 2) 3 3, bitsOf (w 2) 6 3, bitsOf (w 2) 9 3], cut := bitsOf (w 2) 16 8,
    dSide := bitsOf (w 3) 0 4, dXret := (w 3).testBit 4, eTp := (w 3).testBit 5, dLane := bitsOf (w 3) 6 8,
    base := bitsOf (w 4) 0 11, rst := (w 4).testBit 11, stride := sext 12 (bitsOf (w 4) 12 12),
    len := if bitsOf (w 5) 0 11 = 0 then 2048 else bitsOf (w 5) 0 11, p0 := w32 (w 6), p1 := w32 (w 7),
    junk := bitsOf (w 0) 24 7 != 0 || bitsOf (w 1) 21 11 != 0 || bitsOf (w 2) 12 4 != 0 || bitsOf (w 2) 24 8 != 0
      || bitsOf (w 3) 14 18 != 0 || bitsOf (w 4) 24 8 != 0 || bitsOf (w 5) 11 21 != 0 }

/-- The stored Pleat p of a logical position, each 64 bits as the decoder reads it. -/
def State.pleat (s : State) (i p : Nat) : Pleat :=
  let a := s.pleatAt i p
  Pleat.ofNat (s.fixedAt a + 2 ^ 64 * s.fixedAt (a + 8) + 2 ^ 128 * s.fixedAt (a + 16) + 2 ^ 192 * s.fixedAt (a + 24))

/-- The modifier bits an operation honours (Tables AR-7, AR-8). -/
def modsOf (op : Nat) : Nat :=
  match op with
  | 0x01 => 0x10 | 0x02 => 0x13 | 0x03 => 0x13 | 0x04 => 0x10 | 0x05 => 0x10 | 0x06 => 0x10 | 0x07 => 0x10
  | 0x0C => 0x03 | 0x0D => 0x03 | 0x0E => 0x03 | 0x0F => 0x03
  | 0x11 => 0xFE | 0x13 => 0x0E | 0x14 => 0x0E | 0x16 => 0x0C | 0x18 => 0x02 | 0x1A => 0x02 | 0x1B => 0x02
  | 0x1C => 0x63 | 0x1D => 0xE3 | 0x1E => 0x63 | 0x1F => 0x23 | 0x20 => 0x20 | 0x21 => 0x20
  | 0x26 => 0xC1 | 0x27 => 0xC1 | 0x29 => 0x80
  | _ => 0

/-- Operand A and operand B: does the operation read it (R106)? -/
def readsA (op : Nat) : Bool := op != 0x00 && op != 0x1F && op != 0x22
def readsB (op : Nat) : Bool :=
  (decide (0x02 ≤ op) && decide (op ≤ 0x14)) || op == 0x18 || op == 0x19 || (decide (0x1A ≤ op) && decide (op ≤ 0x1E))
    || [0x20, 0x21, 0x24, 0x28, 0x29, 0x2B, 0x2D, 0x2E].contains op

/-- Argument conditions of Table PL-2 (R115–R119, R156). -/
def argsOk (q : Pleat) : Bool :=
  let i := q.imm
  let le := q.mods.testBit 6
  match q.op with
  | 0x25 => let k := bitsOf i 5 4; decide (1 ≤ k) && decide (k ≤ 11)
  | 0x21 => let n := bitsOf i 0 6; decide (1 ≤ n) && decide (n ≤ 32)
  | 0x1F => decide (bitsOf i 0 6 ≤ 40)
  | 0x1C => !le || decide (bitsOf i 0 6 ≤ 40)
  | 0x1D => !le || decide (bitsOf i 0 6 ≤ 40)
  | 0x1E => !le || decide (bitsOf i 0 6 ≤ 40)
  | 0x11 => decide (bitsOf q.mods 5 3 < 6)
  | 0x22 => bitsOf i 11 2 != 3
  | 0x2E => bitsOf i 8 8 == 0
  | _ => true

/-- Has the PE at (c, r) a feeder of a code on a side (Table AR-4)? -/
def State.feederOk (s : State) (i side code : Nat) : Bool :=
  let c := peCol i
  let r := peRow i
  match code with
  | 0 => true
  | 1 => (s.nbr i side).isSome
  | 2 => match side with
    | 3 => c % 4 == 0 && decide (4 ≤ c) | 1 => c % 4 == 0 && decide (c + 4 < 48)
    | 0 => r % 4 == 0 && decide (4 ≤ r) | _ => r % 4 == 0 && decide (r + 4 < 32)
  | 3 => match side with
    | 3 => c % 16 == 0 && decide (16 ≤ c) | 1 => c % 16 == 0 && decide (c + 16 < 48)
    | 0 => r % 16 == 0 && decide (16 ≤ r) | _ => r % 16 == 0 && decide (r + 16 < 32)
  | 4 => (side == 3 && c == 0) || (side == 1 && (s.nbr i 1).isNone)
  | 5 => side == 3 && c % 4 == 0
  | 6 => side == 3 && c == 0 && r % 2 == 0
  | _ => false

/-- Is a Pleat word valid at a logical position by Table PL-2? -/
def State.pleatOk (s : State) (i : Nat) (q : Pleat) : Bool :=
  let c := peCol i
  let r := peRow i
  let srcOk := fun (src : Nat) (rd : Bool) => decide (src < 20) && (!rd || decide (4 ≤ src) || q.feed.getD src 0 != 0)
  let last := (s.nbr i 1).isNone || peTile ((s.nbr i 1).getD i) != peTile i
  q.v && decide (q.op ≤ 0x2E) && andNot q.mods (modsOf q.op) == 0
    && srcOk q.srcA (readsA q.op) && srcOk q.srcB (readsB q.op)
    && (List.range 4).all (fun d => s.feederOk i d (q.feed.getD d 0))
    && (List.range 4).all (fun d => q.feed.getD d 0 == 0 || (readsA q.op && q.srcA == d) || (readsB q.op && q.srcB == d))
    && (List.range 8).all (fun l => (!(q.cut.testBit l || q.dLane.testBit l) || isStop l c r) && (!q.dLane.testBit l || q.cut.testBit l))
    && (!q.dSide.testBit 0 || (s.nbr i 0).isSome) && (!q.dSide.testBit 2 || (s.nbr i 2).isSome)
    && (!q.dXret || c == 0) && (!q.eTp || last) && argsOk q && !q.junk

/-- Is Pleat p loading in the tile of a position (R162)? -/
def State.loadingAt (s : State) (t p : Nat) : Bool :=
  match s.arr.loadRun with
  | some k => k.req.slot == p && k.tiles.contains t
  | none => false

/-- Has a stored Pleat word an uncorrectable or poisoned part (R136)? -/
def State.pleatBad (s : State) (i p : Nat) : Bool :=
  (List.range 4).any (fun k => (s.classAt (s.pleatAt i p + 8 * k)).status != 0)

/-- Is Pleat p valid at a position (R136)? -/
def State.validAt (s : State) (i p : Nat) : Bool :=
  !s.loadingAt (peTile i) p && !s.arr.aborted.contains (16 * s.phys i + p) && !s.pleatBad i p && s.pleatOk i (s.pleat i p)

/-- The feeder of a FIFO now: that of the active Pleat, 0 where it is not valid (R136). -/
def State.feedNow (s : State) (i side : Nat) : Nat :=
  let a := (s.pe i).act
  if s.validAt i a then (s.pleat i a).feed.getD side 0 else 0

/-! Operand forms -/

/-- The lane width of an operation that honours W; of the reserved code 3 one that the model leaves free (log entry 150). -/
def Pleat.wM (q : Pleat) : Nat :=
  match bitsOf q.mods 2 2 with
  | 0 => 32
  | 1 => 16
  | 2 => 8
  | _ => (match Config.reservedWidth q.op with | 0 => 32 | 1 => 16 | _ => 8)

/-- The lane width at which an immediate is placed (Table AR-5, code 16). -/
def immWidth (q : Pleat) : Nat :=
  match q.op with
  | 0x0C => 16 | 0x0D => 16 | 0x0E => 8 | 0x0F => 8 | 0x10 => 8
  | _ => if (modsOf q.op).testBit 2 then q.wM else 32

/-- The immediate as an operand (Table AR-5). -/
def immOp (q : Pleat) : Word :=
  match immWidth q with
  | 16 => w32 (q.imm + 0x10000 * q.imm)
  | 8 => w32 (0x01010101 * (q.imm % 256))
  | _ =>
    if q.mods.testBit 4 ∧ (modsOf q.op).testBit 4 then w32 (0x10000 * q.imm)
    else if q.mods.testBit 1 ∧ (modsOf q.op).testBit 1 then w32 q.imm
    else w32 (trunc 32 (sext 16 q.imm))

/-- How many samples behind the newest a PE operand is: 1 YCLK + 3 ACLK after the end of the sample's YCLK, in whole YCLK (R49). ACLK is
50 MHz x CK_ACLK.N, so three of its cycles are 30 / N YCLK. DEDUCED: a part of a YCLK counts as a whole one (log entry 133). -/
def State.peDelay (s : State) : Nat :=
  let n := max 1 (s.rf R.CK_ACLK F.CK_ACLK_N)
  1 + (30 + n - 1) / n

/-- The position bus sample that PE operands see (R49, R107). -/
def State.peSample (s : State) : BusSample := s.yk.hist.getD s.peDelay { time := 0, axes := [] }

/-- The status byte of an axis on the bus (Table YK-7). -/
def BusAxis.status (x : BusAxis) : Nat :=
  x.st.code + 4 * b2n x.down + 8 * b2n x.wrap + 16 * b2n x.wdir + 32 * b2n x.step

/-- A slice of a position operand (Table AR-6). -/
def State.posSlice (s : State) (ax slice : Nat) : Word :=
  let h := s.peSample
  let x := h.axes.getD ax BusAxis.idle
  let p := trunc 64 x.pos
  match slice with
  | 0 => w32 (p / 2 ^ 16)
  | 1 => w32 p
  | 2 => w32 (p / 2 ^ 32)
  | _ => w32 (x.status + 0x10000 * (h.time % 0x10000))

/-- The place of local memory word w of a position (R93). -/
def State.lmPlace (s : State) (i w : Nat) : Nat := memLM + 0x2000 * s.phys i + 4 * (w % 2048)

/-- A local memory word as a PE reads it (R97): DATA 0 and ERR where its codeword is uncorrectable or poisoned. -/
def State.lmWord (s : State) (i w : Nat) : Word × Bool :=
  let a := s.lmPlace i w
  if (s.classAt a).status ≠ 0 then (0, true) else (w32 (s.fixedAt a / 2 ^ (8 * (a % 8))), false)

/-- The pointer after a use (R95). -/
def agNext (q : Pleat) (ptr : Nat) (last : Bool) : Nat :=
  if q.rst ∧ last then q.base
  else ((q.base : Int) + (((ptr : Int) - q.base + q.stride) % (q.len : Int))).toNat % 2048

/-- A value that is no token. -/
def valTok (x : Word) (err : Bool) : Token := Token.make x 0 false false err none

/-- An operand (Table AR-5): none where its FIFO has no data token at its head. `ptr` is the address generator's pointer for
this use. -/
def State.operand (s : State) (i : Nat) (q : Pleat) (src ptr : Nat) : Option Token :=
  let x := s.pe i
  let pv := s.priv i x.act
  match src with
  | 0 => (x.n.toks.head?).filter (fun t => !t.fold)
  | 1 => (x.e.toks.head?).filter (fun t => !t.fold)
  | 2 => (x.so.toks.head?).filter (fun t => !t.fold)
  | 3 => (x.w.toks.head?).filter (fun t => !t.fold)
  | 12 => some (valTok pv.p0 false)
  | 13 => some (valTok pv.p1 false)
  | 14 => some (valTok pv.p2 false)
  | 15 => some (valTok pv.p3 false)
  | 16 => some (valTok (immOp q) false)
  | 17 => let (v, e) := s.lmWord i ptr; some (valTok v e)
  | 18 => some (valTok (s.posSlice q.posAx q.slice) false)
  | 19 => some (valTok 0 false)
  | k => if k < 12 then some (valTok (x.s.getD (k - 4) 0) false) else none

end Sys2Proof.Machine
end

