-- ==== Sys2Proof/Machine/PeAlu.lean ====
section
/-! DEFINITION. What each PE operation computes from its operands and private state (03_array.md, R112–R119, Table AR-8).
Which tokens a firing takes and where its results go is in PeFire.lean. -/

namespace Sys2Proof.Machine

/-- Modifier bits by name (Table AR-7). -/
def Pleat.satM (q : Pleat) : Bool := q.mods.testBit 0
def Pleat.uM (q : Pleat) : Bool := q.mods.testBit 1
def Pleat.selM (q : Pleat) : Nat := bitsOf q.mods 5 3
def Pleat.accM (q : Pleat) : Bool := q.mods.testBit 5
def Pleat.leM (q : Pleat) : Bool := q.mods.testBit 6
def Pleat.xM (q : Pleat) : Bool := q.mods.testBit 7

/-- Result and flags of an operation without effect on accumulators or registers. -/
structure AluOut where
  r  : Word
  fl : PeFlags
deriving DecidableEq, Repr

/-- A result that sets Z and N. -/
def AluOut.zn (fl : PeFlags) (r : Word) : AluOut := { r := r, fl := fl.zn r }

/-- ADD, SUB and their lane forms (R113). -/
def aluSum (sub : Bool) (w : Nat) (q : Pleat) (fl : PeFlags) (a b : Word) : AluOut :=
  let l := (lanesOf w).map (fun i => laneSum sub q.satM q.uM w (lane w a i) (lane w b i))
  let r := ofLanes w (l.map (fun x => x.r))
  { r := r, fl := fl.sum r l }

/-- The conditions of CMP (Table AR-7, SEL3). -/
def cmpCond (sel : Nat) (x y : Int) : Bool :=
  match sel with
  | 0 => x == y
  | 1 => x != y
  | 2 => decide (x < y)
  | 3 => decide (x ≤ y)
  | 4 => decide (y < x)
  | _ => decide (y ≤ x)

/-- CMP: all ones in each lane whose condition holds; PRED is the OR of the lanes. -/
def aluCmp (q : Pleat) (fl : PeFlags) (a b : Word) : AluOut :=
  let w := q.wM
  let l := (lanesOf w).map (fun i => cmpCond q.selM (laneInt q.uM w (lane w a i)) (laneInt q.uM w (lane w b i)))
  let r := ofLanes w (l.map (fun c => if c then 2 ^ w - 1 else 0))
  { r := r, fl := { fl.zn r with pred := l.any id } }

/-- MIN and MAX per lane. -/
def aluPick (mx : Bool) (q : Pleat) (a b : Word) : Word :=
  let w := q.wM
  ofLanes w ((lanesOf w).map (fun i =>
    let x := lane w a i
    let y := lane w b i
    if (laneInt q.uM w x < laneInt q.uM w y) != mx then x else y))

/-- ABSD4: unsigned absolute difference of bytes. -/
def aluAbsd4 (a b : Word) : Word :=
  ofLanes 8 ((lanesOf 8).map (fun i =>
    let x := lane 8 a i
    let y := lane 8 b i
    if x < y then y - x else x - y))

/-- ABS, saturating at 2^31 - 1. -/
def aluAbs (fl : PeFlags) (a : Word) : AluOut :=
  if a.toInt = -2147483648 then { r := w32 0x7FFFFFFF, fl := (fl.zn (w32 0x7FFFFFFF)).satIf true }
  else AluOut.zn fl (w32 a.toInt.natAbs)

/-- POPC: set bits, or non-zero lanes. -/
def aluPopc (q : Pleat) (a : Word) : Word :=
  let w := q.wM
  if w = 32 then w32 (popc 32 a.toNat) else w32 ((lanesOf w).filter (fun i => lane w a i != 0)).length

/-- BFX: a field of a, zero-extended with U, else sign-extended. -/
def aluBfx (q : Pleat) (a b : Word) : Word :=
  let n := bitsOf b.toNat 5 5 + 1
  let f := bitsOf a.toNat (bitsOf b.toNat 0 5) n
  if q.uM then w32 f else w32 (trunc 32 (sext n f))

/-- BFI: the low bits of p0 inserted into a. -/
def aluBfi (p0 a b : Word) : Word :=
  let p := bitsOf b.toNat 0 5
  let n := bitsOf b.toNat 5 5 + 1
  let m := ((2 ^ n - 1) <<< p) % 2 ^ 32
  w32 (andNot a.toNat m + (((p0.toNat % 2 ^ n) <<< p) % 2 ^ 32))

/-- The exact product of two lanes. -/
def laneMul (u : Bool) (w : Nat) (a b : Word) (i : Nat) : Int := laneInt u w (lane w a i) * laneInt u w (lane w b i)

/-! Accumulators (R114–R116) -/

/-- An accumulator of a Pleat. -/
def Priv.acc (p : Priv) (one : Bool) : BitVec 72 := if one then p.acc1 else p.acc0
/-- An accumulator replaced. -/
def Priv.setAcc (p : Priv) (one : Bool) (v : BitVec 72) : Priv := if one then { p with acc1 := v } else { p with acc0 := v }

/-- ACCRD's value of an accumulator: rounded shift, saturated to 32 bits; the flag says that it saturated (R115). -/
def accRead (u : Bool) (sh : Nat) (v : BitVec 72) : Word × Bool :=
  let r : Int := if sh = 0 then 0 else (2 ^ (sh - 1) : Nat)
  let x := (v.toInt + r) / (2 ^ sh : Nat)
  let (n, st) := narrow true u 32 x
  (w32 n, st)

/-- One accumulation, wrapping modulo 2^72; CLR replaces (R114). -/
def accAdd (clr : Bool) (v : BitVec 72) (x : Int) : BitVec 72 := BitVec.ofInt 72 ((if clr then 0 else v.toInt) + x)

/-- The private state after the sum of a MAC (R114). -/
def macSum (q : Pleat) (p : Priv) (a b : Word) : Priv :=
  let u := q.uM
  let clr := q.satM
  match q.op with
  | 0x1C => p.setAcc q.accM (accAdd clr (p.acc q.accM) (laneMul u 32 a b 0))
  | 0x1D =>
    if q.xM then { p with acc0 := accAdd clr p.acc0 (laneMul u 16 a b 0), acc1 := accAdd clr p.acc1 (laneMul u 16 a b 1) }
    else p.setAcc q.accM (accAdd clr (p.acc q.accM) (laneMul u 16 a b 0 + laneMul u 16 a b 1))
  | _ => p.setAcc q.accM (accAdd clr (p.acc q.accM)
          (laneMul u 8 a b 0 + laneMul u 8 a b 1 + laneMul u 8 a b 2 + laneMul u 8 a b 3))

/-- What a MAC emits (R114): nothing without LE or LAST; else the accumulator as ACCRD gives it, cleared; with DUAL both. -/
def macEmit (q : Pleat) (p : Priv) (last : Bool) : Priv × List (Word × Bool) :=
  let sh := bitsOf q.imm 0 6
  if ¬ q.leM ∨ ¬ last then (p, [])
  else if q.op = 0x1D ∧ q.xM then
    let (x0, s0) := accRead q.uM sh p.acc0
    let (x1, s1) := accRead q.uM sh p.acc1
    ({ p with acc0 := 0, acc1 := 0, fl := p.fl.satIf (s0 || s1) }, [(x0, false), (x1, true)])
  else
    let (x, st) := accRead q.uM sh (p.acc q.accM)
    ({ p.setAcc q.accM 0 with fl := p.fl.satIf st }, [(x, true)])

/-- n restoring steps on bits [63:0] of an accumulator (R116). -/
def divSteps (b : Nat) : Nat → Nat → Nat
  | 0, x => x
  | n + 1, x =>
    let y := 2 * x
    let r := y / 2 ^ 32
    divSteps b n (if b ≤ r then (r - b) % 2 ^ 32 * 2 ^ 32 + y % 2 ^ 32 + 1 else r % 2 ^ 32 * 2 ^ 32 + y % 2 ^ 32)

/-- DIVS: the accumulator after its steps; bits above 63 keep their value. -/
def divAcc (n b : Nat) (v : BitVec 72) : BitVec 72 :=
  BitVec.ofNat 72 (v.toNat / 2 ^ 64 * 2 ^ 64 + divSteps b n (v.toNat % 2 ^ 64))

/-! CORDIC (R117) -/

/-- atan(2^-i) / 2π × 2^32, rounded to nearest. -/
def cordTab : List Nat :=
  [536870912, 316933406, 167458907, 85004756, 42667331, 21354465, 10679838, 5340245, 2670163, 1335087, 667544]
    ++ [333772, 166886, 83443, 41722, 20861, 10430, 5215, 2608, 1304, 652, 326, 163, 81, 41, 20, 10, 5, 3, 1, 1]

/-- n iterations from iteration i on x, y, z. A z (or y) of 0 is taken as not negative (DEDUCED). -/
def cordGo (vec : Bool) : Nat → Nat → Word × Word × Word → Word × Word × Word
  | 0, _, v => v
  | n + 1, i, (x, y, z) =>
    let xs := x.sshiftRight i
    let ys := y.sshiftRight i
    let t := w32 (cordTab.getD i 0)
    let pos := if vec then y.msb else !z.msb
    cordGo vec n (i + 1) (if pos then (x - ys, y + xs, z - t) else (x + ys, y - xs, z + t))

/-- CORD on p0, p1, p2. -/
def cordRun (q : Pleat) (p : Priv) : Priv × Word :=
  let n := if bitsOf q.imm 5 5 = 0 then 32 else bitsOf q.imm 5 5
  let (x, y, z) := cordGo (q.imm.testBit 10) n (bitsOf q.imm 0 5) (p.p0, p.p1, p.p2)
  ({ p with p0 := x, p1 := y, p2 := z }, match bitsOf q.imm 11 2 with | 0 => x | 1 => y | _ => z)

/-! Lookups, counters, positions -/

/-- The word address of LUT (R118). -/
def lutAddr (q : Pleat) (a : Word) : Nat :=
  (16 * bitsOf q.imm 9 7 + (a.toNat >>> bitsOf q.imm 0 5) % 2 ^ bitsOf q.imm 5 4) % 2048

/-- CNT's new count (R119); the flag says that it saturated. -/
def cntNext (q : Pleat) (p3 a : Word) : Word × Bool :=
  let (n, st) := narrow q.satM false 32 (p3.toInt + if q.xM then a.toInt else 1)
  (w32 n, st)

/-- The difference of PCMP (R120), by the Array's copy of the axis's CYCLIC and MOD. On slice 1 the 32-bit difference is reduced. -/
def State.pcmpDiff (s : State) (q : Pleat) (a : Word) : Word :=
  let m := s.yk.modc.getD q.posAx 0
  let x := s.posSlice q.posAx q.slice
  let pos := (s.peSample.axes.getD q.posAx BusAxis.idle).pos
  if q.satM ∧ m ≠ 0 ∧ q.slice = 0 ∧ m < 2 ^ 47 then w32 (trunc 32 (mdiff m (pos - a.toInt * 0x10000) / 0x10000))
  else if q.satM ∧ m ≠ 0 ∧ q.slice = 1 ∧ m < 2 ^ 32 then w32 (trunc 32 (mdiff m (x - a).toInt))
  else x - a

/-- PRED of PCMP: d ≥ 0, or d ≤ 0 with DN. -/
def pcmpPred (q : Pleat) (d : Word) : Bool := if q.xM then decide (d.toInt ≤ 0) else decide (0 ≤ d.toInt)

/-- The operations that are a function of their operands and flags (Table AR-8). -/
def alu (q : Pleat) (p : Priv) (a b : Word) : AluOut :=
  let fl := p.fl
  let sh := b.toNat % 32
  match q.op with
  | 0x01 => AluOut.zn fl a
  | 0x02 => aluSum false 32 q fl a b
  | 0x03 => aluSum true 32 q fl a b
  | 0x04 => AluOut.zn fl (a &&& b)
  | 0x05 => AluOut.zn fl (a ||| b)
  | 0x06 => AluOut.zn fl (a ^^^ b)
  | 0x07 => AluOut.zn fl (a &&& ~~~b)
  | 0x08 => AluOut.zn fl (a <<< sh)
  | 0x09 => AluOut.zn fl (a >>> sh)
  | 0x0A => AluOut.zn fl (a.sshiftRight sh)
  | 0x0B => AluOut.zn fl (a.rotateLeft sh)
  | 0x0C => aluSum false 16 q fl a b
  | 0x0D => aluSum true 16 q fl a b
  | 0x0E => aluSum false 8 q fl a b
  | 0x0F => aluSum true 8 q fl a b
  | 0x10 => AluOut.zn fl (aluAbsd4 a b)
  | 0x11 => aluCmp q fl a b
  | 0x12 => { r := if fl.pred then a else b, fl := fl }
  | 0x13 => AluOut.zn fl (aluPick false q a b)
  | 0x14 => AluOut.zn fl (aluPick true q a b)
  | 0x15 => aluAbs fl a
  | 0x16 => AluOut.zn fl (aluPopc q a)
  | 0x17 => AluOut.zn fl (w32 (clz 32 a.toNat))
  | 0x18 => AluOut.zn fl (aluBfx q a b)
  | 0x19 => AluOut.zn fl (aluBfi p.p0 a b)
  | 0x1A => { r := w32 (trunc 32 (laneMul q.uM 32 a b 0)), fl := fl }
  | _ => { r := w32 (trunc 32 (laneMul q.uM 32 a b 0 / 2 ^ 32)), fl := fl }

end Sys2Proof.Machine
end

