-- ==== Sys2Proof/Machine/Firewall.lean ====
section
/-! DEFINITION. The firewall (11_signatures_and_two_party_control.md, R343–R346). -/

namespace Sys2Proof.Machine

/-- What a word of the map reads with no policy record (R346): every SC_FW_REG entry grants partition 0 read and write; every
partner is in partition 0; no window is enabled. Keys are BAR0 offsets. -/
def fwDefault (a : Nat) : Word := if R.SC_FW_REG 0 ≤ a ∧ a < R.SC_FW_REG 24 then 0x0101 else 0

/-- A word of the live map. -/
def State.fwLive (s : State) (a : Nat) : Word := Tab.get fwDefault s.sc.live a

/-- The partition of a partner ID (R343). -/
def State.fwPart (s : State) (pid : Nat) : Nat := bitsOf (s.fwLive (R.SC_PID_PART (pid / 8))).toNat (3 * (pid % 8)) 3

/-- The read and write masks that judge an SMB access by its first byte (R344): the lowest enabled window that holds it, else
partition 0 alone. -/
def State.fwSmb (s : State) (a : Nat) : Nat × Nat :=
  match (List.range 16).find? (fun w =>
      F.SC_FW_SMB_ACC_EN.bit (s.fwLive (R.SC_FW_SMB_ACC w))
        && decide (F.SC_FW_SMB_BASE_UNIT.get (s.fwLive (R.SC_FW_SMB_BASE w)) ≤ a / 4096)
        && decide (a / 4096 ≤ F.SC_FW_SMB_LIMIT_UNIT.get (s.fwLive (R.SC_FW_SMB_LIMIT w)))) with
  | some w => let v := s.fwLive (R.SC_FW_SMB_ACC w); (F.SC_FW_SMB_ACC_RD.get v, F.SC_FW_SMB_ACC_WR.get v)
  | none => (1, 1)

/-- The masks that judge a flash access by its first byte. -/
def State.fwFlash (s : State) (a : Nat) : Nat × Nat :=
  match (List.range 16).find? (fun w =>
      F.SC_FW_FL_ACC_EN.bit (s.fwLive (R.SC_FW_FL_ACC w))
        && decide (F.SC_FW_FL_RANGE_FIRST.get (s.fwLive (R.SC_FW_FL_RANGE w)) ≤ a / 65536)
        && decide (a / 65536 ≤ F.SC_FW_FL_RANGE_LAST.get (s.fwLive (R.SC_FW_FL_RANGE w)))) with
  | some w => let v := s.fwLive (R.SC_FW_FL_ACC w); (F.SC_FW_FL_ACC_RD.get v, F.SC_FW_FL_ACC_WR.get v)
  | none => (1, 1)

/-- The masks of a register block. -/
def State.fwReg (s : State) (b : Nat) : Nat × Nat :=
  let v := s.fwLive (R.SC_FW_REG b)
  (F.SC_FW_REG_RD.get v, F.SC_FW_REG_WR.get v)

/-- A refusal noted (R344): KIND 0 SMB, 1 register, 2 flash. -/
def State.fwDeny (s : State) (pid kind addr : Nat) (write : Bool) : State :=
  let n := satN 0xFFFF (s.rf R.SC_FW_DENY F.SC_FW_DENY_COUNT + 1)
  ((s.setRg R.SC_FW_DENY (w32 (pid + 1024 * kind + 4096 * b2n write + 8192 * s.fwPart pid + 65536 * n))).setRg
    R.SC_FW_DENY_ADDR (w32 addr)).raiseF R.SC_EVT F.SC_EVT_FW_DENY

/-- A request judged (R344, R345): what it needs, read or write or both. Partner 0 is never checked. The flag says that it
passes. -/
def State.fwJudge (s : State) (pid kind addr : Nat) (rd wr : Bool) : State × Bool :=
  let (mr, mw) := if kind = 0 then s.fwSmb addr else if kind = 1 then s.fwReg (blockOf addr) else s.fwFlash addr
  let p := s.fwPart pid
  let free := pid == 0 || (kind == 1 && wr && !rd && decide (R.SC_TP_CMD ≤ addr) && decide (addr < 0x560400))
  if free || ((!rd || mr.testBit p) && (!wr || mw.testBit p)) then (s, true) else (s.fwDeny pid kind addr wr, false)

end Sys2Proof.Machine
end

