-- ==== Sys2Proof/Machine/StreamMemory.lean ====
section
/-! DEFINITION. Stream memory upkeep (07_stream_memory.md, R233–R244): write-backs, scrubs, poison, repairs, fills, the
block reset. -/

namespace Sys2Proof.Machine

/-- CORRECTION_WRITEBACK (R231): the oldest corrected codeword is written back. -/
def execCorrectionWriteback (s : State) : Host.Outcome State Fault Refusal :=
  match s.sm.wbq with
  | [] => .next s
  | a :: _ => .next (s.storeWord a (s.fixedAt a))

/-- SCRUB_POISON_WRITE (R243): the oldest word found uncorrectable by a scrubber is overwritten with the poison code. In
the Pleat store its Pleat becomes not valid and PL_EVT.PLEAT_ERR sets. -/
def execScrubPoisonWrite (s : State) : Host.Outcome State Fault Refusal :=
  match s.sm.poison with
  | [] => .next s
  | a :: _ =>
    let s1 := (s.storePoison a).raiseF R.SM_EVT F.SM_EVT_POISONED
    .next (if groupOf a = 4 then s1.raiseF R.PL_EVT F.PL_EVT_PLEAT_ERR else s1)

/-- What a scrubber does with one word (R240, R243): SOURCE 2 range, 3 background. The answer's flag is 0 good, 1 corrected,
2 uncorrectable or poison. -/
def State.scrubWord (s : State) (a source : Nat) : State × Nat :=
  let w := a / 8 * 8
  let syn := s.synAt w
  match s.classAt w with
  | .good => (s, 0)
  | .corrected b =>
    let s1 := s.logEcc w 1 source syn b
    ({ s1 with sm := { s1.sm with wbq := if s1.sm.wbq.contains w then s1.sm.wbq else s1.sm.wbq ++ [w] } }, 1)
  | .poison => (s.logEcc w 4 source syn 0, 2)
  | .uncorrectable =>
    let s1 := (s.logEcc w 3 source syn 0).report 2 (s.elemOf w)
    ({ s1 with sm := { s1.sm with poison := if s1.sm.poison.contains w then s1.sm.poison else s1.sm.poison ++ [w] } }, 2)

/-- A domain that is not ON during a range scrub: from then on the scrub skips its banks (R244). -/
def State.scrubLeave (s : State) (d : Nat) : State :=
  match s.sm.scrub with
  | some k => if k.left.contains d then s else { s with sm := { s.sm with scrub := some { k with left := k.left ++ [d] } } }
  | none => s

/-- The place of a range scrub's address (R240); none where the group has no word there, or its bank's row domain is not
ON or has not been ON all the time. -/
def State.scrubPlace (s : State) (k : Scrub) (a : Nat) : Option Nat :=
  match k.group with
  | 0 =>
    let d := 2 + a / 0x80000 / 12
    if a < 0x3000000 ∧ s.domOn d ∧ ¬ k.left.contains d then some (s.smbPlace a) else none
  | 1 => if a < 1600 * 0x2000 then some (memLM + a) else none
  | 2 => if a < 240 * 0x2000 ∧ a % 0x2000 < 4608 then some (memBRAM + a) else none
  | _ => none

/-- One word of a range scrub counted (R241). -/
def State.scrubCount (s : State) (k : Scrub) (a flag : Nat) : State × Scrub :=
  let s1 := s.bump R.SM_SCR_SUM_READ F.SM_SCR_SUM_READ_COUNT 1
  if flag = 0 then (s1, k)
  else
    let s2 := if flag = 1 then s1.bump R.SM_SCR_SUM_CE F.SM_SCR_SUM_CE_COUNT 1 else s1.bump R.SM_SCR_SUM_UE F.SM_SCR_SUM_UE_COUNT 1
    (s2, { k with bad := match k.bad with
      | none => some (a, a)
      | some (lo, hi) => some (min lo a, max hi a) })

/-- Up to n words of the range scrub. -/
def State.scrubGo : Nat → State → Scrub → State × Scrub
  | 0, s, k => (s, k)
  | n + 1, s, k =>
    if k.last < k.next then (s, k)
    else match s.scrubPlace k k.next with
      | none => State.scrubGo n s { k with next := k.next + 8 }
      | some p =>
        let (s1, f) := s.scrubWord p 2
        let (s2, k2) := s1.scrubCount k k.next f
        State.scrubGo n s2 { k2 with next := k.next + 8 }

/-- The end of a range scrub (R241). -/
def State.scrubEnd (s : State) (k : Scrub) : State :=
  let s0 : State := { s with sm := { s.sm with scrub := none } }
  let (lo, hi) := k.bad.getD (0, 0)
  let s1 := (s0.setRg64 R.SM_SCR_FIRST_LO R.SM_SCR_FIRST_HI lo).setRg64 R.SM_SCR_LAST_LO R.SM_SCR_LAST_HI hi
  (s1.setRg R.SM_SCR_STAT (w32 (2 * b2n k.bad.isNone + 4 * b2n k.stop))).raiseF R.SM_EVT F.SM_EVT_SCR_DONE

/-- SCRUB_GO (R240): a range scrub of groups 0 to 2 starts; while one runs, or for the reserved group, it is ignored. -/
def execScrubGo (s : State) : Host.Outcome State Fault Refusal :=
  let g := s.rf R.SM_SCR_CFG F.SM_SCR_CFG_GROUP
  .next (if s.sm.scrub.isSome ∨ g = 3 then s
    else
      let k : Scrub := { group := g, next := s.rg64 R.SM_SCR_START_LO R.SM_SCR_START_HI / 8 * 8,
                         last := s.rg64 R.SM_SCR_END_LO R.SM_SCR_END_HI, stop := false, bad := none, left := [] }
      let s1 := [R.SM_SCR_SUM_READ, R.SM_SCR_SUM_CE, R.SM_SCR_SUM_UE, R.SM_SCR_FIRST_LO, R.SM_SCR_FIRST_HI,
                 R.SM_SCR_LAST_LO, R.SM_SCR_LAST_HI].foldl (fun t a => t.setRg a 0) s
      { s1.setRg R.SM_SCR_STAT 1 with sm := { s.sm with scrub := some k } })

/-- SCRUB_ABORT (R240): the scrub stops after the current beat; the summary covers the words read so far. -/
def execScrubAbort (s : State) : Host.Outcome State Fault Refusal :=
  .next (match s.sm.scrub with
    | none => s
    | some k => s.scrubEnd { k with stop := true })

/-- SCRUB_BEAT (R240): one beat of four words; at the end of the range the summary. A beat waits for a fill or a repair copy of its
words (R244). -/
def execScrubBeat (s : State) : Host.Outcome State Fault Refusal :=
  match s.sm.scrub with
  | none => .next s
  | some k =>
    let held := match s.scrubPlace k k.next with
      | some p => s.filling p || (k.group == 0 && s.smbRangeHeld k.next 32)
      | none => false
    let (s1, k1) := State.scrubGo 4 s k
    .next (if held then s else if k1.last < k1.next then s1.scrubEnd k1 else { s1 with sm := { s1.sm with scrub := some k1 } })

/-- The background scrubber of group 3 + g. -/
def State.bgsOf (s : State) (g : Nat) : Bgs := if g = 0 then s.sm.bgs3 else s.sm.bgs4
def State.setBgs (s : State) (g : Nat) (b : Bgs) : State :=
  { s with sm := if g = 0 then { s.sm with bgs3 := b } else { s.sm with bgs4 := b } }

/-- BGS_WORD (R242): the background scrubber of group 3 + g reads its next word. -/
def execBgsWord (g : Fin 2) (s : State) : Host.Outcome State Fault Refusal :=
  let b := s.bgsOf g
  let size := if g.val = 0 then 0x80000 else 1600 * 512
  let base := if g.val = 0 then memCore else memPleat
  .next (if ¬ s.rb (R.SM_BGS_CFG (3 + g)) F.SM_BGS_CFG_EN ∨ b.done ∨ s.filling (base + b.next) then s
    else
      let (s1, _) := s.scrubWord (base + b.next) 3
      let n := b.next + 8
      s1.setBgs g (if size ≤ n then { b with next := 0, done := true } else { b with next := n }))

/-- BGS_LATE (R242): the end of a period of PERIOD ms: a pass not finished is late and continues; a finished one is
followed by the next. -/
def execBgsLate (g : Fin 2) (s : State) : Host.Outcome State Fault Refusal :=
  let b := s.bgsOf g
  let ms := s.rf (R.SM_BGS_CFG (3 + g)) F.SM_BGS_CFG_PERIOD
  .next (if ¬ s.rb (R.SM_BGS_CFG (3 + g)) F.SM_BGS_CFG_EN ∨ s.now < b.start + 500000 * ms then s
    else if b.done then s.setBgs g { b with done := false, start := s.now }
    else (s.setBgs g { b with start := s.now }).raiseF R.SM_EVT F.SM_EVT_BGS_LATE)

/-! Repair -/

/-- Repairs of a bank of one kind. -/
def State.repairsOf (s : State) (bank : Nat) (k : RepairKind) : List Repair :=
  s.sm.repairs.filter (fun r => r.bank == bank && decide (r.kind = k))

/-- A spare row of a bank that nothing uses. -/
def State.freeSpare (s : State) (bank : Nat) : Option Nat :=
  let used := (s.sm.repairs.filter (fun r => r.bank == bank)).map (fun r => r.spare)
  (List.range 8).find? (fun i => !used.contains i)

/-- SM_SPARE_STAT and SM_SOFT_MAP of a bank as its repairs stand. -/
def State.spareView (s : State) (bank : Nat) : State :=
  let fac := (s.repairsOf bank .factory).length
  let soft := s.repairsOf bank .soft
  let temp := (s.repairsOf bank .temp).length
  let s1 := s.setRg (R.SM_SPARE_STAT bank)
    (w32 (fac + 16 * soft.length + 64 * temp + 256 * (8 - (fac + soft.length + temp))))
  s1.each [0, 1] (fun k t => t.setRg (R.SM_SOFT_MAP bank k)
    (match soft[k]? with | some r => w32 (r.row + 0x1000) | none => 0))

/-- The spare rows that the factory fuse map assigns (R238): the rows of each bank that failed, at most 8. -/
def State.factorySpares (s : State) : State :=
  let of := fun (b : Nat) => ((Config.fuseRows b).map (fun r => r % 4096)).eraseDups.take 8
  let new := (List.range 96).flatMap (fun b =>
    ((of b).zip (List.range 8)).map (fun e => ({ bank := b, row := e.1, spare := e.2, kind := .factory } : Repair)))
  let s1 : State := { s with sm := { s.sm with repairs := s.sm.repairs.filter (fun r => !decide (r.kind = .factory)) ++ new } }
  s1.each (List.range 96) (fun b t => t.spareView b)

/-- A repair command refused with a status (R239). -/
def State.repairRefuse (s : State) (st : Nat) : State :=
  (s.setRf R.SM_REPAIR_STAT F.SM_REPAIR_STAT_STATUS st).raiseF R.SM_EVT F.SM_EVT_REPAIR_FAIL

/-- A repair copy started. -/
def State.repairStart (s : State) (r : RepairRun) : State :=
  { s.setRg R.SM_REPAIR_STAT 1 with sm := { s.sm with run := some r } }

/-- The TEMP repair of a row. -/
def State.tempOf (s : State) (bank row : Nat) : Option Repair :=
  s.sm.repairs.find? (fun r => r.bank == bank && r.row == row && decide (r.kind = .temp))

/-- A row under TEMP becomes SOFT, with no copy (R239). -/
def State.tempSoft (s : State) (r : Repair) : State :=
  let s1 : State := { s with sm := { s.sm with repairs := s.sm.repairs.map (fun q => if q = r then { q with kind := .soft } else q) } }
  ((s1.setRg R.SM_REPAIR_STAT 0).spareView r.bank).raiseF R.SM_EVT F.SM_EVT_REPAIR_DONE

/-- SOFT (R239): a row mapped to a spare row until Cold reset. -/
def execRepairSoft (bank : Fin 96) (row : Fin 4096) (s : State) : Host.Outcome State Fault Refusal :=
  let temp := s.tempOf bank row
  .next (if temp.isNone ∧ (s.freeSpare bank).isNone then s.repairRefuse 1
    else if 2 ≤ (s.repairsOf bank .soft).length then s.repairRefuse 2
    else if s.sm.run.isSome then s.repairRefuse 5
    else match temp, s.freeSpare bank with
      | some r, _ => s.tempSoft r
      | none, some i => s.repairStart { bank := bank, row := row, spare := i, kind := .soft, back := false }
      | none, none => s)

/-- TEMP (R239): a row mapped to a spare row while its own is tested. -/
def execRepairTemp (bank : Fin 96) (row : Fin 4096) (s : State) : Host.Outcome State Fault Refusal :=
  .next (match s.freeSpare bank with
    | none => s.repairRefuse 1
    | some i =>
      if 1 ≤ (s.repairsOf bank .temp).length then s.repairRefuse 3
      else if s.sm.run.isSome then s.repairRefuse 5
      else s.repairStart { bank := bank, row := row, spare := i, kind := .temp, back := false })

/-- REPAIR_RELEASE (R239): a TEMP repair ends: its spare row is copied back. -/
def execRepairRelease (bank : Fin 96) (row : Fin 4096) (s : State) : Host.Outcome State Fault Refusal :=
  .next (match s.tempOf bank row with
    | none => s.repairRefuse 4
    | some r =>
      if s.sm.run.isSome then s.repairRefuse 5
      else s.repairStart { bank := bank, row := row, spare := r.spare, kind := .temp, back := true })

/-- One row copied through the decoder (R239): corrected as it moves, uncorrectable words as poison. The flag says that
poison was written. -/
def State.copyRow (s : State) (src dst : Nat) : State × Bool :=
  (List.range 16).foldl (fun (q : State × Bool) w =>
    let t := q.1
    let a := src + 8 * w
    let d := dst + 8 * w
    let syn := t.synAt a
    match t.classAt a with
    | .good => (t.storeWord d (t.rawAt a), q.2)
    | .corrected b => ((t.logEcc a 1 4 syn b).storeWord d (t.fixedAt a), q.2)
    | .poison => ((t.logEcc a 4 4 syn 0).storePoison d, true)
    | .uncorrectable => ((t.logEcc a 2 4 syn 0).storePoison d, true)) (s, false)

/-- The place that serves a row without its TEMP repair (R239). -/
def State.ownPlace (s : State) (bank row : Nat) : Nat :=
  ({ s with sm := { s.sm with repairs := s.sm.repairs.filter (fun q => !(q.bank == bank && q.row == row && decide (q.kind = .temp))) } }
    : State).smbPlace (0x80000 * bank + 128 * row)

/-- A running repair copy completed (R239); a poison write raises SM_EVT.POISONED (R236). -/
def State.repairDone (s : State) : State :=
  match s.sm.run with
  | none => s
  | some r =>
    let sp := memSpare + 1024 * r.bank + 128 * r.spare
    let now := s.smbPlace (0x80000 * r.bank + 128 * r.row)
    let (s1, p) := if r.back then s.copyRow sp (s.ownPlace r.bank r.row) else s.copyRow now sp
    let reps := if r.back then s1.sm.repairs.filter (fun q => !(q.bank == r.bank && q.row == r.row && decide (q.kind = .temp)))
      else s1.sm.repairs ++ [{ bank := r.bank, row := r.row, spare := r.spare, kind := r.kind }]
    let s2 : State := { s1 with sm := { s1.sm with repairs := reps, run := none } }
    let s3 := if p then s2.raiseF R.SM_EVT F.SM_EVT_POISONED else s2
    ((s3.setRg R.SM_REPAIR_STAT (w32 (16 * b2n p))).spareView r.bank).raiseF R.SM_EVT F.SM_EVT_REPAIR_DONE

/-- REPAIR_COPY_DONE (R239). -/
def execRepairCopyDone (s : State) : Host.Outcome State Fault Refusal := .next s.repairDone

/-! Fills and reset -/

/-- A fill put under way. -/
def State.startFill (s : State) (f : Fill) : State := { s with sm := { s.sm with fills := s.sm.fills ++ [f] } }

/-- The ranges that belong to a tile row: its banks and spares, and its PEs' local memories (R234). -/
def rowRanges (y : Nat) : List (Nat × Nat) :=
  (List.range 12).flatMap (fun x => [(memSMB + 0x80000 * (12 * y + x), memSMB + 0x80000 * (12 * y + x + 1)),
      (memSpare + 1024 * (12 * y + x), memSpare + 1024 * (12 * y + x + 1))])
    ++ (List.range 50).map (fun c => (memLM + 0x2000 * (32 * c + 4 * y), memLM + 0x2000 * (32 * c + 4 * y + 4)))

/-- Every protected memory (R233). -/
def allRanges : List (Nat × Nat) := [(memSMB, memFlash), (memSpare, memSpare + 1024 * 96)]

/-- The oldest fill completes (R233, R234): its ranges hold zero data. A row domain that waited for it is ON, and its command is complete. -/
def State.fillDone (s : State) : State :=
  match s.sm.fills with
  | [] => s
  | f :: r =>
    let s1 := f.ranges.foldl (fun t q => t.clearMem q.1 q.2) { s with sm := { s.sm with fills := r } }
    match f.dom with
    | some d =>
      (({ s1 with rs := { s1.rs with dom := none } } : State).setRf (R.PW_DOM_STAT d) F.PW_DOM_STAT_STATE 2).raiseF R.PW_EVT F.PW_EVT_DOM_DONE
    | none => s1

/-- MEMORY_FILL_DONE (R233, R234). -/
def execMemoryFillDone (s : State) : Host.Outcome State Fault Refusal := .next s.fillDone

/-- A reader of many banks has waited (Table SM-4): the repair copy and the fills under way have ended. -/
def State.smbSettle (s : State) : State :=
  if s.smbBusy then s.sm.fills.foldl (fun t _ => t.fillDone) s.repairDone else s

/-! Requests at a bank port -/

/-- A request answered with a status that carries no result. -/
def State.answer (s : State) (p : Packet) (status : Nat) : State := s.answerErr p.dst (4 + p.dstPort.toNat) p status

/-- Is a node one of the tile nodes (R195)? -/
def tileNode (n : Nat) : Bool := decide (12 ≤ n) && decide (n < 108)

/-- The places of a range of 64-bit words of SMB; none where the range does not lie within the one bank that the node serves (R201). -/
def State.smbRange (s : State) (p : Packet) (bytes : Nat) : Option (Nat → Nat) :=
  let a := p.addr.toNat
  if a + bytes ≤ 0x3000000 ∧ smbNode a = p.dst ∧ a / 0x80000 = (a + bytes - 1) / 0x80000 then some (fun k => s.smbPlace (a + 8 * k))
  else none

/-- The words of a write: place, data, byte enables; the first unit by BE, later units whole (R201). -/
def writeList (p : Packet) (place : Nat → Nat) : List (Nat × Nat × Nat) :=
  (List.range (4 * p.data.length)).map (fun k =>
    (place k, bitsOf (p.data.getD (k / 4) 0).toNat (64 * (k % 4)) 64, if k < 4 then bitsOf p.be.toNat (8 * k) 8 else 255))

/-- Alignment and size of a memory request (Table NW-4): units of 32 B, at most 16; an ATOM_ADD on a word. -/
def memShape (p : Packet) : Bool :=
  if p.cmd.toNat = 3 then p.addr.toNat % 8 == 0 && p.data.length == 1
  else p.addr.toNat % 32 == 0 && decide (p.len.toNat ≤ 16) && (p.cmd.toNat == 1 || p.data.length == p.len.toNat)

/-- The bytes that a memory request covers. -/
def memBytes (p : Packet) : Nat := if p.cmd.toNat = 3 then 8 else 32 * max 1 p.len.toNat

/-- How a request at port B of a bank is judged: 0, or the status that answers it. The firewall judges it by its first byte (R344). -/
def State.smbJudge (s : State) (p : Packet) : State × Nat :=
  let c := p.cmd.toNat
  let (s1, ok) := s.fwJudge p.partner.toNat 0 p.addr.toNat (c != 2) (c != 1)
  (s1, if ¬ ok then 7 else if ¬ memShape p ∨ (s1.smbRange p (memBytes p)).isNone then 6 else 0)

/-- A request at a bank port that the SM block reset meets (R235): it is answered LINK_ERR. Of a write, a prefix of its beats, which the
spec leaves open, has been written; an ATOM_ADD is a write of one beat. -/
def State.smbCut (s : State) (p : Packet) : State :=
  let s0 := s.unboxed p
  if ¬ p.parOk then (s0.hdrPar p).answer p 9
  else
    let (s1, st) := s0.smbJudge p
    if st ≠ 0 then s1.answer p st
    else
      let n := Config.beatsDone s1.freeCtr % (p.data.length + 1)
      let place := (s1.smbRange p (memBytes p)).getD (fun _ => 0)
      let s2 :=
        if p.bad then s1
        else if p.cmd.toNat = 2 then ((s1.tick.writeWords 1 ((writeList p place).take (4 * n))).1)
        else if p.cmd.toNat = 3 ∧ n = 1 then
          let (t, old, e) := s1.tick.readWord (place 0) 1
          if e = 0 then (t.writeWords 1 [(place 0, (old + (p.data.headD 0).toNat) % 2 ^ 64, 255)]).1 else t
        else s1.tick
      s2.answer p 9

/-- SM_BLK_RST (R235, Table SM-4): a running repair copy completes first, requests at a bank port are answered LINK_ERR, a range scrub is aborted with its summary
cleared, every SM field marked Block returns to reset; FILL_ON_RST fills the banks. -/
def State.smBlkRst (s : State) : State :=
  let s0 := s.repairDone
  let here := s0.net.inbox.filter (fun p => tileNode p.dst && p.dstPort == 0 && !isResponse p.cmd.toNat)
  let s1 := here.foldl (fun t p => t.smbCut p) s0
  let s2 : State := { s1 with sm := { s1.sm with scrub := none, wbq := [], poison := [] } }
  let s3 := s2.clearRegs .block 0x380000 0x400000
  if s.rb R.SM_CTRL F.SM_CTRL_FILL_ON_RST then
    s3.startFill { ranges := [(memSMB, memSMB + 0x3000000), (memSpare, memSpare + 1024 * 96)], dom := none }
  else s3

/-- SM_BLK_RST. -/
def execSmBlkRst (s : State) : Host.Outcome State Fault Refusal :=
  .next (s.blkRst 9 s.smBlkRst)

end Sys2Proof.Machine
end

