-- ==== Sys2Proof/Machine/Queues.lean ====
section
/-! DEFINITION. The queues (05_stream_ports_and_queues.md, R165–R179): push, pop, threshold, flush, configuration. What
feeds and drains them is in Ports.lean. -/

namespace Sys2Proof.Machine

/-- Capacity in entries (Table SQ-1). -/
def State.qCap (s : State) (q : Nat) : Nat :=
  if q < 1024 then 2 ^ s.rf (R.SQ_Q_CFG q) F.SQ_Q_CFG_SIZE / 8 else if q < 1152 then 64 else if q < 1160 then 512 else 16

/-- An SMB-resident queue works only while enabled; the others always. -/
def State.qOn (s : State) (q : Nat) : Bool := if q < 1024 then s.rb (R.SQ_Q_CFG q) F.SQ_Q_CFG_EN else true

/-- The threshold level of a queue; tile port lanes have none (R165, R170). -/
def State.qLevel (s : State) (q : Nat) : Nat :=
  if q < 1024 then s.rf (R.SQ_Q_THR q) F.SQ_Q_THR_LEVEL
  else if q < 1160 then s.rf (R.SQ_PQ_THR (q - 1024)) F.SQ_PQ_THR_LEVEL else 0

/-- The tile that an inbound port queue feeds (R124, R125). -/
def portTile (q : Nat) : Nat :=
  if q < 1056 then 12 * ((q - 1024) / 4) else if q < 1088 then 12 * ((q - 1056) / 4) + 11 else (q - 1160) / 4

/-- Does a queue keep a replay window (R423): the inbound ports of Single groups, and of Paired ones that take
checkpoints, which R430 restores in the same way? -/
def State.keeps (s : State) (q : Nat) : Bool :=
  let t := portTile q
  ((decide (1024 ≤ q) && decide (q < 1088)) || decide (1160 ≤ q)) &&
    (s.tileMode t == 1 || (s.tileMode t == 2 && (match s.tileGroup t with
      | some g => s.rb (R.FT_GRP_STAT g) F.FT_GRP_STAT_CKPT_V || s.rb (R.FT_GRP_STAT g) F.FT_GRP_STAT_BUSY
      | none => false)))

/-- Is a token a checkpoint's FOLD token (R420)? -/
def Token.ckpt (t : Token) : Bool := t.fold && bitsOf t.data.toNat 4 4 == 5

/-- A token that has entered, put into the replay window (R423); a checkpoint token marks its place there. -/
def Queue.keep (k : Queue) (on : Bool) (t : Token) : Queue :=
  if ¬ on then k else if t.ckpt then { k with keptOld := k.kept.length } else { k with kept := k.kept ++ [t] }

/-- FOLD tokens that wait at an item boundary enter while there is room (R147). -/
def Queue.settle (k : Queue) (cap : Nat) (on : Bool) : Queue :=
  if k.prodMid then k
  else
    let n := cap - k.ents.length
    (k.pend.take n).foldl (fun j t => j.keep on t) { k with ents := k.ents ++ k.pend.take n, pend := k.pend.drop n }

/-- Places that entries retained for a replay take in an SMB-resident queue (R423). -/
def State.qHeld (s : State) (q : Nat) : Nat :=
  let b := s.rg (R.SQ_Q_BIND q)
  if q < 1024 ∧ F.SQ_Q_BIND_CONS_KIND.get b = 2 then (s.qu (1160 + F.SQ_Q_BIND_CONS_ID.get b)).kept.length else 0

/-- ITEM_MAX of a queue; 0 = 2^20 (R169). -/
def State.itemMax (s : State) (q : Nat) : Nat :=
  let m := s.rf (R.SQ_Q_LIMIT q) F.SQ_Q_LIMIT_ITEM_MAX
  if m = 0 then 2 ^ 20 else m

/-- Does a fill or a repair copy hold back the place in the ring buffer where a queue's next entry goes (Table SM-4)? -/
def State.qHeldBack (s : State) (q : Nat) : Bool := decide (q < 1024) && s.smbHeld (s.qStart q + (s.qu q).wptr)

/-- Does a queue take one more word from its producer (R167, R169)? A swallowing queue takes it; a FOLD token that waits
goes first (R147); an item begins only below ITEM_MAX. -/
def State.qTakes (s : State) (q : Nat) : Bool :=
  let k := s.qu q
  s.qOn q && (k.swallow || (decide (k.ents.length + s.qHeld q < s.qCap q) && (k.prodMid || k.pend.isEmpty) && !s.qHeldBack q
    && (k.prodMid || !decide (q < 1024) || decide (k.items < s.itemMax q))))

/-- Room for n words of one item. -/
def State.qRoom (s : State) (q n : Nat) : Bool :=
  let k := s.qu q
  s.qTakes q && (k.swallow || decide (k.ents.length + s.qHeld q + n ≤ s.qCap q))

/-- A threshold crossing from below (R170). -/
def State.qThr (s : State) (q before after : Nat) : State :=
  let l := s.qLevel q
  if l ≠ 0 ∧ before < l ∧ l ≤ after then s.raiseThr q else s

/-- A data token came again at a port that waits for its replay window (R423, R431): the FOLD tokens recorded behind it follow. -/
def Queue.again (k : Queue) (fold : Bool) : Queue :=
  match k.replay with
  | [] => k
  | _ :: r => if fold then k else { k with replay := r.dropWhile (fun t => t.fold), pend := k.pend ++ r.takeWhile (fun t => t.fold) }

/-- Queue q as it stands after FOLD tokens that wait have entered (R147), its threshold judged against the depth before (R170). -/
def State.settleQ (s : State) (q : Nat) (k : Queue) (before : Nat) : State :=
  let k1 := k.settle (s.qCap q) (s.keeps q)
  (s.setQu q k1).qThr q before k1.ents.length

/-- Does the consumer take the entries of a queue through port A: an inbound lane of the engine's own tile (R224)? -/
def State.qPortA (s : State) (q : Nat) (prod : Bool) : Bool :=
  let b := s.rg (R.SQ_Q_BIND q)
  if prod then F.SQ_Q_BIND_PROD_KIND.get b == 2 && F.SQ_Q_BIND_PROD_ID.get b / 4 + 12 == s.engineNode q
  else F.SQ_Q_BIND_CONS_KIND.get b == 2 && F.SQ_Q_BIND_CONS_ID.get b / 4 + 12 == s.engineNode q

/-- An entry written into its slot (R175, R176, R224, R227, R237): in the engine's own bank at a port, where one that port A of the bank
writes over in the same NCLK is `lost`; in another bank by a WR request. -/
def State.writeSlot (s : State) (q ptr : Nat) (t : Token) (lost : Bool) : State :=
  let off := s.qStart q + ptr
  if off / 0x80000 = s.qBank q then
    if lost ∧ ¬ s.qPortA q true then s.writeLost
    else (s.storeWord (s.smbPlace off) t.entry).flip (s.smbPlace off)
  else s.request { mkRequest (s.engineNode q) 2 (smbNode off) 0 0 2 (off / 32 * 32) 0 0 [BitVec.ofNat 256 (t.entry * 2 ^ (8 * (off % 32)))] with
                   be := BitVec.ofNat 32 (0xFF * 2 ^ (off % 32)) }

/-- The entry at index 15 comes into the engine's buffer of the oldest 16 (R176): unless it is one of the newest 16 it is read from the
ring buffer. -/
def State.readSlot (s : State) (q : Nat) : State :=
  let k := s.qu q
  if q < 1024 ∧ 32 ≤ k.ents.length then
    let ptr := k.slot (s.qBytes q) 15
    let off := s.qStart q + ptr
    match k.ents[15]? with
    | none => s
    | some t =>
      if t.fold then s
      else if off / 0x80000 = s.qBank q then
        let (s1, d, st) := s.readWord (s.smbPlace off) (if s.qPortA q false then 0 else 1)
        s1.putEntry q 15 d st
      else
        (s.setQu q { k with away := k.away ++ [(ptr, s.net.nextKey)] }).request
          { mkRequest (s.engineNode q) 2 (smbNode off) 0 0 1 (off / 32 * 32) 0 0 [] with len := 1 }
  else s

/-- A word pushed by the producer of a queue that takes it (R166, R170, R171, R175). -/
def State.qPushL (s : State) (q : Nat) (t : Token) (lost : Bool) : State :=
  let k := s.qu q
  let before := k.ents.length
  if k.swallow ∧ ¬ t.fold then
    if t.last then s.settleQ q { k with swallow := false, flushing := false, prodMid := false, lastAt := s.now } before
    else s.setQu q { k with lastAt := s.now }
  else
    let k1 : Queue := { k with ents := k.ents ++ [t], items := if t.fold ∨ (k.prodMid ∧ k.items ≠ 0) then k.items else k.items + 1,
                               prodMid := if t.fold then k.prodMid else !t.last, lastAt := s.now }
    let k2 := (k1.again t.fold).keep (s.keeps q) t
    if q < 1024 then
      ((s.settleQ q { k2 with wptr := (k.wptr + 8) % s.qBytes q } before)).writeSlot q k.wptr t lost
    else s.settleQ q k2 before

/-- The same, where nothing collides with the write. -/
def State.qPush (s : State) (q : Nat) (t : Token) : State := s.qPushL q t false

/-- Is a queue's consumer held back by CREDIT (R179)? -/
def State.qShut (s : State) (q : Nat) : Bool :=
  decide (q < 1024) && s.rb (R.SQ_Q_CFG q) F.SQ_Q_CFG_GATED && !(s.qu q).consMid && s.rf (R.SQ_Q_KICK q) F.SQ_Q_KICK_CREDIT == 0

/-- Must the next pop read the ring buffer at a place that a fill or a repair copy holds back (Table SM-4), or does it wait for an entry
from another bank (R176)? -/
def State.qWaits (s : State) (q : Nat) : Bool :=
  let k := s.qu q
  decide (q < 1024) && ((decide (33 ≤ k.ents.length) && s.smbHeld (s.qStart q + k.slot (s.qBytes q) 16))
    || k.away.any (fun a => a.1 == k.slot (s.qBytes q) 0))

/-- The word that the consumer of a queue may take next (R171, R173, R179). -/
def State.qHead (s : State) (q : Nat) : Option Token :=
  let k := s.qu q
  if k.marker then some (Token.marker k.lastTag)
  else if k.flushing ∨ ¬ s.qOn q then none
  else match k.held with
    | t :: _ => some t
    | [] => match k.ents with
      | [] => none
      | t :: _ => if s.qShut q ∨ s.qWaits q then none else some t

/-- CREDIT after a LAST word was taken (R179). -/
def State.creditOff (s : State) (q : Nat) (done : Bool) : State :=
  if done ∧ q < 1024 ∧ s.rb (R.SQ_Q_CFG q) F.SQ_Q_CFG_GATED then
    s.setRf (R.SQ_Q_KICK q) F.SQ_Q_KICK_CREDIT (s.rf (R.SQ_Q_KICK q) F.SQ_Q_KICK_CREDIT - 1)
  else s

/-- That word taken: depth, items, credit, the consumer's place in its item (R169, R179). -/
def State.qDrop (s : State) (q : Nat) : State :=
  let k := s.qu q
  if k.marker then s.setQu q { k with marker := false }
  else match k.held with
    | _ :: r => s.setQu q { k with held := r }
    | [] => match k.ents with
      | [] => s
      | t :: r =>
        let done := t.last && !t.fold
        let k1 : Queue := { k with ents := r, items := if done then k.items - 1 else k.items,
                                   consMid := if t.fold then k.consMid else !t.last, lastTag := t.tag }
        ((s.settleQ q k1 k.ents.length).readSlot q).creditOff q done

/-! A word that passes straight through (R168) -/

/-- Does a queue bypass (Table SQ-1)? -/
def State.qBypass (s : State) (q : Nat) : Bool := if q < 1024 then s.rb (R.SQ_Q_CFG q) F.SQ_Q_CFG_BYPASS else true

/-- The consumer finds the queue empty and waits for the rest of the cycle (R168). -/
def State.qAwait (s : State) (q : Nat) : State :=
  let k := s.qu q
  if s.qBypass q ∧ s.qOn q ∧ ¬ k.flushing ∧ ¬ k.marker ∧ k.ents.isEmpty ∧ k.held.isEmpty then s.setQu q { k with popAt := some s.now }
  else s

/-- Does a word pushed now pass straight through: the depth is 0 and the consumer has found the queue empty in this cycle? -/
def State.qStraight (s : State) (q : Nat) (t : Token) : Bool :=
  let k := s.qu q
  s.qBypass q && s.qOn q && k.popAt == some s.now && k.ents.isEmpty && k.held.isEmpty && !k.swallow && !k.flushing && !k.marker
    && !t.fold && !s.qShut q && (k.prodMid || k.pend.isEmpty)

/-- What a word that passes straight through leaves in its queue: it is counted nowhere (R168); producer and consumer go on in the item. -/
def State.qSkip (s : State) (q : Nat) (t : Token) : State :=
  let k := s.qu q
  let k1 : Queue := { k with popAt := none, lastAt := s.now, prodMid := !t.last, consMid := !t.last, lastTag := t.tag,
                             items := if t.last then 0 else k.items }
  (s.settleQ q ((k1.again false).keep (s.keeps q) t) 0).creditOff q t.last

/-! Streams of descriptors -/

/-- The enabled SMB-resident queues. -/
def State.enabledQs (s : State) : List Nat :=
  (s.regs.map (fun e => e.1)).filterMap (fun a =>
    if R.SQ_Q_CFG 0 ≤ a ∧ a < R.SQ_Q_CFG 1024 ∧ (a - R.SQ_Q_CFG 0) % 64 = 0 ∧ F.SQ_Q_CFG_EN.bit (s.rg a) then
      some ((a - R.SQ_Q_CFG 0) / 64)
    else none)

/-- The tile of the group that a queue feeds (`out` false) or that feeds it, by a tile port lane (Table SQ-6). -/
def State.streamTile (s : State) (q : Nat) (out : Bool) : Option Nat :=
  let b := s.rg (R.SQ_Q_BIND q)
  if out then if F.SQ_Q_BIND_PROD_KIND.get b = 2 then some (F.SQ_Q_BIND_PROD_ID.get b / 4) else none
  else if F.SQ_Q_BIND_CONS_KIND.get b = 2 then some (F.SQ_Q_BIND_CONS_ID.get b / 4) else none

/-- The exits of a group that its streams leave by: lanes bound to a queue, and any exit that has counted (R424). -/
def State.groupExits (s : State) (g : Nat) : List Nat :=
  let ours := fun (t : Nat) => decide (s.tileGroup t = some g)
  ((List.range 448).filter (fun e => ours (if e < 64 then portTile (1024 + e) else (e - 64) / 4))).filter (fun e =>
    (s.exit e).cnt != 0 || (decide (64 ≤ e) && s.enabledQs.any (fun q =>
      F.SQ_Q_BIND_PROD_KIND.get (s.rg (R.SQ_Q_BIND q)) == 2 && F.SQ_Q_BIND_PROD_ID.get (s.rg (R.SQ_Q_BIND q)) == e - 64)))

/-- The exits of the group that a queue's stream passes through: for STREAM_OUT its own lane, for STREAM_IN all of the group. -/
def State.streamExits (s : State) (q : Nat) (out : Bool) : List Nat :=
  if out then match s.streamTile q true with
    | some _ => [64 + F.SQ_Q_BIND_PROD_ID.get (s.rg (R.SQ_Q_BIND q))]
    | none => []
  else match s.streamTile q false with
    | some t => (match s.tileGroup t with | some g => s.groupExits g | none => [])
    | none => []

/-- OSEQ of a descriptor of a stream (R364, R424): the count of the exit that serves it; 0 where no exit does. Of several exits
which one is left open. -/
def State.streamOseq (s : State) (q : Nat) (out : Bool) : Nat :=
  match s.streamExits q out with
  | [] => 0
  | e :: r => (s.exit ((e :: r).getD (Config.streamExit s.freeCtr % (r.length + 1)) e)).cnt

/-- CKPT of a descriptor of a stream that has done `units` (R364): STREAM_IN's input covered by the last committed checkpoint,
which is what is no more in the queue nor in the replay window of its lane, and nothing without checkpoints; else UNITS. -/
def State.streamCkpt (s : State) (q units : Nat) (out : Bool) : Nat :=
  if out then units
  else match s.streamTile q false with
    | none => 0
    | some t => if s.tileMode t = 1 then units - ((s.qu q).ents.length + s.qHeld q) else 0

/-- The streams under way on an SMB-resident queue: queue pair and descriptor. -/
def State.streamsOn (s : State) (q : Nat) : List (Nat × Desc) :=
  s.hi.qps.flatMap (fun e => (e.2.infl.filter (fun d => d.started && (d.op == 1 || d.op == 2) && d.fld 5 0 10 == q)).map (fun d => (e.1, d)))

/-- Every stream on a queue ends PARTIAL with a code (R171, R434). -/
def State.endStreams (s : State) (q code : Nat) : State :=
  (s.streamsOn q).foldl (fun t (e : Nat × Desc) =>
    let out := e.2.op == 2
    (t.descEnd e.1 e.2.dseq 1 code e.2.units (s.streamCkpt q e.2.units out) (s.streamOseq q out)).tick) s

/-! Flush -/

/-- A flush started (R171, R173, Table SQ-3). -/
def State.flushQ (s : State) (q : Nat) : State :=
  let k := s.qu q
  if k.flushing then s
  else
    let k1 : Queue := { k with ents := [], held := k.held ++ k.ents.filter (fun t => t.fold), items := 0, away := [],
                               marker := k.marker || k.consMid, consMid := false, flushing := k.prodMid, swallow := k.swallow || k.prodMid,
                               forced := false, popAt := none }
    let s1 := (s.endStreams q 12).setQu q k1
    if q < 1024 then s1.setRf (R.SQ_Q_KICK q) F.SQ_Q_KICK_CREDIT 0 else s1

/-- FLUSH (R171): SQ_Q_CMD.FLUSH or SQ_PQ_CMD.FLUSH. -/
def execSqFlush (q : Fin 1160) (s : State) : Host.Outcome State Fault Refusal := .next (s.flushQ q)

/-- The home-clock cycles of SQ_FLUSH_TMO in YCLK (Table SQ-1): NCLK for SMB-resident queues and sensor ports, ACLK toward the Array, the
user clock of the port toward the fabric. -/
def State.flushWait (s : State) (q : Nat) : Nat :=
  let n := (s.rg R.SQ_FLUSH_TMO).toNat
  if 1024 ≤ q ∧ q < 1088 then n * 10 / s.rf R.CK_ACLK F.CK_ACLK_N 
  else if 1088 ≤ q ∧ q < 1152 then n + Config.userYclk q n else n / 2

/-- FLUSH_FORCED (R172): a swallowing flush with no push for SQ_FLUSH_TMO cycles, counted from the last push as in the worked example,
completes at once. -/
def execFlushForced (q : Fin 1160) (s : State) : Host.Outcome State Fault Refusal :=
  let k := s.qu q
  .next (if k.flushing ∧ (s.rg R.SQ_FLUSH_TMO).toNat ≠ 0 ∧ k.lastAt + s.flushWait q ≤ s.now then
    (s.setQu q { k with flushing := false, forced := true }).raiseF R.SQ_EVT F.SQ_EVT_FLUSH_FORCED else s)

/-- A queue emptied by a reset (R193); configuration and buffer memory stay. -/
def State.emptyQ (s : State) (q : Nat) : State :=
  let s1 := s.setQu q Queue.empty
  let s2 := if q < 1024 then s1.setRf (R.SQ_Q_KICK q) F.SQ_Q_KICK_CREDIT 0 else s1
  if q < 1160 then s2.setRg (R.SQ_THR_PEND (q / 32)) (w32 (clrBit (s2.rg (R.SQ_THR_PEND (q / 32))).toNat (q % 32))) else s2

/-- Every queue of a range that holds anything, emptied, and its threshold bits cleared. -/
def State.emptyQs (s : State) (lo hi : Nat) : State :=
  let s1 := { s with qs := s.qs.filter (fun e => !(decide (lo ≤ e.1) && decide (e.1 < hi))) }
  let s2 := (s1.regs.map (fun e => e.1)).foldl (fun t a =>
    if R.SQ_Q_KICK 0 ≤ a ∧ a < R.SQ_Q_KICK 1024 ∧ a % 64 = R.SQ_Q_KICK 0 % 64 ∧ lo ≤ (a - R.SQ_Q_KICK 0) / 64 ∧ (a - R.SQ_Q_KICK 0) / 64 < hi then
      t.setRf a F.SQ_Q_KICK_CREDIT 0
    else t) s1
  (List.range 37).foldl (fun t g =>
    let m := (List.range 32).foldl (fun acc i => if lo ≤ 32 * g + i ∧ 32 * g + i < hi then acc + (1 <<< i) else acc) 0
    if m = 0 then t else t.setRg (R.SQ_THR_PEND g) (w32 (andNot (t.rg (R.SQ_THR_PEND g)).toNat m))) s2

/-! Configuration -/

/-- A refused queue or sensor port write (R178). -/
def State.sqRefuse (s : State) (q code : Nat) : State :=
  (s.setRg R.SQ_CFG_ERR (F.SQ_CFG_ERR_CODE.put (F.SQ_CFG_ERR_QNUM.put (s.rg R.SQ_CFG_ERR) q) code)).raiseF R.SQ_EVT F.SQ_EVT_CFG_ERR

/-- A binding allowed on its side with its ID in range (Table SQ-6). -/
def bindOk (v : Word) : Bool :=
  let pk := F.SQ_Q_BIND_PROD_KIND.get v
  let pi := F.SQ_Q_BIND_PROD_ID.get v
  let ck := F.SQ_Q_BIND_CONS_KIND.get v
  let ci := F.SQ_Q_BIND_CONS_ID.get v
  (match pk with
   | 0 => true | 1 => decide (pi < 1024) | 2 => decide (pi < 384) | 3 => pi == 0 | 4 => decide (pi < 8)
   | 5 => decide (pi < 32) | _ => false)
  && (match ck with
   | 0 => true | 1 => decide (ci < 1024) | 2 => decide (ci < 384) | 3 => decide (ci < 4) | 5 => decide (ci < 32) | _ => false)

/-- The enabled queue whose producer (or consumer) is bound to a kind and ID (R177). -/
def State.boundQ (s : State) (prod : Bool) (kind id : Nat) : Option Nat :=
  s.enabledQs.find? (fun q =>
    let b := s.rg (R.SQ_Q_BIND q)
    if prod then F.SQ_Q_BIND_PROD_KIND.get b == kind && F.SQ_Q_BIND_PROD_ID.get b == id
    else F.SQ_Q_BIND_CONS_KIND.get b == kind && F.SQ_Q_BIND_CONS_ID.get b == id)

/-- Does a buffer of a size and start break R175? -/
def bufBad (size base : Nat) : Bool := decide (size < 12) || decide (25 < size) || decide (0x3000000 < base + 2 ^ size)

/-- Why a queue may not be enabled with CFG word `v`, by the codes of Table SQ-7, the lowest first (R508). -/
def State.enableBad (s : State) (q : Nat) (v : Word) : Option Nat :=
  let size := F.SQ_Q_CFG_SIZE.get v
  let base := 4096 * s.rf (R.SQ_Q_BASE q) F.SQ_Q_BASE_BASE
  let b := s.rg (R.SQ_Q_BIND q)
  let pk := F.SQ_Q_BIND_PROD_KIND.get b
  let ck := F.SQ_Q_BIND_CONS_KIND.get b
  if bufBad size base then some 2
  else if ((pk = 2 ∨ pk = 4 ∨ pk = 5) ∧ (s.boundQ true pk (F.SQ_Q_BIND_PROD_ID.get b)).isSome)
       ∨ ((ck = 2 ∨ ck = 5) ∧ (s.boundQ false ck (F.SQ_Q_BIND_CONS_ID.get b)).isSome) then some 3
  else if 64 ≤ (s.enabledQs.filter (fun j => s.qBank j == s.qBank q)).length then some 4
  else none

/-- A write of SQ_Q_CFG (R178, Table SQ-3). -/
def State.writeQCfg (s : State) (q : Nat) (v : Word) : State :=
  let was := s.rb (R.SQ_Q_CFG q) F.SQ_Q_CFG_EN
  let en := F.SQ_Q_CFG_EN.bit v
  if was ∧ en then s.sqRefuse q 1
  else if bufBad (F.SQ_Q_CFG_SIZE.get v) (s.qStart q) then s.sqRefuse q 2
  else if was then
    let s1 := s.flushQ q
    let s2 := s1.setQu q { s1.qu q with swallow := false, flushing := false, prodMid := false }
    s2.store (R.SQ_Q_CFG q) v
  else if en then match s.enableBad q v with
    | some c => s.sqRefuse q c
    | none => s.store (R.SQ_Q_CFG q) v
  else s.store (R.SQ_Q_CFG q) v

/-- A write of SQ_Q_BASE, SQ_Q_BIND or SQ_Q_LIMIT (R178). -/
def State.writeQReg (s : State) (q a : Nat) (v : Word) : State :=
  if s.rb (R.SQ_Q_CFG q) F.SQ_Q_CFG_EN then s.sqRefuse q 1
  else if a = R.SQ_Q_BASE q ∧ bufBad (s.rf (R.SQ_Q_CFG q) F.SQ_Q_CFG_SIZE) (4096 * F.SQ_Q_BASE_BASE.get v) then s.sqRefuse q 2
  else if a = R.SQ_Q_BIND q ∧ ¬ bindOk v then s.sqRefuse q 3
  else s.store a v

/-- A write of a sensor port setting (R178): refused while its state is ALIGNING or LOCKED. -/
def State.writeSp (s : State) (p a : Nat) (v : Word) : State :=
  let st := (s.spr p).st
  if st = .aligning ∨ st = .locked then s.sqRefuse (1152 + p) 5 else s.store a v

/-- SQ_CONFIG_WRITE (R178): a write of a queue or sensor port configuration register; any other offset is left alone. -/
def State.sqConfigWrite (s : State) (a : Nat) (v : Word) : State :=
  if R.SQ_Q_CFG 0 ≤ a ∧ a < R.SQ_Q_CFG 1024 then
    let q := (a - R.SQ_Q_CFG 0) / 64
    if a = R.SQ_Q_CFG q then s.writeQCfg q v
    else if a = R.SQ_Q_BASE q ∨ a = R.SQ_Q_BIND q ∨ a = R.SQ_Q_LIMIT q then s.writeQReg q a v
    else s
  else if R.SQ_SP_CFG 0 ≤ a ∧ a < R.SQ_SP_CFG 8 then
    let p := (a - R.SQ_SP_CFG 0) / 32
    if a = R.SQ_SP_CFG p ∨ a = R.SQ_SP_DLY p ∨ a = R.SQ_SP_SYNC p then s.writeSp p a v else s
  else s

/-- SQ_CONFIG_WRITE. -/
def execSqConfigWrite (off : BitVec 24) (v : Word) (s : State) : Host.Outcome State Fault Refusal :=
  .next (s.sqConfigWrite off.toNat v)

/-- A KICK taken by the engine of a queue (R179). -/
def State.kick (s : State) (q : Nat) : State :=
  if q < 1024 ∧ s.qOn q ∧ s.rb (R.SQ_Q_CFG q) F.SQ_Q_CFG_GATED then
    let c := s.rf (R.SQ_Q_KICK q) F.SQ_Q_KICK_CREDIT + s.rf (R.SQ_Q_KICK q) F.SQ_Q_KICK_KICK_N
    s.setRf (R.SQ_Q_KICK q) F.SQ_Q_KICK_CREDIT (satN 0xFFFF c)
  else s.raiseF R.SQ_EVT F.SQ_EVT_KICK_IGN

/-- SQ_Q_STAT, SQ_PQ_STAT. -/
def Queue.stat (k : Queue) : Word :=
  w32 (k.ents.length + 2 ^ 23 * b2n k.flushing + 2 ^ 24 * b2n k.swallow + 2 ^ 25 * b2n k.forced + 2 ^ 26 * b2n k.consMid
       + 2 ^ 27 * b2n k.prodMid)
def Queue.pstat (k : Queue) : Word :=
  w32 (k.ents.length + 2 ^ 10 * b2n k.flushing + 2 ^ 11 * b2n k.swallow + 2 ^ 12 * b2n k.forced)

end Sys2Proof.Machine
end

