-- ==== Sys2Proof/Machine/PeFire.lean ====
section
/-! DEFINITION. Firing a PE (03_array.md, R97–R111, R120–R127; 14_fault_containment.md, R417, R419): which tokens a firing
takes, where its results go, and what they do there. Time inside the Array is not counted: a result is at its destination
when the firing's step ends. -/

namespace Sys2Proof.Machine

/-! Errors -/

/-- AR_ERR_LOC written for a PE: KIND 1 parity, 2 align, 3 uncorrectable load, 4 poison, 5 LM_BUSY. -/
def State.arErr (s : State) (i kind : Nat) : State :=
  s.setRg R.AR_ERR_LOC (w32 (peCol i + 0x100 * peRow i + 0x10000 * kind))

/-- The element of a PE in a fault record: its physical column and row. -/
def State.peElem (s : State) (i : Nat) : Nat × Nat := (1, s.phys i / 32 + 0x100 * peRow i)

/-- A word of local memory loaded by its PE (R97). -/
def State.lmRead (s : State) (i w : Nat) : State × Word × Bool :=
  let a := s.lmPlace i w
  let (s1, d, st) := s.readWord a 0
  if st = 0 then (s1, w32 (d / 2 ^ (8 * (a % 8))), false)
  else ((s1.arErr i (if st = 2 then 4 else 3)).raiseF R.AR_EVT F.AR_EVT_LM_ERR, 0, true)

/-- A word of local memory stored by its PE (R93, R232): a store into a bad word is discarded and reported. -/
def State.lmWrite (s : State) (i w : Nat) (v : Word) : State :=
  let a := s.lmPlace i w
  let (s1, st) := s.writeWords 0 [(a, v.toNat * 2 ^ (8 * (a % 8)), 15 * 2 ^ (a % 8))]
  if st = 0 then s1
  else (s1.arErr i (if st = 2 then 4 else 3)).raiseF R.AR_EVT F.AR_EVT_LM_ERR

/-! FIFOs -/

/-- FOLD tokens that wait at an item boundary enter while there is room (R147). -/
def Fifo.settle (f : Fifo) : Fifo :=
  if f.mid then f
  else { f with toks := f.toks ++ f.pend.take (4 - f.toks.length), pend := f.pend.drop (4 - f.toks.length) }

/-- A token written into a FIFO. -/
def Fifo.push (f : Fifo) (t : Token) : Fifo :=
  ({ f with toks := f.toks ++ [t], mid := if t.fold then f.mid else !t.last } : Fifo).settle

/-- The head of a FIFO taken. -/
def Fifo.pop (f : Fifo) : Fifo := ({ f with toks := f.toks.drop 1 } : Fifo).settle

/-- May n tokens be written into a FIFO now? A FOLD token that waits goes first (R147). -/
def Fifo.room (f : Fifo) (n : Nat) : Bool := decide (f.toks.length + n ≤ 4) && (f.mid || f.pend.isEmpty)

/-- A token that failed its parity check at PE i or at the edge port beside it (R99, R124): counted, located and reported. -/
def State.parityFail (s : State) (i : Nat) (t : Token) : State :=
  let s1 := ((s.bump R.AR_ERRCNT F.AR_ERRCNT_PARITY 1).raiseF R.AR_EVT F.AR_EVT_PARITY).arErr i 1
  s1.report 1 (match t.src with
    | some k => if k = i then [s1.peElem i] else [s1.peElem k, s1.peElem i]
    | none => [s1.peElem i])

/-- A token past the parity check of its receiver at PE i: kept, with ERR set and its parity recomputed where it fails (R99). -/
def State.parCheck (s : State) (i : Nat) (t : Token) : State × Token :=
  if t.parOk then (s, t) else (s.parityFail i t, Token.seal { t with err := true })

/-- A token written into FIFO `side` of a PE, its parity checked (R99). -/
def State.pushFifo (s : State) (i side : Nat) (t : Token) : State :=
  let (s1, t1) := s.parCheck i t
  let x := s1.pe i
  s1.setPe i (x.setFifo side ((x.fifo side).push t1))

/-- The head of a FIFO of a PE taken. -/
def State.popFifo (s : State) (i side : Nat) : State :=
  let x := s.pe i
  s.setPe i (x.setFifo side (x.fifo side).pop)

/-! Destinations -/

/-- Where a result goes: a PE's FIFO through a feeder code, an outbound fabric port queue, an outbound tile port lane, an
express output register, or a lane without an end. -/
inductive Dst where
  | fifo (pe side code : Nat)
  | port (q : Nat)
  | tile (lane : Nat)
  | xret (k : Nat)
  | stall
deriving DecidableEq, Repr

/-- The end of lane l from the stop at column c, row r: on past PASS stops to the first CUT (R104). -/
def State.followLane (s : State) (l : Nat) : Nat → Nat → Nat → Dst
  | 0, _, _ => .stall
  | n + 1, c, r => match nextStop l c r with
    | none => .stall
    | some (c2, r2) =>
      let p := peIx c2 r2
      if (s.pleat p (s.pe p).act).cut.testBit l then .fifo p (laneSide l) (laneFeed l) else State.followLane s l n c2 r2

/-- The destination of a result on a side (R124, R125, R134). -/
def State.sideDst (s : State) (i : Nat) (q : Pleat) (side : Nat) : Dst :=
  if side = 1 ∧ q.eTp then .tile (4 * peTile i + peRow i % 4)
  else match s.nbr i side with
    | some p => .fifo p (oppSide side) 1
    | none => if side = 3 then .port (1088 + peRow i) else if side = 1 then .port (1120 + peRow i) else .stall

/-- The destinations that a Pleat names, in the order N, E, S, W, lanes, XRET. -/
def State.dests (s : State) (i : Nat) (q : Pleat) : List Dst :=
  ((List.range 4).filter (fun d => q.dSide.testBit d)).map (fun d => s.sideDst i q d)
    ++ ((List.range 8).filter (fun l => q.dLane.testBit l)).map (fun l => s.followLane l 16 (peCol i) (peRow i))
    ++ (if q.dXret then [.xret (peRow i / 2)] else [])

/-- The SMB-resident queue that an outbound tile port lane feeds, while the lane is enabled (R125, Table SQ-6). -/
def State.laneQ (s : State) (lane : Nat) : Option Nat :=
  if s.rb (R.AR_TILE_CFG (lane / 4)) F.AR_TILE_CFG_TP_EN then s.boundQ true 2 lane else none

/-- Can a destination take n tokens now (R104, R108, R127)? -/
def State.takes (s : State) (d : Dst) (n : Nat) : Bool :=
  match d with
  | .fifo p side code => s.feedNow p side == code && ((s.pe p).fifo side).room n
  | .port q => s.qRoom q n
  | .tile l => match s.laneQ l with | some q => s.qRoom q n | none => false
  | .xret _ => true
  | .stall => false

/-- The FIFO that an inbound port queue or tile port lane feeds: PE, side, feeder code (R124, R125). -/
def State.inFifo (s : State) (q : Nat) : Nat × Nat × Nat :=
  if q < 1056 then (peIx 0 (q - 1024), 3, 4)
  else if q < 1088 then
    let i := peIx 47 (q - 1056)
    (if s.tilePaired (peTile i) then i - 1 else i, 1, 4)
  else (16 * ((q - 1160) / 4) + 4 * ((q - 1160) % 4), 3, 5)

/-- A word given to the FIFO behind an inbound port queue or lane, where that takes it now (R125); in a Paired tile to the twin's too. -/
def State.intoPe (s : State) (q : Nat) (t : Token) : Option State :=
  let (i, side, code) := s.inFifo q
  if s.rb R.AR_CTRL F.AR_CTRL_FROZEN then none
  else if 1160 ≤ q ∧ ¬ s.rb (R.AR_TILE_CFG ((q - 1160) / 4)) F.AR_TILE_CFG_TP_EN then none
  else if s.feedNow i side = code ∧ ((s.pe i).fifo side).room 1 then
    let s1 := s.pushFifo i side t
    some (if s1.tilePaired (peTile i) then s1.pushFifo (i + 1) side t else s1)
  else none

/-- A word for an inbound port queue or lane: straight on to its PE (R168), else stored. -/
def State.giveIn (s : State) (q : Nat) (t : Token) : State :=
  match (if s.qStraight q t then s.intoPe q t else none) with
  | some s1 => s1.qSkip q t
  | none => s.qPush q t

/-- A word from the producer of a queue that takes it: straight on to a consumer that waits (R168), else stored. -/
def State.qGive (s : State) (q : Nat) (t : Token) (lost : Bool) : State :=
  let out := (s.qSkip q t).emit (.word q t.data t.tag t.last t.fold t.err)
  if 1160 ≤ q ∨ (1024 ≤ q ∧ q < 1088) then s.giveIn q t
  else if ¬ s.qStraight q t then s.qPushL q t lost
  else if q < 1024 then
    let b := s.rg (R.SQ_Q_BIND q)
    let l := F.SQ_Q_BIND_CONS_ID.get b
    match F.SQ_Q_BIND_CONS_KIND.get b with
    | 2 => if s.rb (R.AR_TILE_CFG (l / 4)) F.AR_TILE_CFG_TP_EN ∧ s.qTakes (1160 + l) then (s.qSkip q t).giveIn (1160 + l) t
           else s.qPushL q t lost
    | 5 => out
    | _ => s.qPushL q t lost
  else if q < 1152 then out
  else if s.rb (R.SQ_SP_CFG (q - 1152)) F.SQ_SP_CFG_SINK then
    match s.boundQ true 4 (q - 1152) with
    | some k => if s.qTakes k then (s.qSkip q t).qPush k t else s.qPushL q t lost
    | none => s.qPushL q t lost
  else out

/-- A data token delivered. `t2` is the twin's token, which follows inside a Paired tile; a token that enters a Paired tile
goes to the primary and to its twin (R417). -/
def State.sendTo (s : State) (i : Nat) (d : Dst) (t t2 : Token) : State :=
  match d with
  | .fifo p side _ =>
    let s1 := (s.pushFifo p side t).crossGroups (peTile i) (peTile p)
    if s.tilePaired (peTile p) then s1.pushFifo (p + 1) side (if peTile p = peTile i then t2 else t) else s1
  | .port q =>
    let (s1, go) := s.exitPass (q - 1088)
    if go then let (s2, t1) := s1.parCheck i t; s2.qGive q t1 false else s1
  | .tile l =>
    let (s1, go) := s.exitPass (64 + l)
    if go then (match s1.laneQ l with | some q => let (s2, t1) := s1.parCheck i t; s2.qGive q t1 false | none => s1) else s1
  | .xret k =>
    let (s1, go) := s.exitPass (448 + k)
    if go ∧ s1.rb (R.AR_EXP_CFG k) F.AR_EXP_CFG_EN then s1.setRg (R.AR_EXP_OUT k) t.data else s1
  | .stall => s

/-- Does a destination lie outside the tile of PE i? -/
def Dst.leaves (d : Dst) (i : Nat) : Bool :=
  match d with
  | .fifo p _ _ => peTile p != peTile i
  | _ => true

/-! Planning -/

/-- A firing worked out: the state after everything but the delivery, the results, and the chosen destinations (none =
all that the Pleat names). -/
structure Fire where
  s    : State
  toks : List Token
  sel  : Option (List Nat)
deriving DecidableEq, Repr

/-- Does the active Pleat's operation access local memory while a fill holds it (R244)? -/
def State.lmFills (s : State) (i : Nat) : Bool :=
  let q := s.pleat i (s.pe i).act
  s.filling (s.lmPlace i 0) &&
    ((decide (0x23 ≤ q.op) && decide (q.op ≤ 0x25)) || (readsA q.op && q.srcA == 17) || (readsB q.op && q.srcB == 17))

/-- May a PE fire at all (R131, R156, R434)? -/
def State.peRuns (s : State) (i : Nat) : Bool :=
  !s.rb R.AR_CTRL F.AR_CTRL_FROZEN && s.domOn (2 + peRow i / 4) && !(s.pe i).gen && !s.lmFills i
    && (match s.tileGroup (peTile i) with
        | some g => !s.rb (R.FT_GRP_STAT g) F.FT_GRP_STAT_FAILED
        | none => true)

/-- What a firing sees: its PE, its Pleat, that Pleat's private state; operands A and B (a value, or a token consumed),
each with the FIFO it is consumed from; the LAST and ERR of the result. -/
structure Ctx where
  i    : Nat
  p    : Nat
  q    : Pleat
  pv   : Priv
  a    : Token
  b    : Token
  last : Bool
  err  : Bool
deriving DecidableEq, Repr

/-- The effect of an operation: state, private state, results with LAST, further ERR, chosen destinations. -/
structure Eff where
  s   : State
  pv  : Priv
  out : List (Word × Bool)
  err : Bool
  sel : Option (List Nat)
deriving DecidableEq, Repr

/-- An effect on private state and results only. -/
def Eff.plain (s : State) (pv : Priv) (out : List (Word × Bool)) : Eff := { s := s, pv := pv, out := out, err := false, sel := none }

/-- One of the named destinations by index; past them a free choice (R122). -/
def State.pickDst (s : State) (n k : Nat) : State × Nat :=
  if k < n then (s, k) else (s.tick, Config.routePick s.freeCtr % max 1 n)

/-- ROUTE (R122): the choice is made at an item's first token and held. -/
def effRoute (s : State) (c : Ctx) : Eff :=
  let n := (s.dests c.i c.q).length
  let (s1, k) := match c.pv.dec with
    | some k => (s, k)
    | none => s.pickDst n (if c.q.srcB < 4 then c.b.data.toNat % 4 else b2n c.pv.fl.pred)
  { s := s1, pv := { c.pv with dec := if c.last then none else some k }, out := [(c.a.data, c.last)], err := false,
    sel := some [k] }

/-- SPLIT (R122): successive items to the named destinations in turn. -/
def effSplit (s : State) (c : Ctx) : Eff :=
  let n := max 1 (s.dests c.i c.q).length
  { s := s, pv := if c.last then { c.pv with turn := (c.pv.turn + 1) % n } else c.pv, out := [(c.a.data, c.last)],
    err := false, sel := some [c.pv.turn % n] }

/-- DROP (R122): the decision is made at an item's first token and held. -/
def effDrop (s : State) (c : Ctx) : Eff :=
  let d := match c.pv.dec with
    | some k => k
    | none => if c.q.srcB = 19 then b2n c.pv.fl.pred else c.b.data.toNat % 2
  Eff.plain s { c.pv with dec := if c.last then none else some d } (if d = 1 then [] else [(c.a.data, c.last)])

/-- GATE (R122): per token; LAST always passes. -/
def effGate (s : State) (c : Ctx) : Eff :=
  let go := if c.q.srcB = 19 then c.pv.fl.pred else c.b.data.toNat % 2 == 1
  Eff.plain s c.pv (if go ∨ c.last then [(c.a.data, c.last)] else [])

/-- FOLDGEN (R156): A passes; a condition latched by the item's LAST requests a wavefront and holds the PE; in a
replay the recorded fold stands in for the request (R431). -/
def effFoldgen (s : State) (c : Ctx) : Eff :=
  let cond := c.pv.latch || (if c.q.srcB = 19 then c.pv.fl.pred else c.b.data.toNat % 2 == 1)
  let out := [(c.a.data, c.last)]
  if c.last ∧ cond then
    let x := s.pe c.i
    let s1 := s.setPe c.i { x with gen := true }
    if s.arr.slots.any (fun k => k.replay && k.req.gen == some c.i && k.todo.contains c.i) then Eff.plain s1 { c.pv with latch := false } out
    else Eff.plain { s1 with arr := { s1.arr with genReqs := s1.arr.genReqs ++ [{ pe := c.i, target := bitsOf c.q.imm 0 4, mask := bitsOf c.q.imm 4 4 }] } }
      { c.pv with latch := false } out
  else Eff.plain s { c.pv with latch := cond && !c.last } out

/-- DUP (R122): the token and imm[3:0] further copies, one for each firing; only the final copy carries LAST. -/
def effDup (s : State) (c : Ctx) : Eff :=
  let n := bitsOf c.q.imm 0 4
  Eff.plain s { c.pv with dup := if n = 0 then none else some ({ c.a with last := c.last, err := c.err }, n) } [(c.a.data, c.last && n == 0)]

/-- The effect of an operation on operands that are present (Table AR-8). -/
def effect (s : State) (c : Ctx) : Eff :=
  let q := c.q
  let pv := c.pv
  let a := c.a.data
  let b := c.b.data
  match q.op with
  | 0x00 => Eff.plain s pv []
  | 0x1C => let (p, o) := macEmit q (macSum q pv a b) c.last; Eff.plain s p o
  | 0x1D => let (p, o) := macEmit q (macSum q pv a b) c.last; Eff.plain s p o
  | 0x1E => let (p, o) := macEmit q (macSum q pv a b) c.last; Eff.plain s p o
  | 0x1F =>
    let (x, st) := accRead q.uM (bitsOf q.imm 0 6) (pv.acc q.accM)
    let p1 := { pv with fl := pv.fl.satIf st }
    Eff.plain s (if q.satM then p1.setAcc q.accM 0 else p1) [(x, false)]
  | 0x20 =>
    Eff.plain s (pv.setAcc q.accM (BitVec.ofNat 72 (a.toNat + 2 ^ 32 * b.toNat + (if b.msb then 255 * 2 ^ 64 else 0)))) []
  | 0x21 =>
    let v := divAcc (bitsOf q.imm 0 6) b.toNat (pv.acc q.accM)
    Eff.plain s (pv.setAcc q.accM v) [(w32 v.toNat, c.last)]
  | 0x22 => let (p, x) := cordRun q pv; Eff.plain s p [(x, c.last)]
  | 0x23 =>
    let ag := q.srcA == 17
    let (s1, x, e) := s.lmRead c.i (if ag then pv.ptr else bitsOf a.toNat 0 11)
    { s := s1, pv := if ag then { pv with ptr := agNext q pv.ptr c.last } else pv, out := [(x, c.last)], err := e, sel := none }
  | 0x24 =>
    let ag := q.srcA == 17
    Eff.plain (s.lmWrite c.i (if ag then pv.ptr else bitsOf a.toNat 0 11) b)
      (if ag then { pv with ptr := agNext q pv.ptr c.last } else pv) []
  | 0x25 =>
    let (s1, x, e) := s.lmRead c.i (lutAddr q a)
    { s := s1, pv := pv, out := [(x, c.last)], err := e, sel := none }
  | 0x26 =>
    let (x, st) := cntNext q pv.p3 a
    let p1 := { pv with p3 := x, fl := pv.fl.satIf st }
    if q.leM then (if c.last then Eff.plain s { p1 with p3 := 0 } [(x, true)] else Eff.plain s p1 [])
    else Eff.plain s p1 [(x, c.last)]
  | 0x27 =>
    let d := s.pcmpDiff q a
    Eff.plain s { pv with fl := { pv.fl.zn d with pred := pcmpPred q d } } [(d, c.last)]
  | 0x28 => effRoute s c
  | 0x2A => effSplit s c
  | 0x2B => effDrop s c
  | 0x2C => effDup s c
  | 0x2D => effGate s c
  | 0x2E => effFoldgen s c
  | _ =>
    let o := alu q pv a b
    Eff.plain s { pv with fl := o.fl } [(o.r, c.last)]

/-- A result token (R100). -/
def Ctx.token (i p : Nat) (err : Bool) (x : Word × Bool) : Token :=
  Token.make x.1 p x.2 false err (some i)

/-- An operand for a firing: through the address generator it is loaded (R95, R97), a FIFO's token is its head. The answer:
state, operand if present, error of the load. -/
def State.fetchOp (s : State) (i : Nat) (q : Pleat) (src ptr : Nat) : State × Option Token × Bool :=
  if src = 17 then
    let (s1, x, e) := s.lmRead i ptr
    (s1, some (valTok x false), e)
  else (s, s.operand i q src ptr, false)

/-- Does the operand of a code come through the address generator as a value? For LD and ST operand A names the place
itself. -/
def agValue (q : Pleat) (isA : Bool) : Bool :=
  if isA then readsA q.op && q.srcA == 17 && q.op != 0x23 && q.op != 0x24 else readsB q.op && q.srcB == 17

/-- A firing of an operation that takes its operands by R106: ROUTE and DROP take B at an item's first token only. -/
def State.planPlain (s : State) (i p : Nat) (q : Pleat) (pv : Priv) : Option Fire :=
  let rdA := readsA q.op
  let rdB := readsB q.op && !((q.op == 0x28 || q.op == 0x2B) && pv.dec.isSome)
  let ha := if rdA && !agValue q true && q.srcA != 17 then s.operand i q q.srcA 0 else some (valTok 0 false)
  let hb := if rdB && !agValue q false then s.operand i q q.srcB 0 else some (valTok 0 false)
  match ha, hb with
  | some ta, some tb =>
    let eatA := rdA && decide (q.srcA < 4)
    let eatB := rdB && decide (q.srcB < 4)
    let last := if eatA then ta.last else if eatB then tb.last else false
    let ptr1 := if agValue q true then agNext q pv.ptr last else pv.ptr
    let (s1, va, ea) := if agValue q true then s.lmRead i pv.ptr else (s, ta.data, false)
    let (s2, vb, eb) := if agValue q false ∧ rdB then s1.lmRead i ptr1 else (s1, tb.data, false)
    let ptr2 := if agValue q false ∧ rdB then agNext q ptr1 last else ptr1
    let err := (eatA && ta.err) || (eatB && tb.err) || ea || eb
    let s3 := if eatA ∧ eatB ∧ q.srcA ≠ q.srcB ∧ ta.last ≠ tb.last then
        ((s2.bump R.AR_ERRCNT F.AR_ERRCNT_ALIGN 1).raiseF R.AR_EVT F.AR_EVT_ALIGN).arErr i 2 else s2
    let s4 := if eatA then s3.popFifo i q.srcA else s3
    let s5 := if eatB ∧ ¬ (eatA ∧ q.srcA = q.srcB) then s4.popFifo i q.srcB else s4
    let e := effect s5 { i := i, p := p, q := q, pv := { pv with ptr := ptr2 }, a := { ta with data := va },
                         b := { tb with data := vb }, last := last, err := err }
    some { s := e.s.setPriv i p e.pv, toks := e.out.map (Ctx.token i p (err || e.err)), sel := e.sel }
  | _, _ => none

/-- MERGE's choice (Table AR-9): true = input B. -/
def mergeSide (q : Pleat) (pv : Priv) (a b : Bool) : Option Bool :=
  match pv.mSide with
  | some sd => if (if sd then b else a) then some sd else none
  | none =>
    if a ∧ b then some (if q.xM then false else !pv.mLast)
    else if a then some false
    else if b then some true
    else none

/-- A firing of MERGE (R123). -/
def State.planMerge (s : State) (i p : Nat) (q : Pleat) (pv : Priv) : Option Fire :=
  let (s1, ha, ea) := s.fetchOp i q q.srcA pv.ptr
  let hb := s.operand i q q.srcB pv.ptr
  match mergeSide q pv ha.isSome hb.isSome with
  | none => none
  | some sd =>
    let src := if sd then q.srcB else q.srcA
    let (s2, h, e) := if sd then s.fetchOp i q q.srcB pv.ptr else (s1, ha, ea)
    match h with
    | none => none
    | some t =>
      let s3 := if src < 4 then s2.popFifo i src else s2
      let pv1 := { pv with mSide := if t.last then none else some sd, mLast := sd,
                           ptr := if src = 17 then agNext q pv.ptr false else pv.ptr }
      some { s := s3.setPriv i p pv1, toks := [Ctx.token i p (t.err || e) (t.data, t.last)], sel := none }

/-- A DUP that still emits (R122). -/
def State.planDup (s : State) (i p : Nat) (pv : Priv) (t : Token) (n : Nat) : Fire :=
  { s := s.setPriv i p { pv with dup := if n ≤ 1 then none else some (t, n - 1) },
    toks := [Ctx.token i p t.err (t.data, t.last && decide (n ≤ 1))], sel := none }

/-- PCMP with EDGE: PRED judged on the present sample; a rise from 0 to 1 makes an emission wait (R121). It consumes no
FIFO; a FIFO named by A is only looked at (DEDUCED). A through the address generator is loaded at each sample judged (R97), and the pointer
steps at the firing (log entry 43). -/
def State.judgeEdge (s : State) (i p : Nat) (q : Pleat) (pv : Priv) : State :=
  match s.fetchOp i q q.srcA pv.ptr with
  | (_, none, _) => s
  | (s1, some t, e) =>
    let d := s1.pcmpDiff q t.data
    let pr := pcmpPred q d
    s1.setPriv i p { pv with fl := { pv.fl.zn d with pred := pr },
                             edge := if pv.edge.isNone ∧ pr ∧ ¬ pv.fl.pred then some (d, e) else pv.edge }

/-- The emission of a PCMP with EDGE (R121): with nothing consumed LAST is 0 (R100). -/
def State.planEdge (s : State) (i p : Nat) (q : Pleat) (pv : Priv) (d : Word × Bool) : Fire :=
  { s := s.setPriv i p { pv with edge := none, ptr := if q.srcA = 17 then agNext q pv.ptr false else pv.ptr },
    toks := [Ctx.token i p d.2 (d.1, false)], sel := none }

/-- The firing of PE i under its active Pleat, if it can fire an operation of this code (R108, R136). -/
def State.planPe (s : State) (i code : Nat) : Option Fire :=
  let p := (s.pe i).act
  let q := s.pleat i p
  let pv := s.priv i p
  if ¬ s.peRuns i ∨ ¬ s.validAt i p ∨ q.op ≠ code then none
  else match pv.dup with
    | some (t, n) => if code = 0x2C then some (s.planDup i p pv t n) else s.planPlain i p q pv
    | none =>
      if code = 0x29 then s.planMerge i p q pv
      else if code = 0x27 ∧ q.leM then
        match pv.edge with
        | some d => some (s.planEdge i p q pv d)
        | none => none
      else s.planPlain i p q pv

/-! Firing -/

/-- The tokens of a pair agree (R419). -/
def Token.same (t u : Token) : Bool :=
  t.data == u.data && t.tag == u.tag && t.last == u.last && t.fold == u.fold && t.err == u.err

/-- A pair mismatch (R419). -/
def State.pairFault (s : State) (i : Nat) : State :=
  ((s.bump R.FT_PAIR_CNT F.FT_PAIR_CNT_COUNT 1).raiseF R.FT_EVT F.FT_EVT_PAIR).report 3 [s.peElem i, s.peElem (i + 1)]

/-- The chosen destinations. -/
def chosen (l : List Dst) (sel : Option (List Nat)) : List Dst :=
  match sel with
  | none => l
  | some k => k.filterMap (fun j => l[j]?)

/-- Do the results of a PE and its twin agree (R419)? -/
def twinsAgree (toks twin : List Token) : Bool := toks.length == twin.length && (toks.zip twin).all (fun e => e.1.same e.2)

/-- Results delivered to destinations; where `ok` is false none leaves the tile. -/
def State.sendOut (s : State) (i : Nat) (ok : Bool) (ds : List Dst) (toks twin : List Token) : State :=
  ds.foldl (fun u d =>
    if d.leaves i ∧ ¬ ok then u
    else (toks.zip (twin ++ toks.drop twin.length)).foldl (fun w e => w.sendTo i d e.1 e.2) u) s

/-- The results of a Paired PE that leave its tile compared with the twin's (R419). -/
def State.pairCheck (s : State) (i : Nat) (ok : Bool) (ds : List Dst) : State :=
  if ok ∨ ¬ ds.any (fun d => d.leaves i) then s else s.pairFault i

/-- The results of a firing delivered; in a Paired tile those that leave it are compared with the twin's. -/
def State.sendAll (s : State) (i : Nat) (ds : List Dst) (toks twin : List Token) : State :=
  (s.pairCheck i (twinsAgree toks twin) ds).sendOut i (twinsAgree toks twin) ds toks twin

/-- The same where an upset reaches the tokens on their way to destination n: bit b of Table AR-3 flips behind the compare. -/
def State.sendHit (s : State) (i : Nat) (hit : Option (Nat × Nat)) (ds : List Dst) (toks twin : List Token) : State :=
  match hit with
  | none => s.sendAll i ds toks twin
  | some (n, b) =>
    let ok := twinsAgree toks twin
    let s1 := (s.pairCheck i ok ds).sendOut i ok (ds.take n) toks twin
    (s1.sendOut i ok ((ds.drop n).take 1) (toks.map (fun t => t.upset b)) twin).sendOut i ok (ds.drop (n + 1)) toks twin

/-- A PCMP with EDGE judges its sample before it fires. -/
def State.judged (s : State) (i code : Nat) : State :=
  let p := (s.pe i).act
  let q := s.pleat i p
  if code = 0x27 ∧ q.leM ∧ s.peRuns i ∧ s.validAt i p ∧ q.op = 0x27 then s.judgeEdge i p q (s.priv i p) else s

/-- The request of a twin is its primary's (R417). -/
def State.dropGen (s : State) (i : Nat) : State :=
  { s with arr := { s.arr with genReqs := s.arr.genReqs.filter (fun g => g.pe != i) } }

/-- One firing of PE i with an operation of this code (R108): all of it, or nothing. A twin fires with its primary and not
by itself (R417). `hit` is an upset of its results on the way (R99). -/
def State.firePe (s0 : State) (i code : Nat) (hit : Option (Nat × Nat)) : State :=
  if s0.isTwin i then s0
  else
    let pair := s0.tilePaired (peTile i)
    let s := if pair then (s0.judged i code).judged (i + 1) code else s0.judged i code
    match s.planPe i code with
    | none => s
    | some f =>
      let ds := chosen (s.dests i (s.pleat i (s.pe i).act)) f.sel
      let n := f.toks.length
      if n ≠ 0 ∧ ¬ ds.all (fun d => s.takes d n) then s
      else if pair then
        match f.s.planPe (i + 1) code with
        | some g => (g.s.dropGen (i + 1)).sendHit i hit ds f.toks g.toks
        | none => f.s.sendHit i hit ds f.toks []
      else f.s.sendHit i hit ds f.toks f.toks

/-- The outcome of a PE command. -/
def firePeOut (pe : Fin 1536) (code : Nat) (s : State) : Host.Outcome State Fault Refusal := .next (s.firePe pe.val code none)

/-- PE_NOP (R108, R112, R111). -/
def execPeNop (pe : Fin 1536) (s : State) : Host.Outcome State Fault Refusal := firePeOut pe 0x00 s
/-- PE_MOV (R99, R108, R112). `hit` is an upset on the way to one of the destinations, by its place in the order of R122, of one bit of
Table AR-3; its receiver's parity check finds it. -/
def execPeMov (pe : Fin 1536) (hit : Option (Fin 13 × Fin 42)) (s : State) : Host.Outcome State Fault Refusal :=
  .next (s.firePe pe.val 0x01 (hit.map (fun h => (h.1.val, h.2.val))))
/-- PE_ADD (R108, R112). -/
def execPeAdd (pe : Fin 1536) (s : State) : Host.Outcome State Fault Refusal := firePeOut pe 0x02 s
/-- PE_SUB (R108, R112). -/
def execPeSub (pe : Fin 1536) (s : State) : Host.Outcome State Fault Refusal := firePeOut pe 0x03 s
/-- PE_AND (R108, R112). -/
def execPeAnd (pe : Fin 1536) (s : State) : Host.Outcome State Fault Refusal := firePeOut pe 0x04 s
/-- PE_OR (R108, R112). -/
def execPeOr (pe : Fin 1536) (s : State) : Host.Outcome State Fault Refusal := firePeOut pe 0x05 s
/-- PE_XOR (R108, R112). -/
def execPeXor (pe : Fin 1536) (s : State) : Host.Outcome State Fault Refusal := firePeOut pe 0x06 s
/-- PE_ANDN (R108, R112). -/
def execPeAndn (pe : Fin 1536) (s : State) : Host.Outcome State Fault Refusal := firePeOut pe 0x07 s
/-- PE_SHL (R108, R112). -/
def execPeShl (pe : Fin 1536) (s : State) : Host.Outcome State Fault Refusal := firePeOut pe 0x08 s
/-- PE_SHR (R108, R112). -/
def execPeShr (pe : Fin 1536) (s : State) : Host.Outcome State Fault Refusal := firePeOut pe 0x09 s
/-- PE_SRA (R108, R112). -/
def execPeSra (pe : Fin 1536) (s : State) : Host.Outcome State Fault Refusal := firePeOut pe 0x0A s
/-- PE_ROL (R108, R112). -/
def execPeRol (pe : Fin 1536) (s : State) : Host.Outcome State Fault Refusal := firePeOut pe 0x0B s
/-- PE_ADD2 (R108, R112). -/
def execPeAdd2 (pe : Fin 1536) (s : State) : Host.Outcome State Fault Refusal := firePeOut pe 0x0C s
/-- PE_SUB2 (R108, R112). -/
def execPeSub2 (pe : Fin 1536) (s : State) : Host.Outcome State Fault Refusal := firePeOut pe 0x0D s
/-- PE_ADD4 (R108, R112). -/
def execPeAdd4 (pe : Fin 1536) (s : State) : Host.Outcome State Fault Refusal := firePeOut pe 0x0E s
/-- PE_SUB4 (R108, R112). -/
def execPeSub4 (pe : Fin 1536) (s : State) : Host.Outcome State Fault Refusal := firePeOut pe 0x0F s
/-- PE_ABSD4 (R108, R112). -/
def execPeAbsd4 (pe : Fin 1536) (s : State) : Host.Outcome State Fault Refusal := firePeOut pe 0x10 s
/-- PE_CMP (R108, R112, R113). -/
def execPeCmp (pe : Fin 1536) (s : State) : Host.Outcome State Fault Refusal := firePeOut pe 0x11 s
/-- PE_SEL (R108, R112). -/
def execPeSel (pe : Fin 1536) (s : State) : Host.Outcome State Fault Refusal := firePeOut pe 0x12 s
/-- PE_MIN (R108, R112). -/
def execPeMin (pe : Fin 1536) (s : State) : Host.Outcome State Fault Refusal := firePeOut pe 0x13 s
/-- PE_MAX (R108, R112). -/
def execPeMax (pe : Fin 1536) (s : State) : Host.Outcome State Fault Refusal := firePeOut pe 0x14 s
/-- PE_ABS (R108, R112). -/
def execPeAbs (pe : Fin 1536) (s : State) : Host.Outcome State Fault Refusal := firePeOut pe 0x15 s
/-- PE_POPC (R108, R112). -/
def execPePopc (pe : Fin 1536) (s : State) : Host.Outcome State Fault Refusal := firePeOut pe 0x16 s
/-- PE_CLZ (R108, R112). -/
def execPeClz (pe : Fin 1536) (s : State) : Host.Outcome State Fault Refusal := firePeOut pe 0x17 s
/-- PE_BFX (R108, R112). -/
def execPeBfx (pe : Fin 1536) (s : State) : Host.Outcome State Fault Refusal := firePeOut pe 0x18 s
/-- PE_BFI (R108, R112). -/
def execPeBfi (pe : Fin 1536) (s : State) : Host.Outcome State Fault Refusal := firePeOut pe 0x19 s
/-- PE_MUL (R108, R112, R113). -/
def execPeMul (pe : Fin 1536) (s : State) : Host.Outcome State Fault Refusal := firePeOut pe 0x1A s
/-- PE_MULH (R108, R112, R113). -/
def execPeMulh (pe : Fin 1536) (s : State) : Host.Outcome State Fault Refusal := firePeOut pe 0x1B s
/-- PE_MAC32 (R108, R112, R114). -/
def execPeMac32 (pe : Fin 1536) (s : State) : Host.Outcome State Fault Refusal := firePeOut pe 0x1C s
/-- PE_MAC16 (R108, R112, R114). -/
def execPeMac16 (pe : Fin 1536) (s : State) : Host.Outcome State Fault Refusal := firePeOut pe 0x1D s
/-- PE_MAC8 (R108, R112, R114). -/
def execPeMac8 (pe : Fin 1536) (s : State) : Host.Outcome State Fault Refusal := firePeOut pe 0x1E s
/-- PE_ACCRD (R108, R112, R115). -/
def execPeAccrd (pe : Fin 1536) (s : State) : Host.Outcome State Fault Refusal := firePeOut pe 0x1F s
/-- PE_ACCLD (R108, R112). -/
def execPeAccld (pe : Fin 1536) (s : State) : Host.Outcome State Fault Refusal := firePeOut pe 0x20 s
/-- PE_DIVS (R108, R112, R116). -/
def execPeDivs (pe : Fin 1536) (s : State) : Host.Outcome State Fault Refusal := firePeOut pe 0x21 s
/-- PE_CORD (R108, R112, R117). -/
def execPeCord (pe : Fin 1536) (s : State) : Host.Outcome State Fault Refusal := firePeOut pe 0x22 s
/-- PE_LD (R108, R112, R97). -/
def execPeLd (pe : Fin 1536) (s : State) : Host.Outcome State Fault Refusal := firePeOut pe 0x23 s
/-- PE_ST (R108, R112, R93, R232). -/
def execPeSt (pe : Fin 1536) (s : State) : Host.Outcome State Fault Refusal := firePeOut pe 0x24 s
/-- PE_LUT (R108, R112, R118). -/
def execPeLut (pe : Fin 1536) (s : State) : Host.Outcome State Fault Refusal := firePeOut pe 0x25 s
/-- PE_CNT (R108, R112, R119). -/
def execPeCnt (pe : Fin 1536) (s : State) : Host.Outcome State Fault Refusal := firePeOut pe 0x26 s
/-- PE_PCMP (R108, R112, R120, R121). -/
def execPePcmp (pe : Fin 1536) (s : State) : Host.Outcome State Fault Refusal := firePeOut pe 0x27 s
/-- PE_ROUTE (R108, R112, R122). -/
def execPeRoute (pe : Fin 1536) (s : State) : Host.Outcome State Fault Refusal := firePeOut pe 0x28 s
/-- PE_MERGE (R108, R112, R123). -/
def execPeMerge (pe : Fin 1536) (s : State) : Host.Outcome State Fault Refusal := firePeOut pe 0x29 s
/-- PE_SPLIT (R108, R112, R122). -/
def execPeSplit (pe : Fin 1536) (s : State) : Host.Outcome State Fault Refusal := firePeOut pe 0x2A s
/-- PE_DROP (R108, R112, R122). -/
def execPeDrop (pe : Fin 1536) (s : State) : Host.Outcome State Fault Refusal := firePeOut pe 0x2B s
/-- PE_DUP (R108, R112, R122). -/
def execPeDup (pe : Fin 1536) (s : State) : Host.Outcome State Fault Refusal := firePeOut pe 0x2C s
/-- PE_GATE (R108, R112, R122). -/
def execPeGate (pe : Fin 1536) (s : State) : Host.Outcome State Fault Refusal := firePeOut pe 0x2D s
/-- PE_FOLDGEN (R108, R112, R156). -/
def execPeFoldgen (pe : Fin 1536) (s : State) : Host.Outcome State Fault Refusal := firePeOut pe 0x2E s

end Sys2Proof.Machine
end

