-- ==== Sys2Proof/Machine/Folds.lean ====
section
/-! DEFINITION. The fold unit and the Pleat loader (04_pleats_and_folds.md, R138–R164), and what a checkpoint does at a PE
(14_fault_containment.md, R420–R422). -/

namespace Sys2Proof.Machine

/-! Masks -/

/-- A 96-bit tile mask from three registers. -/
def State.mask3 (s : State) (a b c : Nat) : Nat := (s.rg a).toNat + 2 ^ 32 * (s.rg b).toNat + 2 ^ 64 * (s.rg c).toNat

/-- The tiles of a mask. -/
def tilesOf (m : Nat) : List Nat := bitList 96 m

/-- The PEs of a tile: all 16, or the primaries of a Paired tile (R417). -/
def State.tilePes (s : State) (t : Nat) : List Nat :=
  ((List.range 16).map (fun k => 16 * t + k)).filter (fun i => !s.isTwin i)

/-- The PEs of a mask. -/
def State.maskPes (s : State) (m : Nat) : List Nat := (tilesOf m).flatMap (fun t => s.tilePes t)

/-- PL_GMASK[k]. -/
def State.gmask (s : State) (k : Nat) : Nat := s.mask3 (R.PL_GMASK_W0 k) (R.PL_GMASK_W1 k) (R.PL_GMASK_W2 k)

/-- The tiles of a protection group. -/
def State.grpMask (s : State) (g : Nat) : Nat := s.mask3 (R.FT_GRP_MASK_W0 g) (R.FT_GRP_MASK_W1 g) (R.FT_GRP_MASK_W2 g)

/-! Slots -/

/-- The slot in flight of a number. -/
def State.slotOf (s : State) (id : Nat) : Option Slot := s.arr.slots.find? (fun k => k.id == id)

/-- A slot replaced. -/
def State.putSlot (s : State) (k : Slot) : State :=
  { s with arr := { s.arr with slots := s.arr.slots.map (fun x => if x.id = k.id then k else x) } }

/-- A slot freed. -/
def State.freeSlot (s : State) (id : Nat) : State :=
  { s with arr := { s.arr with slots := s.arr.slots.filter (fun x => x.id != id) } }

/-- The FOLD token of a wavefront (R145, Table PL-4; R420 for a checkpoint). -/
def Slot.token (k : Slot) : Token :=
  Token.make (w32 (k.id + 16 * k.req.trig + 256 * k.seq)) k.req.target false true false none

/-- The slot that a FOLD token names. -/
def Token.slot (t : Token) : Nat := t.data.toNat % 16

/-- FOLD tokens of a slot taken out of a list. -/
def dropSlot (id : Nat) (l : List Token) : List Token := l.filter (fun t => !(t.fold && t.slot == id))

/-- FOLD tokens of a slot taken out of a FIFO, a PE and a queue. -/
def Fifo.dropSlot (f : Fifo) (id : Nat) : Fifo := { f with toks := Machine.dropSlot id f.toks, pend := Machine.dropSlot id f.pend }
def Pe.dropSlot (x : Pe) (id : Nat) : Pe :=
  { x with n := x.n.dropSlot id, e := x.e.dropSlot id, so := x.so.dropSlot id, w := x.w.dropSlot id }
def Queue.dropSlot (k : Queue) (id : Nat) : Queue := { k with ents := Machine.dropSlot id k.ents, held := Machine.dropSlot id k.held, pend := Machine.dropSlot id k.pend }

/-- A checkpoint of group g sent to the fold unit (R420): a wavefront with TRIG 5. One is in flight at a time; a further one is issued when
that has ended. -/
def State.ckptIssue (s : State) (g : Nat) : State :=
  let k := s.grp g
  let f : FoldReq := { target := 0, wave := true, mask := s.grpMask g, trig := 5, gen := none, grp := g, desc := none }
  if k.flight.isSome then s.setGrp g { k with more := k.more + 1, lastAt := s.now }
  else
    let s1 := (s.setGrp g { k with flight := some { num := k.num, shadow := [], act := [] }, lastAt := s.now }).setRb (R.FT_GRP_STAT g)
      F.FT_GRP_STAT_BUSY true
    { s1 with arr := { s1.arr with foldIn := s1.arr.foldIn ++ [f] } }

/-- The checkpoint in flight is over; one that was asked for meanwhile follows. -/
def State.ckptOver (s : State) (g : Nat) : State :=
  let k := s.grp g
  let s1 := (s.setGrp g { k with flight := none, more := k.more - 1 }).setRb (R.FT_GRP_STAT g) F.FT_GRP_STAT_BUSY false
  if k.more = 0 then s1 else s1.ckptIssue g

/-- A checkpoint lost (R420): the last complete one stays in force. -/
def State.ckptLost (s : State) (g : Nat) : State := (s.ckptOver g).raiseF R.FT_EVT F.FT_EVT_CKPT_LOST

/-- A PE, and its twin, no longer held by a FOLDGEN request (R156, R417). -/
def State.clearGen (s : State) (i : Nat) : State :=
  let s1 := s.setPe i { s.pe i with gen := false }
  if s1.tilePaired (peTile i) then s1.setPe (i + 1) { s1.pe (i + 1) with gen := false } else s1

/-- A wavefront cancelled (R144): its PE of a FOLDGEN is held no more; its tokens are discarded wherever they are and its slot is freed. -/
def State.cancelSlot (s : State) (k : Slot) : State :=
  let s1 := s.freeSlot k.id
  let s2 : State := { s1 with
    arr := { s1.arr with
      pes := Tab.mapKeep (fun _ => Pe.idle) (fun _ x => x.dropSlot k.id) s1.arr.pes
      sw := s1.arr.sw.filter (fun w => !(w.req.wave && w.slot == k.id)) }
    qs := Tab.mapKeep (fun _ => Queue.empty) (fun _ x => x.dropSlot k.id) s1.qs }
  let s3 := (match k.req.gen with
    | some i => if k.todo.contains i then s2.clearGen i else s2
    | none => s2).raiseF R.PL_EVT F.PL_EVT_WAVE_CANCEL
  if k.req.trig = 5 then s3.ckptLost k.req.grp else s3

/-- Every wavefront of a list cancelled. -/
def State.cancelSlots (s : State) (l : List Slot) : State := l.foldl (fun t k => t.cancelSlot k) s

/-! FOLDGEN requests -/

/-- A request not yet issued is cancelled when its PE folds (R157). -/
def State.genCancel (s : State) (i : Nat) : State :=
  let x := s.pe i
  if x.gen then
    let s1 := s.setPe i { x with gen := false }
    let s2 : State := { s1 with arr := { s1.arr with
      genReqs := s1.arr.genReqs.filter (fun g => g.pe != i)
      foldIn := s1.arr.foldIn.filter (fun f => f.gen != some i)
      foldQ := s1.arr.foldQ.filter (fun f => f.gen != some i) } }
    (s2.bump R.PL_ERRCNT F.PL_ERRCNT_GEN_CANCEL 1).raiseF R.PL_EVT F.PL_EVT_GEN_CANCEL
  else s

/-- FOLDGEN_GRANT (R157): the oldest request is granted, once its PE has folded under every wavefront issued before, and takes
its place in the issue queue. -/
def execFoldgenGrant (s : State) : Host.Outcome State Fault Refusal :=
  .next (match s.arr.genReqs with
    | [] => s
    | g :: r =>
      if s.arr.slots.any (fun k => k.todo.contains g.pe) then s
      else { s with arr := { s.arr with genReqs := r, foldIn := s.arr.foldIn ++
              [{ target := g.target, wave := true, mask := s.gmask g.mask, trig := 4, gen := some g.pe, grp := 0, desc := none }] } })

/-! Triggers and the issue queue -/

/-- A fold sent to the fold unit. -/
def State.sendFold (s : State) (f : FoldReq) : State := { s with arr := { s.arr with foldIn := s.arr.foldIn ++ [f] } }

/-- FOLD_CMD_GO (R139): a write of PL_FOLD_CMD with GO. -/
def execFoldCmdGo (v : Word) (s : State) : Host.Outcome State Fault Refusal :=
  .next (if F.PL_FOLD_CMD_GO.bit v then
    s.sendFold { target := F.PL_FOLD_CMD_PLEAT.get v, wave := F.PL_FOLD_CMD_KIND.bit v,
                 mask := s.mask3 R.PL_FOLD_MASK_W0 R.PL_FOLD_MASK_W1 R.PL_FOLD_MASK_W2, trig := 2, gen := none, grp := 0, desc := none }
    else s)

/-- FOLD_REQ_RISE (R139): a rising edge of fabric request line k. -/
def execFoldReqRise (k : Fin 8) (s : State) : Host.Outcome State Fault Refusal :=
  let v := s.rg (R.PL_FSTRB k)
  .next (if F.PL_FSTRB_EN.bit v then
    s.sendFold { target := F.PL_FSTRB_PLEAT.get v, wave := F.PL_FSTRB_KIND.bit v, mask := s.gmask (F.PL_FSTRB_GMASK.get v), trig := 3,
                 gen := none, grp := 0, desc := none }
    else s)

/-- The PE reads a Pleat's word from its store (R231): what each codeword gives is counted, logged and reported. -/
def State.pleatFetch (s : State) (i p : Nat) : State := (s.readWords 0 ((List.range 4).map (fun k => s.pleatAt i p + 8 * k))).1

/-- A refused fold (R140, R156, R420). -/
def State.refuseFold (s : State) (f : FoldReq) (code : Nat) (at_ : Option Nat) : State :=
  let loc := match at_ with
    | some i => 0x1000 * peCol i + 0x40000 * peRow i
    | none => 0
  let s1 := (s.setRg R.PL_FOLD_ERR (w32 (code + 16 * f.target + 256 * f.trig + loc))).raiseF R.PL_EVT F.PL_EVT_FOLD_INVALID
  let s2 := match f.gen with
    | some i => s1.clearGen i
    | none => s1
  (if f.trig = 5 then s2.ckptLost f.grp else s2).hiFoldRefused f.desc code

/-- FOLD_ARRIVE (R138, R142): the oldest fold under way reaches the issue queue of 16; a full queue refuses it. -/
def execFoldArrive (s : State) : Host.Outcome State Fault Refusal :=
  .next (match s.arr.foldIn with
    | [] => s
    | f :: r =>
      let s1 : State := { s with arr := { s.arr with foldIn := r } }
      if 16 ≤ s1.arr.foldQ.length then (s1.refuseFold f 5 none).raiseF R.PL_EVT F.PL_EVT_FOLD_QFULL
      else
        let h := if s1.arr.foldQ.isEmpty then s1.nclk else s1.arr.headAt
        { s1 with arr := { s1.arr with foldQ := s1.arr.foldQ ++ [f], headAt := h } })

/-- The head of the issue queue taken out; the next one reaches the head. -/
def State.popFold (s : State) : State :=
  { s with arr := { s.arr with foldQ := s.arr.foldQ.drop 1, headAt := s.nclk, headIn := [] } }

/-- Is a Pleat loading in a tile of a mask? -/
def State.maskLoading (s : State) (m p : Nat) : Bool := (tilesOf m).any (fun t => s.loadingAt t p)

/-- The first PE of a mask at which the target is neither valid nor loading (Table PL-3): code 3 where a load that completed while the head waited
left it so in its tile, else code 1, which is taken first. -/
def State.foldBadPe (s : State) (f : FoldReq) : Option (Nat × Nat) :=
  let bad := (s.maskPes f.mask).filter (fun i => !s.loadingAt (peTile i) f.target && !s.validAt i f.target)
  match bad.find? (fun i => !s.arr.headIn.contains (peTile i)) with
  | some i => some (1, i)
  | none => bad.head?.map (fun i => (3, i))

/-- The refusal of the head by the lowest code of Table PL-3; a checkpoint has no target. -/
def State.foldCode (s : State) (f : FoldReq) : Option (Nat × Option Nat) :=
  match (if f.trig = 5 then none else s.foldBadPe f) with
  | some (c, i) => some (c, some i)
  | none =>
    if f.mask % 2 ^ 96 = 0 then some (4, none)
    else if (match f.gen with | some i => !f.mask.testBit (peTile i) | none => false) then some (6, none)
    else if (tilesOf f.mask).any (fun t => !s.domOn (2 + t / 12)) then some (7, none)
    else none

/-- A fold aimed at a tile of a group under recovery is held (R427). -/
def State.foldHeld (s : State) (f : FoldReq) : Bool :=
  match s.ft.run with
  | some r => r.freeze && decide (r.step < 6) && (match r.grp with | some g => s.grpMask g &&& f.mask != 0 | none => false)
  | none => false

/-- FOLD_ISSUE (R138–R141, R145): the head of the queue is checked and issued, refused, or waits for a load, a slot or a
recovery. -/
def execFoldIssue (s : State) : Host.Outcome State Fault Refusal :=
  .next (match s.arr.foldQ with
    | [] => s
    | f :: _ =>
      if s.foldHeld f then s
      else match s.foldCode f with
        | some (c, at_) => ((match at_ with | some i => s.pleatFetch i f.target | none => s).popFold).refuseFold f c at_
        | none =>
          if f.trig ≠ 5 ∧ s.maskLoading f.mask f.target then s
          else
            let free := (List.range 16).find? (fun k => !s.arr.slots.any (fun x => x.id == k))
            if f.wave ∧ free.isNone then s
            else if (match f.gen with | some i => s.arr.slots.any (fun k => k.todo.contains i) | none => false) then s
            else
              let seq := (s.arr.seq + 1) % 4096
              let id := if f.wave then free.getD 0 else 0
              let num := if f.trig = 5 then (s.grp f.grp).num else seq
              let s1 := s.popFold.hiFoldDone f.desc seq
              { s1 with arr := { s1.arr with
                  seq := seq
                  sw := s1.arr.sw ++ [{ req := f, slot := id, seq := num }]
                  slots := if f.wave then s1.arr.slots ++
                      [{ id := id, req := f, seq := num, todo := s.maskPes f.mask, t0 := 0, stuck := false, replay := false }] else s1.arr.slots } })

/-- FOLD_LOAD_WAIT_TIMEOUT (R141): a fold whose target is still loading 64 NCLK after it reached the head is refused. -/
def execFoldLoadWaitTimeout (s : State) : Host.Outcome State Fault Refusal :=
  .next (match s.arr.foldQ with
    | f :: _ => if f.trig ≠ 5 ∧ s.arr.headAt + 64 ≤ s.nclk ∧ s.maskLoading f.mask f.target then s.popFold.refuseFold f 2 none else s
    | [] => s)

/-! Folding at a PE -/

/-- The enabled inputs of a PE: the FIFOs whose feeder is not 0 (R102). -/
def State.inputs (s : State) (i : Nat) : List Nat := (List.range 4).filter (fun d => s.feedNow i d != 0)

/-- A source PE (R148, Table PL-6): no enabled input, or a PCMP with EDGE, which consumes none. -/
def State.foldSource (s : State) (i : Nat) : Bool :=
  let x := s.pe i
  (s.inputs i).isEmpty || (s.validAt i x.act && (s.pleat i x.act).op == 0x27 && (s.pleat i x.act).leM)

/-- Does a FOLD token of slot k enter FIFO `side` of a PE, or is it discarded there (R151)? A PE that has folded under the
slot takes no further token of it (DEDUCED). -/
def State.foldEnters (s : State) (k p side code : Nat) : Bool :=
  s.feedNow p side == code && (match s.slotOf k with | some x => x.todo.contains p | none => false)

/-- Can a destination take a FOLD token (R149, R151)? -/
def State.takesFold (s : State) (k : Nat) (d : Dst) : Bool :=
  match d with
  | .fifo p side code => !s.foldEnters k p side code || ((s.pe p).fifo side).room 1
  | .port q => s.qRoom q 1
  | .tile _ => true
  | .xret _ => true
  | .stall => false

/-- A FOLD token delivered or discarded (R151); a checkpoint token that reaches an exit records its count (R424). -/
def State.putFold (s : State) (t : Token) (d : Dst) : State :=
  let mark := fun (u : State) (e : Nat) => if t.ckpt then u.exitMark e else u
  match d with
  | .fifo p side code =>
    if s.foldEnters t.slot p side code then
      let s1 := s.pushFifo p side t
      if s.tilePaired (peTile p) then s1.pushFifo (p + 1) side t else s1
    else s
  | .port q => (mark s (q - 1088)).qPush q t
  | .tile l => mark s (64 + l)
  | .xret k => mark s (448 + k)
  | .stall => s

/-- The item state of a Pleat as a Lining record holds it in 11 bits (Table FT-2; the places of its parts are this model's). -/
def Priv.item (p : Priv) : Nat :=
  (match p.dec with | some k => k % 16 + 16 | none => p.turn % 16) + 32 * b2n p.mSide.isSome + 64 * b2n (p.mSide.getD false)
    + 128 * b2n p.mLast + 256 * b2n p.latch

/-- The Lining record of a PE (Table FT-2). -/
def State.lining (s : State) (i : Nat) : List Byte :=
  let x := s.pe i
  (x.s.flatMap (fun v => bytesLE 4 v.toNat))
    ++ (List.range 16).flatMap (fun p =>
        let v := s.priv i p
        bytesLE 4 v.p0.toNat ++ bytesLE 4 v.p1.toNat ++ bytesLE 4 v.p2.toNat ++ bytesLE 4 v.p3.toNat
          ++ bytesLE 9 v.acc0.toNat ++ bytesLE 9 v.acc1.toNat)
    ++ (List.range 16).flatMap (fun p =>
        let v := s.priv i p
        bytesLE 4 (v.fl.word + 64 * (v.ptr % 2048) + 0x20000 * v.item))

/-- A PE passes the barrier of a checkpoint: its snapshot waits to be written (R421). -/
def State.snapshot (s : State) (g i : Nat) : State :=
  let k := s.grp g
  match k.flight with
  | some c => s.setGrp g { k with flight := some { c with shadow := c.shadow ++ [(i, s.lining i)], act := c.act ++ [(i, (s.pe i).act)] } }
  | none => s

/-- Does a PE wait at the barrier of a later checkpoint for its previous record (R421)? -/
def State.shadowBusy (s : State) (k : Slot) (i : Nat) : Bool :=
  decide (k.req.trig = 5) && (match (s.grp k.req.grp).flight with | some c => c.shadow.any (fun e => e.1 == i) | none => false)

/-- A PE folds under a slot (R148–R150, R154): FOLD tokens leave on each destination of the old Pleat, the target is taken from
the slot record, and the slot completes with its last PE. -/
def State.foldPe (s : State) (i : Nat) (k : Slot) : State :=
  let x := s.pe i
  let pair := s.tilePaired (peTile i)
  let ds := if s.validAt i x.act then s.dests i (s.pleat i x.act) else []
  let s1 := ds.foldl (fun t d => t.putFold k.token d) s
  let s2 := if k.req.trig = 5 then s1.snapshot k.req.grp i
    else
      let u0 := (s1.genCancel i).pleatFetch i k.req.target
      let u := u0.setPe i { u0.pe i with act := k.req.target }
      if pair then u.setPe (i + 1) { u.pe (i + 1) with act := k.req.target, gen := false } else u
  match s2.slotOf k.id with
  | some y =>
    let rest := y.todo.filter (fun j => j != i)
    if rest.isEmpty then s2.freeSlot k.id else s2.putSlot { y with todo := rest }
  | none => s2

/-- Can a PE emit its FOLD tokens and fold now (R149)? The PEs of a FAILED group hold (R434). -/
def State.foldFree (s : State) (i : Nat) (k : Slot) : Bool :=
  let x := s.pe i
  let ds := if s.validAt i x.act then s.dests i (s.pleat i x.act) else []
  !s.rb R.AR_CTRL F.AR_CTRL_FROZEN && s.domOn (2 + peRow i / 4)
    && (match s.tileGroup (peTile i) with | some g => !s.rb (R.FT_GRP_STAT g) F.FT_GRP_STAT_FAILED | none => true)
    && (s.priv i x.act).dup.isNone && !s.shadowBusy k i
    && ds.all (fun d => s.takesFold k.id d)

/-- The injected wavefront that a PE's own FOLDGEN requested, a recorded one in a replay too (R156, R431): the PE is its entry and folds without
tokens. -/
def State.ownSlot (s : State) (i : Nat) : Option Slot :=
  if (s.pe i).gen then s.arr.slots.find? (fun k => (k.replay || decide (k.t0 ≠ 0)) && k.req.gen == some i && k.todo.contains i) else none

/-- The slot under which a PE may fold: the one whose FOLD token is at the head of every enabled input, or, at a source PE, the oldest injected
slot that it has not folded under. -/
def State.foldSlot (s : State) (i : Nat) : Option Slot :=
  if (s.ownSlot i).isSome then s.ownSlot i
  else if s.foldSource i then s.arr.slots.find? (fun k => k.todo.contains i && decide (k.t0 ≠ 0))
  else match s.inputs i with
  | [] => none
  | d :: r =>
    match (((s.pe i).fifo d).toks.head?).filter (fun t => t.fold) with
    | none => none
    | some t =>
      if r.all (fun e => match ((s.pe i).fifo e).toks.head? with | some u => u.fold && u.slot == t.slot | none => false) then
        (s.slotOf t.slot).filter (fun k => k.todo.contains i)
      else none

/-- PE_FOLD (R149): a PE with FOLD tokens of one slot at every enabled head consumes them, emits its own and changes
Pleat. -/
def execPeFold (pe : Fin 1536) (s : State) : Host.Outcome State Fault Refusal :=
  let i := pe.val
  .next (if s.isTwin i then s
    else match s.foldSlot i with
      | none => s
      | some k =>
        if ¬ s.foldFree i k then s
        else
          let own := (s.ownSlot i).isSome
          let ins := if own || s.foldSource i then [] else s.inputs i
          let s0 := if own then s.clearGen i else s
          let s1 := ins.foldl (fun t d => t.popFifo i d) s0
          let s2 := if s.tilePaired (peTile i) then ins.foldl (fun t d => t.popFifo (i + 1) d) s1 else s1
          s2.foldPe i k)

/-! The switch edge -/

/-- The CUT stop at which the path of lane l into PE i begins: back over PASS stops (R104, R146). -/
def State.laneStart (s : State) (l : Nat) : Nat → Nat → Nat → Option Nat
  | 0, _, _ => none
  | n + 1, c, r => match nextStop (if l % 2 = 0 then l + 1 else l - 1) c r with
    | none => none
    | some (c2, r2) =>
      let p := peIx c2 r2
      if (s.pleat p (s.pe p).act).cut.testBit l then some p else State.laneStart s l n c2 r2

/-- The lane that arrives on a side through a feeder code. -/
def laneIn (side code : Nat) : Nat :=
  (match side with | 3 => 0 | 1 => 1 | 0 => 4 | _ => 5) + (if code = 3 then 2 else 0)

/-- Is an enabled input fed by a PE of the mask, under its active Pleat (R146)? -/
def State.fedInside (s : State) (m i side : Nat) : Bool :=
  let code := s.feedNow i side
  let inside := fun (p : Nat) (f : Pleat → Bool) => m.testBit (peTile p) && s.validAt p (s.pe p).act && f (s.pleat p (s.pe p).act)
  match code with
  | 1 => match s.nbr i side with
    | some p => inside p (fun q => q.dSide.testBit (oppSide side) && !(oppSide side == 1 && q.eTp))
    | none => false
  | 2 => match s.laneStart (laneIn side 2) 16 (peCol i) (peRow i) with
    | some p => inside p (fun q => q.dLane.testBit (laneIn side 2))
    | none => false
  | 3 => match s.laneStart (laneIn side 3) 16 (peCol i) (peRow i) with
    | some p => inside p (fun q => q.dLane.testBit (laneIn side 3))
    | none => false
  | _ => false

/-- A FOLD token placed at the tail of a queue, at an item boundary (R147). -/
def State.foldIntoQueue (s : State) (q : Nat) (t : Token) : State :=
  let k := s.qu q
  s.settleQ q { k with pend := k.pend ++ [t] } k.ents.length

/-- A FOLD token placed at the tail of a FIFO; at a Cuff express port it enters at once (R147). -/
def State.foldIntoFifo (s : State) (i side : Nat) (t : Token) (express : Bool) : State :=
  let x := s.pe i
  let f := x.fifo side
  s.setPe i (x.setFifo side (({ f with pend := f.pend ++ [t], mid := f.mid && !express } : Fifo).settle))

/-- A FOLD token at one entry (R146). -/
def State.injectEntry (s : State) (t : Token) (i side : Nat) : State :=
  match s.feedNow i side with
  | 4 => s.foldIntoQueue (if side = 3 then 1024 + peRow i else 1056 + peRow i) t
  | 5 => s.foldIntoQueue (1160 + 4 * peTile i + peRow i % 4) t
  | c =>
    let s1 := s.foldIntoFifo i side t (c == 6)
    if s1.tilePaired (peTile i) then s1.foldIntoFifo (i + 1) side t (c == 6) else s1

/-- The injection edge of a wavefront (R146–R148, R156). Entries and source PEs are those of the active Pleats at the edge; a source PE that
cannot emit yet folds when it can (R108). -/
def State.injectWave (s : State) (w : Switch) : State :=
  match s.slotOf w.slot with
  | none => s
  | some k0 =>
    let k := { k0 with t0 := s.now + 1 }
    let pes := k.todo
    let ents := pes.flatMap (fun i => if w.req.gen = some i ∨ s.foldSource i then [] else
      ((s.inputs i).filter (fun d => !s.fedInside w.req.mask i d)).map (fun d => (i, d)))
    let srcs := pes.filter (fun i => decide (w.req.gen = some i) || s.foldSource i)
    let s1 := ents.foldl (fun t e => t.injectEntry k.token e.1 e.2) (s.putSlot k)
    let s3 := srcs.foldl (fun t i =>
      if t.foldFree i k then (if w.req.gen = some i then t.clearGen i else t).foldPe i k else t) s1
    if w.req.trig = 5 then s3.setGrp w.req.grp { s3.grp w.req.grp with wavesOld := (s3.grp w.req.grp).waves.length }
    else (List.range 32).foldl (fun t g =>
      if t.rb (R.FT_GRP_CFG g) F.FT_GRP_CFG_EN ∧ t.grpMask g &&& w.req.mask ≠ 0 then
        t.setGrp g { t.grp g with waves := (t.grp g).waves ++ [k] } else t) s3

/-- The switch edge of a global fold (R143, R144, R157, R425). -/
def State.switchAll (s : State) (f : FoldReq) : State :=
  let s1 := s.cancelSlots (s.arr.slots.filter (fun k => k.req.mask &&& f.mask != 0))
  let s2 := (tilesOf f.mask).foldl (fun t tile => (List.range 16).foldl (fun u j =>
    let i := 16 * tile + j
    let v := u.genCancel i
    v.setPe i { v.pe i with act := f.target }) t) s1
  (List.range 32).foldl (fun t g =>
    if t.rb (R.FT_GRP_CFG g) F.FT_GRP_CFG_EN ∧ t.grpMask g &&& f.mask ≠ 0 then t.openGroup g else t) s2

/-- FOLD_SWITCH_EDGE (R139, R143–R148): the oldest issued fold takes effect. -/
def execFoldSwitchEdge (s : State) : Host.Outcome State Fault Refusal :=
  .next (match s.arr.sw with
    | [] => s
    | w :: r =>
      let s1 : State := { s with arr := { s.arr with sw := r } }
      if w.req.wave then s1.injectWave w else s1.switchAll w.req)

/-- FOLD_TOKEN_ENTER (R147, R170): FOLD tokens that wait at an item boundary enter their FIFO or queue where there is room; they count in the depth
that a threshold judges. -/
def execFoldTokenEnter (s : State) : Host.Outcome State Fault Refusal :=
  let s1 : State := { s with
    arr := { s.arr with pes := Tab.mapKeep (fun _ => Pe.idle) (fun _ x =>
      { x with n := x.n.settle, e := x.e.settle, so := x.so.settle, w := x.w.settle }) s.arr.pes }
    qs := Tab.mapKeep (fun _ => Queue.empty) (fun q k => k.settle (s.qCap q) (s.keeps q)) s.qs }
  .next (s1.each (s.qs.map (fun e => e.1)) (fun q t => t.qThr q (s.qu q).ents.length (t.qu q).ents.length))

/-- A number of ACLK in YCLK. -/
def State.aclkY (s : State) (n : Nat) : Nat := n * 10 / max 1 (s.rf R.CK_ACLK F.CK_ACLK_N)

/-- WAVE_STUCK (R154): a slot has not completed PL_WAVE_TMO ACLK after its injection edge. A checkpoint's is a timeout detection
(Table FT-1). -/
def execWaveStuck (slot : Fin 16) (s : State) : Host.Outcome State Fault Refusal :=
  let tmo := (s.rg R.PL_WAVE_TMO).toNat
  .next (match s.slotOf slot with
    | none => s
    | some k =>
      if tmo = 0 ∨ k.t0 = 0 ∨ k.stuck ∨ s.now + 1 < k.t0 + s.aclkY tmo then s
      else
        let s1 := (s.putSlot { k with stuck := true }).raiseF R.PL_EVT F.PL_EVT_WAVE_STUCK
        if k.req.trig = 5 then s1.report 6 [(4, nodeIx (peTile (k.todo.headD 0) % 12) (peTile (k.todo.headD 0) / 12 + 1))] else s1)

/-- CANCEL_WAVES (R144, R154). -/
def execCancelWaves (s : State) : Host.Outcome State Fault Refusal := .next (s.cancelSlots s.arr.slots)

/-! Loads -/

/-- The inbound port queues of a tile (R124, R125). -/
def tilePorts (t : Nat) : List Nat :=
  (List.range 4).map (fun j => 1160 + 4 * t + j)
    ++ (if t % 12 = 0 then (List.range 4).map (fun j => 1024 + 4 * (t / 12) + j) else [])
    ++ (if t % 12 = 11 then (List.range 4).map (fun j => 1056 + 4 * (t / 12) + j) else [])

/-- Is a token of tile t, produced under Pleat p, still in the tile: in a FIFO, a DUP still to come, or an inbound port queue (R160)? -/
def State.countIn (s : State) (t p : Nat) : Bool :=
  let mine := fun (k : Token) => !k.fold && k.tag == p && (match k.src with | some i => peTile i == t | none => false)
  (List.range 16).any (fun j =>
    let x := s.pe (16 * t + j)
    x.n.toks.any mine || x.e.toks.any mine || x.so.toks.any mine || x.w.toks.any mine
      || (match (s.priv (16 * t + j) p).dup with | some _ => true | none => false))
    || (tilePorts t).any (fun q => (s.qu q).ents.any mine)

/-- Is Pleat p busy in tile t (R160)? The target of an issued fold is so before its switch edge too (Table PL-7). -/
def State.busy (s : State) (t p : Nat) : Bool :=
  (List.range 16).any (fun j => (s.pe (16 * t + j)).act == p) || s.countIn t p
    || s.arr.slots.any (fun k => k.req.trig != 5 && k.req.target == p && k.req.mask.testBit t)
    || s.arr.sw.any (fun w => w.req.trig != 5 && w.req.target == p && w.req.mask.testBit t) || s.loadingAt t p

/-- Loads queued or running. -/
def State.loadDepth (s : State) : Nat := s.arr.loadQ.length + (if s.arr.loadRun.isSome then 1 else 0)

/-- PL_LOAD_STAT's last result, and the end of the descriptor that asked for the load. -/
def State.loadResult (s : State) (l : LoadReq) (st cnt : Nat) (first : Option Nat) : State :=
  let loc := match first with
    | some i => 0x80000 * peCol i + 0x2000000 * peRow i
    | none => 0
  let s1 := s.setRg R.PL_LOAD_STAT (w32 (16 * st + 256 * cnt + loc))
  s1.hiLoaded l.src st

/-- PLEAT_LOAD_QUEUE (R159): a write of PL_LOAD_CMD with GO queues a load; a full queue refuses it. -/
def execPleatLoadQueue (v : Word) (s : State) : Host.Outcome State Fault Refusal :=
  let l : LoadReq := { plane := F.PL_LOAD_CMD_PLANE.get v, slot := F.PL_LOAD_CMD_SLOT.get v,
                       mask := s.mask3 R.PL_LOAD_MASK_W0 R.PL_LOAD_MASK_W1 R.PL_LOAD_MASK_W2, src := none }
  .next (if ¬ F.PL_LOAD_CMD_GO.bit v then s
    else if 8 ≤ s.loadDepth then
      (s.setRf R.PL_LOAD_STAT F.PL_LOAD_STAT_STATUS 4).raiseF R.PL_EVT F.PL_EVT_LOAD_REFUSED
    else { s with arr := { s.arr with loadQ := s.arr.loadQ ++ [l] } })

/-- A load over: PL_LOAD_STAT and its events (R162). -/
def State.loadOver (s : State) (k : LoadRun) : State :=
  let s1 := ({ s with arr := { s.arr with loadRun := none } } : State).loadResult k.req (if k.bad = 0 then 0 else 2) k.bad k.first
  let s2 := s1.raiseF R.PL_EVT F.PL_EVT_LOAD_DONE
  if k.bad = 0 then s2 else s2.raiseF R.PL_EVT F.PL_EVT_LOAD_INVALID

/-- Why a load is refused at its start (R161): PL_LOAD_STAT.STATUS. -/
def State.loadBad (s : State) (l : LoadReq) : Option Nat :=
  if (tilesOf l.mask).any (fun t => s.busy t l.slot) then some 1
  else if s.rf R.PL_LIB_CFG F.PL_LIB_CFG_PLANES ≤ l.plane then some 5
  else if (tilesOf l.mask).any (fun t => !s.domOn (2 + t / 12)) then some 6
  else none

/-- LOAD_START (R161): the next load is checked and starts, or is refused. -/
def execLoadStart (s : State) : Host.Outcome State Fault Refusal :=
  .next (match s.arr.loadRun, s.arr.loadQ with
    | none, l :: r =>
      let s1 : State := { s with arr := { s.arr with loadQ := r } }
      match s.loadBad l with
      | some c => (s1.loadResult l c 0 none).raiseF R.PL_EVT F.PL_EVT_LOAD_REFUSED
      | none =>
        let k : LoadRun := { req := l, tiles := tilesOf l.mask, bad := 0, first := none }
        if k.tiles.isEmpty then s1.loadOver k else { s1 with arr := { s1.arr with loadRun := some k } }
    | _, _ => s)

/-- The private state that a load leaves (R135). -/
def Priv.loaded (q : Pleat) : Priv := { Priv.zero with p0 := q.p0, p1 := q.p1, ptr := q.base }

/-- The word of one PE loaded from its bank: bad words arrive as poison. An armed flip mask applies to the lowest word written (R237). -/
def State.loadPe (s : State) (i p src : Nat) : State :=
  let s1 := ((List.range 4).foldl (fun t k =>
    let (u, d, st) := t.readWord (t.smbPlace (src + 8 * k)) 1
    if st = 0 then u.storeWord (u.pleatAt i p + 8 * k) d else u.storePoison (u.pleatAt i p + 8 * k)) s).flip (s.pleatAt i p)
  let s2 : State := { s1 with arr := { s1.arr with aborted := s1.arr.aborted.filter (fun a => a != 16 * s1.phys i + p) } }
  s2.setPriv i p (Priv.loaded (s2.pleat i p))

/-- TILE_LOAD_DONE (R158, R159, R162): the running load completes at a tile, after a fill or repair copy there; in a Paired tile a twin takes its primary's
word (R417). -/
def execTileLoadDone (tile : Fin 96) (s : State) : Host.Outcome State Fault Refusal :=
  let t := tile.val
  .next (match s.arr.loadRun with
    | none => s
    | some k =>
      if ¬ k.tiles.contains t ∨ s.filling (memPleat + 512 * s.phys (16 * t))
          ∨ s.smbRangeHeld (0x80000 * t + 512 * (s.rf R.PL_LIB_CFG F.PL_LIB_CFG_BASE + k.req.plane)) 512 then s
      else
        let p := k.req.slot
        let base := 0x80000 * t + 512 * (s.rf R.PL_LIB_CFG F.PL_LIB_CFG_BASE + k.req.plane)
        let s1 := (List.range 16).foldl (fun u j =>
          u.loadPe (16 * t + j) p (base + 32 * (if s.isTwin (16 * t + j) then j - 1 else j))) s
        let rest := k.tiles.filter (fun x => x != t)
        let seen := match s1.arr.foldQ with
          | f :: _ => if f.target = p ∧ f.mask.testBit t then s1.arr.headIn ++ [t] else s1.arr.headIn
          | [] => s1.arr.headIn
        let s2 : State := ({ s1 with arr := { s1.arr with loadRun := some { k with tiles := rest }, headIn := seen } } : State).hiTile k.req.src
        let bad := ((List.range 16).map (fun j => 16 * t + j)).filter (fun i => !s2.isTwin i && !s2.validAt i p)
        let first := match k.first, bad.head? with
          | some a, some b => some (min a b)
          | some a, none => some a
          | none, b => b
        let k2 : LoadRun := { k with tiles := rest, bad := k.bad + bad.length, first := first }
        if rest.isEmpty then s2.loadOver k2 else { s2 with arr := { s2.arr with loadRun := some k2 } })

/-- A running load aborted: its Pleat is not valid in the tiles that had not completed (Table PL-7). -/
def State.abortLoad (s : State) : State :=
  match s.arr.loadRun with
  | none => s
  | some k =>
    let dead := k.tiles.flatMap (fun t => (List.range 16).map (fun j => 16 * s.phys (16 * t + j) + k.req.slot))
    ({ s with arr := { s.arr with loadRun := none, aborted := s.arr.aborted ++ dead.filter (fun a => !s.arr.aborted.contains a) } } :
      State).loadResult k.req 3 0 none

/-- The fold and load queues emptied, every wavefront cancelled (Table PL-7). Loads of descriptors end ABORTED. -/
def State.plFlush (s : State) : State :=
  let s1 := s.cancelSlots s.arr.slots
  let s2 := s1.abortLoad
  let s3 := (s2.arr.loadQ.foldl (fun t l => t.hiLoaded l.src 3) s2)
  let s4 := ((s.arr.foldIn ++ s.arr.foldQ).filter (fun f => f.desc.isSome)).foldl (fun t f =>
    t.tick.hiFoldRefused f.desc (Config.foldFlush t.freeCtr)) s3
  let s3 : State := { s4 with arr := { s4.arr with
    foldIn := [], foldQ := [], sw := [], headIn := [], genReqs := [], loadQ := [] } }
  { s3 with arr := { s3.arr with pes := Tab.mapKeep (fun _ => Pe.idle) (fun _ x => { x with gen := false }) s3.arr.pes } }

/-- PL_BLK_RST (Table PL-7). -/
def State.plBlkRst (s : State) : State :=
  let run := s.arr.loadRun.isSome
  let s1 := s.plFlush.clearRegs .block 0x200000 0x300000
  let s2 : State := { s1 with arr := { s1.arr with seq := 0 } }
  if run then s2.setRf R.PL_LOAD_STAT F.PL_LOAD_STAT_STATUS 3 else s2

/-- PL_BLK_RST. -/
def execPlBlkRst (s : State) : Host.Outcome State Fault Refusal :=
  .next (s.blkRst 6 s.plBlkRst)

/-- PL_WCMD ended with a status (R164). -/
def State.wcmdEnd (s : State) (st : Nat) : State := s.setRg R.PL_WCMD (w32 (4 + 8 * st))

/-- The stored word that PL_WSEL selects: PE, Pleat, word; none for a column past 47. -/
def State.wsel (s : State) : Option (Nat × Nat × Nat) :=
  let v := s.rg R.PL_WSEL
  let c := F.PL_WSEL_COL.get v
  if c < 48 then some (peIx c (F.PL_WSEL_ROW.get v), F.PL_WSEL_PLEAT.get v, F.PL_WSEL_WORD.get v) else none

/-- PLEAT_WORD_READ (R164). The data of a bad word is free. -/
def execPleatWordRead (s : State) : Host.Outcome State Fault Refusal :=
  .next (match s.wsel with
    | none => s.wcmdEnd 2
    | some (i, p, w) =>
      let a := s.pleatAt i p + 4 * w
      let (s1, d, st) := s.readWord a 0
      if st = 0 then (s1.setRg R.PL_WDATA (w32 (d / 2 ^ (8 * (a % 8))))).wcmdEnd 0
      else (s1.tick.setRg R.PL_WDATA (Config.badWord s1.freeCtr)).wcmdEnd 0)

/-- PLEAT_WORD_WRITE (R164): refused while the Pleat is busy in the tile; a primary's write is made to its twin too (R417). -/
def execPleatWordWrite (s : State) : Host.Outcome State Fault Refusal :=
  .next (match s.wsel with
    | none => s.wcmdEnd 2
    | some (i, p, w) =>
      if s.busy (peTile i) p then s.wcmdEnd 1
      else
        let one := fun (t : State) (j : Nat) =>
          let a := t.pleatAt j p + 4 * w
          let (u, _) := t.writeWords 0 [(a, (t.rg R.PL_WDATA).toNat * 2 ^ (8 * (a % 8)), 15 * 2 ^ (a % 8))]
          ({ u with arr := { u.arr with aborted := u.arr.aborted.filter (fun k => k != 16 * u.phys j + p) } } : State)
        let s1 := one s i
        (if s1.tilePaired (peTile i) ∧ ¬ s1.isTwin i then one s1 (i + 1) else s1).wcmdEnd 0)

end Sys2Proof.Machine
end

