-- ==== Sys2Proof/Machine/Array.lean ====
section
/-! DEFINITION. The AR block beside firing (03_array.md, R89–R90, R126, R131–R133): remap, freeze, access to PE state, Cuff
express inputs, block reset. -/

namespace Sys2Proof.Machine

/-! Remap and freeze -/

/-- The columns that an AR_COLMAP word marks. -/
def colMarks (v : Word) : List Nat :=
  (if F.AR_COLMAP_V0.bit v then [F.AR_COLMAP_FAIL0.get v] else []) ++ (if F.AR_COLMAP_V1.bit v then [F.AR_COLMAP_FAIL1.get v] else [])

/-- AR_CFG_ERR (R90). -/
def State.arRefuse (s : State) (code : Nat) : State := (s.setRg R.AR_CFG_ERR (w32 code)).raiseF R.AR_EVT F.AR_EVT_CFG_ERR

/-- Does a new AR_COLMAP mark a third column or one column twice? Columns already marked count (DEDUCED), and a number past 49
names no column. -/
def colMapBad (old v : Word) : Bool :=
  let m := colMarks v
  decide (m.eraseDups.length < m.length) || m.any (fun c => decide (50 ≤ c)) || decide (2 < (colMarks old ++ m).eraseDups.length)

/-- AR_COLMAP_WRITE (R90): refused unless FROZEN; during a recovery too (Table FT-7). Nothing moves with the columns. -/
def execArColmapWrite (v : Word) (s : State) : Host.Outcome State Fault Refusal :=
  let rec_ : Bool := match s.ft.run with | some r => r.freeze | none => false
  .next (if ¬ s.rb R.AR_CTRL F.AR_CTRL_FROZEN ∨ rec_ then s.arRefuse 1
    else if colMapBad (s.rg R.AR_COLMAP) v then s.arRefuse 2
    else
      let s1 := s.store R.AR_COLMAP v
      s1.setRf R.FT_STAT F.FT_STAT_GUSSET_FREE (2 - (colMarks (s1.rg R.AR_COLMAP)).length))

/-- Does a recovery hold the Array frozen (R427)? -/
def State.recFrozen (s : State) : Bool :=
  match s.ft.run with
  | some r => r.freeze && decide (2 ≤ r.step) && decide (r.step < 6)
  | none => false

/-- FREEZE_WRITE (R131, R427, R449): AR_CTRL.FREEZE; FROZEN follows it, and holds through a recovery and while ACLK relocks. -/
def State.freeze (s : State) (on : Bool) : State :=
  (s.setRb R.AR_CTRL F.AR_CTRL_FREEZE on).setRb R.AR_CTRL F.AR_CTRL_FROZEN (on || s.recFrozen || s.rs.relock)

/-- FROZEN as AR_CTRL, the recovery and the PLL stand. -/
def State.frozenShow (s : State) : State := s.freeze (s.rb R.AR_CTRL F.AR_CTRL_FREEZE)

/-- FREEZE_WRITE. -/
def execFreezeWrite (on : Bool) (s : State) : Host.Outcome State Fault Refusal := .next (s.freeze on)

/-! PE state through AR_PE_DATA -/

/-- The occupancy of the FIFOs of a PE as register 19 shows it. -/
def Pe.occupancy (x : Pe) : Nat :=
  x.n.toks.length + 16 * x.e.toks.length + 256 * x.so.toks.length + 4096 * x.w.toks.length

/-- A register of a PE by its REG code (AR_PE_SEL). -/
def State.peReg (s : State) (i p reg : Nat) : Nat :=
  let v := s.priv i p
  if reg < 8 then ((s.pe i).s.getD reg 0).toNat
  else match reg with
    | 8 => v.p0.toNat | 9 => v.p1.toNat | 10 => v.p2.toNat | 11 => v.p3.toNat
    | 12 => v.acc0.toNat % 2 ^ 32 | 13 => v.acc0.toNat / 2 ^ 32 % 2 ^ 32 | 14 => v.acc0.toNat / 2 ^ 64
    | 15 => v.acc1.toNat % 2 ^ 32 | 16 => v.acc1.toNat / 2 ^ 32 % 2 ^ 32 | 17 => v.acc1.toNat / 2 ^ 64
    | 18 => v.fl.word
    | 19 => (s.pe i).occupancy
    | _ => v.ptr

/-- A third of an accumulator replaced. -/
def accPart (v : BitVec 72) (k : Nat) (x : Word) : BitVec 72 :=
  let n := v.toNat
  let b := 32 * k
  let w := if k = 2 then 8 else 32
  BitVec.ofNat 72 (n - bitsOf n b w * 2 ^ b + x.toNat % 2 ^ w * 2 ^ b)

/-- A register of a PE written by its REG code. -/
def State.setPeReg (s : State) (i p reg : Nat) (x : Word) : State :=
  let v := s.priv i p
  if reg < 8 then s.setPe i { s.pe i with s := (s.pe i).s.set reg x }
  else s.setPriv i p (match reg with
    | 8 => { v with p0 := x } | 9 => { v with p1 := x } | 10 => { v with p2 := x } | 11 => { v with p3 := x }
    | 12 => { v with acc0 := accPart v.acc0 0 x } | 13 => { v with acc0 := accPart v.acc0 1 x }
    | 14 => { v with acc0 := accPart v.acc0 2 x }
    | 15 => { v with acc1 := accPart v.acc1 0 x } | 16 => { v with acc1 := accPart v.acc1 1 x }
    | 17 => { v with acc1 := accPart v.acc1 2 x }
    | 18 => { v with fl := PeFlags.ofWord x }
    | 20 => { v with ptr := x.toNat % 2048 }
    | _ => v)

/-- AR_PE_CMD ended with a status. -/
def State.peCmdEnd (s : State) (st : Nat) : State := s.setRg R.AR_PE_CMD (w32 (4 + 8 * st))

/-- What AR_PE_SEL selects: PE, Pleat, REG; none for a bad selection. -/
def State.peSel (s : State) : Option (Nat × Nat × Nat) :=
  let v := s.rg R.AR_PE_SEL
  let c := F.AR_PE_SEL_COL.get v
  let g := F.AR_PE_SEL_REG.get v
  if c < 48 ∧ g ≤ 20 then some (peIx c (F.AR_PE_SEL_ROW.get v), F.AR_PE_SEL_PLEAT.get v, g) else none

/-- PE_DATA_READ: AR_PE_CMD.RD. -/
def execPeDataRead (s : State) : Host.Outcome State Fault Refusal :=
  .next (match s.peSel with
    | none => s.peCmdEnd 2
    | some (i, p, g) => (s.setRg R.AR_PE_DATA (w32 (s.peReg i p g))).peCmdEnd 0)

/-- PE_DATA_WRITE (R132, R417): AR_PE_CMD.WR; only while FROZEN, which is judged first (R508); a primary's write is made to its twin too. -/
def execPeDataWrite (s : State) : Host.Outcome State Fault Refusal :=
  .next (if ¬ s.rb R.AR_CTRL F.AR_CTRL_FROZEN then s.peCmdEnd 1
    else match s.peSel with
    | none => s.peCmdEnd 2
    | some (i, p, g) =>
      if g = 19 then s.peCmdEnd 2
      else
        let x := s.rg R.AR_PE_DATA
        let s1 := s.setPeReg i p g x
        (if s1.tilePaired (peTile i) ∧ ¬ s1.isTwin i then s1.setPeReg (i + 1) p g x else s1).peCmdEnd 0)

/-! Cuff express inputs -/

/-- The level at the ball of Cuff n: what the part drives, else the level from outside (R126, R264). -/
def State.ballLevel (s : State) (n : Nat) : Bool := if s.cuffDrives n then (s.cuff n).level else (s.cuff n).inp

/-- The input word of express port k: the balls of its 32 Cuffs (R126). -/
def State.expWord (s : State) (k : Nat) : Word :=
  let g := s.rf (R.AR_EXP_CFG k) F.AR_EXP_CFG_IN_GRP
  w32 ((List.range 32).foldl (fun a i => a + (if s.ballLevel (32 * g + i) then 2 ^ i else 0)) 0)

/-- An express word written into a W FIFO, at once behind what is there; it cannot be replayed (R423). -/
def State.pushExpress (s : State) (i : Nat) (v : Word) : State :=
  let x := s.pe i
  let s1 := s.setPe i { x with w := { x.w with toks := x.w.toks ++ [valTok v false] } }
  match s1.tileGroup (peTile i) with
  | some g => if s1.tileMode (peTile i) = 1 then s1.openGroup g else s1
  | none => s1

/-- EXPRESS_INPUT_CHANGE (R126): express port k captures its Cuffs and writes its home PE's W FIFO when it was just enabled,
when the word differs from the last, or when a word waits; a full FIFO keeps the newest word waiting. -/
def execExpressInputChange (k : Fin 16) (s : State) : Host.Outcome State Fault Refusal :=
  let v := s.expWord k
  let home := peIx 0 (2 * k.val)
  let new := s.arr.expNew.contains k.val || (s.arr.expPend.any (fun e => e.1 == k.val)) || decide (s.rg (R.AR_EXP_IN k) ≠ v)
  .next (if ¬ s.rb (R.AR_EXP_CFG k) F.AR_EXP_CFG_EN ∨ ¬ new then s
    else
      let s1 := s.setRg (R.AR_EXP_IN k) v
      let s2 : State := { s1 with arr := { s1.arr with
        expNew := s1.arr.expNew.filter (fun j => j != k.val)
        expPend := s1.arr.expPend.filter (fun e => e.1 != k.val) } }
      if s2.feedNow home 3 = 6 ∧ (s2.pe home).w.toks.length < 4 ∧ ¬ s2.rb R.AR_CTRL F.AR_CTRL_FROZEN then
        let s3 := s2.pushExpress home v
        if s3.tilePaired (peTile home) then s3.pushExpress (home + 1) v else s3
      else { s2 with arr := { s2.arr with expPend := s2.arr.expPend ++ [(k.val, v)] } })

/-! Block reset -/

/-- Every PE of a tile under its PL_HOME Pleat, all else at reset (R133, R137). -/
def State.homePes (s : State) : State :=
  (List.range 96).foldl (fun t k =>
    let h := t.rf (R.PL_HOME k) F.PL_HOME_PLEAT
    if h = 0 then t else (List.range 16).foldl (fun u j => u.setPe (16 * k + j) { Pe.idle with act := h }) t)
    { s with arr := { s.arr with pes := [], privs := [] } }

/-- Every group with a tile is OPEN after a reset of the Array (R425). -/
def State.openTiled (s : State) : State :=
  (List.range 32).foldl (fun t g => if t.grpMask g = 0 then t else t.openGroup g) s

/-- Every group is OPEN after a Run reset (R439). -/
def State.openAll (s : State) : State := (List.range 32).foldl (fun t g => t.openGroup g) s

/-- The Array emptied (R133, R137, Table PL-7): FIFOs, port queues and lanes, PE and Pleat state; fold and load queues as
PL_CTRL.BLK_RST; local memory filled with FILL_ON_RST. -/
def State.arrayReset (s : State) : State :=
  let fill := s.rb R.AR_CTRL F.AR_CTRL_FILL_ON_RST
  let s1 := (s.plFlush.emptyQs 1024 1152).emptyQs 1160 1544
  let s2 := s1.homePes.openTiled
  let s3 : State := { s2 with arr := { s2.arr with expNew := [], expPend := [] } }
  if fill then s3.startFill { ranges := [(memLM, memLM + 1600 * 0x2000)], dom := none } else s3

/-- AR_CTRL.BLK_RST (R133). -/
def State.arBlkRst (s : State) : State :=
  let s1 := s.arrayReset.clearRegs .block 0x100000 0x200000
  if s1.recFrozen || s1.rs.relock then s1.setRb R.AR_CTRL F.AR_CTRL_FROZEN true else s1

/-- AR_BLK_RST. -/
def execArBlkRst (s : State) : Host.Outcome State Fault Refusal :=
  .next (s.blkRst 5 s.arBlkRst)

end Sys2Proof.Machine
end

