-- ==== Sys2Proof/Machine/Ports.lean ====
section
/-! DEFINITION. What feeds and drains the queues (05_stream_ports_and_queues.md, R168, R173, R180–R186, R193; R124, R125,
R151): fabric ports, tile port lanes, stream channels, sensor ports, the block reset. -/

namespace Sys2Proof.Machine

/-! Push and pop -/

/-- A FOLD token that the fabric writes into an inbound port is discarded and counted (R151). -/
def State.fabFold (s : State) : State :=
  (s.bump R.PL_ERRCNT F.PL_ERRCNT_FAB_FOLD 1).raiseF R.PL_EVT F.PL_EVT_FAB_FOLD

/-- A word from an inbound port queue or lane into its PE's FIFO: a FOLD token is discarded where R151 says so. -/
def State.portToPe (s : State) (q : Nat) (t : Token) : State :=
  let (i, side, code) := s.inFifo q
  let open_ := !s.rb R.AR_CTRL F.AR_CTRL_FROZEN && (decide (q < 1160) || s.rb (R.AR_TILE_CFG ((q - 1160) / 4)) F.AR_TILE_CFG_TP_EN)
  if open_ ∧ t.fold ∧ ¬ s.foldEnters t.slot i side code then s.qDrop q
  else match (s.qDrop q).intoPe q t with
    | some s1 => s1
    | none => s

/-- The next word of a queue given to its consumer, where that can take it (R125, R166, R177, R179, R180, R182). The host and
the Ethernet ports take theirs within their own commands. -/
def State.popTo (s : State) (q : Nat) : State :=
  match s.qHead q with
  | none => s.qAwait q
  | some t =>
    let give := (s.qDrop q).emit (.word q t.data t.tag t.last t.fold t.err)
    if q < 1024 then
      let b := s.rg (R.SQ_Q_BIND q)
      let l := F.SQ_Q_BIND_CONS_ID.get b
      match F.SQ_Q_BIND_CONS_KIND.get b with
      | 2 => if s.rb (R.AR_TILE_CFG (l / 4)) F.AR_TILE_CFG_TP_EN ∧ s.qTakes (1160 + l) then (s.qDrop q).giveIn (1160 + l) t else s
      | 5 => give
      | _ => s
    else if q < 1088 then s.portToPe q t
    else if q < 1152 then give
    else if q < 1160 then
      if s.rb (R.SQ_SP_CFG (q - 1152)) F.SQ_SP_CFG_SINK then
        match s.boundQ true 4 (q - 1152) with
        | some k => if s.qTakes k then (s.qDrop q).qGive k t false else s
        | none => s
      else give
    else s.portToPe q t

/-- TRUNCATION_MARKER (R173): a consumer that a flush caught mid-item receives the marker. -/
def execTruncationMarker (q : Fin 1160) (s : State) : Host.Outcome State Fault Refusal :=
  .next (if (s.qu q).marker then s.popTo q else s)

/-! Sensor ports -/

/-- The queue number of a sensor port. -/
def spQ (p : Nat) : Nat := 1152 + p

/-- The item in progress of a sensor port ended by a marker in the kept place, counted and noted (R185, R186). -/
def State.spEnd (s : State) (p : Nat) : State :=
  let k := s.spr p
  let s1 := ((s.setSpr p { k with midItem := false }).bump (R.SQ_SP_STAT p) F.SQ_SP_STAT_OVF 1).raiseF R.SQ_EVT F.SQ_EVT_SP_OVF
  if (s.qu (spQ p)).ents.length < 512 ∨ (s.qu (spQ p)).swallow then s1.qGive (spQ p) (Token.marker 0) false else s1

/-- SP ALIGN (R183): the port starts to align; an item in progress ends with a marker (DEDUCED from R185). -/
def execSpAlign (p : Fin 8) (s : State) : Host.Outcome State Fault Refusal :=
  let s1 := if (s.spr p).midItem then s.spEnd p else s
  .next (s1.setSpr p { s1.spr p with st := .aligning, laneLock := 0, words := 0, runs := [0, 0, 0, 0], slide := [0, 0, 0, 0], frames := 0, decim := 0,
                                     midItem := false, discard := false })

/-- SP_ALIGN_TIMEOUT (R183): 65,536 word times without lock. -/
def execSpAlignTimeout (p : Fin 8) (s : State) : Host.Outcome State Fault Refusal :=
  let k := s.spr p
  .next (if k.st = .aligning ∧ 65536 ≤ k.words then (s.setSpr p { k with st := .unlocked }).raiseF R.SQ_EVT F.SQ_EVT_SP_ALIGN_FAIL
         else s)

/-- One data word of a sensor port queued, or its item truncated (R186). -/
def State.spPush (s : State) (p : Nat) (v : Word) (last : Bool) : State :=
  let k := s.spr p
  if k.discard then s.setSpr p { k with discard := !last }
  else if (s.qu (spQ p)).ents.length < 511 ∨ (s.qu (spQ p)).swallow then
    (s.setSpr p { k with midItem := !last }).qGive (spQ p) (Token.word v last) false
  else
    let s1 := s.spEnd p
    s1.setSpr p { s1.spr p with discard := !last }

/-- Bits in a word time of a lane: 16, in RAW mode 8 (R182). -/
def State.spBits (s : State) (p : Nat) : Nat := if F.SQ_SP_CFG_MODE.get (s.rg (R.SQ_SP_CFG p)) = 2 then 8 else 16

/-- The word of lane k at its boundary: the bits of the word time before and of this one, `slide` bits back (R183); a lane that is off reads
0 (R182). -/
def State.spLane (s : State) (p : Nat) (lanes : BitVec 64) (k : Nat) : Nat :=
  let n := s.spBits p
  let x := (s.spr p).prev.getD k 0 % 2 ^ n * 2 ^ n + bitsOf lanes.toNat (16 * k) 16 % 2 ^ n
  if (s.rf (R.SQ_SP_CFG p) F.SQ_SP_CFG_LANES_EN).testBit k then bitsOf x ((s.spr p).slide.getD k 0) n else 0

/-- A word time while aligning (R183): a lane that shows the pattern at one boundary four times in a row has found it; one that does not show
it, and has not found it, slides its boundary by a bit. -/
def State.spSearch (s : State) (p : Nat) (lanes : BitVec 64) : State :=
  let k := s.spr p
  let n := s.spBits p
  let en := s.rf (R.SQ_SP_CFG p) F.SQ_SP_CFG_LANES_EN
  let pat := s.rf (R.SQ_SP_SYNC p) F.SQ_SP_SYNC_SYNC % 2 ^ n
  let hit := fun (i : Nat) => en.testBit i && s.spLane p lanes i == pat
  let runs := (List.range 4).map (fun i => if hit i then k.runs.getD i 0 + 1 else 0)
  let found := (List.range 4).foldl (fun m i => if 4 ≤ runs.getD i 0 then setBit m i else m) k.laneLock
  let slide := (List.range 4).map (fun i =>
    if hit i ∨ found.testBit i ∨ ¬ en.testBit i then k.slide.getD i 0 else (k.slide.getD i 0 + 1) % n)
  let k1 := { k with runs := runs, laneLock := found, slide := slide, words := k.words + 1 }
  s.setSpr p (if en &&& found = en then { k1 with st := .locked, frames := 0, decim := 0 } else k1)

/-- The frame count after one more set or word, and whether that was the last of its item (R182). -/
def State.spFrame (s : State) (p : Nat) : Nat × Bool :=
  let n := s.rf (R.SQ_SP_CFG p) F.SQ_SP_CFG_FRAME_LEN
  let len := if n = 0 then 65536 else n
  let f := (s.spr p).frames + 1
  if len ≤ f then (0, true) else (f, false)

/-- What a sensor port does with the bits of a word time (R182–R184, R186). -/
def State.spTake (s : State) (n : Nat) (lanes : BitVec 64) (tap : Nat) : State :=
  let k := s.spr n
  let cfg := s.rg (R.SQ_SP_CFG n)
  let l := fun i => s.spLane n lanes i
  match k.st with
  | .aligning => s.spSearch n lanes
  | .locked =>
    let (f, last) := s.spFrame n
    let s1 := s.setSpr n { k with frames := f }
    if F.SQ_SP_CFG_MODE.get cfg = 1 then
      let k1 := s1.spr n
      let s2 := if k.decim = 0 then
          s1.setSpr n { k1 with decim := F.SQ_SP_CFG_DECIM.get cfg, yokeSeq := k.yokeSeq + 1
                                yokeSet := (List.range 4).map (fun i => BitVec.ofNat 16 (l i))
                                yokeTs := 128 * (s.now : Int) + tap - sext 16 (s.rf (R.SQ_SP_SYNC n) F.SQ_SP_SYNC_TADJ) }
        else s1.setSpr n { k1 with decim := k.decim - 1 }
      (s2.spPush n (w32 (l 0 + 0x10000 * l 1)) false).spPush n (w32 (l 2 + 0x10000 * l 3)) last
    else if F.SQ_SP_CFG_MODE.get cfg = 2 then
      s1.spPush n (w32 (l 0 % 256 + 256 * (l 1 % 256) + 0x10000 * (l 2 % 256) + 0x1000000 * (l 3 % 256))) last
    else s
  | _ => s

/-- SP_WORD (R182–R184, R186): one word time. `lanes` holds the 16 bits that each lane captured in it (RAW: 8), the first in the highest
place; the first bit of the words cut from them was captured at tap `tap` of the present YCLK. -/
def execSpWord (p : Fin 8) (lanes : BitVec 64) (tap : BitVec 7) (s : State) : Host.Outcome State Fault Refusal :=
  let s1 := s.spTake p lanes tap.toNat
  .next (s1.setSpr p { s1.spr p with prev := (List.range 4).map (fun i => bitsOf lanes.toNat (16 * i) 16) })

/-- SP_CLOCK_LOSS (R185): a LOCKED port without a clock edge for 1 µs is DOWN. -/
def execSpClockLoss (p : Fin 8) (s : State) : Host.Outcome State Fault Refusal :=
  .next (if (s.spr p).st = .locked then
      let s1 := if (s.spr p).midItem then s.spEnd p else s
      (s1.setSpr p { s1.spr p with st := .down, discard := false }).raiseF R.SQ_EVT F.SQ_EVT_SP_DOWN
    else s)

/-- SQ_SP_STAT: state and lane locks beside OVF. -/
def State.spStat (s : State) (p : Nat) : Word :=
  w32 ((s.spr p).st.code + 4 * (s.spr p).laneLock + (s.rg (R.SQ_SP_STAT p)).toNat / 0x10000 * 0x10000)

/-- Each sensor port discards words up to its next frame boundary after its queue was emptied (R193). -/
def State.spResync (s : State) : State :=
  s.each (List.range 8) (fun p t =>
    let k := t.spr p
    t.setSpr p { k with midItem := false, discard := decide (k.frames ≠ 0) })

/-- SQ_BLK_RST (R193): every queue but the Array's port queues and lanes empties; every SQ field marked Block. -/
def State.sqBlkRst (s : State) : State :=
  (((s.emptyQs 0 1024).emptyQs 1152 1160).spResync).clearRegs .block 0x300000 0x340000

/-- SQ_BLK_RST. -/
def execSqBlkRst (s : State) : Host.Outcome State Fault Refusal :=
  .next (s.blkRst 7 s.sqBlkRst)

end Sys2Proof.Machine
end

