-- ==== Sys2Proof/Machine/Fabric.lean ====
section
/-! DEFINITION. The logic fabric (08_logic_fabric.md, R245–R271): contention monitor, clocks, block RAM, timers, master ports,
user window, staged release, capture. The user logic's own doings at its connections are operands. -/

namespace Sys2Proof.Machine

/-! Regions and connections -/

/-- The power domain of a clock region (R245). -/
def regionDom (r : Nat) : Nat := if r < 4 then 10 else 11

/-- Is a connection held (R261, R295)? By number: 0–31 west ports, 32–63 east ports, 64–95 stream channels, 96–99 master ports,
100–115 user event lines, 116–123 FOLD_REQ lines; 124 the user window, of the static region. -/
def State.connHeld (s : State) (c : Nat) : Bool :=
  s.fbStage != 3 || decide ((s.cgr (if c < 124 then connRegion s.cg.hdr c else 15)).stage < 3)

/-- The connection at the fabric's end of a queue: Array ports, or the stream channel it is bound to on that side. -/
def State.queueConn (s : State) (q : Nat) (prod : Bool) : Option Nat :=
  if q < 1024 then
    let b := s.rg (R.SQ_Q_BIND q)
    if prod then if F.SQ_Q_BIND_PROD_KIND.get b = 5 then some (64 + F.SQ_Q_BIND_PROD_ID.get b) else none
    else if F.SQ_Q_BIND_CONS_KIND.get b = 5 then some (64 + F.SQ_Q_BIND_CONS_ID.get b) else none
  else if q < 1088 then if prod then some (q - 1024) else none
  else if q < 1152 then if prod then none else some (q - 1088)
  else none

/-- The queues whose producer or consumer is one of the connections that `p` names. -/
def State.connQueues (s : State) (p : Nat → Bool) : List Nat :=
  (s.enabledQs ++ (List.range 128).map (fun i => 1024 + i)).filter (fun q =>
    (match s.queueConn q true with | some c => p c | none => false)
      || (match s.queueConn q false with | some c => p c | none => false))

/-- A queue of the fabric flushed by a reset of the fabric or a Sleeve (R268, R295): SWALLOW clears at once, and only a
consumer outside the fabric receives the marker. -/
def State.fabFlush (s : State) (q : Nat) : State :=
  let s1 := s.flushQ q
  let k := s1.qu q
  s1.setQu q { k with swallow := false, flushing := false, prodMid := false
                      marker := k.marker && (s.queueConn q false).isNone }

/-- QUEUE_PUSH (R166–R170, R124, R177): the fabric's word for an inbound port queue, or for the SMB-resident queue that its
stream channel is bound to. A queue that cannot take it, and a connection that is held, leave it with its producer. Other
producers push within their own commands. `lost`: port A writes the entry's word in the same NCLK (R227). `par` false says that an upset reaches a token on its way from the port to its PE, whose FIFO then finds PAR0 wrong (R99, R124). -/
def execQueuePush (q : Fin 1160) (data : Word) (tag : BitVec 4) (last fold err par lost : Bool) (s : State) :
    Host.Outcome State Fault Refusal :=
  let n := q.val
  let t : Token := Token.make data tag.toNat last false err none
  .next (match s.queueConn n true with
    | none => s
    | some c =>
      if s.connHeld c then s
      else if n < 1024 then (if s.qTakes n then s.qGive n t lost else s)
      else if fold then s.fabFold
      else if s.qTakes n then s.qGive n (if par then t else t.upset 40) false else s)

/-- QUEUE_POP (R168): the consumer takes the next word; a held connection takes none. -/
def execQueuePop (q : Fin 1544) (s : State) : Host.Outcome State Fault Refusal :=
  .next (match s.queueConn q.val false with
    | some c => if s.connHeld c then s else s.popTo q.val
    | none => s.popTo q.val)

/-! Tristate long lines -/

/-- A line. -/
def State.tline (s : State) (l : Nat) : TLine := Tab.get (fun _ => TLine.idle) s.fb.tl l
def State.setTline (s : State) (l : Nat) (x : TLine) : State :=
  { s with fb := { s.fb with tl := Tab.put (fun _ => TLine.idle) s.fb.tl l x } }

/-- TL_CONTENTION (R249): at a monitor edge `drivers` enables of a line are 1, two or more; `anyZero` says that one of the
enabled drivers drives 0. -/
def execTlContention (line : Fin 128) (drivers : BitVec 8) (anyZero : Bool) (s : State) : Host.Outcome State Fault Refusal :=
  let k := s.tline line
  .next (if drivers.toNat < 2 then s
    else if s.rb (R.FB_TL_CFG (line / 16)) F.FB_TL_CFG_EN then
      if k.rel then s
      else
        let s1 := (s.setTline line { k with rel := true }).bump R.FB_TL_CNT F.FB_TL_CNT_COUNT 1
        (s1.setRg R.FB_TL_LOG (F.FB_TL_LOG_DRIVERS.put (F.FB_TL_LOG_LINE.put 0 line) (satN 31 drivers.toNat))).raiseF
          R.FB_EVT F.FB_EVT_CONTENTION
    else s.setTline line { keep := !anyZero, rel := false })

/-- TL_CONTENTION_END (R249): at a monitor edge at most one enable is 1; the line follows that driver. -/
def execTlContentionEnd (line : Fin 128) (driver : Option Bool) (s : State) : Host.Outcome State Fault Refusal :=
  .next (s.setTline line { keep := driver.getD (s.tline line).keep, rel := false })

/-! Clocks -/

/-- PLL_LOCK_LOSS (R252). -/
def execPllLockLoss (p : Fin 4) (s : State) : Host.Outcome State Fault Refusal :=
  .next (if s.rb (R.FB_PLL_STAT p) F.FB_PLL_STAT_LOCK then
      ((s.setRb (R.FB_PLL_STAT p) F.FB_PLL_STAT_LOCK false).bump (R.FB_PLL_STAT p) F.FB_PLL_STAT_LOSS 1).raiseF
        R.FB_EVT F.FB_EVT_PLL_UNLOCK
    else s)

/-- PLL_LOCK (R252): a PLL that is not held in reset locks and its outputs run. -/
def execPllLock (p : Fin 4) (s : State) : Host.Outcome State Fault Refusal :=
  .next (if s.rb (R.FB_PLL_CFG p) F.FB_PLL_CFG_RST then s else s.setRb (R.FB_PLL_STAT p) F.FB_PLL_STAT_LOCK true)

/-- A write of FB_PLL_CFG or FB_PLL_DIV: CFG and DIV take effect only while RST is 1; a PLL put into reset is not locked. -/
def State.pllWrite (s : State) (p a : Nat) (v : Word) : State :=
  let c := R.FB_PLL_CFG p
  if s.rb c F.FB_PLL_CFG_RST then
    if a = c then
      let s1 := s.store c v
      if F.FB_PLL_CFG_RST.bit v then s1 else { s1 with fb := { s1.fb with pllAt := s1.now } }
    else s.store a v
  else if a = c ∧ F.FB_PLL_CFG_RST.bit v then (s.setRb c F.FB_PLL_CFG_RST true).setRb (R.FB_PLL_STAT p) F.FB_PLL_STAT_LOCK false
  else s

/-- A multiplexer. -/
def State.cmux (s : State) (m : Nat) : ClkMux := Tab.get (fun _ => ClkMux.idle) s.fb.mux m
def State.setCmux (s : State) (m : Nat) (x : ClkMux) : State :=
  { s with fb := { s.fb with mux := Tab.put (fun _ => ClkMux.idle) s.fb.mux m x } }

/-- The clocks of a switch run (R253): `live`, an edge of the current input that leaves the output low; then `falls` falling edges of the new
input, the second of which ends the switch. A select that came during it starts the next. -/
def ClkMux.run (k : ClkMux) (now : Nat) (live : Bool) (falls : Nat) : ClkMux :=
  match k.goal with
  | none => k
  | some n =>
    let k1 := if live ∧ ¬ k.low then { k with low := true, edge := now } else k
    let f := k1.fell + falls
    if ¬ k1.low then k1
    else if f < 2 then { k1 with fell := f }
    else match k1.pend with
      | some p => if p = n then { ClkMux.idle with cur := n, edge := now } else { cur := n, goal := some p, low := false, fell := 0, pend := none, edge := now }
      | none => { ClkMux.idle with cur := n, edge := now }

/-- CLOCK_MUX_SELECT (R253): the select line of a multiplexer changes and starts a switch, or, during one, waits for its end. Then the clocks
run: `live` says that the current input makes a falling edge, and `falls` how many the new input makes after it. -/
def execClockMuxSelect (mux sel : Nat) (live : Bool) (falls : Fin 3) (s : State) : Host.Outcome State Fault Refusal :=
  let k := s.cmux mux
  let k1 := match k.goal with
    | some _ => { k with pend := some sel }
    | none => if sel = k.cur then k else { k with goal := some sel, low := false, fell := 0, edge := s.now }
  .next (s.setCmux mux (k1.run s.now live falls))

/-- CLOCK_MUX_TIMEOUT (R253): the current input has made no edge for 1 µs, and the switch goes on without it; `falls` falling edges of the new
input follow. -/
def execClockMuxTimeout (mux : Nat) (falls : Fin 3) (s : State) : Host.Outcome State Fault Refusal :=
  let k := s.cmux mux
  .next (if k.goal.isNone ∨ k.low ∨ s.now < k.edge + 500 then s
    else s.setCmux mux (({ k with low := true } : ClkMux).run s.now false falls))

/-! Block RAM -/

/-- A port of a block RAM. -/
def State.bport (s : State) (i : Nat) : BramPort := Tab.get (fun _ => BramPort.idle) s.fb.bram i
def State.setBport (s : State) (i : Nat) (x : BramPort) : State :=
  { s with fb := { s.fb with bram := Tab.put (fun _ => BramPort.idle) s.fb.bram i x } }

/-- Widths of a port by aspect ratio (R255): 32K×1 … 1K×36, 512×72. -/
def bramWidth (k : Nat) : Nat :=
  match k with
  | 0 => 1 | 1 => 2 | 2 => 4 | 3 => 9 | 4 => 18 | 5 => 36 | _ => 72
/-- Words of a port. -/
def bramDepth (k : Nat) : Nat := if k = 6 then 512 else 2 ^ (15 - k)

end Sys2Proof.Machine

namespace Sys2Proof
open Machine

/-- The first data bit of an access, and its width (R255): bit k of the word at address a is data bit a × W + k. -/
def BramAcc.lo (x : BramAcc) : Nat := x.addr.toNat % bramDepth x.width * bramWidth x.width
def BramAcc.w (x : BramAcc) : Nat := bramWidth x.width
/-- The 64-bit words that an access touches. -/
def BramAcc.words (x : BramAcc) : List Nat :=
  let a := x.lo / 64
  let b := (x.lo + x.w - 1) / 64
  if a = b then [a] else [a, b]
/-- The bits of word w that an access covers: their mask in the word, and its data placed there. -/
def BramAcc.part (x : BramAcc) (w : Nat) : Nat × Nat :=
  let m := 2 ^ x.w - 1
  let d := x.data.toNat % 2 ^ x.w
  if x.lo / 64 = w then (m * 2 ^ (x.lo % 64) % 2 ^ 64, d * 2 ^ (x.lo % 64) % 2 ^ 64)
  else (m / 2 ^ (64 - x.lo % 64), d / 2 ^ (64 - x.lo % 64))

end Sys2Proof

namespace Sys2Proof.Machine

/-- The place of word w of a block. -/
def bramPlace (block w : Nat) : Nat := memBRAM + 0x2000 * block + 8 * w

/-- An uncorrectable or poison result of a block RAM (R256). -/
def State.bramErr (s : State) (block port word : Nat) (write : Bool) : State :=
  (s.setRg R.FB_BRAM_ERR (w32 (block + 256 * port + 512 * b2n write + 1024 * word))).raiseF R.FB_EVT F.FB_EVT_BRAM_ERR

/-- A read of a port (R255, R256): every bit from an uncorrectable or poisoned word is 0 and ERR is asserted. -/
def State.bramRead (s : State) (block port : Nat) (x : BramAcc) : State × Nat × Bool :=
  x.words.foldl (fun (acc : State × Nat × Bool) w =>
    let (t, d, e) := acc
    let (t1, v, st) := t.readWord (bramPlace block w) port
    if st = 0 then
      let m := (x.part w).1
      let bits := v &&& m
      (t1, d + (if x.lo / 64 = w then bits / 2 ^ (x.lo % 64) else bits * 2 ^ (64 - x.lo % 64)), e)
    else (t1.bramErr block port w false, d, true)) (s, 0, false)

/-- A write of a port (R255–R257), but for the words in `lost`: a part-word write reads the word first, and writes nothing
where it is uncorrectable or poisoned. The flag is WERR. An armed flip mask applies to the lowest word written (R237). -/
def State.bramWrite (s : State) (block port : Nat) (x : BramAcc) (lost : List Nat) : State × Bool :=
  let (s1, e, first) := x.words.foldl (fun (acc : State × Bool × Option Nat) w =>
    let (t, e, first) := acc
    let (m, d) := x.part w
    let p := bramPlace block w
    let mark := some (first.getD p)
    if lost.contains w then acc
    else if m = 2 ^ 64 - 1 then (t.storeWord p d, e, mark)
    else
      let (t1, v, st) := t.readWord p port
      if st = 0 then (t1.storeWord p (andNot v m + d), e, mark) else (t1.bramErr block port w true, true, first)) (s, false, none)
  ((match first with | some p => s1.flip p | none => s1), e)

/-- The old data at an access, without effect (READ_FIRST, R255). -/
def State.bramOld (s : State) (block : Nat) (x : BramAcc) : Nat :=
  x.words.foldl (fun d w =>
    let v := s.fixedAt (bramPlace block w) &&& (x.part w).1
    d + (if x.lo / 64 = w then v / 2 ^ (x.lo % 64) else v * 2 ^ (64 - x.lo % 64))) 0

/-- What a port shows after its access (R255): a read's data; on a write the new data, the old data, or what it showed. -/
def State.bramShow (s : State) (i : Nat) (x : BramAcc) (old rd : Nat) (err werr coll : Bool) : State :=
  let k := s.bport i
  let d := if ¬ x.we then rd else if x.mode.val = 0 then x.data.toNat % 2 ^ x.w else if x.mode.val = 1 then old else k.dout
  s.setBport i { dout := d, err := err, werr := werr, coll := coll }

/-- BRAM_PORT_ACCESS (R255–R257): the accesses of ports A and B of one block in the same cycle. Both reads see the data from
before the cycle's writes; of two writes to one word port A's stands. Writes act from stage 2 on and reads from stage 1 (R265).
As a 512×72 RAM port A only writes and port B only reads. -/
def execBramPortAccess (block : Fin 240) (a b : Option BramAcc) (s : State) : Host.Outcome State Fault Refusal :=
  let stage := s.fbStage
  let ok := fun (wrOk rdOk : Bool) (o : Option BramAcc) => o.filter (fun x =>
    if x.we then decide (2 ≤ stage) && (wrOk || x.width != 6) else decide (1 ≤ stage) && (rdOk || x.width != 6))
  let held := s.filling (bramPlace block 0)
  let a1 := if held then none else ok true false a
  let b1 := if held then none else ok false true b
  let rd := fun (t : State) (port : Nat) (o : Option BramAcc) => match o with
    | some x => if x.we then (t, 0, false) else t.bramRead block port x
    | none => (t, 0, false)
  let (s1, da, ea) := rd s 0 a1
  let (s2, db, eb) := rd s1 1 b1
  let aw := match a1 with | some x => if x.we then x.words else [] | none => []
  let bw := match b1 with | some x => if x.we then x.words else [] | none => []
  let coll := bw.any aw.contains
  let wr := fun (t : State) (port : Nat) (o : Option BramAcc) (lost : List Nat) => match o with
    | some x => if x.we then t.bramWrite block port x lost else (t, false)
    | none => (t, false)
  let (s3, wa) := wr s2 0 a1 []
  let (s4, wb) := wr s3 1 b1 aw
  let s5 := if coll then s4.bump R.FB_COLL_CNT F.FB_COLL_CNT_COUNT 1 else s4
  let s6 := match a1 with | some x => s5.bramShow (2 * block) x (s.bramOld block x) da ea wa false | none => s5
  .next (match b1 with | some x => s6.bramShow (2 * block + 1) x (s.bramOld block x) db eb wb coll | none => s6)

/-! Timers -/

/-- TIMER_MATCH (R259): `edges` rising edges of the timer's clock come. Where the count equals CMP, MATCH pulses once for that count: at the
count already there, or where it arrives on the way. Before stage 2 the timer's registers are not written (R265). -/
def execTimerMatch (k : Fin 32) (edges : Word) (s : State) : Host.Outcome State Fault Refusal :=
  let c := s.rg (R.FB_TMR_CFG k)
  if F.FB_TMR_CFG_EN.bit c ∧ 2 ≤ s.fbStage then
    let p := F.FB_TMR_CFG_PRESC.get c + 1
    let total := Tab.get (fun _ => 0) s.fb.presc k + edges.toNat
    let old := (s.rg (R.FB_TMR_CNT k)).toNat
    let cmp := (s.rg (R.FB_TMR_CMP k)).toNat
    let n := total / p
    let gap := (cmp + 2 ^ 32 - 1 - old) % 2 ^ 32
    let pulse := decide (gap < n) || (old == cmp && !s.fb.tmrHit.contains k.val)
    let at_ := decide ((old + n) % 2 ^ 32 = cmp)
    let s1 : State := { s with fb := { s.fb with
      presc := Tab.put (fun _ => 0) s.fb.presc k (total % p)
      tmrHit := s.fb.tmrHit.filter (· != k.val) ++ (if at_ then [k.val] else []) } }
    let s2 := s1.setRg (R.FB_TMR_CNT k) (w32 (old + n))
    .next (if pulse then s2.emit (.fabric 0 k 1) else s2)
  else .next s

/-- A write of FB_TMR_CMP: a count that comes to equal it by the write pulses MATCH too (R259). -/
def State.cmpWrite (s : State) (k : Nat) (v : Word) : State :=
  let a := R.FB_TMR_CMP k
  let s1 : State := if s.rg a = v then s else { s with fb := { s.fb with tmrHit := s.fb.tmrHit.filter (· != k) } }
  s1.store a v

/-- TIMER_CAPTURE (R260): the count is latched for a mark's CAPTURE action on its way, a rising CAPIN edge, or both at one
edge of the timer's clock. Before stage 2 the timer's registers are not written (R265). -/
def execTimerCapture (k : Fin 32) (capin : Bool) (s : State) : Host.Outcome State Fault Refusal :=
  let m := s.fb.tmrTrig.contains k.val
  let s1 : State := { s with fb := { s.fb with tmrTrig := s.fb.tmrTrig.erase k.val } }
  let c := R.FB_TMR_CFG k
  .next (if ¬ m ∧ ¬ capin then s
    else if ¬ (s.domOn 10 ∧ s.domOn 11) ∨ s.fbStage < 2 then s1
    else if s1.rb c F.FB_TMR_CFG_CAP_VALID then (s1.setRb c F.FB_TMR_CFG_CAP_OVR true).raiseF R.FB_EVT F.FB_EVT_TMR_OVR
    else ((s1.setRg (R.FB_TMR_CAP k) (s1.rg (R.FB_TMR_CNT k))).setRb c F.FB_TMR_CFG_CAP_VALID true).setRf c
      F.FB_TMR_CFG_CAP_SRC (b2n m + 2 * b2n capin))

/-! Master ports and the user window -/

/-- The node of master port m: N(0,0), N(0,9), N(11,0), N(11,9) in the order of their regions (DEDUCED from R245, R262). -/
def mportNode (m : Nat) : Nat :=
  match m with
  | 0 => 0 | 1 => 108 | 2 => 11 | _ => 119

/-- MPORT_REQUEST (R262): user logic's request on a master port that is enabled and not held, with room among its 16. The port
sends it on VC0 with its own PARTNER and URG. -/
def execMportRequest (m : Fin 4) (p : Packet) (s : State) : Host.Outcome State Fault Refusal :=
  let c := s.rg (R.FB_MPORT_CFG m)
  let node := mportNode m
  let cmd := p.cmd.toNat
  .next (if F.FB_MPORT_CFG_EN.bit c ∧ ¬ s.connHeld (96 + m) ∧ (cmd = 1 ∨ cmd = 2 ∨ cmd = 3)
      ∧ (s.net.outst.filter (fun o => o.node == node && o.port == 0)).length
        + (s.net.held.filter (fun h => h.req.src == node && h.req.srcPort == 0)).length < 16 then
      s.request { p with srcX := BitVec.ofNat 4 (node % 12), srcY := BitVec.ofNat 4 (node / 12), srcPort := 0, vc := 0
                         dl := false, dirx := false, diry := false, esc := false, age := 0, status := 0
                         partner := BitVec.ofNat 10 (F.FB_MPORT_CFG_PARTNER.get c)
                         urg := BitVec.ofNat 4 (F.FB_MPORT_CFG_URG.get c) }
    else s)

/-- MPORT_CFG_WRITE (R262): a PARTNER below 4 is refused and the field keeps its value. -/
def execMportCfgWrite (m : Fin 4) (v : Word) (s : State) : Host.Outcome State Fault Refusal :=
  let a := R.FB_MPORT_CFG m
  let f := F.FB_MPORT_CFG_PARTNER
  .next (s.store a (if f.get v < 4 then f.put v (s.rf a f) else v))

/-- The answer to a user window access, to its requester: a network request, or BAR0. -/
def State.uwinAnswer (s : State) (p : Option Packet) (write : Bool) (status : Nat) (v : Word) : State :=
  match p with
  | some q =>
    if status = 0 then s.inject (q.reply 0 (if write then [] else [BitVec.ofNat 256 v.toNat]))
    else s.answerErr q.dst (4 + q.dstPort.toNat) q status
  | none => if write then s else s.emit (.pcie false [if status = 0 then v else 0])

/-- A user window access arrives (R263): before stage 3, or with the static region held, it is answered ADDR_ERR. -/
def State.uwinAccess (s : State) (p : Option Packet) (off : Nat) (w : Option Word) : State :=
  if s.connHeld 124 then s.uwinAnswer p w.isSome 6 0
  else
    let s1 := s.emit (.fabric 3 off ((w.map (fun x => x.toNat)).getD 0))
    { s1 with fb := { s1.fb with uwin := s1.fb.uwin ++ [(p, off, w, s.nclk)] } }

/-- UWIN_ANSWER (R263): user logic answers the oldest access. -/
def execUwinAnswer (v : Word) (s : State) : Host.Outcome State Fault Refusal :=
  match s.fb.uwin with
  | [] => .next s
  | (p, _, w, _) :: r => .next (({ s with fb := { s.fb with uwin := r } } : State).uwinAnswer p w.isSome 0 v)

/-- UWIN_TIMEOUT (R263): FB_UWIN_TMO GCLK (4 NCLK each) without an answer. -/
def execUwinTimeout (s : State) : Host.Outcome State Fault Refusal :=
  match s.fb.uwin with
  | [] => .next s
  | (p, _, w, at_) :: r =>
    .next (if at_ + 4 * s.rf R.FB_UWIN_TMO F.FB_UWIN_TMO_TMO ≤ s.nclk then
        (({ s with fb := { s.fb with uwin := r } } : State).uwinAnswer p w.isSome 6 0).raiseF R.FB_EVT F.FB_EVT_UWIN_TMO
      else s)

/-- USER_EVENT_RISE (R261): the lines are not held by the staged release; a line of a Sleeved region reads 0 (R295). -/
def execUserEventRise (n : Fin 16) (s : State) : Host.Outcome State Fault Refusal :=
  .next (if (s.cgr (connRegion s.cg.hdr (100 + n))).stage = 0 then s else s.raise R.FB_UEVT_PEND (1 <<< n.val))

/-! Staged release -/

/-- Every PLL that the image enables (taken out of reset) is locked. -/
def State.pllsLocked (s : State) : Bool :=
  (List.range 4).all (fun p => s.rb (R.FB_PLL_CFG p) F.FB_PLL_CFG_RST || s.rb (R.FB_PLL_STAT p) F.FB_PLL_STAT_LOCK)

/-- The PLL condition of R267: all locked, or 200 µs since they were started. -/
def State.pllsReady (s : State) : Bool := s.pllsLocked || decide (s.fb.pllAt + 100000 ≤ s.now)

/-- Boot Proof has passed (CG_STATUS.STATE WAIT_DONE or DONE). -/
def State.proofPassed (s : State) : Bool := let x := s.rf R.CG_STATUS F.CG_STATUS_STATE; x == 5 || x == 6

/-- FB_REL_STAT: STAGE, and which condition of stage 1 is open once Proof has passed (R267). -/
def State.relStat (s : State) : Word :=
  let w := s.fbStage == 0 && s.proofPassed
  w32 (s.fbStage + 4 * b2n (w && !s.fb.cfgDone) + 8 * b2n (w && !s.pllsReady))

/-- A stage of the whole fabric reached. -/
def State.fbReach (s : State) (n : Nat) : State :=
  let s1 := s.setRf R.FB_REL_STAT F.FB_REL_STAT_STAGE n
  { s1 with fb := { s1.fb with relAt := s1.now } }

/-- RELEASE_STAGE1 (R267): the fabric leaves configuration when Proof has passed, the PLLs are ready and CFG_DONE reads 1.
A region's own stage 1 is the end of its load (R297). -/
def execReleaseStage1 (s : State) : Host.Outcome State Fault Refusal :=
  .next (if s.fbStage = 0 ∧ s.proofPassed ∧ s.pllsReady ∧ s.fb.cfgDone ∧ ¬ s.fb.hold then
      let s1 := (s.fbReach 1).setRf R.CG_STATUS F.CG_STATUS_STATE 6
      if s.pllsLocked then s1 else s1.raiseF R.FB_EVT F.FB_EVT_PLL_UNLOCK
    else s)

/-- RELEASE_STAGE2 (R265, R297): 32 GCLK later, for the fabric or for one region. -/
def execReleaseStage2 (region : Option (Fin 15)) (s : State) : Host.Outcome State Fault Refusal :=
  .next (match region with
    | none => if s.fbStage = 1 ∧ ¬ s.fb.hold ∧ s.fb.relAt + 64 ≤ s.now then s.fbReach 2 else s
    | some r =>
      let k := s.cgr r
      if k.stage = 1 ∧ ¬ s.fb.hold ∧ k.at_ + 64 ≤ s.now then s.setCgr r { k with stage := 2, at_ := s.now } else s)

/-- RELEASE_STAGE3 (R265, R268, R297): held connections become active; an FB_CTRL.BLK_RST ends. -/
def execReleaseStage3 (region : Option (Fin 15)) (s : State) : Host.Outcome State Fault Refusal :=
  .next (match region with
    | none =>
      if s.fbStage = 2 ∧ ¬ s.fb.hold ∧ s.fb.relAt + 64 ≤ s.now then
        let s1 := ((s.fbReach 3).setRb R.FB_CTRL F.FB_CTRL_BLK_RST false).raiseF R.FB_EVT F.FB_EVT_REL_DONE
        { s1 with fb := { s1.fb with blk := false, ffRel := [] } }
      else s
    | some r =>
      let k := s.cgr r
      if k.stage = 2 ∧ ¬ s.fb.hold ∧ k.at_ + 64 ≤ s.now then
        (s.setCgr r { k with stage := 3, at_ := s.now }).setRf (R.CG_REG_STAT r) F.CG_REG_STAT_STATE 1
      else s)

/-- A clock's third edge in the regions that were released by themselves and wait for it (R266, R297). -/
def Region.third (k : Region) (clk : Nat) : Region :=
  match k.own with
  | some l => if k.stage = 3 ∧ ¬ l.contains clk then { k with own := some (l ++ [clk]) } else k
  | none => k

/-- FLIPFLOP_RELEASE (R266): the third rising edge of a clock (global 0–23, regional above) after stage 3, of the fabric or of a region. -/
def execFlipflopRelease (clk : Fin 120) (s : State) : Host.Outcome State Fault Refusal :=
  .next (if s.fbStage = 3 then
      { s with
        fb := { s.fb with ffRel := if s.fb.ffRel.contains clk.val then s.fb.ffRel else s.fb.ffRel ++ [clk.val] }
        cg := { s.cg with regions := s.cg.regions.map (fun e => (e.1, e.2.third clk)) } }
    else s)

/-- CFG_DONE_CHANGE (R267, R287): the wired CFG_DONE line as sampled; it cannot read 1 while this device holds it low. A fall
after stage 1 sets DONE_FELL. -/
def execCfgDoneChange (level : Bool) (s : State) : Host.Outcome State Fault Refusal :=
  let v := level && s.rb R.CG_STATUS F.CG_STATUS_DONE_OUT
  let s1 := (({ s with fb := { s.fb with cfgDone := v } } : State)).setRb R.CG_STATUS F.CG_STATUS_DONE_IN v
  .next (if s.fb.cfgDone ∧ ¬ v ∧ 1 ≤ s.fbStage then s1.raiseF R.FB_EVT F.FB_EVT_DONE_FELL else s1)

/-- The fabric back to the state after stage 1 (R268): its flip-flops at their reset values, its queues flushed, an armed capture gone; user
window accesses under way are answered ADDR_ERR, as before stage 3 (R263); the stages of regions begin again with it. -/
def State.fbToStage1 (s : State) : State :=
  let s0 := s.fb.uwin.foldl (fun t e => t.uwinAnswer e.1 e.2.2.1.isSome 6 0) s
  let s1 := (s0.connQueues (fun _ => true)).foldl (fun t q => t.fabFlush q) (s0.fbReach 1)
  let s2 := s1.setRb R.FB_CAP_STAT F.FB_CAP_STAT_ARMED false
  let back := Tab.mapKeep (fun _ => Region.idle) (fun _ k =>
    if 1 ≤ k.stage ∧ k.stage < 3 then { k with stage := 1, at_ := s.now, own := some [] }
    else if k.stage = 3 then { k with own := none } else k) s2.cg.regions
  { s2 with
    cg := { s2.cg with regions := back }
    fb := { s2.fb with tl := [], ffRel := [], ffs := [], capTrig := false, uwin := [], tmrTrig := [], presc := [], tmrHit := [], serial := [] } }

/-- FB_BLK_RST (R268, R269): ignored before stage 1 and while its own sequence runs; else every FB field marked Block, and the
fabric back to the state after stage 1. -/
def execFbBlkRst (s : State) : Host.Outcome State Fault Refusal :=
  .next (if s.blkHeld 10 = true ∨ s.fbStage = 0 ∨ s.fb.blk then s
    else
      let s1 := ((s.clearRegs .block 0x400000 0x480000).fbToStage1).setRb R.FB_CTRL F.FB_CTRL_BLK_RST true
      { s1 with fb := { s1.fb with blk := true } })

/-- What a Run reset does to the fabric (R268, R269): held in the state after stage 1 once stage 1 has begun. -/
def State.fbRunReset (s : State) : State :=
  let s1 := s.clearRegs .run 0x400000 0x480000
  if s1.fbStage = 0 then s1
  else
    let s2 := s1.fbToStage1
    { s2.setRb R.FB_CTRL F.FB_CTRL_BLK_RST false with fb := { s2.fb with hold := true, blk := false } }

/-! Capture -/

/-- CAP_ARM (R270, R271): armed, or armed again with the present settings; TAKEN clears. TRIG 0 is this write. -/
def execCapArm (s : State) : Host.Outcome State Fault Refusal :=
  let s1 := (s.setRb R.FB_CAP_STAT F.FB_CAP_STAT_ARMED true).setRb R.FB_CAP_STAT F.FB_CAP_STAT_TAKEN false
  .next { s1 with fb := { s1.fb with capTrig := s.rf R.FB_CAP_CFG F.FB_CAP_CFG_TRIG == 0 } }

/-- CAP_CANCEL (R271). -/
def execCapCancel (s : State) : Host.Outcome State Fault Refusal :=
  let s1 := s.setRb R.FB_CAP_STAT F.FB_CAP_STAT_ARMED false
  .next { s1 with fb := { s1.fb with capTrig := false } }

/-- A strobe line becomes visible in the fabric: the trigger of TRIG 1 (R270). -/
def State.capStrobe (s : State) (line : Nat) : State :=
  if s.rb R.FB_CAP_STAT F.FB_CAP_STAT_ARMED ∧ s.rf R.FB_CAP_CFG F.FB_CAP_CFG_TRIG = 1 ∧ s.rf R.FB_CAP_CFG F.FB_CAP_CFG_LINE = line then
    { s with fb := { s.fb with capTrig := true } }
  else s

/-- FF_CAPTURE_TAKE (R270): at the capture edge, at tap `tap` of the present YCLK, every flip-flop copies its state into the shadow plane:
`plane`, which the logic has made, and the reset values of those in reset (R271). Under TRIG 2 the user request line has risen before. `edge`
counts the rising edges of the clock CLK since the trigger: the capture edge is the DELAY-th, the first for DELAY 0. -/
def execFfCaptureTake (tap : BitVec 7) (edge : BitVec 16) (plane : List Word) (s : State) : Host.Outcome State Fault Refusal :=
  .next (if s.rb R.FB_CAP_STAT F.FB_CAP_STAT_ARMED ∧ (s.fb.capTrig ∨ s.rf R.FB_CAP_CFG F.FB_CAP_CFG_TRIG = 2)
      ∧ edge.toNat = max 1 (s.rf R.FB_CAP_CFG F.FB_CAP_CFG_DELAY) then
      let s1 := (s.setRg R.FB_CAP_TIME_LO (w32 s.now)).setRg R.FB_CAP_TIME_HI (w32 (s.now / 2 ^ 32 % 2 ^ 16 + 2 ^ 16 * tap.toNat))
      let s2 := (s1.setRb R.FB_CAP_STAT F.FB_CAP_STAT_ARMED false).setRb R.FB_CAP_STAT F.FB_CAP_STAT_TAKEN true
      let shot := (plane.zip (List.range plane.length)).map (fun e => s.ffWith e.2 e.1)
      ({ s2 with fb := { s2.fb with capTrig := false, ffs := plane, shadow := shot } } : State).raiseF R.FB_EVT F.FB_EVT_CAP_DONE
    else s)

end Sys2Proof.Machine
end

