-- ==== Sys2Proof/Machine/Actions.lean ====
section
/-! DEFINITION. What a mark's action does as it leaves the engine (02_marks_and_cuffs.md, R75–R81, R84, R179; R472–R474), and the
axis samples that the Yoke sends to Lace (R50). -/

namespace Sys2Proof.Machine

/-! The firing -/

/-- The action of mark n that leaves the engine: its oldest committed one, when that is `code` and its time has come. -/
def State.leaving (s : State) (n code : Nat) : Option Commit :=
  (s.mke.pipe.find? (fun c => c.mark == n)).filter (fun c => c.action == code && decide (c.leave ≤ s.now))

/-- The words of a mark's event record (Table EV-2). -/
def Commit.evData (c : Commit) (m : Mark) : EvData :=
  { late := c.late, hold := c.hold, detail := c.axis, w2 := w32 (satN 0xFFFFFFFF c.lateness), w3 := m.firesReg }

/-- The pending flag of source MK[n] (R75, R384). -/
def State.markEvent (s : State) (c : Commit) : State :=
  s.raiseWith (R.EV_MK_PEND (c.mark / 32)) (c.mark % 32) (c.evData (s.mark c.mark))

/-- A strobe line of the fabric (R75, R270), discarded while the fabric is not released or is off (R76). -/
def State.strobe (s : State) (line : Nat) (inst : Int) : State :=
  if s.fbStage = 3 ∧ ¬ s.fb.hold ∧ s.domOn 10 ∧ s.domOn 11 then (s.emit (.strobe line (inst % 128).toNat)).capStrobe line else s

/-- What a firing of MK[0]–MK[63] does in HX mode, and of the marks that stand for them in mixed use (R472, R482). -/
def State.hxFiring (s : State) (c : Commit) (oneshot : Bool) : State :=
  let p := s.hxParm
  if ¬ s.hxMark c.mark then s
  else
    let s1 := (s.markEvent c).strobe (c.mark - p.mbase) c.inst
    let k := 0x42 + 3 * (c.mark - p.mbase)
    if oneshot then s1.setHv k (clrBit (s1.hv k) 0) else s1

/-- The record of a firing (R66, R72, R76): MK_FIRES, MK_STAT and MK_EVT; an entry accepted behind the action applies now (Table
MK-5). A mark reset since its commit records nothing. -/
def State.recordFiring (s : State) (c : Commit) : State :=
  let s0 : State := { s with mke := { s.mke with pipe := s.mke.pipe.erase c } }
  let m := s.mark c.mark
  if m.inPipe = 0 then s0
  else
    let m1 := { m with fires := satN 0xFFFF (m.fires + 1), late := c.late, hold := c.hold, lateness := c.lateness, skipped := false,
                       lastUp := c.up, inPipe := m.inPipe - 1 }
    let s1 := (s0.setMark c.mark m1).raise R.MK_EVT (b2n c.late <<< c.axis + b2n c.hold <<< (8 + c.axis))
    s1.hxFiring c m.ent.oneshot

/-- After the action: an entry that waited behind it. -/
def State.afterFiring (s : State) (n : Nat) : State :=
  let m := s.mark n
  match m.behind with
  | some e => if m.inPipe = 0 then s.applyEntry n e else s
  | none => s

/-- An action of kind `code` leaves the engine. -/
def State.act (s : State) (n code : Nat) (f : State → Commit → State) : State :=
  match s.leaving n code with
  | none => s
  | some c => (f (s.recordFiring c) c).afterFiring n

/-! The actions (Table MK-7) -/

/-- NONE (R75). -/
def execActNone (n : Fin 1024) (s : State) : Host.Outcome State Fault Refusal := .next (s.act n 0 (fun t _ => t))

/-- Taps of a pulse width in ps, to the nearest (Table MK-7): a tap is 15.625 ps. -/
def widthTaps (ps : Nat) : Nat := (2 * ps * 64 + 1000) / 2000

/-- A CUFF_EDGE at its Cuff (R79, R81, R474). -/
def State.cuffEdge (s : State) (c : Commit) : State :=
  let n := c.arg0.toNat % 128
  let op := bitsOf c.arg0.toNat 8 2
  let k := s.cuff n
  let need := if op = 3 then 2 else 1
  let drop := fun (t : State) => t.bump (R.CF_STAT n) F.CF_STAT_DROP 1
  if s.cfOwner n ≠ 1 then (drop s).raiseF R.CF_EVT F.CF_EVT_OWN_ERR
  else if 8 < k.held + need then (drop s).raiseF R.CF_EVT F.CF_EVT_OVF
  else
    let at_ := s.hxPace c.mark c.inst
    let q := s.edgeSeq
    let es : List CuffEdge := match op with
      | 0 => [{ inst := at_, op := .setHi, seq := q, back := none }]
      | 1 => [{ inst := at_, op := .setLo, seq := q, back := none }]
      | 2 => [{ inst := at_, op := .toggle, seq := q, back := none }]
      | _ => [{ inst := at_, op := .pulseOn, seq := q, back := none },
              { inst := at_ + widthTaps c.arg1.toNat, op := .pulseOff, seq := q + 1, back := none }]
    { s.setCuff n { k with edges := k.edges ++ es } with edgeSeq := q + 2 }

/-- CUFF_EDGE (R79, R81). -/
def execActCuffEdge (n : Fin 1024) (s : State) : Host.Outcome State Fault Refusal := .next (s.act n 1 (fun t c => t.cuffEdge c))

/-- FOLD (R75, R139): sent to the fold unit on the tiles of MK_TMASK; it carries the descriptor of a FOLD_AT. -/
def execActFold (n : Fin 1024) (s : State) : Host.Outcome State Fault Refusal :=
  .next (s.act n 2 (fun t c =>
    let k := bitsOf c.arg0.toNat 8 4
    let d := t.hiFired n
    let t1 : State := { t with hi := { t.hi with folds := match d with
      | some e => t.hi.folds.filter (fun f => !(f.qp == e.1 && f.dseq == e.2))
      | none => t.hi.folds } }
    t1.sendFold { target := bitsOf c.arg0.toNat 0 4, wave := c.arg0.toNat.testBit 4, mask := t.mask3 (R.MK_TMASK_W0 k) (R.MK_TMASK_W1 k) (R.MK_TMASK_W2 k),
                  trig := 1, gen := none, grp := 0, desc := d.map (fun e => (e.1, e.2, c.lateness)) }))

/-- DMA_KICK (R179): a KICK request on VC2 from N(5,0) to the engine of the queue; a queue that is not SMB-resident has no engine
and is ignored. -/
def execActDmaKick (n : Fin 1024) (s : State) : Host.Outcome State Fault Refusal :=
  .next (s.act n 3 (fun t c =>
    let q := bitsOf c.arg0.toNat 0 12
    if q < 1024 then t.request (mkRequest 5 0 (t.engineNode q) 2 2 0x10 q 0 0 [])
    else t.raiseF R.SQ_EVT F.SQ_EVT_KICK_IGN))

/-- EVENT (R75). -/
def execActEvent (n : Fin 1024) (s : State) : Host.Outcome State Fault Refusal :=
  .next (s.act n 4 (fun t c => if t.hxMark n.val then t else t.markEvent c))

/-- CAPTURE (R84, R260): the slot takes the axes of the mask at the firing instant; the selected fabric timers are triggered, but
not in a fabric that is not released or is off (R76). Each trigger of a timer is one of its own. -/
def execActCapture (n : Fin 1024) (s : State) : Host.Outcome State Fault Refusal :=
  .next (s.act n 5 (fun t c =>
    let t1 := t.capture (bitsOf c.arg0.toNat 8 4) n 0 (c.arg0.toNat % 256) c.inst
    let ks := bitList 32 c.arg1.toNat
    if t1.fbStage = 3 ∧ ¬ t1.fb.hold ∧ t1.domOn 10 ∧ t1.domOn 11 then { t1 with fb := { t1.fb with tmrTrig := t1.fb.tmrTrig ++ ks } } else t1))

/-- FABRIC_STROBE (R75). -/
def execActFabricStrobe (n : Fin 1024) (s : State) : Host.Outcome State Fault Refusal :=
  .next (s.act n 6 (fun t c => t.strobe (c.arg0.toNat % 64) c.inst))

/-- The unit of an LSEND request (Table NW-4; its layout is this model's): ARG0, ARG1, the firing instant. -/
def lsendUnit (c : Commit) : BitVec 256 :=
  BitVec.ofNat 256 (c.arg0.toNat + 2 ^ 32 * c.arg1.toNat + 2 ^ 64 * ((c.inst / 128).toNat % 2 ^ 48) + 2 ^ 112 * (c.inst % 128).toNat)

/-- LACE_SEND (R75, R376): an LSEND request on VC2 to the Lace unit. -/
def execActLaceSend (n : Fin 1024) (s : State) : Host.Outcome State Fault Refusal :=
  .next (s.act n 7 (fun t c => t.request (mkRequest 5 0 (nodeIx 3 9) 0 2 0x12 0 0 0 [lsendUnit c])))

/-! Axis samples -/

/-- The unit of an AXS request (R50; its layout is this model's): axis, state, position in 2^-16 count, velocity, YK_TIME. -/
def State.axsUnit (s : State) (a : Nat) : BitVec 256 :=
  let x := s.ax a
  BitVec.ofNat 256 (a + 8 * x.st.code + 2 ^ 32 * trunc 64 (x.p / lsb16) + 2 ^ 96 * trunc 64 x.v + 2 ^ 160 * ((s.now - 1) % 2 ^ 64))

/-- AXIS_SAMPLE_SEND (R50): once every 500 YCLK each TX axis is sent to the Lace unit, which sends it on both ports. -/
def execAxisSampleSend (s : State) : Host.Outcome State Fault Refusal :=
  if s.yk.lastTx + 500 ≤ s.now then
    let s1 := { s with yk := { s.yk with lastTx := s.now } }
    .next (s1.each (List.range 8) (fun a t =>
      if t.rb (R.YK_AX_LACE a) F.YK_AX_LACE_TX then t.request (mkRequest 5 0 (nodeIx 3 9) 0 2 0x13 0 0 0 [t.axsUnit a]) else t))
  else .next s

end Sys2Proof.Machine
end

