-- ==== Sys2Proof/Machine/FlashBase.lean ====
section
/-! DEFINITION. The flash array and the OTP row (10_flash_otp_protection.md, R307–R333): reading, programming and erasing units,
the records of the system sector, the fields of the OTP. The commands are in Flash.lean. -/

namespace Sys2Proof.Machine

/-! Units -/

/-- The place of a flash byte. -/
def flAt (off : Nat) : Nat := memFlash + off

/-- Is the 32 B unit that holds an offset erased (R308): data and check bits all ones? -/
def State.flErased (s : State) (off : Nat) : Bool :=
  (List.range 4).all (fun i =>
    let a := flAt (off / 32 * 32 + 8 * i)
    s.rawAt a == 2 ^ 64 - 1 && s.synAt a == 0x27)

/-- One 8 B word read by the controller (R308): the flag says that it is good or corrected. The data of an uncorrectable word is
left open. -/
def State.flWord (s : State) (off : Nat) : State × Nat × Bool :=
  let a := flAt (off / 8 * 8)
  if s.flErased off then (s, 2 ^ 64 - 1, true)
  else match s.classAt a with
    | .good => (s, s.rawAt a, true)
    | .corrected _ => (s.bump R.FL_ECC F.FL_ECC_CE 1, s.fixedAt a, true)
    | _ =>
      let s1 := ((s.bump R.FL_ECC F.FL_ECC_UE 1).setRg R.FL_ERR_ADDR (w32 (off / 8 * 8))).raiseF R.FL_EVT F.FL_EVT_UE
      ({ s1 with freeCtr := s1.freeCtr + 2 },
        (Config.badWord s1.freeCtr).toNat + 2 ^ 32 * (Config.badWord (s1.freeCtr + 1)).toNat, false)

/-- Words read in order, as bytes; the flag says that all were good or corrected. -/
def State.flWords (s : State) : List Nat → State × List Byte × Bool
  | [] => (s, [], true)
  | o :: r =>
    let (s1, d, ok) := s.flWord o
    let (s2, bs, ok2) := State.flWords s1 r
    (s2, bytesLE 8 d ++ bs, ok && ok2)

/-- `n` bytes from an offset. -/
def State.flRead (s : State) (off n : Nat) : State × List Byte × Bool :=
  let w := off / 8 * 8
  let (s1, bs, ok) := s.flWords ((List.range ((off + n - w + 7) / 8)).map (fun i => w + 8 * i))
  (s1, (bs.drop (off - w)).take n, ok)

/-- A unit programmed (R308, R311): its four words coded and stored. -/
def State.flProgUnit (s : State) (off : Nat) (l : List Byte) : State :=
  s.each (List.range 4) (fun i t => t.storeWord (flAt (off / 32 * 32 + 8 * i)) (ofBytesLE ((l.drop (8 * i)).take 8)))

/-- Bytes programmed from the start of a unit. -/
def State.flProg (s : State) (off : Nat) (l : List Byte) : State :=
  s.each (List.range (l.length / 32)) (fun k t => t.flProgUnit (off + 32 * k) ((l.drop (32 * k)).take 32))

/-- Is a sector blank? Only units that are not erased are listed. -/
def State.sectorBlank (s : State) (k : Nat) : Bool :=
  let lo := flAt (0x10000 * k)
  !(s.mem.any (fun (e : Nat × Byte) => decide (lo ≤ e.1) && decide (e.1 < lo + 0x10000)))
    && !(s.syn.any (fun (e : Nat × BitVec 8) => decide (lo ≤ 8 * e.1) && decide (8 * e.1 < lo + 0x10000)))

/-- A sector erased. -/
def State.sectorErase (s : State) (k : Nat) : State := s.clearMem (flAt (0x10000 * k)) (flAt (0x10000 * k) + 0x10000)

/-- A pulse begun on a sector (R317): every word of it that is not erased is left open. -/
def State.sectorPart (s : State) (k : Nat) : State :=
  let lo := flAt (0x10000 * k)
  let dw : List Nat := s.mem.map (fun (e : Host.Cell) => e.1 / 8)
  let sw : List Nat := s.syn.map (fun (e : Nat × BitVec 8) => e.1)
  let ws := (dw ++ sw).eraseDups.filter (fun w =>
    decide (lo ≤ 8 * w) && decide (8 * w < lo + 0x10000))
  ws.foldl (fun (t : State) w =>
    (((t.setNum (8 * w) 8 (Config.partErased t.freeCtr).toNat).setSyn (8 * w) (Config.partErasedSyn t.freeCtr).toNat)).tick) s

/-! Records of the system sector -/

/-- The first erased unit among `n` units from an offset. -/
def State.firstErased (s : State) (base n : Nat) : Option Nat :=
  ((List.range n).find? (fun k => s.flErased (base + 32 * k))).map (fun k => base + 32 * k)

/-- A 32 B record with its CRC (R328, R332). -/
def withCrc (l : List Byte) : List Byte := l ++ bytesLE 4 (crc32c l)

/-- Does a 32 B record's CRC hold? -/
def recOk (l : List Byte) : Bool := ofBytesLE (l.drop 28) == crc32c (l.take 28)

/-- The records of an area that are not erased, in order: its 32 bytes and whether they were readable. -/
def State.flRecords (s : State) (base n : Nat) : State × List (List Byte × Bool) :=
  (List.range n).foldl (fun (q : State × List (List Byte × Bool)) k =>
    if q.1.flErased (base + 32 * k) then q
    else
      let (t, l, ok) := q.1.flRead (base + 32 * k) 32
      (t, q.2 ++ [(l, ok)])) (s, [])

/-- The highest sequence count (bytes 4–7) of the valid records; 0 with none. -/
def lastSeq (l : List (List Byte × Bool)) : Nat :=
  (l.filter (fun e => e.2 && recOk e.1)).foldl (fun m e => max m (ofBytesLE ((e.1.drop 4).take 4))) 0

/-- First offsets of the repair log and of the journal (Table FL-3). -/
def logBase : Nat := 0x3FE8000
def journalBase : Nat := 0x3FF8000

/-! OTP -/

/-- A word that nothing has programmed: the factory's in 0–3, 64–71 and 96–127, FLOCK in 55 (R319), else 0. -/
def otDefault (k : Nat) : Word :=
  if k < 4 ∨ (64 ≤ k ∧ k < 72) ∨ (96 ≤ k ∧ k < 128) then Config.otpFactory k else if k = 55 then 0x80000000 else 0

/-- An OTP word. -/
def State.otWord (s : State) (k : Nat) : Word := Tab.get otDefault s.ot.words k
/-- A bit of a word programmed. -/
def State.otSet (s : State) (k b : Nat) : State :=
  { s with ot := { s.ot with words := Tab.put otDefault s.ot.words k (w32 (setBit (s.otWord k).toNat b)) } }

/-- The bytes of a run of OTP words. -/
def State.otBytes (s : State) (k n : Nat) : List Byte := (List.range n).flatMap (fun i => bytesLE 4 (s.otWord (k + i)).toNat)

/-- RDP1 bits set. -/
def State.rdp1 (s : State) : Nat := popc 32 (s.otWord 53).toNat + popc 32 (s.otWord 54).toNat

/-- The RDP level that the OTP spells (R323). -/
def State.rdpOtp (s : State) : Nat :=
  if 2 ≤ popc 3 (s.otWord 55).toNat then 2 else if s.rdp1 % 2 = 1 then 1 else 0

/-- The level in force (OT_STAT.RDP). -/
def State.rdp (s : State) : Nat := s.rf R.OT_STAT F.OT_STAT_RDP

/-- The level derived anew, with GL_STAT and OT_STAT as they show it (R323, R325). -/
def State.rdpDerive (s : State) : State :=
  ((s.setRf R.OT_STAT F.OT_STAT_RDP s.rdpOtp).setRf R.OT_STAT F.OT_STAT_L1_COUNT s.rdp1).setRf R.GL_STAT F.GL_STAT_RDP s.rdpOtp

/-- This device's unique ID. -/
def State.uid (s : State) : Nat := ofBytesLE (s.otBytes 0 4)

/-- The lowest RDP1 bit that is 0: word and bit. -/
def State.rdp1Free (s : State) : Option (Nat × Nat) :=
  ((List.range 64).find? (fun i => !wbit (s.otWord (53 + i / 32)) (i % 32))).map (fun i => (53 + i / 32, i % 32))

/-- BUSY, SUSPENDED and DIE_BUSY as the controller stands. -/
def State.flShow (s : State) : State :=
  let work := s.fl.run.isSome || !s.fl.recs.isEmpty
  ((s.setRb R.FL_STAT F.FL_STAT_BUSY (work || s.fl.susp.isSome)).setRb R.FL_STAT F.FL_STAT_SUSPENDED s.fl.susp.isSome).setRb
    R.FL_STAT F.FL_STAT_DIE_BUSY (work || s.fl.die)

/-- A record put last among those to be programmed. -/
def State.flRecord (s : State) (r : FlRec) : State := ({ s with fl := { s.fl with recs := s.fl.recs ++ [r] } } : State).flShow

/-- A journal record for the first erased unit (R326, R328): KIND, level before and after; none where the journal is full. -/
def State.journalRec (s : State) (why : FlWhy) (kind lb la : Nat) : Option FlRec :=
  (s.firstErased journalBase 1024).map (fun o =>
    { off := o
      bytes := withCrc ([BitVec.ofNat 8 kind, BitVec.ofNat 8 lb, BitVec.ofNat 8 la, 0] ++ bytesLE 4 (lastSeq (s.flRecords journalBase 1024).2 + 1)
        ++ s.otBytes 0 2 ++ List.replicate 12 0)
      why := why })

/-- What a record holds whose programming a reset cuts (R329, Table SC-10): bytes left open under a CRC that fails. -/
def tornRec (n : Nat) (l : List Byte) : List Byte :=
  let b := (List.range (l.length - 4)).map (fun i => BitVec.ofNat 8 (Config.partErased (n + i)).toNat)
  b ++ bytesLE 4 ((crc32c b).xor (1 + (Config.partErased (n + l.length)).toNat % (2 ^ 32 - 1)))

/-- Is a lowering open (R327): a valid BEGIN with no valid END after it? -/
def State.lowerOpen (s : State) : State × Bool :=
  let (s1, rs) := s.flRecords journalBase 1024
  (s1, (rs.filter (fun e => e.2 && recOk e.1)).foldl (fun o e => ofBytesLE (e.1.take 1) == 1 || (o && ofBytesLE (e.1.take 1) != 2)) false)

end Sys2Proof.Machine
end

