-- ==== Sys2Proof/Machine/Host.lean ====
section
/-! DEFINITION. The host interface (12_host_partners_events.md, R354–R374, R506, R507): PCIe accesses, doorbells, queue pairs,
descriptors, partners and reservations. CONFIG_PARTIAL is in Partial.lean and QUERY in RegBus.lean; how descriptors end is in
HiBase.lean. -/

namespace Sys2Proof.Machine

/-! The link -/

/-- The endpoint answers: QV mode and the link up (R354). -/
def State.pcieUp (s : State) : Bool := s.qvMode && s.rf R.HI_LINK F.HI_LINK_RATE != 0

/-- PCIE_LINK_UP: HI_LINK shows the rate (Gen 1–4) and the width (2^width lanes). -/
def execPcieLinkUp (rate width : Fin 4) (s : State) : Host.Outcome State Fault Refusal :=
  .next (if s.qvMode then s.setRg R.HI_LINK (w32 (rate.val + 1 + 8 * 2 ^ width.val)) else s)

/-- Nothing refers to descriptors of a queue pair (of any, with none) any more: loads and folds under way go on for themselves. -/
def State.forgetDescs (s : State) (q : Option Nat) : State :=
  let out := fun (x : Nat) => match q with | some k => x == k | none => true
  let src := fun (d : Option (Nat × Nat)) => d.filter (fun e => !out e.1)
  let fr := fun (f : FoldReq) => { f with desc := f.desc.filter (fun e => !out e.1) }
  { s with
    hi := { s.hi with folds := s.hi.folds.filter (fun f => !out f.qp) }
    cg := { s.cg with part := s.cg.part.map (fun p => { p with desc := src p.desc }) }
    arr := { s.arr with
      loadQ := s.arr.loadQ.map (fun l => { l with src := src l.src })
      loadRun := s.arr.loadRun.map (fun k => { k with req := { k.req with src := src k.req.src } })
      foldIn := s.arr.foldIn.map fr
      foldQ := s.arr.foldQ.map fr } }

/-- A block reset of the host interface (R357): no queue pair, no record, partners of KIND 0 gone with a new generation, every
HI and EV field marked Block or Run at its reset value. -/
def State.hiReset (s : State) : State :=
  let left := (s.regs.map (fun e => e.1)).filter (fun a =>
    decide (R.HI_PT 8 ≤ a) && decide (a < R.HI_PT 1024) && s.rf a F.HI_PT_STATE == 1 && s.rf a F.HI_PT_KIND == 0)
  let s1 := left.foldl (fun t a => t.setRf a F.HI_PT_GEN (s.rf a F.HI_PT_GEN + 1)) s
  let s2 := (s1.clearRegs .run 0x580000 0x600000).clearRegs .run 0x600000 0x640000
  ({ s2 with hi := Hi.reset, ev := EvUnit.reset } : State).forgetDescs none

/-- HI_BLK_RST (R357). -/
def execHiBlkRst (s : State) : Host.Outcome State Fault Refusal :=
  .next (s.blkRst 15 s.hiReset)

/-- FLR (R357). -/
def execFlr (s : State) : Host.Outcome State Fault Refusal :=
  .next (if s.pcieUp then s.hiReset.raiseF R.HI_EVT F.HI_EVT_FLR else s)

/-- PCIE_LINK_DOWN (R357): a surprise link-down. -/
def execPcieLinkDown (s : State) : Host.Outcome State Fault Refusal :=
  .next (if s.pcieUp then (s.hiReset.setRg R.HI_LINK 0).raiseF R.HI_EVT F.HI_EVT_LINK_DOWN else s)

/-- The enabled queue pairs. -/
def State.enabledQps (s : State) : List Nat :=
  (s.regs.map (fun e => e.1)).filterMap (fun a =>
    if R.HI_QP_CFG 0 ≤ a ∧ a < R.HI_QP_CFG 1024 ∧ (a - R.HI_QP_CFG 0) % 32 = 0 ∧ F.HI_QP_CFG_EN.bit (s.rg a) then
      some ((a - R.HI_QP_CFG 0) / 32)
    else none)

/-- D3HOT_ENTRY (R357): a block reset while any queue pair is enabled. -/
def execD3hotEntry (s : State) : Host.Outcome State Fault Refusal :=
  .next (if s.pcieUp ∧ ¬ s.enabledQps.isEmpty then s.hiReset else s)

/-! MMIO -/

/-- HI_CTRL.MMIO_PID. -/
def State.mmioPid (s : State) : Nat := s.rf R.HI_CTRL F.HI_CTRL_MMIO_PID

/-- A part of a PCIe request: its network request, or none where no node serves it. -/
def State.mmioPart (s : State) (req : Nat) (read : Bool) (skip cnt : Nat) (p : Option Packet) : State :=
  let m : Mmio := { req := req, key := p.map (fun _ => s.net.nextKey), read := read, skip := skip, cnt := cnt,
                    done := if p.isNone then some (true, []) else none }
  let s1 : State := { s with hi := { s.hi with mmio := s.hi.mmio ++ [m] } }
  match p with
  | some x => s1.request x
  | none => s1

/-- A PCIe request begins. -/
def State.mmioNew (s : State) : State × Nat := ({ s with hi := { s.hi with reqs := s.hi.reqs + 1 } }, s.hi.reqs)

/-- BAR0_ACCESS (R356, Table AM-2): one REG_RD or REG_WR to the node that serves the block; at 0x6F_0000 or above ADDR_ERR from
the host interface's own node. -/
def execBar0Access (write : Bool) (off : BitVec 24) (v : Word) (s : State) : Host.Outcome State Fault Refusal :=
  .next (if ¬ s.pcieUp then s
    else
      let b := blockOf off.toNat
      let (s1, k) := s.mmioNew
      let p := mkRequest 1 0 (blockNode b) 1 0 (if write then 5 else 4) off.toNat 0 s.mmioPid
        (if write then [BitVec.ofNat 256 v.toNat] else [])
      (s1.mmioPart k (!write) 0 1 (if b = 24 then none else some { p with be := 0xF })).mmioFlush)

/-- The 32 B units of a write: place of each, its data and its byte enables. -/
def barUnits (addr : Nat) (data : List (Option Byte)) : List (Nat × Nat × Nat) :=
  (List.range ((addr % 32 + data.length + 31) / 32)).map (fun k =>
    let u := addr / 32 * 32 + 32 * k
    let at_ := fun (i : Nat) => if u + i < addr then none else (data.getD (u + i - addr) none)
    (u, (List.range 32).foldl (fun acc i => acc + ((at_ i).getD 0).toNat * 2 ^ (8 * i)) 0,
      (List.range 32).foldl (fun acc i => acc + (if (at_ i).isSome then 2 ^ i else 0)) 0))

/-- Units joined into write requests: one request goes on over whole units up to the next 512 B boundary, since only the first unit
of a WR has byte enables (R201, R506). -/
def barGroups : List (Nat × Nat × Nat) → List (Nat × Nat × List Nat)
  | [] => []
  | (u, d, e) :: r => match barGroups r with
    | (v, e2, ds) :: g => if v % 512 ≠ 0 ∧ e2 = 0xFFFFFFFF ∧ v = u + 32 then (u, e, d :: ds) :: g else (u, e, [d]) :: (v, e2, ds) :: g
    | [] => [(u, e, [d])]

/-- The 512 B parts of a read: address, bytes. -/
def barParts : Nat → Nat → Nat → List (Nat × Nat)
  | 0, _, _ => []
  | f + 1, a, n => if n = 0 then [] else
    let m := min n (512 - a % 512)
    (a, m) :: barParts f (a + m) (n - m)

/-- BAR2_ACCESS (R356, R506): n bytes read, or `data` written with its byte enables (none: not enabled). Parts at 0x300_0000 or
above are unbacked. -/
def execBar2Access (write : Bool) (addr : BitVec 26) (n : Fin 4097) (data : List (Option Byte)) (s : State) :
    Host.Outcome State Fault Refusal :=
  .next (if ¬ s.pcieUp then s
    else
      let (s1, k) := s.mmioNew
      if write then
        ((barGroups (barUnits addr.toNat (data.take n))).foldl (fun t (g : Nat × Nat × List Nat) =>
          t.mmioPart k false 0 0 (if 0x3000000 ≤ g.1 then none else
            some { mkRequest 1 0 (smbNode g.1) 0 0 2 g.1 0 s.mmioPid (g.2.2.map (BitVec.ofNat 256)) with be := BitVec.ofNat 32 g.2.1 })) s1).mmioFlush
      else
        ((barParts 10 addr.toNat n).foldl (fun t (g : Nat × Nat) =>
          let u := g.1 / 32 * 32
          t.mmioPart k true (g.1 % 32 / 4) ((g.1 + g.2 + 3) / 4 - g.1 / 4) (if 0x3000000 ≤ g.1 then none else
            some { mkRequest 1 0 (smbNode u) 0 0 1 u 0 s.mmioPid [] with len := BitVec.ofNat 5 ((g.1 + g.2 + 31) / 32 - g.1 / 32) })) s1).mmioFlush)

/-! Doorbells -/

/-- A doorbell ignored (R359). -/
def State.dbErr (s : State) : State := s.raiseF R.HI_EVT F.HI_EVT_DB_ERR

/-- SUBMISSION_DOORBELL (R359): the submission tail of queue pair q. -/
def execSubmissionDoorbell (q : Fin 1024) (v : Word) (s : State) : Host.Outcome State Fault Refusal :=
  let x := v.toNat % 0x10000
  .next (if ¬ s.pcieUp then s
    else if s.qpState q ≠ 1 ∨ 2 ^ s.rf (R.HI_QP_CFG q) F.HI_QP_CFG_SQ_SIZE ≤ x then s.dbErr
    else s.setQp q { s.qp q with tail := x })

/-- COMPLETION_DOORBELL (R359): the completion head of queue pair q frees the records up to it. -/
def execCompletionDoorbell (q : Fin 1024) (v : Word) (s : State) : Host.Outcome State Fault Refusal :=
  let x := v.toNat % 0x10000
  let size := 2 ^ s.rf (R.HI_QP_CFG q) F.HI_QP_CFG_CQ_SIZE
  let k := s.qp q
  .next (if ¬ s.pcieUp then s
    else if s.qpState q = 0 ∨ size ≤ x then s.dbErr
    else s.setQp q { k with cqHead := x, unread := k.unread - (x + size - k.cqHead) % size })

/-- EVENT_RING_DOORBELL (R359, R507): the head of event ring `page`, at offset 8 of pages 0–63; any other offset is ignored. -/
def execEventRingDoorbell (page : Fin 1024) (off : BitVec 12) (v : Word) (s : State) : Host.Outcome State Fault Refusal :=
  let x := v.toNat % 0x10000
  let r := page.val
  let size := 2 ^ s.rf (R.EV_RING_CFG r) F.EV_RING_CFG_SIZE
  let k := s.ring r
  .next (if ¬ s.pcieUp then s
    else if off ≠ 8 ∨ 64 ≤ r ∨ size ≤ x then s.dbErr
    else s.setRing r { k with head := x, unread := k.unread - (x + size - k.head) % size })

/-! Queue pairs -/

/-- Every descriptor of a queue pair ends at its unit boundary: the running ones PARTIAL, the others ABORTED (R366, R369). -/
def State.qpStop (s : State) (q code : Nat) : State :=
  let s1 := (s.qp q).infl.foldl (fun t d =>
    if ¬ d.started then t.descEnd q d.dseq 3 code 0 0 0
    else
      let qu := d.fld 5 0 10
      let ckpt := if d.op = 1 then t.streamCkpt qu d.units false else if d.op = 5 then 0 else d.units
      let oseq := if d.op = 1 ∨ d.op = 2 then t.streamOseq qu (d.op == 2) else 0
      (t.descEnd q d.dseq 1 code d.units ckpt oseq).tick) s
  s1.forgetDescs (some q)

/-- A refused queue pair write (R358). -/
def State.hiCfgErr (s : State) : State := s.raiseF R.HI_EVT F.HI_EVT_CFG_ERR

/-- A write of HI_QP_CFG (R358, R366): EN 0 stops an enabled queue pair; with EN 1 an enabled one refuses it, and so does one that no
partner has joined. -/
def State.qpCfgWrite (s : State) (q : Nat) (v : Word) : State :=
  let a := R.HI_QP_CFG q
  let was := s.rb a F.HI_QP_CFG_EN
  let en := F.HI_QP_CFG_EN.bit v
  if was ∧ en then s.hiCfgErr
  else if was then (s.qpStop q 11).store a v
  else if en ∧ ¬ s.rb a F.HI_QP_CFG_BOUND then s.hiCfgErr
  else if en then (s.store a v).setQp q { Qp.idle with recs := (s.qp q).recs }
  else s.store a v

/-- HI_QP_CFG_WRITE (R358). -/
def execHiQpCfgWrite (q : Fin 1024) (v : Word) (s : State) : Host.Outcome State Fault Refusal := .next (s.qpCfgWrite q v)

/-- QUEUE_PAIR_DISABLE (R366): the write with EN 0. -/
def execQueuePairDisable (q : Fin 1024) (v : Word) (s : State) : Host.Outcome State Fault Refusal :=
  .next (s.qpCfgWrite q (w32 (clrBit v.toNat 0)))

/-! Descriptors -/

/-- Operand bits that Table HI-3 names, by word W2–W7. -/
def descMask (op : Nat) : List Nat :=
  let a := 0xFFFFFFFF
  match op with
  | 1 => [a, a, 0x1FFFFFFF, 0x3FF, 0xFFFFFF, a]
  | 2 => [a, a, 0x3FFFFFF, 0x3FF, 0, 0]
  | 3 => [a, a, a, a, 0x3FFFFFF, 0]
  | 4 => [0xF03FF, a, a, a, 0, 0]
  | 5 => [0xFFFFFF, a, a, 0, 0, 0]
  | 6 => [0x3FF, 0, 0, 0, 0, 0]
  | 7 => [a, a, a, 0x3FFF010F, 0, 0]
  | 8 => [a, a, 0xFFFFFF, 0x1F, 0, 0]
  | _ => [0, 0, 0, 0, 0, 0]

/-- A reserved OP, or a reserved field that is not zero (R361). DIR 3 of MEM_COPY is no direction. -/
def Desc.bad (d : Desc) : Bool :=
  d.op == 0 || decide (9 < d.op) || andNot (d.fld 0 0 32) 0xFF03FF != 0 || d.fld 1 0 32 != 0
    || (List.range 6).any (fun k => andNot (d.fld (2 + k) 0 32) ((descMask d.op).getD k 0) != 0)
    || (d.op == 3 && d.fld 6 24 2 == 3)

/-- LOAD_PLEATS names three tile mask words in W3–W5 (Table HI-3). -/
def Desc.tiles (d : Desc) : Nat := d.fld 3 0 32 + 2 ^ 32 * d.fld 4 0 32 + 2 ^ 64 * d.fld 5 0 32

/-- DESCRIPTOR_FETCH (R360, R361, R367, R370): the next descriptor in ring order, while fewer than 32 are in flight and fewer than 8
records wait. MARK_WRITE takes the next entry too. `hostErr`: the read of host memory failed. -/
def execDescriptorFetch (q : Fin 1024) (words image : List Word) (hostErr : Bool) (s : State) : Host.Outcome State Fault Refusal :=
  let k := s.qp q
  let size := 2 ^ s.rf (R.HI_QP_CFG q) F.HI_QP_CFG_SQ_SIZE
  let d : Desc := { dseq := k.next, w := (List.range 8).map (fun i => words.getD i 0),
                    image := (List.range 8).map (fun i => image.getD i 0), units := 0, started := false, trunc := false }
  let n := if d.op = 6 ∧ ¬ hostErr then 2 else 1
  let ready := (k.tail + size - k.next % size) % size
  .next (if s.qpState q ≠ 1 ∨ ready < n ∨ 32 ≤ k.infl.length ∨ 8 ≤ s.recsWait q then s
    else
      let s1 := s.setQp q { k with next := (k.next + n) % 2 ^ 32, infl := k.infl ++ [d] }
      let gen := s.rf (R.HI_PT (s.rf (R.HI_QP_CFG q) F.HI_QP_CFG_PARTNER)) F.HI_PT_GEN
      if hostErr then s1.descEnd q d.dseq 2 7 0 0 0
      else if d.fld 0 16 8 ≠ gen then s1.descEnd q d.dseq 3 4 0 0 0
      else if d.bad then s1.descEnd q d.dseq 2 5 0 0 0
      else s1)

/-- The SMB-resident queue that a descriptor names. -/
def Desc.queue (d : Desc) : Option Nat := if d.op = 1 ∨ d.op = 2 then some (d.fld 5 0 10) else none

/-- May a descriptor that has not started start (R360)? Every earlier one has started, no BARRIER stands before it, and no earlier one
that names the same queue is running; a BARRIER waits for all. -/
def State.mayStart (s : State) (q : Nat) (d : Desc) : Bool :=
  let before := (s.qp q).infl.takeWhile (fun e => e.dseq != d.dseq)
  if d.op = 9 then before.isEmpty
  else before.all (fun e => e.started && e.op != 9 && (d.queue.isNone || decide (e.queue ≠ d.queue)))

/-- The descriptor that a command of operation `op` moves on: it runs already, or may start now. -/
def State.running (s : State) (q : Nat) (dseq : Word) (op : Nat) : Option Desc :=
  match s.desc q dseq.toNat with
  | some d => if d.op = op ∧ (d.started ∨ s.mayStart q d) then some d else none
  | none => none

/-- The partner of a queue pair. -/
def State.qpPid (s : State) (q : Nat) : Nat := s.rf (R.HI_QP_CFG q) F.HI_QP_CFG_PARTNER

/-- A stream that stops early (R364): ERROR where nothing was done, else PARTIAL; NET carries its status in CKPT. -/
def State.streamFail (s : State) (q : Nat) (d : Desc) (code : Nat) (net : Option Nat) : State :=
  let qu := d.fld 5 0 10
  let out := d.op == 2
  let ckpt := match net with | some st => st | none => if d.units = 0 then 0 else s.streamCkpt qu d.units out
  (s.descEnd q d.dseq (if d.units = 0 then 2 else 1) code d.units ckpt (s.streamOseq qu out)).tick

/-- A stream that has done every unit. -/
def State.streamDone (s : State) (q : Nat) (d : Desc) : State :=
  let qu := d.fld 5 0 10
  let out := d.op == 2
  (s.descEnd q d.dseq 0 (b2n d.trunc) d.units (s.streamCkpt qu d.units out) (s.streamOseq qu out)).tick

/-- Why a stream may not run: 2 ALIGN, 6 QUEUE (Table HI-5). -/
def State.streamBad (s : State) (q : Nat) (d : Desc) : Option Nat :=
  let qu := d.fld 5 0 10
  let b := s.rg (R.SQ_Q_BIND qu)
  if d.fld 2 0 2 ≠ 0 then some 2
  else if ¬ s.rb (R.SQ_Q_CFG qu) F.SQ_Q_CFG_EN then some 6
  else if d.op = 1 then (if F.SQ_Q_BIND_PROD_KIND.get b = 1 ∧ F.SQ_Q_BIND_PROD_ID.get b = q then none else some 6)
  else if F.SQ_Q_BIND_CONS_KIND.get b = 1 ∧ F.SQ_Q_BIND_CONS_ID.get b = q then none else some 6

/-- The outputs that a resumed stream suppresses (R365): those of its group's exits up to OSEQ. -/
def State.resumeStream (s : State) (d : Desc) : State :=
  if d.fld 0 9 1 = 0 then s
  else (s.streamExits (d.fld 5 0 10) false).foldl (fun t e =>
    let x := t.exit e
    t.setExit e { x with sup := (d.fld 7 0 28 + 2 ^ 28 - x.cur) % 2 ^ 28 }) s

/-- STREAM_IN (R362): the next word of a descriptor read from host memory and pushed, while its queue takes it; `hostErr`: the read
failed. -/
def execStreamIn (q : Fin 1024) (dseq v : Word) (hostErr : Bool) (s : State) : Host.Outcome State Fault Refusal :=
  .next (match s.running q dseq 1 with
    | none => s
    | some d =>
      let qu := d.fld 5 0 10
      let words := d.fld 4 0 24
      match s.streamBad q d with
      | some c => s.streamFail q d c none
      | none =>
        let d1 : Desc := { d with started := true }
        let s1 := (if d.started then s else s.resumeStream d).setDesc q d1
        if words ≤ d.units then s1.streamDone q d1
        else if ¬ s.domOn (2 + s.qBank qu / 12) then s1.streamFail q d1 8 (some 4)
        else if ¬ s.qTakes qu then s1
        else if hostErr then s1.streamFail q d1 7 none
        else
          let n := d.units + 1
          let item := d.fld 6 0 24
          let last := (item != 0 && n % item == 0) || (n == words && d.fld 4 28 1 == 1)
          let t : Token := Token.make v (d.fld 4 24 4) last false false none
          let d2 : Desc := { d1 with units := n }
          let s2 := (s1.qGive qu t false).setDesc q d2
          if n = words then s2.streamDone q d2 else s2)

/-- STREAM_OUT (R362): the next entry of a descriptor's queue popped and written to host memory. -/
def execStreamOut (q : Fin 1024) (dseq : Word) (s : State) : Host.Outcome State Fault Refusal :=
  .next (match s.running q dseq 2 with
    | none => s
    | some d =>
      let qu := d.fld 5 0 10
      let words := d.fld 4 0 24
      let f := d.fld 4 24 1
      match s.streamBad q d with
      | some c => s.streamFail q d c none
      | none =>
        let d1 : Desc := { d with started := true }
        let s1 := s.setDesc q d1
        if words ≤ d.units then s1.streamDone q d1
        else if ¬ s.domOn (2 + s.qBank qu / 12) then s1.streamFail q d1 8 (some 4)
        else match s.qHead qu with
          | none => s1
          | some t =>
            if t.fold then s1.qDrop qu
            else
              let a := d.num 2 + (if f = 0 then 4 else 8) * d.units
              let d2 : Desc := { d1 with units := d.units + 1, trunc := d.trunc || t.err }
              let s2 := ((s1.qDrop qu).emit (.hostWrite a (if f = 0 then [t.data] else [t.data, w32 (t.entry / 2 ^ 32)]))).setDesc q d2
              if d2.units = words ∨ (t.last ∧ d.fld 4 25 1 = 1) then s2.streamDone q d2 else s2)

/-- A descriptor of another kind that stops early: CKPT is UNITS, or the detail code (R364). -/
def State.descFail (s : State) (q : Nat) (d : Desc) (code detail : Nat) : State :=
  s.descEnd q d.dseq (if d.units = 0 then 2 else 1) code d.units (if code = 8 ∨ d.units = 0 then detail else d.units) 0

/-- One 32 B unit of SMB read for a descriptor (R344, R356, Table NW-5): the unit, and a completion code with its detail, 0 for none. -/
def State.hiRead (s : State) (pid a : Nat) : State × Nat × Nat × Nat :=
  if 0x3000000 ≤ a then (s, 0, 8, 6)
  else
    let (s1, ok) := s.fwJudge pid 0 a true false
    if ¬ ok then (s1, 0, 3, 0)
    else if ¬ s1.domOn (2 + a / 0x80000 / 12) then (s1, 0, 8, 4)
    else
      let (s2, ds, st) := s1.readWords 1 ((List.range 4).map (fun i => s1.smbPlace (a + 8 * i)))
      (s2, (List.range 4).foldl (fun acc i => acc + ds.getD i 0 * 2 ^ (64 * i)) 0, if st = 0 then 0 else 8, st)

/-- One 32 B unit of SMB written for a descriptor. -/
def State.hiWrite (s : State) (pid a x : Nat) : State × Nat × Nat :=
  if 0x3000000 ≤ a then (s, 8, 6)
  else
    let (s1, ok) := s.fwJudge pid 0 a false true
    if ¬ ok then (s1, 3, 0)
    else if ¬ s1.domOn (2 + a / 0x80000 / 12) then (s1, 8, 4)
    else
      let (s2, st) := s1.writeWords 1 ((List.range 4).map (fun i => (s1.smbPlace (a + 8 * i), bitsOf x (64 * i) 64, 255)))
      (s2, if st = 0 then 0 else 8, st)

/-- MEM_COPY (R362): the next 32 B unit of a copy; `data` is the unit of host memory that a copy from the host reads. -/
def execMemCopy (q : Fin 1024) (dseq : Word) (data : BitVec 256) (hostErr : Bool) (s : State) : Host.Outcome State Fault Refusal :=
  .next (match s.running q dseq 3 with
    | none => s
    | some d =>
      let len := d.fld 6 0 24
      let dir := d.fld 6 24 2
      if d.num 2 % 32 ≠ 0 ∨ d.num 4 % 32 ≠ 0 then s.descFail q d 2 0
      else
        let d1 : Desc := { d with started := true }
        let s1 := s.setDesc q d1
        let src := d.num 2 + 32 * d.units
        let dst := d.num 4 + 32 * d.units
        if len ≤ d.units then s1.descEnd q d.dseq 0 0 d.units d.units 0
        else if s.smbRangeHeld (if dir = 0 then dst else src) 32 ∨ (dir = 2 ∧ s.smbRangeHeld dst 32) then s
        else if dir = 0 ∧ hostErr then s1.descFail q d1 7 0
        else
          let (s2, x, c, st) := if dir = 0 then (s1, data.toNat, 0, 0) else s1.hiRead (s.qpPid q) src
          if c ≠ 0 then s2.descFail q d1 c st
          else
            let (s3, c3, st3) := if dir = 1 then (s2.emit (.hostWrite dst (unitWords (BitVec.ofNat 256 x))), 0, 0)
              else s2.hiWrite (s.qpPid q) dst x
            if c3 ≠ 0 then s3.descFail q d1 c3 st3
            else
              let d2 : Desc := { d1 with units := d.units + 1 }
              let s4 := s3.setDesc q d2
              if d2.units = len then s4.descEnd q d.dseq 0 0 d2.units d2.units 0 else s4)

/-- LOAD_PLEATS (R362, R159): its load is queued, when the queue has room; the record follows the load. -/
def execLoadPleats (q : Fin 1024) (dseq : Word) (s : State) : Host.Outcome State Fault Refusal :=
  .next (match s.running q dseq 4 with
    | none => s
    | some d =>
      if d.started ∨ 8 ≤ s.loadDepth then s
      else
        let l : LoadReq := { plane := d.fld 2 0 10, slot := d.fld 2 16 4, mask := d.tiles, src := some (q.val, d.dseq) }
        let s1 := s.setDesc q { d with started := true }
        { s1 with arr := { s1.arr with loadQ := s1.arr.loadQ ++ [l] } })

/-- Mark n's entry registers written from eight words (Table MK-1) and its CTL word taken (R57). -/
def State.writeImage (s : State) (n : Nat) (w : List Word) (fold : Option (Nat × Nat)) : State × Option Nat :=
  let g := fun (i : Nat) => w.getD i 0
  let s1 := ((((((s.setRg (R.MK_ENT_POS_LO n) (g 1)).setRg (R.MK_ENT_POS_HI n) (g 2)).setRg (R.MK_ENT_HYST n) (g 3)).setRg
    (R.MK_ENT_PER_LO n) (g 4)).setRg (R.MK_ENT_PER_HI n) (g 5)).setRg (R.MK_ENT_ARG0 n) (g 6)).setRg (R.MK_ENT_ARG1 n) (g 7)
  s1.writeCtl n (g 0) fold

/-- A mark entry that a descriptor writes waits like a register write (R59): where the insertion queue has no room, or a write waits before it. -/
def State.mkWaits (s : State) (a n : Nat) (arm : Bool) : Bool := !s.mke.regq.isEmpty || (arm && s.insertFull a n)

/-- FOLD_AT (R362): the mark entry is written; the record follows the fold of its firing. -/
def execFoldAt (q : Fin 1024) (dseq : Word) (s : State) : Host.Outcome State Fault Refusal :=
  .next (match s.running q dseq 5 with
    | none => s
    | some d =>
      let n := d.fld 2 0 10
      let ax := d.fld 2 10 3
      if d.started ∨ s.mkWaits ax n true then s
      else
        let ctl := ax + 8 * d.fld 2 13 2 + 32 + 64 + 256 * 2
        let arg0 := d.fld 2 15 4 + 16 * d.fld 2 19 1 + 256 * d.fld 2 20 4
        let s1 := s.setDesc q { d with started := true }
        match s1.writeImage n [w32 ctl, d.w.getD 3 0, d.w.getD 4 0, 0, 0, 0, w32 arg0, 0] (some (q.val, d.dseq)) with
        | (s2, some c) => s2.descEnd q d.dseq 2 13 0 c 0
        | (s2, none) => s2)

/-- MARK_WRITE (R362): the image of the next ring entry written into the mark. -/
def execMarkWrite (q : Fin 1024) (dseq : Word) (s : State) : Host.Outcome State Fault Refusal :=
  .next (match s.running q dseq 6 with
    | none => s
    | some d =>
      let n := d.fld 2 0 10
      let w0 := (d.image.getD 0 0).toNat
      if s.mkWaits (bitsOf w0 0 3) n (wbit (d.image.getD 0 0) 5) then s
      else match s.writeImage n d.image none with
        | (s1, some c) => s1.descEnd q d.dseq 2 13 0 c 0
        | (s1, none) => s1.descEnd q d.dseq 0 0 1 1 0)

/-- BARRIER (R360): it completes once every earlier descriptor of its queue pair has. -/
def execDescBarrier (q : Fin 1024) (dseq : Word) (s : State) : Host.Outcome State Fault Refusal :=
  .next (match s.running q dseq 9 with
    | none => s
    | some d => s.descEnd q d.dseq 0 0 1 1 0)

/-- COMPLETION_RECORD_WRITE (R363, R366, R367): the oldest finished record goes into the ring when the ring has room, and its vector
is raised where the descriptor had IRQ. -/
def execCompletionRecordWrite (q : Fin 1024) (s : State) : Host.Outcome State Fault Refusal :=
  let k := s.qp q
  let c := s.rg (R.HI_QP_CFG q)
  let size := 2 ^ F.HI_QP_CFG_CQ_SIZE.get c
  .next (match k.recs with
    | [] => s
    | r :: rest =>
      if size ≤ k.unread then s
      else
        let base := s.rg64 (R.HI_QP_CQ_BASE_LO q) (R.HI_QP_CQ_BASE_HI q)
        let w3 := (r.words.getD 3 0).toNat + 2 ^ 31 * b2n k.phase
        let s1 := s.emit (.hostWrite (base + 16 * k.cqTail) (r.words.take 3 ++ [w32 w3]))
        let t := (k.cqTail + 1) % size
        let s2 := s1.setQp q { k with recs := rest, unread := k.unread + 1, cqTail := t, phase := if t = 0 then !k.phase else k.phase }
        if r.irq then s2.sendMsix (F.HI_QP_CFG_VEC.get c) else s2)

/-! Partners -/

/-- HI_PT_RSP after a command. -/
def State.ptRsp (s : State) (st id gen : Nat) : State := s.setRg R.HI_PT_RSP (w32 (st + 4 + 256 * id + 2 ^ 24 * gen))

/-- JOIN (R369). -/
def State.ptJoin (s : State) : State :=
  let r := s.rg R.HI_PT_REQ
  let kind := F.HI_PT_REQ_KIND.get r
  let ref := F.HI_PT_REQ_REF.get r
  match (List.range 1016).find? (fun i => s.rf (R.HI_PT (8 + i)) F.HI_PT_STATE == 0) with
  | none => s.ptRsp 1 0 0
  | some i =>
    if kind = 0 ∧ s.rb (R.HI_QP_CFG ref) F.HI_QP_CFG_BOUND then s.ptRsp 2 0 0
    else
      let a := R.HI_PT (8 + i)
      let gen := s.rf a F.HI_PT_GEN
      let s1 := s.setRg a (w32 (1 + 4 * kind + 8 * ref + 2 ^ 13 * F.HI_PT_REQ_PRIO.get r + 2 ^ 24 * gen))
      let s2 := if kind = 0 then
          (s1.setRb (R.HI_QP_CFG ref) F.HI_QP_CFG_BOUND true).setRf (R.HI_QP_CFG ref) F.HI_QP_CFG_PARTNER (8 + i)
        else s1
      s2.ptRsp 0 (8 + i) gen

/-- JOIN. -/
def execPtJoin (s : State) : Host.Outcome State Fault Refusal := .next s.ptJoin

/-- The debts of reservation k. -/
def State.rsvDebts (s : State) (k : Nat) : List Nat := Tab.get (fun _ => []) s.hi.debts k

/-- Reservation k is no more. -/
def State.rsvFree (s : State) (k : Nat) : State :=
  let s1 := ((s.setRg (R.HI_RSV_CFG k) 0).setRg (R.HI_RSV_ORDER k) 0).setRg (R.HI_RSV_DEBT k) 0
  { s1 with hi := { s1.hi with debts := Tab.erase s1.hi.debts k, rates := Tab.erase s1.hi.rates k, waits := Tab.erase s1.hi.waits k } }

/-- The reservations in force. -/
def State.rsvLive (s : State) : List Nat := (List.range 256).filter (fun k => s.rb (R.HI_RSV_CFG k) F.HI_RSV_CFG_VALID)

/-- LEAVE (R369). -/
def State.ptLeave (s : State) : State :=
  let id := s.rf R.HI_PT_REQ F.HI_PT_REQ_ID
  let a := R.HI_PT id
  let e := s.rg a
  if F.HI_PT_STATE.get e ≠ 1 then s.ptRsp 2 0 0
  else
    let ref := F.HI_PT_REF.get e
    let c := R.HI_QP_CFG ref
    let s1 := if F.HI_PT_KIND.get e = 0 then
        (((if s.rb c F.HI_QP_CFG_EN then s.qpStop ref 10 else s).setRb c F.HI_QP_CFG_EN false).setRb c F.HI_QP_CFG_BOUND false).setRf
          c F.HI_QP_CFG_PARTNER 0
      else s
    let s2 := (s1.rsvLive.filter (fun k => s1.rf (R.HI_RSV_CFG k) F.HI_RSV_CFG_PARTNER == id)).foldl (fun t k => t.rsvFree k) s1
    let gen := (F.HI_PT_GEN.get e + 1) % 256
    let s3 := (s2.setRf a F.HI_PT_GEN gen).setRf a F.HI_PT_STATE 0
    (s3.raiseF R.HI_EVT F.HI_EVT_PT_LEFT).ptRsp 0 id gen

/-- LEAVE. -/
def execPtLeave (s : State) : Host.Outcome State Fault Refusal := .next s.ptLeave

/-! Reservations -/

/-- A reservation admitted (R371): the first entry that is not in force takes the words of HI_RSV_REQ and HI_RSV_RATE, where its engine
has room; one on a bank that is leaving ON is refused (R445). The answer is the HI_RSV_RSP word. -/
def State.rsvAdmit (s : State) (r : Word) (rate : Nat) : State × Word :=
  let pt := s.rf (R.HI_PT (F.HI_RSV_REQ_PARTNER.get r)) F.HI_PT_STATE
  let eng := s.qBank (F.HI_RSV_REQ_QUEUE.get r)
  let sum := ((s.rsvLive.filter (fun k => s.qBank (s.rf (R.HI_RSV_CFG k) F.HI_RSV_CFG_QUEUE) == eng)).map (fun k =>
    Tab.get (fun _ => 0) s.hi.rates k)).foldl (· + ·) rate
  if s.rf R.HI_RSV_WIN F.HI_RSV_WIN_ADMIT * 2 * 1000 * s.rf R.HI_RSV_WIN F.HI_RSV_WIN_US < 100 * sum ∨ ¬ s.domOn (2 + eng / 12) then (s, 1)
  else match (List.range 256).find? (fun k => !s.rb (R.HI_RSV_CFG k) F.HI_RSV_CFG_VALID) with
    | none => (s, 2)
    | some k =>
      if pt ≠ 1 ∧ pt ≠ 3 then (s, 3)
      else
        let n := s.hi.order + 1
        let s1 := (s.setRg (R.HI_RSV_CFG k) (w32 (r.toNat ||| 0x800))).setRg (R.HI_RSV_ORDER k) (w32 n)
        ({ s1 with hi := { s1.hi with order := n, rates := Tab.put (fun _ => 0) s1.hi.rates k rate } }, w32 (256 * k))

/-- RESERVE (R371). -/
def State.rsvReserve (s : State) : State :=
  let (s1, w) := s.rsvAdmit (s.rg R.HI_RSV_REQ) (s.rf R.HI_RSV_RATE F.HI_RSV_RATE_RATE)
  s1.setRg R.HI_RSV_RSP w

/-- RESERVE. -/
def execRsvReserve (s : State) : Host.Outcome State Fault Refusal := .next s.rsvReserve

/-- RELEASE of reservation k; one that is not in force answers NO_ENTRY. -/
def State.rsvRelease (s : State) (k : Nat) : State :=
  if s.rb (R.HI_RSV_CFG k) F.HI_RSV_CFG_VALID then (s.rsvFree k).setRg R.HI_RSV_RSP 0 else s.setRg R.HI_RSV_RSP 2

/-- RESERVATION_RELEASE (R371). -/
def execReservationRelease (k : Fin 256) (s : State) : Host.Outcome State Fault Refusal := .next (s.rsvRelease k)

/-- The debts after `n` repaid units, the oldest first; they are listed youngest first. -/
def repay (l : List Nat) (n : Nat) : List Nat :=
  (l.foldr (fun d (q : List Nat × Nat) => ((d - min d q.2) :: q.1, q.2 - min d q.2)) ([], n)).1

/-- The breach of one reservation (R373). -/
def State.breach (s : State) (k d : Nat) : State :=
  let pid := s.rf (R.HI_RSV_CFG k) F.HI_RSV_CFG_PARTNER
  let e := s.rg (R.HI_PT pid)
  let s1 := s.bump (R.HI_RSV_STAT k) F.HI_RSV_STAT_BREACHES 1
  if F.HI_PT_STATE.get e = 1 ∧ F.HI_PT_KIND.get e = 0 then
    s1.addRec (F.HI_PT_REF.get e) (recWords 0xFFFFFFFF 1 18 d k s.hi.win) false
  else s1.raiseWith R.HI_EVT 8 { late := false, hold := false, detail := pid, w2 := w32 k, w3 := w32 d }

/-- The end of a window for one reservation: `d` units deferred, `r` units of debt repaid (R373, R374). -/
def State.windowOne (s : State) (k d r : Nat) : State :=
  if ¬ s.rb (R.HI_RSV_CFG k) F.HI_RSV_CFG_VALID then s
  else
    let s1 := if d = 0 then s else s.breach k d
    if ¬ s.rb (R.HI_RSV_CFG k) F.HI_RSV_CFG_CLASS then s1
    else
      let l := repay (s.rsvDebts k) r
      let lost := l.getD 7 0
      let now := d :: l.take 7
      let s2 : State := { s1 with hi := { s1.hi with debts := Tab.put (fun _ => []) s1.hi.debts k (if now.all (· == 0) then [] else now) } }
      let s3 := s2.setRg (R.HI_RSV_DEBT k) (w32 (now.foldl (· + ·) 0 % 2 ^ 24))
      if lost = 0 then s3 else (s3.bump (R.HI_RSV_STAT k) F.HI_RSV_STAT_LOST lost).raiseF R.HI_EVT F.HI_EVT_REPAY_LOST

/-! The order of an engine's work (R372) -/

/-- Conflict order of two reservations: the higher PRIO first, and on equal PRIO the lower ORDER. -/
def State.rsvBefore (s : State) (a b : Nat) : Bool :=
  let prio := fun (k : Nat) => s.rf (R.HI_PT (s.rf (R.HI_RSV_CFG k) F.HI_RSV_CFG_PARTNER)) F.HI_PT_PRIO
  if prio a ≠ prio b then decide (prio b < prio a)
  else decide ((s.rg (R.HI_RSV_ORDER a)).toNat < (s.rg (R.HI_RSV_ORDER b)).toNat)

/-- A reservation put at its place in conflict order. -/
def State.rsvInsert (s : State) (k : Nat) : List Nat → List Nat
  | [] => [k]
  | x :: r => if s.rsvBefore k x then k :: x :: r else x :: s.rsvInsert k r

/-- The reservations of a class in conflict order. -/
def State.rsvOrder (s : State) (g2 : Bool) : List Nat :=
  (s.rsvLive.filter (fun k => s.rb (R.HI_RSV_CFG k) F.HI_RSV_CFG_CLASS == g2)).foldr s.rsvInsert []

/-- The engine that serves a reservation, by bank (R176). -/
def State.rsvEngine (s : State) (k : Nat) : Nat := s.qBank (s.rf (R.HI_RSV_CFG k) F.HI_RSV_CFG_QUEUE)

/-- Units moved for reservations in order, each from what its engine has left: what each had moved, and what the engines have left then. -/
def State.rsvServe (s : State) (want : Nat → Nat) : List Nat → (Nat → Nat) → List (Nat × Nat) × (Nat → Nat)
  | [], left => ([], left)
  | k :: r, left =>
    let e := s.rsvEngine k
    let m := min (want k) (left e)
    let (l, rest) := s.rsvServe want r (fun x => if x = e then left x - m else left x)
    ((k, m) :: l, rest)

/-- What a list says of a reservation. -/
def unitsOf (l : List (Nat × Nat)) (k : Nat) : Nat := (l.filter (fun e => e.1 == k)).foldl (fun n e => n + e.2) 0

/-- G1 units that wait, less `n` moved, the oldest first. -/
def serveWaits : List RsvWait → Nat → List RsvWait
  | [], _ => []
  | w :: r, n => if w.units ≤ n then serveWaits r (n - w.units) else { w with units := w.units - n } :: r

/-- The G1 units of a reservation that still wait at the end of a window: those that have waited longer than LAT are deferred, once, and are
delivered late (R372, R374). The answer counts the units deferred now. -/
def State.rsvLate (s : State) (k moved : Nat) : State × Nat :=
  let l := serveWaits (Tab.get (fun _ => []) s.hi.waits k) moved
  let old := fun (w : RsvWait) => !w.late && decide (w.came + 500 * s.rf (R.HI_RSV_CFG k) F.HI_RSV_CFG_LAT < s.now)
  let n := (l.filter old).foldl (fun a w => a + w.units) 0
  let l1 := l.map (fun w => if old w then { w with late := true } else w)
  ({ s with hi := { s.hi with waits := Tab.put (fun _ => []) s.hi.waits k l1 } }, n)

/-- RESERVATION_WINDOW_END (R372–R374): what the engines had to move in the window and could. `want`: the units of 32 B that came up for each
reservation, with the YCLK at which they came; no more than RATE of them are the reservation's. `room`: what each engine, by bank, could move
where that is less than 2 units per NCLK. Each engine serves G1, G2, debt, each in conflict order; G3 has the rest. -/
def execReservationWindowEnd (want : List (Fin 256 × Nat × Nat)) (room : List (Fin 96 × Nat)) (s : State) : Host.Outcome State Fault Refusal :=
  let us := s.rf R.HI_RSV_WIN F.HI_RSV_WIN_US
  .next (if s.now < s.hi.winAt + 500 * us then s
    else
      let rate := fun (k : Nat) => Tab.get (fun _ => 0) s.hi.rates k
      let new := fun (k : Nat) => min (rate k) (unitsOf (want.map (fun e => (e.1.val, e.2.1))) k)
      let came := fun (k : Nat) => match want.find? (fun e => e.1.val == k) with | some e => min e.2.2 s.now | none => s.now
      let g1 := s.rsvOrder false
      let g2 := s.rsvOrder true
      let s1 := s.each g1 (fun k t => if new k = 0 then t else { t with hi := { t.hi with
        waits := Tab.put (fun _ => []) t.hi.waits k (Tab.get (fun _ => []) t.hi.waits k ++ [{ came := came k, units := new k, late := false }]) } })
      let full := fun (e : Nat) => match room.find? (fun x => x.1.val == e) with | some x => min x.2 (2000 * us) | none => 2000 * us
      let (m1, left1) := s.rsvServe (fun k => (Tab.get (fun _ => []) s1.hi.waits k).foldl (fun a w => a + w.units) 0) g1 full
      let (m2, left2) := s.rsvServe new g2 left1
      let (m3, _) := s.rsvServe (fun k => (s.rsvDebts k).foldl (· + ·) 0) g2 left2
      let s2 : State := { s1 with hi := { s1.hi with win := s.hi.win + 1, winAt := s.now } }
      let s3 := s2.each g1 (fun k t =>
        let (u, n) := t.rsvLate k (unitsOf m1 k)
        u.windowOne k n 0)
      s3.each g2 (fun k t => t.windowOne k (new k - unitsOf m2 k) (unitsOf m3 k)))

end Sys2Proof.Machine
end

