-- ==== Sys2Proof/Machine/CfgBase.lean ====
section
/-! DEFINITION. What the configuration engine does to images, frames and regions (09_configuration.md, R272–R306, and R335–R339 for
the keys): reading a source, Proof's checks, the Sleeve, Linings. Its commands are in CfgEngine.lean. -/

namespace Sys2Proof.Machine

/-! Sources -/

/-- `n` bytes of SMB read over port B (R282); the flag says that every word could be read. -/
def State.smbBytes (s : State) (a n : Nat) : State × List Byte × Bool :=
  let w := a / 8 * 8
  let ws := (List.range ((a + n - w + 7) / 8)).map (fun i => w + 8 * i)
  if a + n ≤ 0x3000000 ∧ ws.all (fun x => s.domOn (2 + x / 0x80000 / 12)) then
    let (s1, l, st) := s.readWords 1 (ws.map s.smbPlace)
    (s1, ((l.flatMap (bytesLE 8)).drop (a - w)).take n, st == 0)
  else (s, [], false)

/-- `n` bytes of a source from an offset; the flag is false where the source cannot be read (Table CG-4 code 8). -/
def State.srcRead (s : State) (src : ImgSrc) (o n : Nat) : State × List Byte × Bool :=
  match src with
  | .flash b => if b + o + n ≤ 0x4000000 then s.flRead (b + o) n else (s, [], false)
  | .smb b => s.smbSettle.smbBytes (b + o) n
  | .held l => (s, sliceB l o n, decide (o + n ≤ l.length))

/-! Writing configuration memory and block RAM -/

/-- A unit of content written: a block RAM or a frame (R275). -/
def State.writeUnit (s : State) (bram : Bool) (n : Nat) (l : List Byte) : State :=
  let base := if bram then bramPlace n 0 else memCfg + 320 * n
  (s.writeWords 0 ((List.range (l.length / 8)).map (fun i => (base + 8 * i, ofBytesLE (sliceB l (8 * i) 8), 255)))).1

/-- Units read from a source and written in order, until one cannot be read: the bytes, the units written. -/
def State.loadUnits (s : State) (src : ImgSrc) : List (Bool × Nat × Nat) → State × List Byte × Nat
  | [] => (s, [], 0)
  | (b, n, o) :: r =>
    let (s1, l, ok) := s.srcRead src o (if b then 4608 else 320)
    if ok then
      let (s2, bs, k) := State.loadUnits (s1.writeUnit b n l) src r
      (s2, l ++ bs, k + 1)
    else (s1, [], 0)

/-- CG_PROOF_ERR.FRAME with `k` units written: the frame in hand, 0xFFFF before content. -/
def frameInHand (us : List (Bool × Nat × Nat)) (k : Nat) : Nat :=
  (((us.take (k + 1)).filter (fun u => !u.1)).getLast?.map (fun u => u.2.1)).getD 0xFFFF

/-- REG_INIT's writes in list order (R275): FB offsets. -/
def State.regInit (s : State) (l : List (Nat × Nat)) : State :=
  l.foldl (fun t e =>
    let a := 0x400000 + e.1
    let v := w32 e.2
    match (List.range 4).find? (fun p => a == R.FB_PLL_CFG p || (List.range 6).any (fun o => a == R.FB_PLL_DIV p o)) with
    | some p => t.pllWrite p a v
    | none =>
      if R.FB_MPORT_CFG 0 ≤ a ∧ a < R.FB_MPORT_CFG 4 then
        t.store a (if F.FB_MPORT_CFG_PARTNER.get v < 4 then F.FB_MPORT_CFG_PARTNER.put v (t.rf a F.FB_MPORT_CFG_PARTNER) else v)
      else t.store a v) s

/-! Step 2 of Proof -/

/-- The bytes of a digest. -/
def hashBytes (h : BitVec 384) : List Byte := bytesLE 48 h.toNat

/-- An ASCII label as bytes. -/
def labelBytes (l : String) : List Byte := l.toList.map (fun c => BitVec.ofNat 8 c.toNat)

/-- A key derived from the device-unique secret (R339). -/
def State.derivedKey (s : State) (l : String) : List Byte :=
  hashBytes (Config.hmac384 (s.otBytes 64 8) (labelBytes l ++ [0] ++ s.otBytes 0 4))

/-- The digest that accepts a key pair (R335). -/
def State.keyIndex (s : State) (img : List Byte) : Option Nat :=
  let rsa := sliceB img 0x1000 388
  let dig := hashBytes (Config.sha384 (rsa ++ sliceB img 0x1380 48))
  if fieldB img 0x1180 4 = 65537 then
    (List.range 4).find? (fun k =>
      let d := s.otBytes (4 + 12 * k) 12
      d == dig && d.any (fun b => b != 0) && !wbit (s.otWord 52) k)
  else none

/-- Step 2 (R283, R336–R339) on an image's first 0x6000 bytes: the digest that accepted it (4 for a seal, and for an unsigned ICP
image, whose signature block is all zero), or a Table CG-4 code. -/
def State.proofSig (s : State) (img : List Byte) (unsigned : Bool) : Nat ⊕ Nat :=
  let msg := img.take 0x1000
  if imgKind img = 3 then
    if sliceB img 0x1200 48 == hashBytes (Config.hmac384 (s.derivedKey "QV-SEAL") msg) then .inl 4 else .inr 10
  else if unsigned ∧ (img.drop 0x1000).all (fun b => b == 0) then .inl 4
  else match s.keyIndex img with
    | none => .inr 3
    | some k =>
      if ¬ Config.rsaVerify (sliceB img 0x1000 388) msg (sliceB img 0x1200 384) then .inr 4
      else if ¬ Config.slhVerify (sliceB img 0x1380 48) msg (sliceB img 0x13B0 16224) then .inr 5
      else .inl k

/-- Step 4 (R276, R283): FRAME_HASH over the content, and the CRC over everything before it. -/
def proofEndBad (img content crc : List Byte) : Option Nat :=
  if hashBytes (Config.sha384 content) != imgFrameHash img then some 6
  else if crc32c (img ++ content) != ofBytesLE crc then some 7 else none

/-- CG_PROOF_ERR written (R283). -/
def State.proofErr (s : State) (code frame : Nat) (partial_ : Bool) : State :=
  s.setRg R.CG_PROOF_ERR (w32 (code + 32 * b2n partial_ + 0x10000 * frame))

/-! Regions -/

/-- The state of a region, 0–14 (CG_REG_STAT.STATE). -/
def State.regionState (s : State) (r : Nat) : Nat := s.rf (R.CG_REG_STAT r) F.CG_REG_STAT_STATE
/-- First and last frame of a region. -/
def State.regionRange (s : State) (r : Nat) : Nat × Nat :=
  (s.rf (R.CG_REG_RANGE r) F.CG_REG_RANGE_FIRST, s.rf (R.CG_REG_RANGE r) F.CG_REG_RANGE_LAST)
/-- Does a region hold a frame? -/
def State.inRegion (s : State) (r f : Nat) : Bool :=
  let (a, b) := s.regionRange r
  s.regionState r != 0 && decide (a ≤ f) && decide (f ≤ b)
/-- The region of a frame; 15 is static (R273). -/
def State.regionOf (s : State) (f : Nat) : Nat := ((List.range 15).find? (fun r => s.inRegion r f)).getD 15

/-- The FAB domain of a frame. -/
def frameDom (f : Nat) : Nat := regionDom (f / 4500)
/-- The FAB domains that hold frames of a region. -/
def State.regionDoms (s : State) (r : Nat) : List Nat :=
  let (a, b) := s.regionRange r
  [frameDom a, frameDom b].eraseDups

/-- CG_STATUS.PL_BUSY as loads and repairs stand. -/
def State.cgShow (s : State) : State := s.setRb R.CG_STATUS F.CG_STATUS_PL_BUSY (s.cg.part.isSome || !s.cg.repair.isEmpty)

/-- A region Sleeved and given a state (R295): its connections flushed and held. -/
def State.sleeve (s : State) (r st : Nat) : State :=
  let s1 := (s.connQueues (fun c => connRegion s.cg.hdr c == r)).foldl (fun t q => t.fabFlush q) s
  (s1.setCgr r { s1.cgr r with stage := 0, at_ := s.now, own := some [] }).setRf (R.CG_REG_STAT r) F.CG_REG_STAT_STATE st

/-- A region TORN (R296). -/
def State.torn (s : State) (r : Nat) : State := (s.sleeve r 3).raiseF R.CG_EVT F.CG_EVT_TORN

/-- Stage 1 of a region's release (R297). -/
def State.regionRelease (s : State) (r : Nat) : State := s.setCgr r { s.cgr r with stage := 1, at_ := s.now, own := some [] }

/-! Linings -/

/-- The flash base of a region's Lining (R279, R297); none with NOLINING, and for the static region with no active slot. -/
def State.liningOf (s : State) (r : Nat) : Option Nat :=
  if r = 15 then s.cg.active
  else if s.rb (R.CG_REG_STAT r) F.CG_REG_STAT_NOLINING then none
  else if s.rb (R.CG_REG_LINING r) F.CG_REG_LINING_VALID then some (4096 * s.rf (R.CG_REG_LINING r) F.CG_REG_LINING_OFS)
  else s.cg.active

/-- The frames for which `p` holds rewritten from the Lining image at a base; a frame that the image does not hold, or that flash
cannot give, stays. -/
def State.reloadFrames (s : State) (base : Nat) (p : Nat → Bool) : State :=
  let (s1, h, ok) := s.flRead base 0x1000
  if ¬ ok then s1
  else (imgUnits h).foldl (fun t u =>
    if u.1 ∨ ¬ p u.2.1 then t
    else
      let (t1, l, ok1) := t.flRead (base + u.2.2) 320
      if ok1 then t1.writeUnit false u.2.1 l else t1) s1

/-- One word of a frame rewritten from a Lining; the flag says that it was. -/
def State.reloadWord (s : State) (base w : Nat) : State × Bool :=
  let (s1, h, ok) := s.flRead base 0x1000
  match (imgUnits h).find? (fun u => !u.1 && u.2.1 == w / 40) with
  | some u =>
    if ok then
      let (s2, l, ok2) := s1.flRead (base + u.2.2 + 8 * (w % 40)) 8
      if ok2 then (s2.storeWord (memCfg + 8 * w) (ofBytesLE l), true) else (s2, false)
    else (s1, false)
  | none => (s1, false)

/-- A verification runs: step 2 of a boot attempt, of a partial load or of a library staging (R283). -/
def State.verifying (s : State) : Bool :=
  s.cg.boot.any (fun b => !b.hdr.isEmpty && b.sig.isNone) || s.cg.part.any (fun p => !p.sig) || s.cg.lib.any (fun l => !l.hdr.isEmpty && !l.sig)

/-- SC_STAT.VERIFY_BUSY as it stands. -/
def State.verifyShow (s : State) : State := s.setRb R.SC_STAT F.SC_STAT_VERIFY_BUSY s.verifying

/-! Ends of partial loads -/

/-- The status word that the ICP answers (R293). -/
def State.icpAnswer (s : State) (host : Bool) (region st : Nat) : State := if host then s else s.emit (.fabric 5 region st)

/-- The end of a partial load: CG_PL_STAT; the ICP's status word, or the descriptor of a host load with PARTIAL_CFG and the status
(Table HI-5). -/
def State.plEnd (s : State) (p : PartRun) (st : Nat) : State :=
  let s1 := ((({ s with cg := { s.cg with part := none } } : State).cgShow).setRg R.CG_PL_STAT
    (w32 (st + 16 * p.region + 256 * b2n p.host + 0x10000 * p.frame))).icpAnswer p.host p.region st
  match p.desc with
  | some (q, d) => if st = 0 then s1.descEnd q d 0 0 p.units 0 0 else s1.descEnd q d 2 16 p.units st 0
  | none => s1

/-- A partial load that fails or is aborted (R296): its region is TORN. A failure writes CG_PROOF_ERR and pulses nCFG_STATUS (R286). -/
def State.plFail (s : State) (p : PartRun) (st : Nat) (code : Option Nat) : State :=
  let s1 := ((s.plEnd p st).torn p.region).verifyShow
  match code with
  | some c => (s1.proofErr c p.frame true).emit .cfgStatusPulse
  | none => s1

/-- Library staging that ends without a library (R291): 1 PROOF, 2 ABORTED, 3 SIZE, which is a refusal and leaves PLANES
alone; else PLANES is 0. -/
def State.libEnd (s : State) (st : Nat) : State :=
  let s0 := if st = 1 ∨ st = 2 then s.setRf R.PL_LIB_CFG F.PL_LIB_CFG_PLANES 0 else s
  let s1 : State := { s0 with cg := { s.cg with lib := none } }
  ((s1.setRf R.CG_LIB_STAT F.CG_LIB_STAT_STATUS st).setRb R.CG_LIB_STAT F.CG_LIB_STAT_BUSY false).setRb R.CG_STATUS F.CG_STATUS_LIB_BUSY
    false

/-- What a Run reset does to the engine (R306): a load, a repair and a staging under way abort. -/
def State.cfgRunReset (s : State) : State :=
  let s1 := match s.cg.part with
    | some p => s.plFail { p with desc := none } 3 none
    | none => s
  let s2 := s1.each s1.cg.repair (fun r t => t.torn r)
  let s3 := ({ s2 with cg := { s2.cg with repair := [] } } : State).cgShow
  if s3.cg.lib.isSome then (s3.libEnd 2).verifyShow else s3

/-! FAB domains (R306) -/

/-- A FAB domain leaves ON: a load into it aborts (Table CG-6). -/
def State.cfgDomClose (s : State) (d : Nat) : State :=
  match s.cg.part with
  | some p => if (s.regionDoms p.region).contains d then s.plFail p 3 none else s
  | none => s

/-- A FAB domain goes OFF: its frames and block RAMs are lost, and its regions with them. -/
def State.cfgDomOff (s : State) (d : Nat) : State :=
  let k := if d = 10 then 0 else 1
  let s1 := (s.clearMem (memCfg + 5760000 * k) (memCfg + 5760000 * (k + 1))).clearMem (bramPlace (120 * k) 0) (bramPlace (120 * (k + 1)) 0)
  s1.each ((List.range 15).filter (fun r => s1.regionState r != 0 && s1.regionState r != 3 && (s1.regionDoms r).contains d))
    (fun r t => t.sleeve r 5)

/-- A FAB domain comes ON: its frames are reloaded from their Linings, and regions whose domains are all ON are released; one
without a Lining is TORN (DEDUCED from R300). -/
def State.cfgDomOn (s : State) (d : Nat) : State :=
  let s0 := match s.cg.active with
    | some b => s.reloadFrames b (fun f => frameDom f == d && s.regionOf f == 15)
    | none => s
  s0.each ((List.range 15).filter (fun r => s0.regionState r == 5 && (s0.regionDoms r).contains d)) (fun r t =>
    match t.liningOf r with
    | none => t.torn r
    | some b =>
      let t1 := t.reloadFrames b (fun f => t.inRegion r f && frameDom f == d)
      if (t1.regionDoms r).all (fun e => e == d || t1.domOn e) then t1.regionRelease r else t1)

end Sys2Proof.Machine
end

