-- ==== Sys2Proof/Machine/Ethernet.lean ====
section
/-! DEFINITION. The Ethernet unit and its 1588 clock (05_stream_ports_and_queues.md, R187–R193). -/

namespace Sys2Proof.Machine

/-- Port p. -/
def State.enPort (s : State) (p : Nat) : EnPort := Tab.get (fun _ => EnPort.idle) s.en.ports p
/-- Port p replaced. -/
def State.setEnPort (s : State) (p : Nat) (x : EnPort) : State :=
  { s with en := { s.en with ports := Tab.put (fun _ => EnPort.idle) s.en.ports p x } }

/-! The clock (R191) -/

/-- 2^-24 ns in a second. -/
def ptpSec : Nat := 1000000000 * 2 ^ 24

/-- The clock now: EN_PTP_INC is added every YCLK; the seconds have 48 bits. -/
def State.ptpNow (s : State) : Nat :=
  (s.en.ptp + (s.rg R.EN_PTP_INC).toNat * (s.now - s.en.ptpAt)) % (2 ^ 48 * ptpSec)

/-- The clock given a value as of now. -/
def State.setPtp (s : State) (x : Nat) : State := { s with en := { s.en with ptp := x % (2 ^ 48 * ptpSec), ptpAt := s.now } }

/-- Seconds and nanoseconds of a clock value. -/
def ptpSplit (x : Nat) : Nat × Nat := (x / ptpSec, x % ptpSec / 2 ^ 24)

/-- The clock less a signed number of nanoseconds. -/
def ptpLess (x : Nat) (ns : Int) : Nat := (((x : Int) - ns * 2 ^ 24) % (2 ^ 48 * ptpSec : Nat)).toNat

/-- EN_PTP_STEP: signed nanoseconds added. -/
def execEnPtpStep (v : Word) (s : State) : Host.Outcome State Fault Refusal :=
  .next (s.setPtp (ptpLess s.ptpNow (-v.toInt)))

/-- PTP_SET: EN_CTRL.PTP_SET loads the staged values. -/
def execPtpSet (s : State) : Host.Outcome State Fault Refusal :=
  .next (s.setPtp (((s.rg R.EN_PTP_SEC_LO).toNat + 2 ^ 32 * s.rf R.EN_PTP_SEC_HI F.EN_PTP_SEC_HI_SEC) * ptpSec
    + s.rf R.EN_PTP_NS F.EN_PTP_NS_NS * 2 ^ 24))

/-! Receive (R188–R190) -/

/-- Byte k of a frame. -/
def fb (f : List Byte) (k : Nat) : Nat := (f.getD k 0).toNat
/-- A big-endian 16-bit field of a frame. -/
def fb16 (f : List Byte) (k : Nat) : Nat := 256 * fb f k + fb f (k + 1)
/-- An IPv4 address as EN_RULE holds it: first octet in [7:0]. -/
def fbIp (f : List Byte) (k : Nat) : Nat := fb f k + 256 * fb f (k + 1) + 0x10000 * fb f (k + 2) + 0x1000000 * fb f (k + 3)

/-- The Internet checksum sum of bytes, folded into 16 bits. -/
def inetSum (l : List Byte) (init : Nat) : Nat :=
  let t := (List.range ((l.length + 1) / 2)).foldl (fun a i => a + fb16 l (2 * i)) init
  let u := t % 0x10000 + t / 0x10000
  let w := u % 0x10000 + u / 0x10000
  w % 0x10000 + w / 0x10000

/-- Where a frame's EtherType stands: behind an 802.1Q tag where there is one. -/
def ethTag (f : List Byte) : Bool := fb16 f 12 == 0x8100
def ethL3 (f : List Byte) : Nat := if ethTag f then 18 else 14
def ethType (f : List Byte) : Nat := fb16 f (ethL3 f - 2)
def ethVlan (f : List Byte) : Nat := if ethTag f then fb16 f 14 % 4096 else 0

/-- Is a frame an IPv4/UDP frame? -/
def isUdp (f : List Byte) : Bool := ethType f == 0x0800 && fb f (ethL3 f) / 16 == 4 && fb f (ethL3 f + 9) == 17

/-- Is a frame steerable (R188)? -/
def steerable (f : List Byte) : Bool :=
  isUdp f && fb f (ethL3 f) % 16 == 5 && fb16 f (ethL3 f + 6) &&& 0x3FFF == 0

/-- The start of a frame's UDP header. -/
def udpAt (f : List Byte) : Nat := ethL3 f + 4 * (fb f (ethL3 f) % 16)

/-- Do the IPv4 header checksum and a non-zero UDP checksum agree (R188)? A fragment's UDP checksum cannot be checked. -/
def checksOk (f : List Byte) : Bool :=
  if ¬ isUdp f then true
  else
    let l3 := ethL3 f
    let hl := 4 * (fb f l3 % 16)
    let u := udpAt f
    let ulen := fb16 f (u + 4)
    let hdr := decide (inetSum ((f.drop l3).take hl) 0 = 0xFFFF)
    let frag := fb16 f (l3 + 6) &&& 0x3FFF != 0
    let pseudo := fb16 f (l3 + 12) + fb16 f (l3 + 14) + fb16 f (l3 + 16) + fb16 f (l3 + 18) + 17 + ulen
    hdr && (frag || fb16 f (u + 6) == 0 || decide (inetSum ((f.drop u).take ulen) pseudo = 0xFFFF))

/-- Does rule i match a steerable frame on port p (R189)? -/
def State.ruleHit (s : State) (i p : Nat) (f : List Byte) : Bool :=
  let c := s.rg (R.EN_RULE_CFG i)
  let m := F.EN_RULE_CFG_MATCH.get c
  let l3 := ethL3 f
  F.EN_RULE_CFG_EN.bit c && (F.EN_RULE_CFG_PORTMASK.get c).testBit p
    && (!m.testBit 0 || (s.rg (R.EN_RULE_DIP i)).toNat == fbIp f (l3 + 16))
    && (!m.testBit 1 || (s.rg (R.EN_RULE_SIP i)).toNat == fbIp f (l3 + 12))
    && (!m.testBit 2 || s.rf (R.EN_RULE_PORTS i) F.EN_RULE_PORTS_DPORT == fb16 f (udpAt f + 2))
    && (!m.testBit 3 || (ethTag f && s.rf (R.EN_RULE_PORTS i) F.EN_RULE_PORTS_VLAN == ethVlan f))

/-- Bytes packed into words, byte k in bits [8(k mod 4)+7 : 8(k mod 4)] (R190). -/
def packWords : List Byte → List Word
  | [] => []
  | [a] => [w32 a.toNat]
  | [a, b] => [w32 (a.toNat + 256 * b.toNat)]
  | [a, b, c] => [w32 (a.toNat + 256 * b.toNat + 0x10000 * c.toNat)]
  | a :: b :: c :: d :: r => w32 (a.toNat + 256 * b.toNat + 0x10000 * c.toNat + 0x1000000 * d.toNat) :: packWords r

/-- A whole item pushed into a queue, LAST on its last word. -/
def State.pushItem (s : State) (q : Nat) : List Word → State
  | [] => s
  | x :: r => State.pushItem (s.qGive q (Token.word x r.isEmpty) false) q r

/-- A drop counted in a field of EN_RXDROP. -/
def State.rxDrop (s : State) (p : Nat) (f : Fld) : State := s.bump (R.EN_RXDROP p) f 1

/-- A frame delivered to its queue as one item (R190): by rule `i`, or whole to the default queue. -/
def State.rxDeliver (s : State) (p : Nat) (f : List Byte) (rule : Option Nat) (ts : Nat) : State :=
  let st := steerable f
  let form := match rule with | some i => s.rb (R.EN_RULE_CFG i) F.EN_RULE_CFG_FORM | none => false
  let q := match rule with
    | some i => s.rf (R.EN_RULE_CFG i) F.EN_RULE_CFG_QNUM
    | none => s.rf (R.EN_PORT_CFG p) F.EN_PORT_CFG_DEFQ
  let u := udpAt f
  let body := if form then (f.drop (u + 8)).take (fb16 f (u + 4) - 8) else f
  let (sec, ns) := ptpSplit ts
  let hdr := [w32 (body.length + 0x10000 * p + 0x40000 * rule.getD 0 + 0x4000000 * b2n form + 0x8000000 * b2n (ethTag f)
                   + 0x10000000 * b2n rule.isNone),
              w32 (if st then fbIp f (ethL3 f + 12) else 0),
              w32 (if st then fb16 f u + 0x10000 * fb16 f (u + 2) else 0),
              w32 ns, w32 sec, w32 (bitsOf sec 32 16 + 0x10000 * ethVlan f)]
  let item := hdr ++ packWords body
  if s.rf (R.SQ_Q_BIND q) F.SQ_Q_BIND_PROD_KIND = 3 ∧ s.qRoom q item.length then
    (s.pushItem q item).bump (R.EN_RXCNT p) F.EN_RXCNT_FRAMES 1
  else s.rxDrop p F.EN_RXDROP_ROOM

/-- Bytes that the receive buffer of a port holds. -/
def EnPort.rxUsed (k : EnPort) : Nat := k.rx.foldl (fun a f => a + f.bytes.length) 0

/-- A frame that comes in at a port (R187, R188): dropped where the 64 KiB receive buffer has no room for it, its FCS or length is wrong, or a
checksum is; a MAC control frame is discarded; else whole in the buffer. -/
def State.rxArrive (s : State) (n : Nat) (frame : List Byte) (fcsOk : Bool) : State :=
  let k := s.enPort n
  let len := frame.length + 4
  if ¬ s.rb (R.EN_PORT_CFG n) F.EN_PORT_CFG_EN ∨ ¬ s.rb (R.EN_PORT_STAT n) F.EN_PORT_STAT_LINK then s
  else if 65536 < k.rxUsed + frame.length then s.rxDrop n F.EN_RXDROP_ROOM
  else if ¬ fcsOk ∨ len < 64 ∨ 9600 < len then s.rxDrop n F.EN_RXDROP_FCS_LEN
  else if ethType frame = 0x8808 then s
  else if ¬ checksOk frame then s.rxDrop n F.EN_RXDROP_CHK
  else s.setEnPort n { k with rx := k.rx ++ [{ bytes := frame, ts := ptpLess s.ptpNow (sext 16 (s.rf (R.EN_TSADJ n) F.EN_TSADJ_RX)) }] }

/-- A frame of the receive buffer steered to its queue (R189). -/
def State.rxSteer (s : State) (n : Nat) (f : RxFrame) : State :=
  match (if steerable f.bytes then (List.range 256).find? (fun i => s.ruleHit i n f.bytes) else none) with
  | some i => s.rxDeliver n f.bytes (some i) f.ts
  | none =>
    if s.rb (R.EN_PORT_CFG n) F.EN_PORT_CFG_DEF_EN then s.rxDeliver n f.bytes none f.ts else s.rxDrop n F.EN_RXDROP_NOMATCH

/-- The receive buffer of a port delivered, the oldest frame first. -/
def State.rxEmpty (s : State) (n : Nat) : State :=
  let k := s.enPort n
  k.rx.foldl (fun t f => t.rxSteer n f) (s.setEnPort n { k with rx := [] })

/-- EN_FRAME_RECEIVE (R187–R191): a frame whole from a port, without its FCS, of which `fcsOk` tells. `hold`: the receive unit has not come to
this port's frames yet; they stay in the receive buffer until an EN_FRAME_RECEIVE of the port without it. -/
def execEnFrameReceive (p : Fin 4) (frame : List Byte) (fcsOk hold : Bool) (s : State) : Host.Outcome State Fault Refusal :=
  let s1 := s.rxArrive p frame fcsOk
  .next (if hold then s1 else s1.rxEmpty p)

/-! Transmit (R192) -/

/-- Words of an item taken out of a queue, up to its LAST or as many as there are. The answer's option says that the item has ended, and
whether by a truncation marker (R173). -/
def State.pullItem (s : State) (q : Nat) : Nat → State × List Word × Option Bool
  | 0 => (s, [], none)
  | n + 1 => match s.qHead q with
    | none => (s, [], none)
    | some t =>
      let cut := (s.qu q).marker
      let s1 := s.qDrop q
      if t.fold then State.pullItem s1 q n
      else if cut then (s1, [], some true)
      else if t.last then (s1, [t.data], some false)
      else
        let (s2, l, e) := State.pullItem s1 q n
        (s2, t.data :: l, e)

/-- The bytes of words (R190). -/
def wordBytes (l : List Word) : List Byte := l.flatMap (fun w => bytesLE 4 w.toNat)

/-- A transmit timestamp queued, or lost (R192). -/
def State.pushTxts (s : State) (p seq : Nat) : State :=
  let k := s.enPort p
  if 16 ≤ k.txts.length then s.bump (R.EN_PORT_STAT p) F.EN_PORT_STAT_TXTS_OVF 1
  else
    let (sec, ns) := ptpSplit (ptpLess s.ptpNow (sext 16 (s.rf (R.EN_TSADJ p) F.EN_TSADJ_TX)))
    s.setEnPort p { k with txts := k.txts ++ [{ ns := ns, sec := sec % 0x10000, seq := seq % 0x10000 }] }

/-- The bytes of a frame that an item's words give so far, up to LENGTH. -/
def txBytes (item : List Word) : List Byte := (wordBytes (item.drop 1)).take ((item.headD 0).toNat % 0x10000)

/-- The frame of an item sent (R192): padded to 60 bytes, its FCS behind it (IEEE 802.3 CRC-32, PRESUMED); a short item's frame is
zero-filled and its FCS inverted. -/
def State.txSend (s : State) (n : Nat) (item : List Word) : State :=
  let w0 := item.headD 0
  let len := w0.toNat % 0x10000
  let body := txBytes item
  let short := decide (body.length < len)
  let data := body ++ List.replicate (len - body.length) 0
  let frame := data ++ List.replicate (60 - data.length) 0
  let fcs := crc32 0xEDB88320 frame
  let k := s.enPort n
  let s1 := s.setEnPort n { k with seq := k.seq + 1, tx := none }
  let s2 := s1.emit (.eth n (frame ++ bytesLE 4 (if short then fcs ^^^ 0xFFFFFFFF else fcs)))
  let s3 := if short then s2.bump (R.EN_PORT_STAT n) F.EN_PORT_STAT_TX_BAD 1 else s2
  if wbit w0 16 then s3.pushTxts n k.seq else s3

/-- EN_FRAME_TRANSMIT (R192): the port takes the words of an item from its queue; with the item's end its frame is sent, and until then the port
keeps what it has. A truncation marker of an item that the port never began is only taken. -/
def execEnFrameTransmit (p : Fin 4) (s : State) : Host.Outcome State Fault Refusal :=
  let n := p.val
  let cfg := s.rg (R.EN_PORT_CFG n)
  let q := F.EN_PORT_CFG_TXQ.get cfg
  let b := s.rg (R.SQ_Q_BIND q)
  let (s1, ws, ended) := s.pullItem q ((s.qu q).ents.length + (s.qu q).held.length + 2)
  let item := (s.enPort n).tx.getD [] ++ ws
  .next (if ¬ F.EN_PORT_CFG_EN.bit cfg ∨ ¬ F.EN_PORT_CFG_TX_EN.bit cfg ∨ ¬ s.rb (R.EN_PORT_STAT n) F.EN_PORT_STAT_LINK
        ∨ F.SQ_Q_BIND_CONS_KIND.get b ≠ 3 ∨ F.SQ_Q_BIND_CONS_ID.get b ≠ n then s
    else match ended with
      | none => if item.isEmpty then s1 else s1.setEnPort n { s1.enPort n with tx := some item }
      | some _ => if item.isEmpty then s1 else s1.txSend n item)

/-- TXTS_READ (R192): a read of EN_TXTS_NS returns and removes the oldest timestamp and latches EN_TXTS_SEC. -/
def State.txtsRead (s : State) (p : Nat) : State × Word :=
  let k := s.enPort p
  match k.txts with
  | [] => (s, 0)
  | t :: r => ((s.setEnPort p { k with txts := r }).setRg (R.EN_TXTS_SEC p) (w32 (t.sec + 0x10000 * t.seq)), w32 (t.ns + 2 ^ 31))

/-- TXTS_READ. -/
def execTxtsRead (p : Fin 4) (s : State) : Host.Outcome State Fault Refusal :=
  let (s1, v) := s.txtsRead p
  .next (s1.emit (.readBack (R.EN_TXTS_NS p) v))

/-- Receive buffers and EN_TXTS queues discarded; a frame of which bytes have been sent ends there, with an inverted FCS (R193). -/
def State.enDrop (s : State) : State :=
  s.each (List.range 4) (fun p t =>
    let k := t.enPort p
    let cut := txBytes (k.tx.getD [])
    let t1 := t.setEnPort p { k with txts := [], rx := [], tx := none }
    if cut.isEmpty then t1 else t1.emit (.eth p (cut ++ bytesLE 4 (crc32 0xEDB88320 cut ^^^ 0xFFFFFFFF))))

/-- EN_BLK_RST (R193): receive buffers and EN_TXTS queues are discarded, the PCS of every port restarts; link state returns with
EN_LINK_CHANGE. Rules and clock stay. -/
def execEnBlkRst (s : State) : Host.Outcome State Fault Refusal :=
  .next (s.blkRst 18 (s.enDrop.clearRegs .block 0x660000 0x680000))

/-- EN_LINK_CHANGE (R187): the PCS of a port reports block lock, link and FEC lock. -/
def execEnLinkChange (p : Fin 4) (block link fec : Bool) (s : State) : Host.Outcome State Fault Refusal :=
  let v := (s.rg (R.EN_PORT_STAT p)).toNat / 8 * 8
  let fecOn := s.rf (R.EN_PORT_CFG p) F.EN_PORT_CFG_FEC != 0
  .next (if s.rb (R.EN_PORT_CFG p) F.EN_PORT_CFG_EN then
      s.setRg (R.EN_PORT_STAT p) (w32 (v + b2n block + 2 * b2n link + 4 * b2n (fec && fecOn)))
    else s)

end Sys2Proof.Machine
end

