-- ==== Sys2Proof/Machine/Flash.lean ====
section
/-! DEFINITION. The flash and OTP controllers' commands (10_flash_otp_protection.md, R309–R333). -/

namespace Sys2Proof.Machine

/-! Status -/

/-- A command ended, or refused, with a STATUS (R309). -/
def State.flEnd (s : State) (st : Nat) : State :=
  let s1 := s.flShow.setRf R.FL_STAT F.FL_STAT_STATUS st
  if st = 0 then s1.raiseF R.FL_EVT F.FL_EVT_DONE else s1.raiseF R.FL_EVT F.FL_EVT_FAIL

/-- A command under way. -/
def State.flRun (s : State) (r : FlRun) : State := ({ s with fl := { s.fl with run := some r } } : State).flShow

/-- The lowest status among conditions in ascending order (R508). -/
def firstBad : List (Bool × Nat) → Option Nat
  | [] => none
  | (b, c) :: r => if b then some c else firstBad r

/-- BUSY (R309, R313): while an erase is suspended, `inSusp` commands may run when nothing else does. A record that the hardware programs
holds the controller as a command does (DESIGN CHOICE, log entry 151). -/
def State.flBusy (s : State) (inSusp : Bool) : Bool := s.fl.run.isSome || !s.fl.recs.isEmpty || (s.fl.susp.isSome && !inSusp)

/-- Does a range touch the suspended sector (R313)? -/
def State.flSuspHit (s : State) (a n : Nat) : Bool :=
  match s.fl.susp with
  | some (k, _, _) => decide (a < 0x10000 * (k + 1)) && decide (0x10000 * k < a + n)
  | none => false

/-- Does a range touch the locked slot (R314), the system sector (R315)? -/
def State.flLocked (s : State) (a n : Nat) : Bool :=
  let l := s.rf R.FL_STAT F.FL_STAT_LOCK
  (l == 1 && decide (a < 0xE00000)) || (l == 2 && decide (0xE00000 < a + n) && decide (a < 0x1C00000))
def flSys (a n : Nat) : Bool := decide (0x3FE0000 < a + n)

/-- FL_ADDR. -/
def State.flAddr (s : State) : Nat := s.rf R.FL_ADDR F.FL_ADDR_ADDR

/-- The byte buffer's first `n` bytes. -/
def State.flBuf (s : State) (n : Nat) : List Byte :=
  ((List.range ((n + 3) / 4)).flatMap (fun k => bytesLE 4 (s.rg (R.FL_BUF k)).toNat)).take n

/-- The write of FL_CMD judged (R344): the flag says that it passes. -/
def State.flJudge (s : State) (pid : Nat) (write : Bool) : State × Bool := s.fwJudge pid 2 s.flAddr (!write) write

/-! Commands -/

/-- READ (Table FL-2). -/
def State.flashRead (s : State) (n : Nat) : State :=
  let a := s.flAddr
  match firstBad [(s.flBusy true, 1),
      (decide (1 ≤ s.rdp) && (decide (a < 0x3200000) || flSys a n), 5),
      (decide (a % 4 ≠ 0) || n % 4 != 0 || decide (n < 4) || decide (1024 < n) || decide (0x4000000 < a + n), 6), (s.flSuspHit a n, 8)] with
  | some c => s.flEnd c
  | none =>
    let (s1, l, ok) := s.flRead a n
    (s1.each (List.range (n / 4)) (fun k t => t.setRg (R.FL_BUF k) (w32 (ofBytesLE ((l.drop (4 * k)).take 4))))).flEnd (if ok then 0 else 7)

/-- The first unit of a range that is not erased. -/
def State.flNotBlank (s : State) (a n : Nat) : Option Nat :=
  ((List.range ((a % 32 + n + 31) / 32)).find? (fun k => !s.flErased (a / 32 * 32 + 32 * k))).map (fun k => a / 32 * 32 + 32 * k)

/-- PROGRAM (R311). -/
def State.flashProgram (s : State) (n : Nat) : State :=
  let a := s.flAddr
  let nb := s.flNotBlank a n
  match firstBad [(s.flBusy true, 1), (nb.isSome, 2), (s.flLocked a n, 3), (flSys a n, 4),
      (decide (a % 32 ≠ 0) || n % 32 != 0 || decide (n < 32) || decide (256 < a % 256 + n), 6), (s.flSuspHit a n, 8)] with
  | some c => (if c = 2 then s.setRg R.FL_ERR_ADDR (w32 (nb.getD 0)) else s).flEnd c
  | none => s.flRun (.program [(a, s.flBuf n)])

/-- ERASE (R312): a blank sector ends after one verify, without a pulse. -/
def State.flashErase (s : State) : State :=
  let a := s.flAddr
  let k := a / 0x10000
  match firstBad [(s.flBusy false, 1), (s.flLocked a 1, 3), (flSys a 1, 4)] with
  | some c => s.flEnd c
  | none =>
    let s1 := s.setRg R.FL_ERASE_PROGRESS (w32 (256 * k))
    if s1.sectorBlank k then s1.flEnd 0 else (s1.sectorPart k).flRun (.erase k 0)

/-- BLANK_CHECK. -/
def State.flashBlank (s : State) (n : Nat) : State :=
  let a := s.flAddr
  let nb := s.flNotBlank a n
  match firstBad [(s.flBusy true, 1),
      (decide (a % 32 ≠ 0) || n % 32 != 0 || decide (n < 32) || decide (1024 < n) || decide (0x10000 < a % 0x10000 + n), 6),
      (s.flSuspHit a n, 8), (nb.isSome, 11)] with
  | some c => (if c = 11 then s.setRg R.FL_ERR_ADDR (w32 (nb.getD 0)) else s).flEnd c
  | none => s.flEnd 0

/-- The trim slots (Table FL-3): is one erased; is one neither erased nor killed; is a page valid (R330)? -/
def State.trimErased (s : State) (k : Nat) : Bool := (List.range 32).all (fun u => s.flErased (0x3FE0000 + 0x400 * k + 32 * u))
def State.trimKilled (s : State) (k : Nat) : Bool := !s.flErased (0x3FE0000 + 0x400 * k + 0x3E0)
def trimOk (l : List Byte) : Bool :=
  ofBytesLE (l.take 4) == 0x4D495254 && ofBytesLE ((l.drop 4).take 2) == 1
    && ofBytesLE ((l.drop 0x3DC).take 4) == crc32c (l.take 0x3DC)
def State.trimValid (s : State) (k : Nat) : Bool :=
  !s.trimErased k && !s.trimKilled k && (let (_, l, ok) := s.flRead (0x3FE0000 + 0x400 * k) 0x3E0; ok && trimOk l)

/-- TRIM_WRITE (R331): the buffer without its KILL unit goes into the lowest erased slot page by page, then the KILL unit of every
other valid slot is programmed to zero. -/
def State.trimWrite (s : State) : State :=
  let slot := (List.range 16).find? (fun k => s.trimErased k)
  let l := s.flBuf 1024
  match firstBad [(s.flBusy false, 1), (slot.isNone, 9), (!trimOk l, 10)] with
  | some c => s.flEnd c
  | none =>
    let k := slot.getD 0
    let base := 0x3FE0000 + 0x400 * k
    s.flRun (.program (((List.range 4).map (fun p => (base + 256 * p, ((l.take 0x3E0).drop (256 * p)).take 256)))
      ++ ((List.range 16).filter (fun j => j != k && s.trimValid j)).map (fun j => (0x3FE0000 + 0x400 * j + 0x3E0, List.replicate 32 0))))

/-- Units of the repair log in use. -/
def State.logUsed (s : State) : Nat := ((List.range 2048).filter (fun k => !s.flErased (logBase + 32 * k))).length

/-- LOG_APPEND (R332). -/
def State.logAppend (s : State) : State :=
  let at_ := s.firstErased logBase 2048
  match firstBad [(s.flBusy false, 1), (at_.isNone, 9)] with
  | some c => (if c = 9 then s.raiseF R.FL_EVT F.FL_EVT_LOG_FULL else s).flEnd c
  | none =>
    let (s1, rs) := s.flRecords logBase 2048
    let l := s.flBuf 32
    s1.flRun (.program [(at_.getD 0, withCrc (l.take 4 ++ bytesLE 4 (lastSeq rs + 1) ++ (l.drop 8).take 20))])

/-- A command starts once the die has completed what a reset cut short (R317). -/
def State.flReady (s : State) : State := if s.fl.die then ({ s with fl := { s.fl with die := false } } : State).flShow else s

/-- A command judged by the firewall and run. -/
def State.flCmd (s : State) (pid : Nat) (write : Bool) (f : State → State) : State :=
  let (s1, ok) := s.flJudge pid write
  if ok then f s1.flReady else s1

/-- A write of FL_CMD with GO; a reserved OP is refused ALIGN. The flag says that the firewall passed it. -/
def State.flOp (s : State) (pid op n : Nat) : State × Bool :=
  let (s1, ok) := s.flJudge pid (op == 2 || op == 3 || op == 5 || op == 6)
  if ¬ ok then (s1, false)
  else
    let t := s1.flReady
    (match op with
      | 1 => t.flashRead n | 2 => t.flashProgram n | 3 => t.flashErase | 4 => t.flashBlank n | 5 => t.trimWrite | 6 => t.logAppend
      | _ => t.flEnd (if t.flBusy false then 1 else 6), true)

/-- FLASH_READ (R309). -/
def execFlashRead (len : BitVec 11) (pid : BitVec 10) (s : State) : Host.Outcome State Fault Refusal :=
  .next (s.flCmd pid.toNat false (fun t => t.flashRead len.toNat))
/-- FLASH_PROGRAM (R311). -/
def execFlashProgram (len : BitVec 11) (pid : BitVec 10) (s : State) : Host.Outcome State Fault Refusal :=
  .next (s.flCmd pid.toNat true (fun t => t.flashProgram len.toNat))
/-- FLASH_ERASE (R312). -/
def execFlashErase (pid : BitVec 10) (s : State) : Host.Outcome State Fault Refusal :=
  .next (s.flCmd pid.toNat true (fun t => t.flashErase))
/-- BLANK_CHECK (R309). -/
def execBlankCheck (len : BitVec 11) (pid : BitVec 10) (s : State) : Host.Outcome State Fault Refusal :=
  .next (s.flCmd pid.toNat false (fun t => t.flashBlank len.toNat))
/-- TRIM_WRITE (R331). -/
def execTrimWrite (pid : BitVec 10) (s : State) : Host.Outcome State Fault Refusal :=
  .next (s.flCmd pid.toNat true (fun t => t.trimWrite))
/-- LOG_APPEND (R332). -/
def execLogAppend (pid : BitVec 10) (s : State) : Host.Outcome State Fault Refusal :=
  .next (s.flCmd pid.toNat true (fun t => t.logAppend))

/-- What the trim and log registers show of the array. -/
def State.flCounts (s : State) : State :=
  (s.setRf R.FL_LOG_STAT F.FL_LOG_STAT_USED s.logUsed).setRf R.TR_STAT F.TR_STAT_FREE ((List.range 16).filter (fun k => s.trimErased k)).length

/-- The page in hand is programmed (R311); after the last one the command ends. -/
def State.flPageDone (s : State) : List (Nat × List Byte) → State
  | [] => ({ s with fl := { s.fl with run := none } } : State).flEnd 0
  | (a, l) :: r =>
    let s1 := s.flProg a l
    let s2 := if 0x3FE0000 ≤ a then s1.flCounts else s1
    if r.isEmpty then ({ s2 with fl := { s2.fl with run := none } } : State).flEnd 0
    else { s2 with fl := { s2.fl with run := some (.program r) } }

/-! The OTP controller -/

/-- DONE and STATUS of an OTP command. -/
def State.otEnd (s : State) (st : Nat) : State :=
  (((s.setRf R.OT_STAT F.OT_STAT_STATUS st).setRb R.OT_STAT F.OT_STAT_BUSY s.ot.run.isSome)).setRb R.OT_CMD F.OT_CMD_DONE true

/-- Pulses begun on bits, in order. -/
def State.otPulse (s : State) (bits : List (Nat × Nat)) (why : OtWhy) : State :=
  let s1 : State := { s with ot := { s.ot with run := some { left := bits, done := [], why := why } } }
  (s1.setRb R.OT_STAT F.OT_STAT_BUSY true).setRb R.OT_CMD F.OT_CMD_DONE false

/-- OTP_READ (R321). -/
def State.otpRead (s : State) : State :=
  let k := s.rf R.OT_WSEL F.OT_WSEL_WORD
  if s.ot.run.isSome then s.otEnd 1
  else if 64 ≤ k ∧ k ≤ 95 then (s.setRg R.OT_WDATA 0).otEnd 3
  else (s.setRg R.OT_WDATA (s.otWord k)).otEnd 0

/-- OTP_READ (R321). -/
def execOtpRead (s : State) : Host.Outcome State Fault Refusal := .next s.otpRead

/-- May OT_CMD.PROG program a word (Table OT-1)? -/
def State.otAllowed (s : State) (k : Nat) : Bool :=
  let zero := fun (b : Nat) => (List.range 12).all (fun i => s.otWord (b + i) == 0)
  if 4 ≤ k ∧ k < 52 then zero (4 + 12 * ((k - 4) / 12)) else if 72 ≤ k ∧ k < 84 then zero 72 else if 84 ≤ k ∧ k < 96 then zero 84
  else decide (128 ≤ k)

/-- OTP_PROG (R320): one pulse for each bit that is to become 1. -/
def State.otpProg (s : State) : State :=
  let k := s.rf R.OT_WSEL F.OT_WSEL_WORD
  let bits := (bitList 32 (s.rg R.OT_WDATA).toNat).filter (fun b => !wbit (s.otWord k) b)
  if s.ot.run.isSome then s.otEnd 1
  else if ¬ s.otAllowed k then s.otEnd 2
  else if bits.isEmpty then s.otEnd 0
  else s.otPulse (bits.map (fun b => (k, b))) .prog

/-- OTP_PROG (R320). -/
def execOtpProg (s : State) : Host.Outcome State Fault Refusal := .next s.otpProg

/-! Erasing -/

/-- PHASE 4 of a lowering (R326): the lowest RDP1 bit that is 0 is pulsed. -/
def State.lowerLevel (s : State) : State :=
  let s1 := s.setRg R.FL_RDP_STAT 4
  match s1.rdp1Free with
  | some b => s1.otPulse [b] .lower
  | none => s1

/-- The next step of a lowering (R326): the first sector from `k` on that is not blank is erased; after the last, END is written, and
PHASE 4 follows it (a full journal takes no record: DESIGN CHOICE, log entry 151). -/
def State.lowerNext (s : State) (k : Nat) : State :=
  match ((List.range 1022).drop k).find? (fun j => !s.sectorBlank j) with
  | some j =>
    let s1 : State := { s with fl := { s.fl with lower := some j } }
    let s2 := (s1.setRg R.FL_RDP_STAT (w32 (2 + 8 * j))).setRg R.FL_ERASE_PROGRESS (w32 (256 * j))
    (s2.sectorPart j).flRun (.erase j 0)
  | none =>
    let s1 : State := { s with fl := { s.fl with lower := some 1022 } }
    let s2 := s1.setRg R.FL_RDP_STAT 3
    match s2.journalRec .lowerEnd 2 1 0 with
    | some r => s2.flRecord r
    | none => s2.lowerLevel

/-- ERASE_PULSE_END (R312): the pulse counts and the sector is verified; `erased` says that every unit reads erased. -/
def execErasePulseEnd (erased : Bool) (s : State) : Host.Outcome State Fault Refusal :=
  .next (match s.fl.run with
    | some (.erase k n) =>
      let s1 := s.bump R.FL_ERASE_PROGRESS F.FL_ERASE_PROGRESS_PULSES 1
      if erased then
        let s2 : State := { s1.sectorErase k with fl := { s1.fl with run := none } }
        match s2.fl.lower with
        | some _ => s2.flShow.lowerNext (k + 1)
        | none => s2.flEnd 0
      else (s1.sectorPart k).flRun (.erase k (n + 1))
    | none => s.flReady
    | _ => s)

/-- FLASH_SUSPEND (R313): the pulse in progress is abandoned and not counted; a lowering honours none (R326). -/
def State.flSuspend (s : State) : State :=
  match s.fl.run with
  | some (.erase k n) =>
    if s.fl.lower.isSome then s
    else ({ s with fl := { s.fl with run := none, susp := some (k, n, false) } } : State).flShow
  | _ => s

/-- FLASH_SUSPEND. -/
def execFlashSuspend (s : State) : Host.Outcome State Fault Refusal := .next s.flSuspend

/-- FLASH_RESUME (R313): a suspended erase restarts with a new pulse, when no other command runs. -/
def State.flResume (s : State) : State :=
  match s.fl.susp, s.fl.run with
  | some (k, n, _), none => (({ s with fl := { s.fl with susp := none } } : State).sectorPart k).flRun (.erase k n)
  | _, _ => s

/-- FLASH_RESUME. -/
def execFlashResume (s : State) : Host.Outcome State Fault Refusal := .next s.flResume

/-- What is in hand cut off (R317, Table FL-5): the die completes the page being programmed, and DIE_BUSY shows it; a sector being
erased, or whose erase is suspended, is left partly erased. A record being programmed fails its CRC (R329, Table SC-10). -/
def State.flAbort (s : State) : State :=
  let s1 := match s.fl.run, s.fl.recs with
    | some (.program ((a, l) :: _)), _ => s.flProg a l
    | none, r :: _ => { s.flProg r.off (tornRec s.freeCtr r.bytes) with freeCtr := s.freeCtr + r.bytes.length + 1 }
    | _, _ => s
  ({ s1 with fl := { Fl.reset with die := s.fl.die || s.fl.run.isSome || !s.fl.recs.isEmpty } } : State).flShow

/-- A Run reset (R6, R317, Table FL-5): a command in hand runs on with its STATUS and progress, a suspended erase is abandoned, and every FL field
marked Block or Run returns to reset. -/
def State.flRunReset (s : State) : State :=
  let s1 : State := { s with fl := { s.fl with susp := none } }
  let s2 := s1.clearRegs .run 0x540000 0x550000
  let s3 := if s.fl.run.isSome ∨ ¬ s.fl.recs.isEmpty then
      (s2.setRf R.FL_STAT F.FL_STAT_STATUS (s.rf R.FL_STAT F.FL_STAT_STATUS)).setRg R.FL_ERASE_PROGRESS (s.rg R.FL_ERASE_PROGRESS)
    else s2
  s3.flShow

/-- FL_BLK_RST (R317). -/
def State.flBlkRst (s : State) : State :=
  let was := s.fl.run.isSome || s.fl.susp.isSome || !s.fl.recs.isEmpty
  let s1 := (s.flAbort.clearRegs .block 0x540000 0x550000).flShow
  if was then s1.flEnd 12 else s1

/-- FL_BLK_RST. -/
def execFlBlkRst (s : State) : Host.Outcome State Fault Refusal :=
  .next (s.blkRst 12 s.flBlkRst)

end Sys2Proof.Machine
end

