-- ==== Sys2Proof/Machine/Lace.lean ====
section
/-! DEFINITION. The Lace unit (12_host_partners_events.md, R375–R383; R51, R288): frames received and relayed, delay exchange,
discovery, cuts, remote requests, the start command, image transfer. What a frame carries comes as the command's operands. -/

namespace Sys2Proof.Machine

/-! Times -/

/-- The instant that a frame's TIME names, in the sender's taps. -/
def laceStamp (h : LaceHdr) : Nat := h.time.toNat * 128 + h.tap.toNat

/-- The neighbour's offset and the correction of a port (R377, R378). -/
def State.lcOfs (s : State) (p : Nat) : Int := sext 55 (s.rg64 (R.LC_PORT_OFS_LO p) (R.LC_PORT_OFS_HI p))
def State.lcAdj (s : State) (p : Nat) : Int :=
  sext 16 (s.rf R.YK_LACE_ADJ (if p = 0 then F.YK_LACE_ADJ_EAST else F.YK_LACE_ADJ_WEST))

/-- The local instant, in taps of YK_TIME, of a 55-bit stamp that arrived on a port (R378): the one nearest to now. YK_LACE_ADJ is added (DESIGN CHOICE, log entry 142). -/
def State.lcLocal (s : State) (p stamp : Nat) : Int :=
  let t : Int := 128 * (s.now : Int)
  t + sext 55 (trunc 55 ((stamp : Int) - s.lcOfs p + s.lcAdj p - t))

/-! Receiving -/

/-- A valid frame has come on a port: its run of failures ends. -/
def State.lcGot (s : State) (p : Nat) : State := { s with lc := { s.lc with fails := Tab.put (fun _ => 0) s.lc.fails p 0 } }

/-- A copy of a frame forwarded on the other port (R376); where that is DOWN an addressed frame is lost, and a broadcast has reached
the end of the line. -/
def State.lcForward (s : State) (p typ : Nat) (h : LaceHdr) (time : Int) (fields : List Int) : State :=
  if s.lcUp (1 - p) then s.lcEmit (1 - p) typ h.src.toNat h.dst.toNat ((h.hops.toNat + 1) % 256) h.seq.toNat time fields
  else if h.dst = 0xFF then s else s.lcLose 1

/-- Is a broadcast the first copy, and not this device's own (R376)? -/
def State.lcFirst (s : State) (h : LaceHdr) : Bool :=
  !s.lc.seen.contains (h.src.toNat, h.seq.toNat) && !(s.lcNumbered && h.src.toNat == s.lcDev)

/-- A frame received on a port that is UP: a broadcast is used and forwarded once; an addressed one is used here or forwarded. -/
def State.lcTake (s : State) (p : Fin 2) (typ : Nat) (h : LaceHdr) (time : Int) (fields : List Int) (use : State → State) : State :=
  if ¬ s.lcUp p then s
  else
    let s0 := s.lcGot p
    if h.dst = 0xFF then
      if s0.lcFirst h then
        let s1 : State := { s0 with lc := { s0.lc with seen := s0.lc.seen ++ [(h.src.toNat, h.seq.toNat)] } }
        (use s1).lcForward p typ h time fields
      else s0
    else if s0.lcNumbered ∧ h.dst.toNat = s0.lcDev then use s0
    else s0.lcForward p typ h time fields

/-- LACE_AXS (R51, R45, R378): every receiving axis bound to the sender's axis takes its position and velocity at the converted
instant. Position is in 2^-16 count, velocity in the unit of the observer. -/
def execLaceAxs (p : Fin 2) (h : LaceHdr) (axis : Fin 8) (st : BitVec 2) (pos vel : BitVec 64) (s : State) :
    Host.Outcome State Fault Refusal :=
  let t := s.lcLocal p (laceStamp h)
  let st' : AxState := match st.toNat with | 0 => .off | 1 => .tracking | 2 => .holdover | _ => .frozen
  .next (s.lcTake p 1 h t [(axis.val : Int), (st.toNat : Int), pos.toInt, vel.toInt] (fun u =>
    u.each (List.range 8) (fun a v =>
      let c := v.rg (R.YK_AX_CFG a)
      if F.YK_AX_CFG_EN.bit c ∧ F.YK_AX_CFG_SRC.get c = 7 ∧ v.rf (R.YK_AX_LACE a) F.YK_AX_LACE_REM_DEV = h.src.toNat
          ∧ v.rf (R.YK_AX_LACE a) F.YK_AX_LACE_REM_AX = axis then
        v.setAx a { v.ax a with meas := some { pos := pos.toInt * lsb16, ts := t, vel := some vel.toInt, mst := some st' } }
      else v)))

/-- LACE_LSEND (R376): a message for this device leaves toward its user. -/
def execLaceLsend (p : Fin 2) (h : LaceHdr) (tag : BitVec 8) (data : Word) (s : State) : Host.Outcome State Fault Refusal :=
  let t := s.lcLocal p (laceStamp h)
  .next (s.lcTake p 3 h t [(tag.toNat : Int), (data.toNat : Int)] (fun u => u.emit (.laceMsg h.src.toNat tag.toNat data t)))

/-! Remote requests -/

/-- Where a remote request goes (R381): device, node index, port, address. -/
def remoteDev (p : Packet) : Nat := bitsOf p.addr.toNat 42 6
def remoteNode (p : Packet) : Nat := bitsOf p.addr.toNat 35 7
def remotePort (p : Packet) : Nat := bitsOf p.addr.toNat 31 4

/-- A local request to the Lace unit's port (R381): sent to the remote device, or answered NO_ROUTE. -/
def State.lcRequest (s : State) (q : Packet) : State :=
  let d := remoteDev q
  match s.lcRoute d with
  | none => s.answerErr q.dst (4 + q.dstPort.toNat) q 11
  | some p =>
    let r : RemReq := { seq := s.lc.seq, req := q, dev := d, port := p }
    let s1 : State := { s with lc := { s.lc with reqs := s.lc.reqs ++ [r] } }
    (s1.lcSendOn p 2 d (128 * s.now) (pktFields none q)).lcSeqNext

/-- The entry of a Lace peer: JOINED, KIND 1, REF the device (R381). -/
def State.peerEntry (s : State) (d : Nat) : Option Nat :=
  (s.regs.map (fun e => e.1)).findSome? (fun a =>
    if R.HI_PT 8 ≤ a ∧ a < R.HI_PT 1024 ∧ s.rf a F.HI_PT_STATE = 1 ∧ s.rf a F.HI_PT_KIND = 1 ∧ s.rf a F.HI_PT_REF = d then
      some ((a - R.HI_PT 0) / 4)
    else none)

/-- LACE_PKT (R381): a request of another device is issued here under its partner; a response (`re`: SEQ of its request) goes back to
the requester. -/
def execLacePkt (p : Fin 2) (h : LaceHdr) (pkt : Packet) (re : Option Word) (s : State) : Host.Outcome State Fault Refusal :=
  .next (s.lcTake p 2 h (s.lcLocal p (laceStamp h)) (pktFields (re.map (fun w => w.toNat)) pkt) (fun u =>
    match re with
    | some k => match u.lc.reqs.find? (fun r => r.seq == k.toNat && r.dev == h.src.toNat) with
      | none => u
      | some r =>
        let u1 : State := { u with lc := { u.lc with reqs := u.lc.reqs.erase r } }
        u1.injectAt r.req.dst (4 + r.req.dstPort.toNat) (r.req.reply pkt.status.toNat pkt.data)
    | none => match u.peerEntry h.src.toNat with
      | none => u.lcAnswer h.src.toNat h.seq.toNat (pkt.reply 7 [])
      | some ent =>
        if 120 ≤ remoteNode pkt then u.lcAnswer h.src.toNat h.seq.toNat (pkt.reply 11 [])
        else
          let q := mkRequest 111 0 (remoteNode pkt) (remotePort pkt) pkt.vc.toNat pkt.cmd.toNat (pkt.addr.toNat % 2 ^ 31)
            pkt.urg.toNat ent pkt.data
          let r : RemServe := { key := u.net.nextKey, dev := h.src.toNat, seq := h.seq.toNat, ent := ent,
                                gen := u.rf (R.HI_PT ent) F.HI_PT_GEN }
          let u1 : State := { u with lc := { u.lc with served := u.lc.served ++ [r] } }
          u1.request { q with be := pkt.be, len := pkt.len }))

/-! Cuts and heals -/

/-- LC_STAT.TOPO as the cuts stand; a change sets LC_EVT.TOPO. -/
def State.lcTopo (s : State) : State :=
  let ring := s.lc.cuts.isEmpty && decide (0 < s.lcN)
  if s.rb R.LC_STAT F.LC_STAT_TOPO = ring then s else (s.setRb R.LC_STAT F.LC_STAT_TOPO ring).raiseF R.LC_EVT F.LC_EVT_TOPO

/-- Does the way of a remote request cross the link east of place c? -/
def State.lcCrosses (s : State) (r : RemReq) (c : Nat) : Bool :=
  let n := s.lcN
  let a := s.lcPlace s.lcDev
  let b := s.lcPlace r.dev
  if r.port = 0 then decide ((c + n - a) % n < (b + n - a) % n) else decide ((a + n - (c + 1) % n) % n < (a + n - b) % n)

/-- A cut learned: recorded, and every outstanding remote request that crosses it answered LINK_ERR (R380). -/
def State.lcCut (s : State) (c : Nat) : State :=
  if s.lcN = 0 then s
  else
    let dead := s.lc.reqs.filter (fun r => s.lcCrosses r c)
    let s1 : State := { s with lc := { s.lc with
      cuts := if s.lc.cuts.contains c then s.lc.cuts else s.lc.cuts ++ [c], reqs := s.lc.reqs.filter (fun r => !dead.contains r) } }
    (dead.foldl (fun t r => t.answerErr r.req.dst (4 + r.req.dstPort.toNat) r.req 9) s1).lcTopo

/-- A heal learned. -/
def State.lcHeal (s : State) (c : Nat) : State := ({ s with lc := { s.lc with cuts := s.lc.cuts.filter (· != c) } } : State).lcTopo

/-- The numbers sent to every device by the root (R379): the IDs in order, and how many lie on the east way. -/
def State.lcSendList (s : State) : State :=
  s.lcBroadcast 7 (128 * s.now) ([1, (s.lc.east : Int)] ++ s.lc.uids.map (fun u => (u.toNat : Int)))

/-- The link at a port of this device, by the place west of it. -/
def State.lcLink (s : State) (p : Nat) : Nat :=
  let a := s.lcPlace s.lcDev
  if p = 0 then a else (a + s.lcN - 1) % s.lcN

/-- LACE_NOTE (R380): a cut or heal notice; on a heal the root sends the numbers again, for a device that comes back (R379). -/
def execLaceNote (p : Fin 2) (h : LaceHdr) (link : Fin 64) (heal : Bool) (s : State) : Host.Outcome State Fault Refusal :=
  .next (s.lcTake p 8 { h with dst := 0xFF } (s.lcLocal p (laceStamp h)) [(link.val : Int), (b2n heal : Int)] (fun u =>
    if ¬ heal then u.lcCut link
    else
      let u1 := u.lcHeal link
      if u1.rb R.LC_CFG F.LC_CFG_ROOT ∧ ¬ u1.lc.uids.isEmpty then u1.lcSendList else u1))

/-- A port becomes DOWN (R375, R380): `lost` frames were in the cut; a NOTE goes away from it. -/
def State.lcPortDown (s : State) (p lost : Nat) : State :=
  if ¬ s.lcUp p then s
  else
    let s1 := (s.setRb (R.LC_PORT_STAT p) F.LC_PORT_STAT_UP false).raise R.LC_EVT (1 <<< p)
    let s2 := (s1.lcGot p).lcLose lost
    if s2.lcNumbered then
      ((s2.lcSendOn (1 - p) 8 0xFF (128 * s2.now) [(s2.lcLink p : Int), 0]).lcSeqNext).lcCut (s2.lcLink p)
    else s2

/-- LACE_FRAME_CRC_FAIL (R375): a frame fails its CRC on a port and is replayed; the third failed replay of one frame makes the port
DOWN. -/
def execLaceFrameCrcFail (p : Fin 2) (lost : BitVec 8) (s : State) : Host.Outcome State Fault Refusal :=
  .next (if ¬ s.lcUp p then s
    else
      let n := Tab.get (fun _ => 0) s.lc.fails p + 1
      if 4 ≤ n then s.lcPortDown p lost.toNat
      else
        let s1 := s.bump (R.LC_PORT_STAT p) F.LC_PORT_STAT_REPLAY 1
        { s1 with lc := { s1.lc with fails := Tab.put (fun _ => 0) s1.lc.fails p n } })

/-- LACE_BLOCK_TIMEOUT (R375): no valid block for 1 µs. -/
def execLaceBlockTimeout (p : Fin 2) (lost : BitVec 8) (s : State) : Host.Outcome State Fault Refusal :=
  .next (s.lcPortDown p lost.toNat)

/-- LACE_PORT_UP (R375, R379, R380): a retraining port has been free of errors for 1 ms; its lanes are in SERDES2. On an unnumbered root
the first port UP starts the 1 ms of discovery. -/
def execLacePortUp (p : Fin 2) (s : State) : Host.Outcome State Fault Refusal :=
  .next (if s.lcUp p ∨ ¬ s.domOn 14 then s
    else
      let s1 := (s.setRb (R.LC_PORT_STAT p) F.LC_PORT_STAT_UP true).raise R.LC_EVT (4 <<< p.val)
      let root := s1.rb R.LC_CFG F.LC_CFG_ROOT
      if s1.lcNumbered then
        let c := s1.lcLink p
        let s2 := (s1.lcSendOn (1 - p) 8 0xFF (128 * s1.now) [(c : Int), 1]).lcSeqNext.lcHeal c
        if root then s2.lcSendList else s2
      else if root ∧ s1.lc.discAt.isNone then { s1 with lc := { s1.lc with discAt := some s1.now } }
      else s1)

/-! Delay exchange -/

/-- DLY_EXCHANGE_TIMER (R377): once per 1 µs an UP port sends a DLY frame: its send time, and the times of the neighbour's last one. -/
def execDlyExchangeTimer (p : Fin 2) (tap : BitVec 7) (s : State) : Host.Outcome State Fault Refusal :=
  .next (if ¬ s.lcUp p ∨ s.now < Tab.get (fun _ => 0) s.lc.dlyAt p + 500 then s
    else
      let t : Int := (128 * s.now + tap.toNat : Nat)
      let e := match s.lc.dly.find? (fun k => k.1 == p.val) with
        | some (_, a, b) => [(lcStamp a : Int), (lcStamp b : Int)]
        | none => []
      let s1 := s.lcEmit p 6 s.lcDev 0 0 s.lc.seq t e
      { s1.lcSeqNext with lc := { s1.lcSeqNext.lc with dlyAt := Tab.put (fun _ => 0) s1.lc.dlyAt p s.now } })

/-- Half of a number of taps: a half tap goes the way that a free value chooses. -/
def State.halve (s : State) (x : Int) : Int := if x % 2 = 0 then x / 2 else if Config.halfUp s.freeCtr then (x + 1) / 2 else x / 2

/-- LACE_DLY (R377): the neighbour's frame, received at `tap` of the present YCLK: its send time t3 and, once it has had one of ours,
our send time t1 and its receive time t2. -/
def execLaceDly (p : Fin 2) (tap : BitVec 7) (t3 : BitVec 55) (echo : Option (BitVec 55 × BitVec 55)) (s : State) :
    Host.Outcome State Fault Refusal :=
  .next (if ¬ s.lcUp p then s
    else
      let s0 := s.lcGot p
      let t4 : Int := 128 * (s.now : Int) + (tap.toNat : Int)
      let s1 : State := { s0 with lc := { s0.lc with dly := (s0.lc.dly.filter (fun k => k.1 != p.val)) ++ [(p.val, (t3.toNat : Int), t4)] } }
      match echo with
      | none => s1
      | some (t1, t2) =>
        let d := fun (a b : Int) => sext 55 (trunc 55 (a - b))
        let dly := s1.halve (d t4 t1.toNat - d t3.toNat t2.toNat)
        let ofs := s1.halve (d t2.toNat t1.toNat + d t3.toNat t4)
        ((s1.setRg (R.LC_PORT_DLY p) (w32 (trunc 32 dly))).setRg64 (R.LC_PORT_OFS_LO p) (R.LC_PORT_OFS_HI p) (trunc 64 ofs)).tick)

/-! Discovery -/

/-- Numbers taken from the final list (R379): the devices in order, how many on the east way; a list that does not close the ring
leaves the link after the last of them cut. -/
def State.lcNumber (s : State) (uids : List (BitVec 128)) (east : Nat) (ring : Bool) : State :=
  let n := uids.length
  let s1 := s.setRf R.LC_STAT F.LC_STAT_NDEV n
  let s2 := match uids.findIdx? (fun u => u.toNat == s.uid) with
    | some k => ((s1.setRf R.LC_STAT F.LC_STAT_DEV k).setRb R.LC_STAT F.LC_STAT_EXCESS false).raiseF R.LC_EVT F.LC_EVT_NUMBERED
    | none => s1.setRf R.LC_STAT F.LC_STAT_DEV 0x3F
  ({ s2 with lc := { s2.lc with uids := uids, east := east, cuts := if ring then [] else [(east + n - 1) % n], discAt := none } } : State).lcTopo

/-- A DISC frame on its way: the IDs so far, and the number on the east way once it has turned there (R379). -/
def State.lcDisc (s : State) (p : Nat) (uids : List (BitVec 128)) (east : Option Nat) : State :=
  (s.lcSendOn p 7 0xFE (128 * s.now) ([0, (match east with | some e => (e : Int) | none => -1)] ++ uids.map (fun u => (u.toNat : Int)))).lcSeqNext

/-- Discovery over: the root numbers itself and sends the list to all. -/
def State.lcDone (s : State) (uids : List (BitVec 128)) (east : Nat) (ring : Bool) : State :=
  (s.lcNumber uids east ring).lcSendList

/-- Discovery starts at the root (R379): a DISC goes east; with that port DOWN it goes west at once. -/
def State.lcDiscover (s : State) : State :=
  let me := [BitVec.ofNat 128 s.uid]
  let s1 : State := { s with lc := { s.lc with discAt := none } }
  if s1.lcUp 0 then s1.lcDisc 0 me none
  else if s1.lcUp 1 then s1.lcDisc 1 me (some 1)
  else s1.lcDone me 1 false

/-- DISCOVER (R379): on the root. -/
def execLcDiscover (s : State) : Host.Outcome State Fault Refusal := .next (if s.rb R.LC_CFG F.LC_CFG_ROOT then s.lcDiscover else s)

/-- DISCOVERY_TIMER (R379): 1 ms after the root's first port came UP. -/
def execDiscoveryTimer (s : State) : Host.Outcome State Fault Refusal :=
  .next (match s.lc.discAt with
    | some t => if s.rb R.LC_CFG F.LC_CFG_ROOT ∧ t + 500000 ≤ s.now then s.lcDiscover else s
    | none => s)

/-- LACE_DISC (R379): a discovery list on its way, or (`complete`) the final one. A device appends its ID once; the 65th takes no number
and only relays; a DISC that finds a DOWN port turns back; the root passes a turned one on west. -/
def execLaceDisc (p : Fin 2) (h : LaceHdr) (uids : List (BitVec 128)) (east : Option (Fin 65)) (complete : Bool) (s : State) :
    Host.Outcome State Fault Refusal :=
  .next (if complete then
      s.lcTake p 7 { h with dst := 0xFF } (s.lcLocal p (laceStamp h))
        ([1, (match east with | some e => (e.val : Int) | none => 64)] ++ uids.map (fun u => (u.toNat : Int)))
        (fun u => u.lcNumber uids ((east.map (fun e => e.val)).getD uids.length) (match east with | some e => e.val == uids.length | none => true))
    else if ¬ s.lcUp p then s
    else
      let s0 := s.lcGot p
      let e := east.map (fun x => x.val)
      if s0.rb R.LC_CFG F.LC_CFG_ROOT then
        match e with
        | none => s0.lcDone uids uids.length true
        | some k =>
          if p = 1 then s0.lcDone uids k false
          else if s0.lcUp 1 then s0.lcDisc 1 uids (some uids.length)
          else s0.lcDone uids uids.length false
      else
        let mine := uids.any (fun u => u.toNat == s0.uid)
        let full := decide (64 ≤ uids.length)
        let us := if mine ∨ full then uids else uids ++ [BitVec.ofNat 128 s0.uid]
        let s1 := if mine then s0
          else if full then ((s0.setRb R.LC_STAT F.LC_STAT_EXCESS true).setRf R.LC_STAT F.LC_STAT_DEV 0x3F).raiseF R.LC_EVT F.LC_EVT_EXCESS
          else (s0.setRf R.LC_STAT F.LC_STAT_DEV uids.length).raiseF R.LC_EVT F.LC_EVT_NUMBERED
        if s1.lcUp (1 - p) then s1.lcDisc (1 - p) us e
        else s1.lcDisc p us (match e with | some k => some k | none => some us.length))

/-! Starting together -/

/-- CFG_DONE released where nothing holds it any more (R287, R288). -/
def State.cfgRelease (s : State) : State :=
  if s.proofPassed ∧ ¬ s.rb R.CG_START F.CG_START_LACE_GATE then s.setRb R.CG_STATUS F.CG_STATUS_DONE_OUT true else s

/-- The start instant has come (R382). -/
def State.lcStarted (s : State) : State :=
  let s1 := ((s.setRb R.CG_START F.CG_START_LACE_GATE false).cfgRelease).raiseF R.LC_EVT F.LC_EVT_START
  { s1 with lc := { s1.lc with start := none } }

/-- A start instant known, in local taps: a late one acts at once. -/
def State.lcStartAt (s : State) (t : Int) : State :=
  if t < 128 * (s.now : Int) then s.lcStarted.raiseF R.LC_EVT F.LC_EVT_START_LATE
  else { s with lc := { s.lc with start := some t } }

/-- LC_START_CMD (R382): on the root, LC_START_AT is broadcast when it lies at least 20 µs ahead, and else refused. -/
def execLcStartCmd (s : State) : Host.Outcome State Fault Refusal :=
  let at_ : Nat := (s.rg R.LC_START_AT_LO).toNat + 2 ^ 32 * s.rf R.LC_START_AT_HI F.LC_START_AT_HI_TIME
  let d := sext 48 (trunc 48 ((at_ : Int) - (s.now : Int)))
  .next (if ¬ s.rb R.LC_CFG F.LC_CFG_ROOT then s
    else if d < 10000 then s.raiseF R.LC_EVT F.LC_EVT_START_REF
    else (s.lcBroadcast 5 (128 * ((s.now : Int) + d)) []).lcStartAt (128 * ((s.now : Int) + d)))

/-- LACE_START (R382): TIME is the start instant. -/
def execLaceStart (p : Fin 2) (h : LaceHdr) (s : State) : Host.Outcome State Fault Refusal :=
  let t := s.lcLocal p (laceStamp h)
  .next (s.lcTake p 5 h t [] (fun u => u.lcStartAt t))

/-- START_INSTANT (R382). -/
def execStartInstant (s : State) : Host.Outcome State Fault Refusal :=
  .next (match s.lc.start with
    | some t => if t < 128 * ((s.now : Int) + 1) then s.lcStarted else s
    | none => s)

/-! Images -/

/-- LACE_IMG (R281, R292, R383): up to 512 bytes of an image at an offset, for a unique ID or for all (none). The unit holds the image
that is arriving; offset 0 begins a new one, and a frame out of its place is not taken. -/
def execLaceImg (p : Fin 2) (h : LaceHdr) (uid : Option (BitVec 128)) (ofs : BitVec 26) (bytes : List Byte) (s : State) :
    Host.Outcome State Fault Refusal :=
  let mine : Bool := match uid with | some u => u.toNat == s.uid && s.cg.boot.any (fun b => b.idx == 3) | none => s.cg.lib.any (fun l => l.lace)
  let fields := [(match uid with | some u => (u.toNat : Int) | none => -1), (ofs.toNat : Int)] ++ bytes.map (fun b => (b.toNat : Int))
  .next (s.lcTake p 4 h (s.lcLocal p (laceStamp h)) fields (fun u =>
    if ¬ mine then u
    else if ofs = 0 then { u with lc := { u.lc with recv := bytes, recvAt := u.now } }
    else if ofs.toNat = u.lc.recv.length then { u with lc := { u.lc with recv := u.lc.recv ++ bytes, recvAt := u.now } }
    else u))

/-- The frames of a run of image bytes from offset `off` of the image on, 512 each (R376). -/
def State.lcImgFrames (s : State) (ports : List Nat) (dst : Nat) (uid : Int) (off : Nat) (l : List Byte) : State :=
  s.each (List.range ((l.length + 511) / 512)) (fun k t =>
    let part := ((l.drop (512 * k)).take 512).map (fun b => (b.toNat : Int))
    (ports.foldl (fun u p => u.lcSendOn p 4 dst (128 * u.now) ([uid, (off + 512 * k : Nat)] ++ part)) t).lcSeqNext)

/-- The end of an image transfer: 0 OK, 1 FLASH_ERR, 2 LINK_LOST. -/
def State.imgEnd (s : State) (st : Nat) : State :=
  (({ s with lc := { s.lc with send := none } } : State).setRg R.LC_IMG_STAT (w32 (2 * st))).raiseF R.LC_EVT F.LC_EVT_IMG_DONE

/-- LC_IMG_GO (R383): the image at OFS is to be sent, with IMAGE_LEN of its header; one transfer runs at a time. -/
def State.lcImgGo (s : State) (v : Word) : State :=
  if s.lc.send.isSome ∨ ¬ F.LC_IMG_CMD_GO.bit v then s
  else
    let base := 4096 * F.LC_IMG_CMD_OFS.get v
    let (s1, l, ok) := s.flRead (base + 0x14) 4
    if ok then
      { s1.setRg R.LC_IMG_STAT 1 with
        lc := { s1.lc with send := some { base := base, len := ofBytesLE l, next := 0, bcast := F.LC_IMG_CMD_BCAST.bit v } } }
    else s1.imgEnd 1

/-- LC_IMG_GO. -/
def execLcImgGo (v : Word) (s : State) : Host.Outcome State Fault Refusal := .next (s.lcImgGo v)

/-- The target of LC_IMG_UID. -/
def State.imgUid (s : State) : Nat := (List.range 4).foldl (fun a k => a + 2 ^ (32 * k) * (s.rg (R.LC_IMG_UID k)).toNat) 0

/-- How many of the frames of an image, up to n, the flash yields before the first that it does not. -/
def State.imgGood (s : State) (base n : Nat) : Nat :=
  ((List.range ((n + 511) / 512)).takeWhile (fun k => (s.flRead (base + 512 * k) (min 512 (n - 512 * k))).2.2)).length

/-- IMG_DONE (R383): the transfer has read and sent the image: to every device, or in the shorter live direction to the one whose ID is
LC_IMG_UID. Where the flash fails, what was read before has been sent. -/
def execImgDone (s : State) : Host.Outcome State Fault Refusal :=
  .next (match s.lc.send with
    | none => s
    | some k =>
      let dst := if k.bcast then none else s.lc.uids.findIdx? (fun u => u.toNat == s.imgUid)
      let ports := if k.bcast then [0, 1].filter (fun p => s.lcUp p) else match dst with
        | some d => (s.lcRoute d).toList
        | none => []
      if ports.isEmpty then s.imgEnd 2
      else
        let n := min k.len (0x4000000 - k.base)
        let (s1, l, ok) := s.flRead k.base n
        if ¬ ok then
          let m := 512 * s.imgGood k.base n
          let (s2, l2, _) := s.flRead k.base (min n (m + 512))
          (s2.lcImgFrames ports (dst.getD 0xFF) (if k.bcast then -1 else (s.imgUid : Int)) 0 (l2.take m)).imgEnd 1
        else (s1.lcImgFrames ports (dst.getD 0xFF) (if k.bcast then -1 else (s.imgUid : Int)) 0 l).imgEnd 0)

end Sys2Proof.Machine
end

