-- ==== Sys2Proof/Machine/Reset.lean ====
section
/-! DEFINITION. What a reset of each reach clears and the sequence that releases the part again (15_power_reset_clocks.md, R450–R456),
for every block that asks for a reset. -/

namespace Sys2Proof.Machine

/-! What a reach clears -/

/-- The bits of the registers in a range whose narrowest reach is Run returned to reset: those of blocks that a Run reset passes over. -/
def State.clearRunOnly (s : State) (lo hi : Nat) : State :=
  { s with regs := Tab.mapKeep regReset (fun a v =>
      if lo ≤ a ∧ a < hi then
        match findReg a with
        | some d => w32 (andNot v.toNat d.run ||| ((regReset a).toNat &&& d.run))
        | none => v
      else v) s.regs }

/-- The core at its start (R408, R413): kind 0 Cold, 1 Warm, 2 Run, 3 Block. The w registers hold no defined value; a request that
waits is forgotten. -/
def State.startCore (s : State) (kind : Nat) : State :=
  let n := s.freeCtr
  let w : Tab Word := (List.range 208).foldl (fun t k => Tab.put (fun _ => 0) t k (Config.startReg (n + k))) []
  let s1 : State :=
    { s with
      cc := { Cc.reset with w := w, start := s.now, wdt := { at_ := s.now, left := none } }
      net := { s.net with outst := s.net.outst.filter (fun o => o.node != 2) }
      freeCtr := n + 208 }
  s1.setRf R.CC_STAT F.CC_STAT_START kind

/-- The marks of the view disarmed (R470, R480): their CTL written with ARM 0. -/
def State.hxDisarm (s : State) (p : HxParm) : State :=
  s.each ((s.mke.marks.map (fun e => e.1)).filter (fun n => decide (p.mbase ≤ n) && decide (n < p.mbase + 64))) (fun n t =>
    t.mkWrite (R.MK_ENT_CTL n) (w32 (clrBit (t.rg (R.MK_ENT_CTL n)).toNat 5)))

/-- The HX bus unit loads its reset values (R469, R480): the view, HX_EVT; in HX mode AX0 is disabled and MK[0]–MK[63] disarmed, and with
mixed use the axis and marks that serve the view. A stream being received or translated ends ABORTED (Table HX-11). -/
def State.hxLoad (s : State) : State :=
  let p := s.hxParm
  let cut := decide (s.hx.prog = .receiving) || decide (s.hx.prog = .translating)
  let s1 := ({ s with hx := { Hx.idle with live := s.hx.live, result := if cut then 6 else 0 } } : State).clearRegs .run 0x6C0000 0x6D0000
  if ¬ p.on then s1
  else
    (s1.after (execAxCfgWrite ⟨p.axis % 8, Nat.mod_lt _ (by decide)⟩ (F.YK_AX_CFG_EN.put (s1.rg (R.YK_AX_CFG p.axis)) 0) s1)).hxDisarm p

/-- A Run reset (Table RS-1, R55, R86, R133, R219, R235, R268, R306, R413, R439, R459): what it clears. -/
def State.runReset (s : State) : State :=
  let s1 := (s.cfgRunReset).hiReset
  let s2 := (s1.smBlkRst).fbRunReset
  let s3 := ((((s2.arrayReset).emptyQs 0 1024).emptyQs 1152 1160).spResync).enDrop
  let s4 := s3.netRunReset
  let s5 := [(0x100000, 0x200000), (0x200000, 0x300000), (0x300000, 0x340000), (0x340000, 0x380000), (0x380000, 0x400000),
      (0x680000, 0x6A0000), (0x6D0000, 0x6E0000)].foldl (fun (t : State) q => t.clearRegs .run q.1 q.2) s4.flRunReset
  let s6 := [(0x0, 0x40000), (0x500000, 0x540000), (0x550000, 0x580000), (0x640000, 0x680000), (0x6A0000, 0x6C0000), (0x6E0000, 0x6F0000)].foldl
    (fun (t : State) q => t.clearRunOnly q.1 q.2) s5
  let s7 : State :=
    { s6 with
      ft := { s6.ft with run := none, queue := [], exits := [], grps := s6.ft.grps.map (fun e => (e.1, { e.2 with flight := none, more := 0 })) }
      arr := { s6.arr with lmWait := [], seq := 0 }
      lc := { s6.lc with served := [], reqs := [] }
      hx := { s6.hx with live := false, buf := [], held := none }
      faults := [] }
  let low := s7.rf R.RS_SAFE F.RS_SAFE_RUN_LOW
  let s8 := if s.arr.loadRun.isSome then s7.setRf R.PL_LOAD_STAT F.PL_LOAD_STAT_STATUS 3 else s7
  let s9 := if s8.rs.relock then s8.setRb R.AR_CTRL F.AR_CTRL_FROZEN true else s8
  (s9.openAll).setRf R.RS_SAFE F.RS_SAFE_REL (andNot (s7.rf R.RS_SAFE F.RS_SAFE_REL) low)

/-- New challenge bytes (R349). -/
def State.newChal (s : State) : State :=
  let n := s.freeCtr + 12
  ({ s with freeCtr := n } : State).each (List.range 12) (fun k t => t.setRg (R.SC_TP_CHAL k) (Config.entropy (n + k)))

/-- The levels that the strap balls hold now (R1, R453). The commands that are reset sources give them; a reset that the part asks for itself
samples the levels last given. -/
def State.strapAt (s : State) (straps : BitVec 4) : State := { s with rs := { s.rs with straps := straps } }

/-- Straps latched (R453): RS_STRAP, GL_STAT, CG_STATUS, and LACE_GATE, which resets to 1 under BOOT 10 (R288). -/
def State.latchStraps (s : State) : State :=
  let x := s.rs.straps.toNat
  let mode := x % 2
  let boot := x / 2 % 4
  let s1 := (s.setRg R.RS_STRAP (w32 x)).setRg R.GL_STAT (w32 (andNot (s.rg R.GL_STAT).toNat 15 + x))
  let s2 := (s1.setRf R.CG_STATUS F.CG_STATUS_BOOT boot).setRb R.CG_STATUS F.CG_STATUS_HX (mode == 0)
  s2.setRb R.CG_START F.CG_START_LACE_GATE (mode == 1 && boot == 2)

/-- A Warm reset, or with `cold` a Cold one: every field that the reach clears; the memories keep what they hold until the fill of step 3
(R233), but for flash (Table FL-5) and OTP. SOFT repairs last until Cold (R239). -/
def State.wideReset (s : State) (cold : Bool) : State :=
  let s0 := s.flAbort
  let keep := fun (r : Repair) => !cold || r.kind == .factory
  { regs := Tab.mapKeep regReset (fun a v => clearReg (if cold then .cold else .warm) a v) s0.regs
    mem := s0.mem
    syn := s0.syn
    yk := Yoke.reset
    mke := MkEng.reset
    cuffs := []
    edgeSeq := 0
    sp := []
    ev := EvUnit.reset
    hx := { Hx.idle with live := false }
    arr := Arr.reset
    qs := []
    sm := { Smm.reset with repairs := s0.sm.repairs.filter keep }
    net := { Net.reset with nextId := s0.net.nextId, nextKey := s0.net.nextKey }
    ft := Ft.reset
    en := En.reset
    fb := { Fb.reset with hold := true }
    cg := Cg.reset
    fl := s0.fl
    ot := { s0.ot with run := none }
    sc := Sc.reset
    cc := Cc.reset
    rs := { s0.rs with deferred := [], dom := none, domWait := none, relock := false, wdt := { at_ := 0, left := none }, optRun := !cold && s0.rs.optRun,
                       optDone := !cold && s0.rs.optDone }
    hi := Hi.reset
    lc := Lc.reset
    faults := []
    out := s0.out
    freeCtr := s0.freeCtr
    pending := s0.pending }

/-- The same, with what is latched and made anew at its start (R349, R453). -/
def State.deepReset (s : State) (cold : Bool) : State :=
  let s1 := ((s.wideReset cold).latchStraps).newChal
  if cold then s1.setRb R.PW_STAT F.PW_STAT_PG false else s1

/-! Asking for a reset -/

/-- The reach of a cause (Table RS-2): 0 Cold, 1 Warm, 2 Run. -/
def codeReach (code : Nat) : Nat := if code < 8 then 0 else if code < 16 then 1 else 2

/-- RS_SEQ as the sequence and the held sources stand. -/
def State.rsShow (s : State) : State :=
  let h := s.rs.held.map codeReach
  let st := match s.rs.seq with | some q => q.step | none => s.rf R.RS_SEQ F.RS_SEQ_STEP
  s.setRg R.RS_SEQ (w32 (st + 16 * b2n (h.contains 0) + 32 * b2n (h.contains 1) + 64 * b2n (h.contains 2)))

/-- The cause recorded among several (Table RS-5): the widest reach, then the lowest code. -/
def firstCause : List (Nat × Nat) → Nat × Nat → Nat × Nat
  | [], c => c
  | (k, d) :: r, c => firstCause r (if codeReach k < codeReach c.1 ∨ (codeReach k = codeReach c.1 ∧ k < c.1) then (k, d) else c)

/-! Domain commands refused -/

/-- An axis is enabled. -/
def State.anyAxis (s : State) : Bool := (List.range 8).any (fun n => s.rb (R.YK_AX_CFG n) F.YK_AX_CFG_EN)

/-- Table PW-4: the first condition that refuses a domain command. -/
def State.domRefusal (s : State) (d : Nat) (on : Bool) : Option Nat :=
  let row := 2 ≤ d ∧ d < 10
  if d < 2 then some 1
  else if 17 ≤ d ∨ s.domState d ≠ (if on then 0 else 2) then some 2
  else if s.rs.dom.isSome ∨ s.rs.domWait.isSome then some 3
  else if row ∧ ((List.range 12).any (fun x => (s.tileGroup (12 * (d - 2) + x)).isSome)
      || s.enabledQs.any (fun q => decide (s.qStart q < 0x600000 * (d - 1)) && decide (0x600000 * (d - 2) < s.qStart q + s.qBytes q))) then some 4
  else if (d = 10 ∨ d = 11) ∧ (s.cg.part.isSome ∨ s.cg.lib.isSome ∨ ¬ s.cg.repair.isEmpty) then some 5
  else if d = 16 ∧ s.anyAxis then some 6
  else if (d = 12 ∨ d = 13) ∧ s.qvMode ∧ ¬ s.enabledQps.isEmpty then some 7
  else if s.rs.seq.isSome then some 8
  else none

/-- A domain command refused. -/
def State.domRefuse (s : State) (d c : Nat) : State :=
  (s.setRg R.PW_DOM_ERR (w32 (d + 256 * c))).raiseF R.PW_EVT F.PW_EVT_DOM_REFUSED

/-- A sequence begun, or begun again (R454–R456). A domain command that waits for a recovery is refused: the Run reset ends the recovery,
and it is checked as the sequence runs (R447, Table PW-4). -/
def State.startSeq (s : State) (code detail : Nat) : State :=
  let running := s.rs.seq.toList.map (fun q => (q.code, q.detail))
  let held := s.rs.held.map (fun c => (c, 0))
  let (c, d) := firstCause (running ++ held) (code, detail)
  let run := s.rs.seq.toList.map (fun q => q.reach)
  let reach := (run ++ s.rs.held.map codeReach).foldl min (codeReach code)
  let union := (code :: s.rs.held).any (fun x => codeReach x != codeReach code)
  let opt := s.rs.optRun
  let s0 := match s.rs.domWait with
    | some d =>
      let t : State := { s with rs := { s.rs with domWait := none } }
      if reach = 2 then t.domRefuse d ((t.domRefusal d false).getD 8) else s
    | none => s
  let s1 := if reach = 2 then s0.runReset else s0.deepReset (reach == 0)
  let s2 : State := { s1 with rs := { s1.rs with seq := some { reach := reach, step := 0, half := false, code := c, detail := d }
                                                 optRun := false } }
  let s3 := (s2.setRg R.RS_CAUSE (w32 (c + 64 * reach + 256 * d))).rsShow
  let s4 := if reach = 1 then s3.bump R.RS_COUNT F.RS_COUNT_WARM 1 else if reach = 2 then s3.bump R.RS_COUNT F.RS_COUNT_RUN 1 else s3
  let s5 := if union then s4.raiseF R.RS_EVT F.RS_EVT_UNION else s4
  if opt then s5.raiseF R.RS_EVT F.RS_EVT_OPT_RESTART else s5

/-- A reset source (Table RS-2): one that lasts holds its reach; during an OTP pulse the reset is deferred, but for a loss of core
power-good (R322). -/
def State.resetRequest (s : State) (code detail : Nat) (lasts : Bool) : State :=
  let s1 : State := if lasts ∧ ¬ s.rs.held.contains code then { s with rs := { s.rs with held := s.rs.held ++ [code] } } else s
  if s1.ot.run.isSome ∧ code ≠ 3 then
    ({ s1 with rs := { s1.rs with deferred := s1.rs.deferred ++ [(code, detail)] } } : State).rsShow
  else s1.startSeq code detail

/-- A lasting source ends. -/
def State.resetUnhold (s : State) (code : Nat) : State :=
  ({ s with rs := { s.rs with held := s.rs.held.filter (· != code) } } : State).rsShow

/-- Deferred resets take effect at the end of an OTP pulse (R322). -/
def State.resetDeferred (s : State) : State :=
  let l := s.rs.deferred
  l.foldl (fun t e => t.startSeq e.1 e.2) ({ s with rs := { s.rs with deferred := [] } } : State)

/-! The sequence -/

/-- The steps of a reach in order (Table RS-4). -/
def seqSteps (reach : Nat) : List Nat :=
  if reach = 0 then [1, 2, 3, 4, 5, 6, 7, 8, 9, 10] else if reach = 1 then [3, 4, 5, 6, 7, 8, 9, 10] else [3, 6, 8, 9, 10]

/-- The step that comes next. -/
def RsSeq.next (q : RsSeq) : Option Nat := (seqSteps q.reach).find? (fun k => decide (q.step < k))

/-- Whether the condition of a step holds (Table RS-4): VIN; core power-good, which the started regulators bring; option load and, from
its own 64 AON cycles, the fill; CFG_GO; ARRAY_GO. -/
def State.stepReady (s : State) (k : Nat) : Bool :=
  match k with
  | 1 => s.rs.aon
  | 2 => s.rs.vin
  | 3 => s.rs.optDone
  | 4 => s.sm.fills.isEmpty
  | 7 => s.rb R.CC_BOOT F.CC_BOOT_CFG_GO
  | 9 => s.rb R.CC_BOOT F.CC_BOOT_ARRAY_GO
  | _ => true

/-- Is a step covered by a reach? -/
def stepIn (reach k : Nat) : Bool := (seqSteps reach).contains k

/-- What SC_KEY_STAT shows of the OTP. -/
def State.keyStat (s : State) : State :=
  let nz := fun (a n : Nat) => (List.range n).any (fun i => s.otWord (a + i) != 0)
  let pres := (List.range 4).foldl (fun x k => x + b2n (nz (4 + 12 * k) 12) * 2 ^ k) 0
  s.setRg R.SC_KEY_STAT (w32 (pres + 16 * ((s.otWord 52).toNat % 16) + 256 * b2n (nz 72 12) + 512 * b2n (nz 84 12)))

/-- What the release of a step begins. -/
def State.stepDo (s : State) (reach k : Nat) : State :=
  match k with
  | 2 => ({ s with rs := { s.rs with optRun := true } } : State).setRb R.PW_STAT F.PW_STAT_PG true
  | 3 => if reach = 2 then s else (s.startFill { ranges := allRanges, dom := none }).flCounts
  | 5 =>
    let (s1, l, ok) := s.flRead 0x3FE4000 0x1000
    s1.keyStat.setRb R.SC_STAT F.SC_STAT_ID_BAD (!(ok && Config.idStoreOk l))
  | 6 => s.startCore reach
  | 8 =>
    let s1 : State := { s with fb := { s.fb with hold := false } }
    if s1.fbStage = 1 then s1.fbReach 2 else s1
  | 10 =>
    let s1 := { s with hx := { s.hx with live := true } }.hxLoad
    if reach = 2 then s1.raiseF R.RS_EVT F.RS_EVT_RUN_DONE else s1
  | _ => s

/-- RESET_STEP_RELEASE (R454, R456): the next step of the sequence, where its condition holds and no held reach covers it. Where only a
held Run reach covers part of step 3, the other parts are released first (Table RS-5). -/
def execResetStepRelease (s : State) : Host.Outcome State Fault Refusal :=
  .next (match s.rs.seq with
    | none => s
    | some q => match q.next with
      | none => { s with rs := { s.rs with seq := none } }
      | some k =>
        let h := s.rs.held.map codeReach
        if ¬ s.stepReady k ∨ h.contains 0 ∨ (h.contains 1 ∧ stepIn 1 k) then s
        else if h.contains 2 ∧ stepIn 2 k then
          if k = 3 ∧ q.reach < 2 ∧ ¬ q.half then
            let s1 := s.stepDo q.reach 3
            { s1 with rs := { s1.rs with seq := some { q with half := true } } }
          else s
        else
          let s1 := if q.half then s else s.stepDo q.reach k
          let s2 : State := { s1 with rs := { s1.rs with seq := some { q with step := k, half := false } } }
          let s3 := s2.rsShow
          if k = 10 then { s3 with rs := { s3.rs with seq := none } } else s3)

/-- OPTION_LOAD_DONE (R455): the RDP level is derived, and the factory fuse map assigns spare rows (R238). -/
def execOptionLoadDone (s : State) : Host.Outcome State Fault Refusal :=
  .next (if s.rs.optRun then
      ({ s with rs := { s.rs with optRun := false, optDone := true } } : State).rdpDerive.factorySpares
    else s)

/-! Balls (R458–R460) -/

/-- SAFEk: low until released, then its LEVEL bit (R459); below 3.0 V it is not driven. -/
def State.safeBall (s : State) (k : Nat) : Bool :=
  wbit (s.rg R.RS_SAFE) k && wbit (s.rg R.RS_SAFE) (8 + k)

/-- nFAULT driven low (R460); below 3.0 V nothing is driven (R458). -/
def State.nFaultLow (s : State) : Bool :=
  s.rs.aon && ((match s.rs.seq with | some q => decide (q.reach < 2) && decide (q.step < 6) | none => false)
    || s.rs.held.any (fun c => decide (codeReach c < 2)) || s.rb R.RS_NFAULT F.RS_NFAULT_ASSERT)

/-- CFG_DONE driven low (R458): CG_STATUS.DONE_OUT is its level (R287). -/
def State.cfgDoneLow (s : State) : Bool := s.rs.aon && !s.rb R.CG_STATUS F.CG_STATUS_DONE_OUT

/-- PGOOD driven low until core power-good (R440, R458). -/
def State.pgoodLow (s : State) : Bool := s.rs.aon && !s.rb R.PW_STAT F.PW_STAT_PG

/-- The level of nCFG_STATUS between its pulses (R286): high once the configuration engine is released. -/
def State.nCfgStatus (s : State) : Bool := !s.blkHeld 11

/-- The phase of Table RS-6 that the user I/O, Cuffs and HX bus balls are in. -/
inductive BallPhase where
  | a | b | c | d | runHeld
deriving DecidableEq, Repr

/-- The present phase: option load ended, stage 1, and the Run reset until its step 8. -/
def State.ballPhase (s : State) : BallPhase :=
  if ¬ s.rs.aon then .a
  else if ¬ s.rs.optDone then .b
  else if s.fbStage = 0 then .c
  else if s.fb.hold then .runHeld else .d

end Sys2Proof.Machine
end

