-- ==== Sys2Proof/Machine/Power.lean ====
section
/-! DEFINITION. Supply, power domains, clocks and the reset sources (15_power_reset_clocks.md, R440–R449, R451, R457, R459). -/

namespace Sys2Proof.Machine

/-! Supply and reset sources -/

/-- PW_VIN as VIN moves. -/
def State.setVin (s : State) (mv : BitVec 16) : State := s.setRf R.PW_VIN F.PW_VIN_MV mv.toNat

/-- POWER_ON (R440, R453): VIN passes 3.0 V; the strap balls hold `straps`. -/
def execPowerOn (straps : BitVec 4) (mv : BitVec 16) (s : State) : Host.Outcome State Fault Refusal :=
  .next ((({ s with rs := { s.rs with straps := straps, aon := true, vin := false, held := [] } } : State).resetRequest 1 0 false).setVin mv)

/-- VIN_RISE_4V5 (R440): the core regulators start; a brownout ends. -/
def execVinRise4v5 (mv : BitVec 16) (s : State) : Host.Outcome State Fault Refusal :=
  .next ((({ s with rs := { s.rs with vin := true } } : State).resetUnhold 2).setVin mv)

/-- BROWNOUT (R440): held until VIN rises through 4.5 V again. -/
def execBrownout (straps : BitVec 4) (mv : BitVec 16) (s : State) : Host.Outcome State Fault Refusal :=
  .next ((({ s with rs := { s.rs with straps := straps, vin := false } } : State).resetRequest 2 0 true).setVin mv)

/-- PHASE_FAIL (R441). -/
def execPhaseFail (phase : Fin 6) (s : State) : Host.Outcome State Fault Refusal :=
  .next ((s.setRf R.PW_STAT F.PW_STAT_PHASE_OK (clrBit (s.rf R.PW_STAT F.PW_STAT_PHASE_OK) phase)).raiseF R.PW_EVT F.PW_EVT_PHASE_FAIL)

/-- POWER_GOOD_LOSS (R441, R322): a Cold reset; it alone cuts an OTP pulse, whose bit then reads either way. -/
def execPowerGoodLoss (straps : BitVec 4) (s0 : State) : Host.Outcome State Fault Refusal :=
  let s := s0.strapAt straps
  let s1 := match s.ot.run with
    | some r => match r.left with
      | (k, b) :: _ => (if Config.otpCut s.freeCtr then s.otSet k b else s).tick
      | [] => s
    | none => s
  .next (s1.resetRequest 3 (s.rf R.PW_STAT F.PW_STAT_PHASE_OK) false)

/-- PW_TEMP as the temperature moves (0.125 °C). -/
def State.setTemp (s : State) (tj : BitVec 16) : State := s.setRf R.PW_TEMP F.PW_TEMP_TJ tj.toNat

/-- THERMAL_WARN (R443): PW_TEMP moves; rising to WARN or above sets THERM_WARN. -/
def execThermalWarn (tj : BitVec 16) (s : State) : Host.Outcome State Fault Refusal :=
  let w := 8 * (s.rf R.PW_THERM F.PW_THERM_WARN : Int)
  let s1 := s.setTemp tj
  .next (if sext 16 (s.rf R.PW_TEMP F.PW_TEMP_TJ) < w ∧ w ≤ sext 16 tj.toNat then s1.raiseF R.PW_EVT F.PW_EVT_THERM_WARN else s1)

/-- THERMAL_TRIP (R443): Tj reaches 125 °C. -/
def execThermalTrip (straps : BitVec 4) (tj : BitVec 16) (s : State) : Host.Outcome State Fault Refusal :=
  .next (if 1000 ≤ sext 16 tj.toNat then ((s.strapAt straps).resetRequest 4 0 true).setTemp tj else s)

/-- THERMAL_TRIP_END (R443): PW_TEMP has fallen below 115 °C. -/
def execThermalTripEnd (tj : BitVec 16) (s : State) : Host.Outcome State Fault Refusal :=
  .next (if sext 16 tj.toNat < 920 then (s.resetUnhold 4).setTemp tj else s)

/-- NRESET (R452): low beyond its filter; `straps` are the strap balls' levels now. -/
def execNresetLow (straps : BitVec 4) (s : State) : Host.Outcome State Fault Refusal :=
  .next ((s.strapAt straps).resetRequest (if s.qvMode then 8 else 16) 0 true)

/-- NRESET_RELEASE (R452). -/
def execNresetRelease (s : State) : Host.Outcome State Fault Refusal := .next ((s.resetUnhold 8).resetUnhold 16)

/-- PERST (R357, R452). -/
def execPerst (s : State) : Host.Outcome State Fault Refusal := .next (s.resetRequest 19 0 true)

/-- PERST_RELEASE (R452). -/
def execPerstRelease (s : State) : Host.Outcome State Fault Refusal := .next (s.resetUnhold 19)

/-- A write of RS_CTRL (R451): without the key it is ignored. -/
def State.rsCtrlWrite (s : State) (v : Word) : State :=
  if F.RS_CTRL_KEY.get v ≠ 0x5253 then s
  else
    let s1 := if F.RS_CTRL_WARM.bit v then s.resetRequest 10 0 false else s
    if F.RS_CTRL_RUN.bit v then s1.resetRequest 18 0 false else s1

/-- SOFTWARE_WARM (R451). -/
def execSoftwareWarm (straps : BitVec 4) (v : Word) (s : State) : Host.Outcome State Fault Refusal :=
  .next ((s.strapAt straps).rsCtrlWrite v)
/-- SOFTWARE_RUN (R451). -/
def execSoftwareRun (v : Word) (s : State) : Host.Outcome State Fault Refusal := .next (s.rsCtrlWrite v)
/-- JTAG_RESET (R451). -/
def execJtagReset (straps : BitVec 4) (s : State) : Host.Outcome State Fault Refusal := .next ((s.strapAt straps).resetRequest 12 0 false)
/-- AON_DISAGREE (R451). -/
def execAonDisagree (straps : BitVec 4) (s : State) : Host.Outcome State Fault Refusal := .next ((s.strapAt straps).resetRequest 5 0 false)

/-! Watchdogs -/

/-- The count left, in YCLK, of a watchdog with this limit. -/
def Wdt.count (w : Wdt) (limit now : Nat) : Nat :=
  match w.left with
  | some n => n
  | none => ((limit : Int) - ((now : Int) - w.at_)).toNat
/-- Restarted. -/
def Wdt.kick (w : Wdt) (limit now : Nat) : Wdt := { at_ := now, left := w.left.map (fun _ => limit) }
/-- Stopped or going again. -/
def Wdt.pause (w : Wdt) (on : Bool) (limit now : Nat) : Wdt :=
  if on then { w with left := some (w.count limit now) }
  else match w.left with
    | some n => { at_ := (now : Int) + n - limit, left := none }
    | none => w

/-- The limit of the system watchdog in YCLK. -/
def State.rsLimit (s : State) : Nat := 500000 * s.rf R.RS_WDT_CFG F.RS_WDT_CFG_LIMIT
/-- What it has left. -/
def State.rsLeft (s : State) : Nat := s.rs.wdt.count s.rsLimit s.now

/-- A write of RS_WDT_CFG (R457): EN only sets, and PAUSE moves only for code fetched from the Starter ROM. -/
def State.rsWdtWrite (s : State) (v : Word) (rom : Bool) : State :=
  let c := R.RS_WDT_CFG
  let was := s.rb c F.RS_WDT_CFG_EN
  let pa := s.rb c F.RS_WDT_CFG_PAUSE
  let p1 := if rom then F.RS_WDT_CFG_PAUSE.bit v else pa
  let en := was || F.RS_WDT_CFG_EN.bit v
  let s1 := s.setRg c (w32 (b2n en + 2 * b2n p1 + 0x10000 * F.RS_WDT_CFG_LIMIT.get v))
  let w := if en ∧ ¬ was then { at_ := s.now, left := if pa then some s1.rsLimit else none } else s.rs.wdt
  { s1 with rs := { s1.rs with wdt := if p1 ≠ pa then w.pause p1 s1.rsLimit s.now else w } }

/-- RS_WDT_KICK (R457). -/
def State.rsKick (s : State) (v : Word) : State :=
  if F.RS_WDT_KICK_KEY.get v = 0xC3C3 then { s with rs := { s.rs with wdt := s.rs.wdt.kick s.rsLimit s.now } } else s
/-- RS_WDT_KICK. -/
def execRsWdtKick (v : Word) (s : State) : Host.Outcome State Fault Refusal := .next (s.rsKick v)

/-- Does the system watchdog count? -/
def State.rsCounts (s : State) : Bool := s.rb R.RS_WDT_CFG F.RS_WDT_CFG_EN && !s.rb R.RS_WDT_CFG F.RS_WDT_CFG_PAUSE

/-- RS_WDT_WARN (R457): half the limit is left. -/
def execRsWdtWarn (s : State) : Host.Outcome State Fault Refusal :=
  .next (if s.rsCounts ∧ 2 * s.rsLeft ≤ s.rsLimit then s.raiseF R.RS_EVT F.RS_EVT_WDT_WARN else s)

/-- SYSTEM_WDT_EXPIRY (R457). -/
def execSystemWdtExpiry (straps : BitVec 4) (s : State) : Host.Outcome State Fault Refusal :=
  .next (if s.rsCounts ∧ s.rsLeft = 0 then (s.strapAt straps).resetRequest 9 0 false else s)

/-- RS_SAFE_WRITE (R459). -/
def execRsSafeWrite (v : Word) (s : State) : Host.Outcome State Fault Refusal := .next (s.store R.RS_SAFE v)

/-! Power domains -/

/-- A domain's state set. -/
def State.setDom (s : State) (d st : Nat) : State :=
  (if st = 2 then s else s.scrubLeave d).setRf (R.PW_DOM_STAT d) F.PW_DOM_STAT_STATE st

/-- What PW_DOM_STAT shows: CLOSING lasts one NCLK, DRAINING follows (R445). -/
def State.domShown (s : State) (d : Nat) : Nat :=
  match s.rs.dom with
  | some (k, false, at_) => if k = d ∧ s.domState d = 3 ∧ at_ < s.now then 4 else s.domState d
  | _ => s.domState d

/-- The requests that have reached the Seam of a domain as it begins to close (R218): those delivered, and those of which the router has
passed on the header only. -/
def State.seamMark (s : State) (d : Nat) : State :=
  let here := s.net.inbox.filter (fun p => nodeDomain p.dst p.dstPort.toNat == d || blockDomain (blockOf p.addr.toNat) == d)
  let part := (s.net.holds.filter (fun h => decide (24 ≤ h.key.inp) && nodeDomain h.key.node (h.key.inp - 24) == d)).map (fun h => h.pid)
  { s with net := { s.net with inTime := s.net.inTime ++ here, late := s.net.late ++ part } }

/-- An OFF command checked and begun: CLOSING (R445). -/
def State.domClose (s : State) (d : Nat) : State :=
  match s.domRefusal d false with
  | some c => s.domRefuse d c
  | none =>
    let s1 := (({ s with rs := { s.rs with dom := some (d, false, s.now) } } : State).seamMark d).setDom d 3
    if d = 10 ∨ d = 11 then s1.cfgDomClose d else s1

/-- An ON command (R446). -/
def State.domOpen (s : State) (d : Nat) : State :=
  match s.domRefusal d true with
  | some c => s.domRefuse d c
  | none => ({ s with rs := { s.rs with dom := some (d, true, s.now) } } : State).setDom d 1

/-- A write of PW_DOM_CMD (R444): OP 1 OFF, 2 ON. An OFF that meets a recovery waits for its end (R447). -/
def State.domCmd (s : State) (v : Word) : State :=
  let d := F.PW_DOM_CMD_DOM.get v
  let op := F.PW_DOM_CMD_OP.get v
  if ¬ F.PW_DOM_CMD_GO.bit v then s
  else if op = 1 then
    if s.rs.domWait.isSome then s.domClose d
    else if s.rf R.FT_STAT F.FT_STAT_STATE ≠ 0 then { s with rs := { s.rs with domWait := some d } }
    else s.domClose d
  else if op = 2 then s.domOpen d
  else s

/-- The waiting OFF command checked once no recovery runs (R447). -/
def State.domResume (s : State) : State :=
  match s.rs.domWait with
  | some d => if s.rf R.FT_STAT F.FT_STAT_STATE = 0 then ({ s with rs := { s.rs with domWait := none } } : State).domClose d else s
  | none => s

/-- DOMAIN_OFF (R444, R445). -/
def execDomainOff (v : Word) (s : State) : Host.Outcome State Fault Refusal := .next (if F.PW_DOM_CMD_OP.get v = 1 then s.domCmd v else s)
/-- DOMAIN_ON (R444, R446). -/
def execDomainOn (v : Word) (s : State) : Host.Outcome State Fault Refusal := .next (if F.PW_DOM_CMD_OP.get v = 2 then s.domCmd v else s)

/-- Requests accepted into a domain and not complete: local memory accesses of a row, user window accesses of FAB_W. -/
def State.domOpenReqs (s : State) (d : Nat) : List Packet :=
  if 2 ≤ d ∧ d < 10 then (s.arr.lmWait.map (fun w => w.pkt)).filter (fun p => p.dst / 12 == d - 1)
  else if d = 10 then s.fb.uwin.filterMap (fun e => e.1)
  else []

/-- A SerDes domain leaves: its links go down (R445). -/
def State.serdesDown (s : State) (d : Nat) : State :=
  if d = 12 ∨ d = 13 then (if s.pcieUp then (s.hiReset.setRg R.HI_LINK 0).raiseF R.HI_EVT F.HI_EVT_LINK_DOWN else s)
  else if d = 14 then (s.lcPortDown 0 0).lcPortDown 1 0
  else if d = 15 then s.each (List.range 4) (fun p t => t.setRg (R.EN_PORT_STAT p) (w32 ((t.rg (R.EN_PORT_STAT p)).toNat / 8 * 8)))
  else s

/-- DRAIN_END (R445): every accepted request is complete, or 4 µs have passed and the rest are answered DOMAIN_OFF; the Sleeves clamp
the outputs. -/
def execDrainEnd (s : State) : Host.Outcome State Fault Refusal :=
  .next (match s.rs.dom with
    | some (d, false, at_) =>
      let l := s.domOpenReqs d
      if s.domState d ≠ 3 ∨ (¬ l.isEmpty ∧ s.now < at_ + 2000) then s
      else
        let s1 := if l.isEmpty then s else
          (l.foldl (fun (t : State) p => (t.answerErr p.dst (4 + p.dstPort.toNat) p 4).raiseF R.NW_EVT F.NW_EVT_DOM_OFF) s).raiseF R.PW_EVT
            F.PW_EVT_DRAIN_FORCED
        let s2 : State :=
          { s1 with
            arr := { s1.arr with lmWait := s1.arr.lmWait.filter (fun w => !l.contains w.pkt) }
            fb := { s1.fb with uwin := if d = 10 then [] else s1.fb.uwin } }
        let s3 := ({ s2 with rs := { s2.rs with dom := some (d, false, s.now) } } : State).setDom d 5
        s3.serdesDown d
    | _ => s)

/-- The Yoke, marks and Cuffs at their reset values, but for YK_TIME and the calibration registers (R55, R446). -/
def State.yokeReset (s : State) : State :=
  let s1 := ((s.clearRegs .block 0x10000 0x20000).clearRegs .warm 0x20000 0x40000).clearRegs .warm 0x40000 0x100000
  { s1 with yk := { Yoke.reset with time := s.yk.time }, mke := MkEng.reset, cuffs := [], edgeSeq := 0 }

/-- A row's PEs and Pleats gone (R137). -/
def State.rowLost (s : State) (y : Nat) : State :=
  let rows := (List.range 50).map (fun c => 32 * c + 4 * y)
  let inRow := fun (i : Nat) => decide (4 * y ≤ i % 32) && decide (i % 32 < 4 * y + 4)
  let s1 := rows.foldl (fun (t : State) i => t.clearMem (memPleat + 512 * i) (memPleat + 512 * (i + 4))) s
  let s2 := (rowRanges y).foldl (fun (t : State) q => t.clearMem q.1 q.2) s1
  let s3 : State :=
    { s2 with arr := { s2.arr with
        pes := s2.arr.pes.filter (fun e => !inRow e.1)
        privs := s2.arr.privs.filter (fun e => !inRow (e.1 / 16)) } }
  s3.emptyQs (1160 + 48 * y) (1160 + 48 * (y + 1))

/-- ISOLATION_END (R445): after 1 µs the branch is switched off and the contents are lost. -/
def execIsolationEnd (s : State) : Host.Outcome State Fault Refusal :=
  .next (match s.rs.dom with
    | some (d, false, at_) =>
      if s.domState d ≠ 5 ∨ s.now < at_ + 500 then s
      else
        let s1 := (({ s with rs := { s.rs with dom := none } } : State).setDom d 0).raiseF R.PW_EVT F.PW_EVT_DOM_DONE
        if 2 ≤ d ∧ d < 10 then s1.rowLost (d - 2)
        else if d = 10 ∨ d = 11 then s1.cfgDomOff d
        else if d = 16 then s1.yokeReset
        else s1
    | _ => s)

/-- RAMP_DONE (R446): the branch is good: a row's memories are filled first, and the command runs until they are; a fabric domain's frames are
reloaded, the Yoke takes its reset values. -/
def execRampDone (s : State) : Host.Outcome State Fault Refusal :=
  .next (match s.rs.dom with
    | some (d, true, _) =>
      if 2 ≤ d ∧ d < 10 then
        if s.sm.fills.any (fun f => f.dom == some d) then s
        else (s.rowLost (d - 2)).startFill { ranges := rowRanges (d - 2), dom := some d }
      else
        let s1 : State := { s with rs := { s.rs with dom := none } }
        let s2 := if d = 10 ∨ d = 11 then s1.cfgDomOn d else if d = 16 then s1.yokeReset else s1
        (s2.setDom d 2).raiseF R.PW_EVT F.PW_EVT_DOM_DONE
    | _ => s)

/-! Clocks -/

/-- REF_LOSS (R448). -/
def execRefLoss (s : State) : Host.Outcome State Fault Refusal :=
  .next (((s.setRb R.CK_STAT F.CK_STAT_HOLDOVER true).setRb R.CK_STAT F.CK_STAT_REF_OK false).raiseF R.CK_EVT F.CK_EVT_REF_LOSS)

/-- REF_RESTORE (R448): REF has stayed good for 10 ms. -/
def execRefRestore (s : State) : Host.Outcome State Fault Refusal :=
  let s1 := s.setRb R.CK_STAT F.CK_STAT_REF_OK true
  .next (if s.rb R.CK_STAT F.CK_STAT_HOLDOVER then (s1.setRb R.CK_STAT F.CK_STAT_HOLDOVER false).raiseF R.CK_EVT F.CK_EVT_REF_BACK else s1)

/-- A write of CK_ACLK (R449): refused unless the Array is frozen and N is in the grade's range. -/
def State.aclkWrite (s : State) (v : Word) : State :=
  let n := F.CK_ACLK_N.get v
  if ¬ s.rb R.AR_CTRL F.AR_CTRL_FROZEN ∨ n < 10 ∨ 25 < n ∨ (20 < n ∧ ¬ s.rb R.CK_STAT F.CK_STAT_GRADE) then
    s.raiseF R.CK_EVT F.CK_EVT_ACLK_REFUSED
  else
    let s1 := (s.store R.CK_ACLK v).setRb R.CK_STAT F.CK_STAT_ACLK_LOCK false
    { s1 with rs := { s1.rs with relock := true } }

/-- ACLK_WRITE (R449). -/
def execAclkWrite (v : Word) (s : State) : Host.Outcome State Fault Refusal := .next (s.aclkWrite v)

/-- ACLK_RELOCK (R449). -/
def execAclkRelock (s : State) : Host.Outcome State Fault Refusal :=
  .next (if s.rb R.CK_STAT F.CK_STAT_ACLK_LOCK then s
    else
      let s1 := if s.rs.relock then ({ s with rs := { s.rs with relock := false } } : State).frozenShow else s
      (s1.setRb R.CK_STAT F.CK_STAT_ACLK_LOCK true).raiseF R.CK_EVT F.CK_EVT_ACLK_LOCKED)

end Sys2Proof.Machine
end

