-- ==== Sys2Proof/Machine/CfgEngine.lean ====
section
/-! DEFINITION. The commands of the configuration engine (09_configuration.md, R278–R305): boot
attempts, Proof, libraries, partial loads, scrubbing, readback. -/

namespace Sys2Proof.Machine

/-! Boot -/

/-- CG_STATUS.STATE set. -/
def State.cgState (s : State) (st : Nat) : State := s.setRf R.CG_STATUS F.CG_STATUS_STATE st

/-- A failed boot attempt (R283, R285, R286). -/
def State.bootFail (s : State) (code frame : Nat) : State :=
  let s1 := ((s.proofErr code frame false).bump R.CG_RETRY_COUNT F.CG_RETRY_COUNT_COUNT 1).cgState 3
  let s2 : State := { s1 with cg := { s1.cg with boot := none, failAt := s1.now, tries := s1.cg.tries + 1 }
                              lc := { s1.lc with recv := [] } }
  s2.verifyShow.raiseF R.CG_EVT F.CG_EVT_PROOF_FAIL |>.emit .cfgStatusPulse

/-- The KIND that the latched mode accepts (Table CG-3). -/
def State.bootKind (s : State) : Nat := if s.qvMode then 1 else 3

/-- Header, step 1, REG_INIT; then the content is being read while signatures are verified (R283). -/
def State.bootLoad (s : State) (src : ImgSrc) (idx : Nat) : State :=
  let (s1, h, ok) := s.srcRead src 0 0x1000
  if ¬ ok then s1.bootFail 8 0xFFFF
  else match headerBad s.bootKind h with
    | some c => s1.bootFail c 0xFFFF
    | none =>
      let (s2, rest, ok2) := s1.srcRead src 0x1000 0x5000
      if ¬ ok2 then s2.bootFail 8 0xFFFF
      else
        let s3 := (s2.regInit (imgRegInit h)).cgState 1
        ({ s3 with cg := { s3.cg with boot := some { src := src, idx := idx, hdr := h ++ rest, sig := none, units := 0, got := [] } } } : State).verifyShow

/-- What the engine sends to external flash (R280, Table CG-2): the JEDEC reset in both modes and the read of the header; where FLAGS[0] of the
header that came is 1, the image's commands and the 8D read from 0x1000 on, else a 1S read from there. Its bursts are time. -/
def State.xspiRead (s : State) (h : List Byte) : State :=
  let s1 := [(false, 0x66), (false, 0x99), (true, 0x66), (true, 0x99)].foldl (fun t (e : Bool × Nat) => t.emit (.xspi e.1 [BitVec.ofNat 8 e.2])) s
  let s2 := s1.emit (.xspi false [0x03, 0, 0, 0])
  if (fieldB h 0x1C 4).testBit 0 then
    let s3 := (List.range (min 8 (fieldB h 0x700 1))).foldl (fun t k =>
      let b := fieldB h (0x708 + 16 * k) 1
      t.emit (.xspi (b.testBit 7) (sliceB h (0x709 + 16 * k) (b % 16)))) s2
    s3.emit (.xspi true (sliceB h 0x704 2 ++ [0, 0, 0x10, 0]))
  else s2.emit (.xspi false [0x03, 0, 0x10, 0])

/-- The base of a slot. -/
def slotBase (k : Nat) : Nat := if k = 0 then 0 else 0xE00000

/-- The preferred slot (R279): valid MAGIC, FORMAT and KIND, and the higher SEQ; slot A on equal SEQ, or where neither is valid. -/
def State.slotFirst (s : State) : State × Nat :=
  let (s1, a, oka) := s.flRead 0 0x1000
  let (s2, b, okb) := s1.flRead 0xE00000 0x1000
  let good := fun (h : List Byte) (ok : Bool) => ok && imgMagic h == 0x46435651 && imgFormat h == 1 && imgKind h == 1
  (s2, if good b okb ∧ (¬ good a oka ∨ imgSeq a < imgSeq b) then 1 else 0)

/-- A boot attempt (R278–R282, R285). `ext` is what external flash yields. -/
def State.bootAttempt (s : State) (ext : List Byte) : State :=
  if ¬ s.qvMode then s.bootLoad (.flash 0x3000000) 5
  else match s.rf R.CG_STATUS F.CG_STATUS_BOOT with
    | 0 =>
      let (s1, k) := if s.cg.tries = 0 then s.slotFirst else (s, 1 - s.rf R.CG_STATUS F.CG_STATUS_SLOT)
      (s1.setRf R.CG_STATUS F.CG_STATUS_SLOT k).bootLoad (.flash (slotBase k)) k
    | 1 => (s.xspiRead (ext.take 0x1000)).bootLoad (.held ext) 2
    | 2 =>
      let s1 := s.cgState 4
      { s1 with cg := { s1.cg with boot := some { src := .held [], idx := 3, hdr := [], sig := none, units := 0, got := [] } }
                lc := { s1.lc with recv := [] } }
    | _ => if s.cg.tries = 0 then s.cgState 4 else s.bootLoad (.smb (4096 * s.rf R.CG_HOST_BASE F.CG_HOST_BASE_BASE)) 4

/-- An image that Lace has brought in full, in WAIT_SRC (R281): one of KIND 1 is taken. -/
def State.laceBoot (s : State) : State :=
  let l := s.lc.recv
  if l.length < 0x1000 then s
  else if imgKind l ≠ 1 then { s with lc := { s.lc with recv := [] } }
  else if l.length < imgLen l then s
  else s.bootLoad (.held l) 3

/-- BOOT_ATTEMPT (R278): the engine, released and idle, starts its first attempt; in WAIT_SRC under BOOT 10 it takes the image that has
come. -/
def execBootAttempt (ext : List Byte) (s : State) : Host.Outcome State Fault Refusal :=
  let st := s.rf R.CG_STATUS F.CG_STATUS_STATE
  .next (if s.blkHeld 11 then s
    else if st = 0 then s.bootAttempt ext
    else if st = 4 ∧ s.cg.boot.any (fun b => b.idx == 3) then s.laceBoot
    else s)

/-- CG_HOST_GO (R282). -/
def State.cgHostGo (s : State) : State :=
  if s.rf R.CG_STATUS F.CG_STATUS_STATE = 4 ∧ s.cg.boot.isNone then
    s.bootLoad (.smb (4096 * s.rf R.CG_HOST_BASE F.CG_HOST_BASE_BASE)) 4
  else s
/-- CG_HOST_GO. -/
def execCgHostGo (s : State) : Host.Outcome State Fault Refusal := .next s.cgHostGo

/-- BACKOFF_END (R285): 10 ms after the failure. -/
def execBackoffEnd (ext : List Byte) (s : State) : Host.Outcome State Fault Refusal :=
  .next (if s.rf R.CG_STATUS F.CG_STATUS_STATE = 3 ∧ s.cg.failAt + 5000000 ≤ s.now then s.bootAttempt ext else s)

/-- A boot image that has passed (R279, R287, R297, R335): its regions, its key, the lock on its slot. -/
def State.bootPass (s : State) (b : BootRun) : State :=
  let h := b.hdr.take 0x1000
  let act := match b.src with | .flash x => some x | _ => none
  let s1 : State := { s with cg := { s.cg with boot := none, hdr := h, active := act, idx := b.idx, tries := 0 } }
  let s2 := s1.each (List.range (imgRegions h)) (fun r t =>
    let (f, l) := imgRegionAt h r
    let t1 := ((t.setRg (R.CG_REG_RANGE r) (w32 (f + 0x10000 * l))).setRg (R.CG_REG_LINING r) 0).setRg (R.CG_REG_STAT r)
      (w32 (1 + 8 * b2n act.isNone))
    t1.setCgr r { Region.idle with hdr := h })
  let s3 := (s2.setRf R.SC_STAT F.SC_STAT_BOOTKEY (match b.sig with | some k => if k < 4 then k else 0xFF | none => 0xFF)).cgState 5
  (if b.idx < 2 then s3.setRf R.FL_STAT F.FL_STAT_LOCK (b.idx + 1) else s3).cfgRelease

/-- Step 2 of a boot attempt ends with `units` of the content written so far. -/
def State.bootSig (s : State) (b : BootRun) (units : Nat) : State :=
  let us := imgUnits b.hdr
  let more := (us.drop b.units).take (units - b.units)
  let (s1, bytes, k) := s.loadUnits b.src more
  let done := b.units + k
  if k < more.length then s1.bootFail 8 (frameInHand us done)
  else match s.proofSig b.hdr false with
    | .inr c => s1.bootFail c (frameInHand us done)
    | .inl key =>
      let s2 : State := { s1 with cg := { s1.cg with boot := some { b with sig := some key, units := done, got := b.got ++ bytes } } }
      let s3 := s2.verifyShow
      if done = us.length then s3.cgState 2 else s3

/-- Steps 3 and 4 of a boot attempt. -/
def State.bootEnd (s : State) (b : BootRun) : State :=
  let us := imgUnits b.hdr
  let (s1, bytes, k) := s.loadUnits b.src (us.drop b.units)
  let done := b.units + k
  if done < us.length then s1.bootFail 8 (frameInHand us done)
  else
    let (s2, crc, ok) := s1.srcRead b.src (imgLen b.hdr - 4) 4
    if ¬ ok then s2.bootFail 8 (frameInHand us us.length)
    else match proofEndBad b.hdr (b.got ++ bytes) crc with
      | some c => s2.bootFail c (frameInHand us us.length)
      | none => s2.bootPass b

/-! Partial loads -/

/-- A partial load starts, or is refused before anything changes (R293–R295). -/
def State.partStart (s : State) (region : Nat) (lining : Option Nat) (host : Bool) (desc : Option (Nat × Nat)) (img : List Byte) : State :=
  let p : PartRun := { region := region, host := host, desc := desc, lining := lining, hdr := img, sig := false, content := [], units := 0,
                       frame := 0xFFFF, lastAt := s.now }
  let refuse := fun (st : Nat) =>
    let s1 := (s.setRg R.CG_PL_STAT (w32 (st + 16 * region + 256 * b2n host + 0xFFFF0000))).icpAnswer host region st
    match desc with
    | some (q, d) => s1.descEnd q d 2 16 0 st 0
    | none => s1
  if s.cg.part.isSome ∨ ¬ s.cg.repair.isEmpty then refuse 4
  else if region = 15 ∨ s.regionState region = 0 ∨ imgRegion img ≠ region then refuse 5
  else if ¬ (s.regionDoms region).all s.domOn then refuse 6
  else
    let s1 := ({ s.sleeve region 2 with cg := { (s.sleeve region 2).cg with part := some p } } : State).cgShow
    match headerBad 2 img with
    | some c => s1.plFail p 2 (some c)
    | none => s1.verifyShow

/-- LINING of a start word or a descriptor (R293). -/
def liningOpt (v : Word) : Option Nat := if wbit v 8 then some (bitsOf v.toNat 16 14) else none

/-- The bytes of words, as the ICP and the host give them. -/
def wordsB (l : List Word) : List Byte := l.flatMap (fun w => bytesLE 4 w.toNat)

/-- ICP_START (R293): user logic's start word and the image's first 0x6000 bytes. -/
def execIcpStart (start : Word) (words : List Word) (s : State) : Host.Outcome State Fault Refusal :=
  .next (if s.fbStage ≠ 3 ∨ s.fb.hold then s
    else s.partStart (start.toNat % 16) (liningOpt start) false none ((wordsB words).take 0x6000))

/-- CONFIG_PARTIAL (R293, Table HI-3): the descriptor's image, whose first 0x6000 bytes the host's memory yields. -/
def execConfigPartial (q : Fin 1024) (dseq : Word) (hdr : List Byte) (hostErr : Bool) (s : State) : Host.Outcome State Fault Refusal :=
  .next (match s.running q dseq 7 with
    | none => s
    | some d =>
      if d.started then s
      else
        let s1 := s.setDesc q { d with started := true }
        let w5 := w32 (d.fld 5 0 32)
        if hostErr then s1.descFail q d 7 0
        else s1.partStart (w5.toNat % 16) (liningOpt w5) true (some (q.val, dseq.toNat)) (hdr.take 0x6000))

/-- Step 2 of a partial load ends (R293, R294). -/
def State.partSig (s : State) (p : PartRun) : State :=
  match s.proofSig p.hdr (!p.host && !s.rb R.CG_ICP_POLICY F.CG_ICP_POLICY_SIGNED) with
  | .inr c => s.plFail p 2 (some c)
  | .inl _ => ({ s with cg := { s.cg with part := some { p with sig := true, lastAt := s.now } } } : State).verifyShow

/-- Whole units of the content that has come, checked against fence and region and written (R296). -/
def State.partUnits (s : State) (p : PartRun) : List (Bool × Nat × Nat) → State
  | [] => { s with cg := { s.cg with part := some p } }
  | (b, n, o) :: r =>
    let size := if b then 4608 else 320
    if 0x6000 + p.content.length < o + size then { s with cg := { s.cg with part := some p } }
    else
      let f := s.rg (if p.host then R.CG_HOST_FENCE else R.CG_ICP_FENCE)
      let inside := decide (F.CG_ICP_FENCE_FIRST.get f ≤ n) && decide (n ≤ F.CG_ICP_FENCE_LAST.get f) && s.inRegion p.region n
      if b then State.partUnits (s.writeUnit true n (sliceB p.content (o - 0x6000) size)) { p with units := p.units + 1 } r
      else if inside then
        State.partUnits (s.writeUnit false n (sliceB p.content (o - 0x6000) size)) { p with units := p.units + 1, frame := n } r
      else s.plFail { p with frame := n } 1 (some 11)

/-- PARTIAL_FRAME (R296): words of the content come, once READY is high; `bad` says that the source could not be read. -/
def execPartialFrame (words : List Word) (bad : Bool) (s : State) : Host.Outcome State Fault Refusal :=
  .next (match s.cg.part with
    | none => s
    | some p =>
      if ¬ p.sig then s
      else if bad then s.plFail p 2 (some 8)
      else
        let c := (p.content ++ wordsB words).take (imgLen p.hdr - 0x6000)
        s.partUnits { p with content := c, lastAt := s.now } ((imgUnits p.hdr).drop p.units))

/-- The image that has come whole passes or fails (R297). -/
def State.partEnd (s : State) (p : PartRun) : State :=
  let n := imgLen p.hdr - 0x6000
  if ¬ p.sig ∨ p.content.length < n then s
  else match proofEndBad p.hdr (p.content.take (n - 4)) (p.content.drop (n - 4)) with
    | some c => s.plFail p 2 (some c)
    | none =>
      let (s1, ok) := match p.lining with
        | some l =>
          let (t, h, k) := s.flRead (4096 * l) 0x1000
          (t, k && imgFrameHash h == imgFrameHash p.hdr)
        | none => (s, false)
      let r := p.region
      let s2 := (s1.setRg (R.CG_REG_LINING r) (w32 (if ok then p.lining.getD 0 + 0x8000 else 0))).setRb (R.CG_REG_STAT r)
        F.CG_REG_STAT_NOLINING (!ok)
      let s3 := (s2.plEnd p 0).raiseF R.CG_EVT F.CG_EVT_PL_DONE
      (s3.setCgr r { s3.cgr r with hdr := p.hdr.take 0x1000 }).regionRelease r

/-- PARTIAL_STALL (R296): no word for longer than CG_PL_TMO GCLK. -/
def execPartialStall (s : State) : Host.Outcome State Fault Refusal :=
  let tmo := (s.rg R.CG_PL_TMO).toNat
  .next (match s.cg.part with
    | some p => if p.sig ∧ tmo ≠ 0 ∧ p.lastAt + 2 * tmo < s.now then s.plFail p 7 (some 12) else s
    | none => s)

/-- PL_ABORT (R296). -/
def State.plAbort (s : State) : State := match s.cg.part with | some p => s.plFail p 3 none | none => s
/-- PL_ABORT. -/
def execPlAbort (s : State) : Host.Outcome State Fault Refusal := .next s.plAbort

/-! The Pleat library -/

/-- A library that fails Proof. -/
def State.libFail (s : State) (code : Nat) : State :=
  (((s.libEnd 1).proofErr code 0xFFFF false).verifyShow).raiseF R.CG_EVT F.CG_EVT_LIB_FAIL

/-- Header of a library in the order that R291 states: SIZE; PLANES 0; then step 1 of Proof, after which step 2 runs. -/
def State.libHeader (s : State) (l : LibRun) (img : List Byte) : State :=
  let s0 := s.setRf R.CG_LIB_STAT F.CG_LIB_STAT_PLANES (imgPlanes img)
  if 1024 < l.base + imgPlanes img then s0.libEnd 3
  else
    let s1 := s0.setRf R.PL_LIB_CFG F.PL_LIB_CFG_PLANES 0
    match headerBad 4 img with
    | some c => s1.libFail c
    | none => ({ s1 with cg := { s1.cg with lib := some { l with hdr := img } } } : State).verifyShow

/-- Bytes of an image that a staging from flash sends over Lace as it reads them (R292), from offset `off` of the image on. -/
def State.libSend (s : State) (l : LibRun) (off : Nat) (bytes : List Byte) : State :=
  if l.bcast then s.lcImgFrames ([0, 1].filter (fun p => s.lcUp p)) 0xFF (-1) off bytes else s

/-- CG_LIB_CMD written (R291, R292): GO while a staging runs is ignored (DEDUCED). The header is read and sent. -/
def State.libGo (s : State) (v : Word) : State :=
  if ¬ F.CG_LIB_CMD_GO.bit v ∨ s.cg.lib.isSome then s
  else
    let lace := F.CG_LIB_CMD_SRC.bit v
    let l : LibRun := { lace := lace, bcast := !lace && F.CG_LIB_CMD_BCAST.bit v, base := F.CG_LIB_CMD_BASE.get v, hdr := [], sig := false,
                        src := if lace then .held [] else .flash 0x1C00000, got := [] }
    let s1 := ((s.setRg R.CG_LIB_STAT 1).setRb R.CG_STATUS F.CG_STATUS_LIB_BUSY true)
    let s2 : State := { s1 with cg := { s1.cg with lib := some l }, lc := { s1.lc with recv := if lace then [] else s1.lc.recv } }
    if lace then s2
    else
      let (s3, img, ok) := s2.srcRead l.src 0 0x6000
      if ok then (s3.libSend l 0 img).libHeader l img else s3.libFail 8

/-- LIB_GO (R291). -/
def execLibGo (v : Word) (s : State) : Host.Outcome State Fault Refusal := .next (s.libGo v)

/-- LIB_ABORT (R291). -/
def State.libAbort (s : State) : State := if s.cg.lib.isSome then (s.libEnd 2).verifyShow else s
/-- LIB_ABORT. -/
def execLibAbort (s : State) : Host.Outcome State Fault Refusal := .next s.libAbort

/-- Bytes of a library from offset `off` of its content on written: plane p of tile t to bank t at 512 × (BASE + p) (R158, R291). -/
def State.libWrite (s : State) (base off : Nat) (bytes : List Byte) : State :=
  s.each (List.range (bytes.length / 8)) (fun i t =>
    let o := off + 8 * i
    let p := o / 0xC000
    let tile := o % 0xC000 / 512
    let a := 0x80000 * tile + 512 * (base + p) + o % 512
    if t.domOn (2 + tile / 12) then (t.writeWords 1 [(t.smbPlace a, ofBytesLE (sliceB bytes (8 * i) 8), 255)]).1 else t)

/-- Up to n units of 512 B of a library's content read in order, written and sent, until one cannot be read (R283, R291, R292): the staging as it
then stands, and whether all could be read. -/
def State.libRead : Nat → State → LibRun → State × LibRun × Bool
  | 0, s, l => (s, l, true)
  | n + 1, s, l =>
    let o := l.got.length
    let (s1, c, ok) := s.srcRead (if l.lace then .held s.lc.recv else l.src) (0x6000 + o) 512
    if ok then State.libRead n ((s1.libWrite l.base o c).libSend l (0x6000 + o) c) { l with got := l.got ++ c } else (s1, l, false)

/-- The units of 512 B of a library's content. -/
def libUnitCount (h : List Byte) : Nat := (imgLen h - 0x6004) / 512

/-- Step 2 of a staging, with `units` of its content read by then; a Lace image's header is first taken from what has come, and no more is
read than has come. -/
def State.libSig (s : State) (l0 : LibRun) (units : Nat) : State :=
  let s1 := if l0.hdr.isEmpty ∧ 0x6000 ≤ s.lc.recv.length then s.libHeader l0 (s.lc.recv.take 0x6000) else s
  match s1.cg.lib with
  | some l =>
    if l.hdr.isEmpty then s1
    else
      let n := min units (min (libUnitCount l.hdr) (if l.lace then (s.lc.recv.length - 0x6000) / 512 else libUnitCount l.hdr)) - l.got.length / 512
      let (s2, l2, ok) := State.libRead n s1 l
      if ¬ ok then s2.libFail 8
      else match s1.proofSig l.hdr false with
        | .inr c => s2.libFail c
        | .inl _ => ({ s2 with cg := { s2.cg with lib := some { l2 with sig := true } } } : State).verifyShow
  | none => s1

/-- The rest of the image is read, written and sent, and compared (R291); a Lace image when it has come whole. -/
def State.libDone (s : State) (l : LibRun) : State :=
  if ¬ l.sig ∨ (l.lace ∧ s.lc.recv.length < imgLen l.hdr) then s
  else
    let (s1, l1, ok) := State.libRead (libUnitCount l.hdr - l.got.length / 512) s l
    let (s2, crc, ok2) := s1.srcRead (if l.lace then .held s.lc.recv else l.src) (imgLen l.hdr - 4) 4
    if ¬ ok ∨ ¬ ok2 then s2.libFail 8
    else
      let s4 := s2.libSend l (imgLen l.hdr - 4) crc
      match proofEndBad l.hdr l1.got crc with
      | some e => s4.libFail e
      | none =>
        let s5 := (s4.libEnd 0).setRg R.PL_LIB_CFG (F.PL_LIB_CFG_PLANES.put (F.PL_LIB_CFG_BASE.put (s4.rg R.PL_LIB_CFG) l.base) (imgPlanes l.hdr))
        ({ s5 with cg := { s5.cg with libHdr := l.hdr.take 0x1000 } } : State).raiseF R.CG_EVT F.CG_EVT_LIB_DONE

/-! Proof -/

/-- SIGNATURE_VERIFY_DONE (R283): of the boot attempt (0), a partial load (1) or a library (2); `units` of a boot image's or a
library's content have been written by then. -/
def execSignatureVerifyDone (who : Fin 3) (units : Nat) (s : State) : Host.Outcome State Fault Refusal :=
  .next (match who with
    | 0 => match s.cg.boot with
      | some b => if b.hdr.isEmpty ∨ b.sig.isSome then s else s.bootSig b units
      | none => s
    | 1 => match s.cg.part with
      | some p => if p.sig then s else s.partSig p
      | none => s
    | 2 => match s.cg.lib with
      | some l => if l.sig then s else s.libSig l units
      | none => s)

/-- PROOF_END (R283): the rest of the content is taken, FRAME_HASH and CRC are compared, and the image passes or fails. -/
def execProofEnd (who : Fin 3) (s : State) : Host.Outcome State Fault Refusal :=
  .next (match who with
    | 0 => match s.cg.boot with
      | some b => if b.sig.isSome then s.bootEnd b else s
      | none => s
    | 1 => match s.cg.part with
      | some p => s.partEnd p
      | none => s
    | 2 => match s.cg.lib with
      | some l => s.libDone l
      | none => s)

/-- SOURCE_TIMEOUT (R280, R281, R292): no DQS edge for 1 µs in a boot attempt from external flash; a Lace image that stopped for more than
1 ms. -/
def execSourceTimeout (s : State) : Host.Outcome State Fault Refusal :=
  let gap := ¬ s.lc.recv.isEmpty ∧ s.lc.recvAt + 500000 < s.now
  .next (match s.cg.boot, s.cg.lib with
    | some b, _ =>
      if b.idx = 2 then s.bootFail 8 (frameInHand (imgUnits b.hdr) b.units)
      else if b.idx = 3 ∧ b.hdr.isEmpty ∧ gap then s.bootFail 8 0xFFFF
      else s
    | none, some l => if l.lace ∧ gap then s.libFail 8 else s
    | none, none => s)

/-! Scrubbing -/

/-- Is an upset essential (R300, R301)? -/
def State.essential (s : State) (w : Nat) (c : EccClass) : State × Bool :=
  if ¬ s.rb R.CG_SCRUB_STAT F.CG_SCRUB_STAT_EBM_OK then (s, true)
  else
    let (s1, l, ok) := s.flRead (0x2C00000 + 4096 * imgEbmOfs s.cg.hdr + w) 1
    let m := ofBytesLE l
    (s1, !ok || (match c with
      | .corrected b => decide (b < 64) && m.testBit (b / 8)
      | _ => m != 0))

/-- The end of a pass, or the next word. -/
def State.scrubStep (s : State) : State :=
  let n := s.cg.scrub + 1
  if n < 1440000 then { s with cg := { s.cg with scrub := n } }
  else
    let p := (s.rf R.CG_SCRUB_STAT F.CG_SCRUB_STAT_PASSES + 1) % 0x10000
    let s1 := (s.setRf R.CG_SCRUB_STAT F.CG_SCRUB_STAT_PASSES p).setRb R.CG_SCRUB_STAT F.CG_SCRUB_STAT_RUNNING false
    { s1 with cg := { s1.cg with scrub := 0, expired := 0 } }

/-- A fault record of the configuration scrubber (R300, R302, R304); Table FT-1 names no element for it. -/
def State.cfgRecord (s : State) : State := s.report 2 []

/-- A non-essential upset, or one of the static region, rewritten (R300, R302): from the Lining, or with its correction. -/
def State.upsetFix (s : State) (r w : Nat) (c : EccClass) : State :=
  let a := memCfg + 8 * w
  let (s1, done) := match s.liningOf r with
    | some b => s.reloadWord b w
    | none => (s, false)
  if done then s1 else match c with
    | .corrected _ => s1.storeWord a (s1.fixedAt a)
    | _ => s1

/-- What the scrubber does with a word that is not good (R300, R302). -/
def State.upset (s : State) (r w : Nat) (c : EccClass) : State :=
  let (s1, ess) := s.essential w c
  let ue : Bool := match c with | .corrected _ => false | _ => true
  let count := fun (t : State) => t.bump R.CG_SCRUB_CNT F.CG_SCRUB_CNT_ESS 1
  let fixed := fun (t : State) => ((t.upsetFix r w c).bump R.CG_SCRUB_CNT F.CG_SCRUB_CNT_NONESS 1).raiseF R.CG_EVT F.CG_EVT_NONESS
  if r = 15 then (if ess then ((count (s1.upsetFix 15 w c)).raiseF R.CG_EVT F.CG_EVT_ESS_STATIC).cfgRecord else fixed s1)
  else if (s1.liningOf r).isNone ∧ (ess ∨ ue) then (if ess then count (s1.torn r) else s1.torn r).cfgRecord
  else if ess then
    let s2 := count (s1.sleeve r 4)
    (({ s2 with cg := { s2.cg with repair := s2.cg.repair ++ [r] } } : State).cgShow.raiseF R.CG_EVT F.CG_EVT_ESS).cfgRecord
  else fixed s1

/-- The scrubber reads its next word (R299, R300); frames of Sleeved and TORN regions, and of domains that are not ON, are skipped
(Table CG-6). -/
def State.scrubCfgWord (s : State) : State :=
  if ¬ s.rb R.CG_SCRUB_CFG F.CG_SCRUB_CFG_EN then s
    else
      let s0 : State := if s.rb R.CG_SCRUB_STAT F.CG_SCRUB_STAT_RUNNING then s
        else ({ s with cg := { s.cg with scrubAt := s.now } } : State).setRb R.CG_SCRUB_STAT F.CG_SCRUB_STAT_RUNNING true
      let w := s0.cg.scrub
      let f := w / 40
      let r := s0.regionOf f
      let a := memCfg + 8 * w
      let s1 := s0.scrubStep
      if ¬ s0.domOn (frameDom f) ∨ (r < 15 ∧ (s0.cgr r).stage = 0) then s1
      else match s0.classAt a with
        | .good => s1
        | .corrected b => (s1.logEcc a 1 3 (s0.synAt a) b).upset r w (.corrected b)
        | .poison => (s1.logEcc a 4 3 (s0.synAt a) 0).upset r w .poison
        | .uncorrectable => (s1.logEcc a 2 3 (s0.synAt a) 0).upset r w .uncorrectable

/-- What disagrees in the scrubber's own state is mended (R303): `vote`, one of three state copies; `badA`, `badB`, a settings copy that
fails its parity. With both bad a critical-state Warm reset follows. -/
def State.scrubVote (s : State) (vote badA badB : Bool) : State :=
  let s1 := if vote then s.bump R.CG_SCRUB_FIX F.CG_SCRUB_FIX_VOTE_FIX 1 else s
  if badA && badB then s1.resetRequest 11 1 false
  else if badA || badB then (s1.bump R.CG_SCRUB_FIX F.CG_SCRUB_FIX_COPY_FIX 1).raiseF R.CG_EVT F.CG_EVT_COPY_FIX
  else s1

/-- CFG_SCRUB_WORD (R299, R300, R303). -/
def execCfgScrubWord (vote badA badB : Bool) (s : State) : Host.Outcome State Fault Refusal :=
  .next (s.scrubCfgWord.scrubVote vote badA badB)

/-- REGION_RELOAD_DONE (R300): the oldest repair completes and its region is released. -/
def execRegionReloadDone (s : State) : Host.Outcome State Fault Refusal :=
  match s.cg.repair with
  | [] => .next s
  | r :: l =>
    let s1 := match s.liningOf r with
      | some b => s.reloadFrames b (fun f => s.inRegion r f)
      | none => s
    .next (({ s1 with cg := { s1.cg with repair := l } } : State).cgShow.regionRelease r)

/-- SCRUB_WDT_EXPIRY (R304): a pass that has run LIMIT ms begins again at frame 0; the second in a row, or the first with WDT_ACT, is a
Warm reset. -/
def execScrubWdtExpiry (straps : BitVec 4) (s : State) : Host.Outcome State Fault Refusal :=
  .next (if s.rb R.CG_SCRUB_STAT F.CG_SCRUB_STAT_RUNNING ∧
      s.cg.scrubAt + 500000 * s.rf R.CG_SCRUB_WDT F.CG_SCRUB_WDT_LIMIT ≤ s.now then
      let s1 := ((s.raiseF R.CG_EVT F.CG_EVT_SCRUB_WDT).bump R.CG_SCRUB_FIX F.CG_SCRUB_FIX_WDT 1).cfgRecord
      let s2 : State := { s1 with cg := { s1.cg with scrub := 0, scrubAt := s1.now, expired := s1.cg.expired + 1 } }
      if s.cg.expired ≥ 1 ∨ s.rb R.CG_SCRUB_CFG F.CG_SCRUB_CFG_WDT_ACT then (s2.strapAt straps).resetRequest 11 2 false else s2
    else s)

/-- EBM_CHECK (R301): after stage 3 the map of the image is read and hashed. -/
def execEbmCheck (s : State) : Host.Outcome State Fault Refusal :=
  .next (if s.fbStage ≠ 3 ∨ s.cg.hdr.isEmpty then s
    else
      let (s1, l, ok) := s.flRead (0x2C00000 + 4096 * imgEbmOfs s.cg.hdr) (imgEbmLen s.cg.hdr)
      if ok ∧ hashBytes (Config.sha384 l) = imgEbmHash s.cg.hdr then s1.setRb R.CG_SCRUB_STAT F.CG_SCRUB_STAT_EBM_OK true
      else (s1.setRb R.CG_SCRUB_STAT F.CG_SCRUB_STAT_EBM_OK false).raiseF R.CG_EVT F.CG_EVT_EBM_BAD)

/-! Readback -/

/-- CG_RB_CMD.RD (R305). -/
def State.readback (s : State) : State :=
  let x := s.rg R.CG_RB_SEL
  let f := F.CG_RB_SEL_FRAME.get x
  let w := F.CG_RB_SEL_WORD.get x
  let fin := fun (t : State) (st : Nat) => t.setRg R.CG_RB_CMD (w32 (2 + 4 * st))
  if 1 ≤ s.rdp ∧ ¬ s.rb R.SC_DBG_STAT F.SC_DBG_STAT_UNLOCKED then fin s 1
  else if 36000 ≤ f ∨ 80 ≤ w then fin s 2
  else if F.CG_RB_SEL_PLANE.bit x then fin (s.setRg R.CG_RB_DATA (s.fb.shadow.getD (80 * f + w) 0)) 0
  else
    let (s1, d, st) := s.readWord (memCfg + 320 * f + 4 * w) 1
    if st = 0 then fin (s1.setRg R.CG_RB_DATA (w32 (d / 2 ^ (32 * (w % 2))))) 0
    else fin ((s1.setRg R.CG_RB_DATA (Config.badWord s1.freeCtr)).tick) 0

/-- READBACK (R305). -/
def execReadback (s : State) : Host.Outcome State Fault Refusal := .next s.readback

end Sys2Proof.Machine
end

