-- ==== Sys2Proof/Machine/Octey.lean ====
section
/-! DEFINITION. The Octey's instructions (13_octey_control_core.md, R389–R407). A command is the instruction at the program
counter; its fetch is checked first. A core that is halted, waiting, or waiting for a response executes none. -/

namespace Sys2Proof.Machine

/-! Instruction words (Table CC-3), for TVAL -/

/-- Format R. -/
def octR (op fn : Nat) (rd ra rb : Reg) : Word := w32 (op * 2 ^ 26 + rd.val * 2 ^ 21 + ra.val * 2 ^ 16 + rb.val * 2 ^ 11 + fn)
/-- Formats I and S. -/
def octI (op : Nat) (rd ra : Reg) (imm : BitVec 16) : Word := w32 (op * 2 ^ 26 + rd.val * 2 ^ 21 + ra.val * 2 ^ 16 + imm.toNat)
/-- Format J. -/
def octJ (op : Nat) (off : BitVec 26) : Word := w32 (op * 2 ^ 26 + off.toNat)
/-- Format X. -/
def octX (sub : Nat) (rd ra : Reg) (arg : Nat) : Word :=
  w32 (0x3F * 2 ^ 26 + rd.val * 2 ^ 21 + ra.val * 2 ^ 16 + sub * 2 ^ 12 + arg)

/-! Memory -/

/-- The MPU's judgement of an access with permission bit `p` of MPU_LIMIT: 0 R, 1 W, 2 X (R399). -/
def State.mpuOk (s : State) (a : Word) (p : Nat) : Bool :=
  let hit := (List.range 16).find? (fun i =>
    let b := s.csr (0x100 + 2 * i)
    let l := s.csr (0x101 + 2 * i)
    wbit l 4 && decide (b.toNat / 64 ≤ a.toNat / 64) && decide (a.toNat / 64 ≤ l.toNat / 64))
  match hit with
  | some i => let l := s.csr (0x101 + 2 * i); wbit l p && (s.octPriv || wbit l 3)
  | none => s.octPriv

/-- Where a core address lies (Table CC-2). -/
inductive OctPlace where
  | core (a : Nat) | dev (off : Nat) | smb (off : Nat) | rom (off : Nat) | nowhere
deriving DecidableEq, Repr

/-- The place of a core address. -/
def octPlace (a : Word) : OctPlace :=
  let x := a.toNat
  if x < 0x80000 then .core x
  else if 0x40000000 ≤ x ∧ x < 0x41000000 then .dev (x - 0x40000000)
  else if 0x80000000 ≤ x ∧ x < 0x83000000 then .smb (x - 0x80000000)
  else if 0xFFF00000 ≤ x ∧ x < 0xFFF10000 then .rom (x - 0xFFF00000)
  else .nowhere

/-- A word of core memory read by the core: an error sets CC_EVT.MEM_UE (R405). -/
def State.coreRead (s : State) (a : Nat) : State × Nat × Nat :=
  let (s1, d, st) := s.readWord (memCore + a) 0
  if st = 0 then (s1, d, 0) else (s1.raiseF R.CC_EVT F.CC_EVT_MEM_UE, d, st)

/-- Bytes of one word of core memory written by the core (R404, R405). -/
def State.coreWrite (s : State) (a d en : Nat) : State × Nat :=
  let (s1, st) := s.writeWords 0 [(memCore + a, d, en)]
  if st = 0 then (s1, 0) else (s1.raiseF R.CC_EVT F.CC_EVT_MEM_UE, st)

/-- The fetch of the instruction at the program counter (R399, R405): the state with its trap where it is refused, and whether
the instruction comes. -/
def State.octFetch (s : State) : State × Bool :=
  let a := s.cc.pc
  if ¬ s.mpuOk a 2 then (s.octFault 7 a, false)
  else match octPlace a with
    | .core x =>
      let (s1, _, st) := s.coreRead x
      if st = 0 then (s1, true) else (s1.octBusErr st a, false)
    | .rom _ => (s, true)
    | _ => (s.octBusErr 6 a, false)

/-- One instruction of a running core: fetched, then executed. A core that a reset sequence holds executes none (R454). -/
def State.octRun (s : State) (f : State → State) : State :=
  if s.cc.halt ∨ s.cc.wait ∨ s.cc.bus.isSome ∨ s.blkHeld 19 then s
  else
    let (s1, ok) := s.octFetch
    if ok then f { s1 with cc := { s1.cc with boot := false } } else s1

/-- The partner ID of the core's requests (R400). -/
def State.octPid (s : State) : Nat :=
  if s.octPriv then s.rf R.CC_PID F.CC_PID_PRIV else s.rf R.CC_PID F.CC_PID_USER

/-- A request of the core sent: it waits for the response (R404). -/
def State.octSend (s : State) (b : CcBus) (p : Packet) : State :=
  ({ s with cc := { s.cc with bus := some b } } : State).request p

/-- A request to device registers; an offset from 0x6F_0000 on is answered at the core's own node (Table AM-2). -/
def State.octDev (s : State) (b : CcBus) (off : Nat) (wr : Option Word) : State :=
  let k := blockOf off
  if 24 ≤ k then s.octBusErr 6 b.addr
  else
    let cmd := if wr.isSome then 5 else 4
    let data := match wr with | some v => [BitVec.ofNat 256 v.toNat] | none => []
    let p := mkRequest (nodeIx 2 0) 0 (blockNode k) 1 0 cmd off 0 s.octPid data
    s.octSend b { p with be := 0xF }

/-- A request to stream memory: the 32-byte unit that holds the address. -/
def State.octSmb (s : State) (b : CcBus) (off : Nat) (wr : Option Word) : State :=
  let u := off / 32 * 32
  match wr with
  | none => s.octSend b { mkRequest (nodeIx 2 0) 0 (smbNode off) 0 0 1 u 0 s.octPid [] with len := 1 }
  | some v =>
    let d := v.toNat % 2 ^ (8 * b.size) * 2 ^ (8 * (off - u))
    s.octSend b { mkRequest (nodeIx 2 0) 0 (smbNode off) 0 0 2 u 0 s.octPid [BitVec.ofNat 256 d] with
                  be := BitVec.ofNat 32 ((2 ^ b.size - 1) * 2 ^ (off - u)) }

/-- A load (R404, R405, R407). -/
def State.octLoad (s : State) (size : Nat) (signed : Bool) (rd ra : Reg) (imm : BitVec 16) : State :=
  let a := s.octReg ra + imm.signExtend 32
  if a.toNat % size ≠ 0 then s.octFault 6 a
  else if ¬ s.mpuOk a 0 then s.octFault 8 a
  else match octPlace a with
    | .core x =>
      let (s1, d, st) := s.coreRead x
      if st = 0 then (s1.setOct rd (loadExt size signed (d / 2 ^ (8 * (x % 8))))).octNext else s1.octBusErr st a
    | .rom x => (s.setOct rd (loadExt size signed (ofBytesLE ((List.range size).map (fun i => Config.romByte (x + i)))))).octNext
    | .dev off =>
      if size = 4 then s.octDev { load := some rd, size := 4, signed := false, lo := 0, addr := a } off none else s.octBusErr 6 a
    | .smb off => s.octSmb { load := some rd, size := size, signed := signed, lo := off % 32, addr := a } off none
    | .nowhere => s.octBusErr 6 a

/-- A store (R404, R405, R407). -/
def State.octStore (s : State) (size : Nat) (rs ra : Reg) (imm : BitVec 16) : State :=
  let a := s.octReg ra + imm.signExtend 32
  let v := s.octReg rs
  if a.toNat % size ≠ 0 then s.octFault 6 a
  else if ¬ s.mpuOk a 1 then s.octFault 9 a
  else match octPlace a with
    | .core x =>
      let (s1, st) := s.coreWrite x (v.toNat % 2 ^ (8 * size) * 2 ^ (8 * (x % 8))) ((2 ^ size - 1) * 2 ^ (x % 8))
      if st = 0 then s1.octNext else s1.octBusErr st a
    | .dev off =>
      if size = 4 then s.octDev { load := none, size := 4, signed := false, lo := 0, addr := a } off (some v) else s.octBusErr 6 a
    | .smb off => s.octSmb { load := none, size := size, signed := false, lo := 0, addr := a } off (some v)
    | _ => s.octBusErr 6 a

/-! Arithmetic -/

/-- An instruction that writes rd from the operand values. -/
def State.octOp3 (s : State) (rd ra rb : Reg) (f : Word → Word → Word) : Host.Outcome State Fault Refusal :=
  .next (s.octRun (fun t => (t.setOct rd (f (t.octReg ra) (t.octReg rb))).octNext))
/-- An instruction that writes rd from one register and an immediate already extended. -/
def State.octOpI (s : State) (rd ra : Reg) (imm : Word) (f : Word → Word → Word) : Host.Outcome State Fault Refusal :=
  .next (s.octRun (fun t => (t.setOct rd (f (t.octReg ra) imm)).octNext))
/-- A shift by an immediate: IMM[15:5] must be 0 (Table CC-5, R406). -/
def State.octShI (s : State) (op : Nat) (rd ra : Reg) (imm : BitVec 16) (f : Word → Word → Word) : Host.Outcome State Fault Refusal :=
  .next (s.octRun (fun t =>
    if 32 ≤ imm.toNat then t.octFault 4 (octI op rd ra imm)
    else (t.setOct rd (f (t.octReg ra) (w32 imm.toNat))).octNext))

/-- A flag as a register value. -/
def flagWord (b : Bool) : Word := if b then 1 else 0
/-- Signed quotient: division by 0 gives all ones, −2^31 / −1 gives 0x8000_0000. -/
def octSdiv (a b : Word) : Word := if b = 0 then 0xFFFFFFFF else BitVec.ofInt 32 (Int.tdiv a.toInt b.toInt)
/-- Signed remainder: by 0 gives the dividend. -/
def octSrem (a b : Word) : Word := if b = 0 then a else BitVec.ofInt 32 (Int.tmod a.toInt b.toInt)
/-- Unsigned quotient: by 0 gives all ones. -/
def octUdiv (a b : Word) : Word := if b = 0 then 0xFFFFFFFF else a / b

/-- ADD, SUB, AND, OR, XOR, ANDN (Table CC-5). -/
def execOctAdd (rd ra rb : Reg) (s : State) : Host.Outcome State Fault Refusal := s.octOp3 rd ra rb (fun a b => a + b)
/-- SUB. -/
def execOctSub (rd ra rb : Reg) (s : State) : Host.Outcome State Fault Refusal := s.octOp3 rd ra rb (fun a b => a - b)
/-- AND. -/
def execOctAnd (rd ra rb : Reg) (s : State) : Host.Outcome State Fault Refusal := s.octOp3 rd ra rb (fun a b => a &&& b)
/-- OR. -/
def execOctOr (rd ra rb : Reg) (s : State) : Host.Outcome State Fault Refusal := s.octOp3 rd ra rb (fun a b => a ||| b)
/-- XOR. -/
def execOctXor (rd ra rb : Reg) (s : State) : Host.Outcome State Fault Refusal := s.octOp3 rd ra rb (fun a b => a ^^^ b)
/-- ANDN: ra and not rb. -/
def execOctAndn (rd ra rb : Reg) (s : State) : Host.Outcome State Fault Refusal := s.octOp3 rd ra rb (fun a b => a &&& ~~~b)
/-- SHL by rb[4:0]. -/
def execOctShl (rd ra rb : Reg) (s : State) : Host.Outcome State Fault Refusal := s.octOp3 rd ra rb (fun a b => a <<< (b.toNat % 32))
/-- SHR. -/
def execOctShr (rd ra rb : Reg) (s : State) : Host.Outcome State Fault Refusal := s.octOp3 rd ra rb (fun a b => a >>> (b.toNat % 32))
/-- SRA. -/
def execOctSra (rd ra rb : Reg) (s : State) : Host.Outcome State Fault Refusal := s.octOp3 rd ra rb (fun a b => a.sshiftRight (b.toNat % 32))
/-- SLT, signed. -/
def execOctSlt (rd ra rb : Reg) (s : State) : Host.Outcome State Fault Refusal := s.octOp3 rd ra rb (fun a b => flagWord (a.slt b))
/-- SLTU, unsigned. -/
def execOctSltu (rd ra rb : Reg) (s : State) : Host.Outcome State Fault Refusal := s.octOp3 rd ra rb (fun a b => flagWord (a.ult b))
/-- MIN, signed. -/
def execOctMin (rd ra rb : Reg) (s : State) : Host.Outcome State Fault Refusal := s.octOp3 rd ra rb (fun a b => if b.slt a then b else a)
/-- MAX, signed. -/
def execOctMax (rd ra rb : Reg) (s : State) : Host.Outcome State Fault Refusal := s.octOp3 rd ra rb (fun a b => if a.slt b then b else a)
/-- CLZ. -/
def execOctClz (rd ra : Reg) (s : State) : Host.Outcome State Fault Refusal := s.octOpI rd ra 0 (fun a _ => w32 (clz 32 a.toNat))
/-- POPC. -/
def execOctPopc (rd ra : Reg) (s : State) : Host.Outcome State Fault Refusal := s.octOpI rd ra 0 (fun a _ => w32 (popc 32 a.toNat))
/-- MUL: low 32 bits of the signed product. -/
def execOctMul (rd ra rb : Reg) (s : State) : Host.Outcome State Fault Refusal :=
  s.octOp3 rd ra rb (fun a b => BitVec.ofInt 32 (a.toInt * b.toInt))
/-- MULH: high 32 bits. -/
def execOctMulh (rd ra rb : Reg) (s : State) : Host.Outcome State Fault Refusal :=
  s.octOp3 rd ra rb (fun a b => BitVec.ofInt 32 (a.toInt * b.toInt / 2 ^ 32))
/-- DIV. -/
def execOctDiv (rd ra rb : Reg) (s : State) : Host.Outcome State Fault Refusal := s.octOp3 rd ra rb octSdiv
/-- DIVU. -/
def execOctDivu (rd ra rb : Reg) (s : State) : Host.Outcome State Fault Refusal := s.octOp3 rd ra rb octUdiv
/-- REM. -/
def execOctRem (rd ra rb : Reg) (s : State) : Host.Outcome State Fault Refusal := s.octOp3 rd ra rb octSrem
/-- ADDI: IMM sign-extended. -/
def execOctAddi (rd ra : Reg) (imm : BitVec 16) (s : State) : Host.Outcome State Fault Refusal :=
  s.octOpI rd ra (imm.signExtend 32) (fun a b => a + b)
/-- ANDI: IMM zero-extended. -/
def execOctAndi (rd ra : Reg) (imm : BitVec 16) (s : State) : Host.Outcome State Fault Refusal :=
  s.octOpI rd ra (imm.setWidth 32) (fun a b => a &&& b)
/-- ORI. -/
def execOctOri (rd ra : Reg) (imm : BitVec 16) (s : State) : Host.Outcome State Fault Refusal :=
  s.octOpI rd ra (imm.setWidth 32) (fun a b => a ||| b)
/-- XORI. -/
def execOctXori (rd ra : Reg) (imm : BitVec 16) (s : State) : Host.Outcome State Fault Refusal :=
  s.octOpI rd ra (imm.setWidth 32) (fun a b => a ^^^ b)
/-- SHLI. -/
def execOctShli (rd ra : Reg) (imm : BitVec 16) (s : State) : Host.Outcome State Fault Refusal :=
  s.octShI 5 rd ra imm (fun a b => a <<< b.toNat)
/-- SHRI. -/
def execOctShri (rd ra : Reg) (imm : BitVec 16) (s : State) : Host.Outcome State Fault Refusal :=
  s.octShI 6 rd ra imm (fun a b => a >>> b.toNat)
/-- SRAI. -/
def execOctSrai (rd ra : Reg) (imm : BitVec 16) (s : State) : Host.Outcome State Fault Refusal :=
  s.octShI 7 rd ra imm (fun a b => a.sshiftRight b.toNat)
/-- LUI: rd = IMM << 16. -/
def execOctLui (rd : Reg) (imm : BitVec 16) (s : State) : Host.Outcome State Fault Refusal :=
  .next (s.octRun (fun t => (t.setOct rd (imm.setWidth 32 <<< 16)).octNext))

/-! Loads and stores -/

/-- LDW. -/
def execOctLdw (rd ra : Reg) (imm : BitVec 16) (s : State) : Host.Outcome State Fault Refusal := .next (s.octRun (fun t => t.octLoad 4 false rd ra imm))
/-- LDH, sign-extended. -/
def execOctLdh (rd ra : Reg) (imm : BitVec 16) (s : State) : Host.Outcome State Fault Refusal := .next (s.octRun (fun t => t.octLoad 2 true rd ra imm))
/-- LDHU. -/
def execOctLdhu (rd ra : Reg) (imm : BitVec 16) (s : State) : Host.Outcome State Fault Refusal := .next (s.octRun (fun t => t.octLoad 2 false rd ra imm))
/-- LDB, sign-extended. -/
def execOctLdb (rd ra : Reg) (imm : BitVec 16) (s : State) : Host.Outcome State Fault Refusal := .next (s.octRun (fun t => t.octLoad 1 true rd ra imm))
/-- LDBU. -/
def execOctLdbu (rd ra : Reg) (imm : BitVec 16) (s : State) : Host.Outcome State Fault Refusal := .next (s.octRun (fun t => t.octLoad 1 false rd ra imm))

/-- SWAPW (Table CC-5): core memory only; it needs both R and W of the MPU (DEDUCED). -/
def execOctSwapw (rd ra : Reg) (imm : BitVec 16) (s : State) : Host.Outcome State Fault Refusal :=
  .next (s.octRun (fun t =>
    let a := t.octReg ra + imm.signExtend 32
    if a.toNat % 4 ≠ 0 then t.octFault 6 a
    else if ¬ t.mpuOk a 0 then t.octFault 8 a
    else if ¬ t.mpuOk a 1 then t.octFault 9 a
    else match octPlace a with
      | .core x =>
        let (t1, d, st) := t.coreRead x
        if st ≠ 0 then t1.octBusErr st a
        else
          let (t2, st2) := t1.coreWrite x ((t.octReg rd).toNat * 2 ^ (8 * (x % 8))) (15 * 2 ^ (x % 8))
          if st2 ≠ 0 then t2.octBusErr st2 a else (t2.setOct rd (loadExt 4 false (d / 2 ^ (8 * (x % 8))))).octNext
      | _ => t.octBusErr 6 a))

/-- STW. -/
def execOctStw (rb ra : Reg) (imm : BitVec 16) (s : State) : Host.Outcome State Fault Refusal := .next (s.octRun (fun t => t.octStore 4 rb ra imm))
/-- STH. -/
def execOctSth (rb ra : Reg) (imm : BitVec 16) (s : State) : Host.Outcome State Fault Refusal := .next (s.octRun (fun t => t.octStore 2 rb ra imm))
/-- STB. -/
def execOctStb (rb ra : Reg) (imm : BitVec 16) (s : State) : Host.Outcome State Fault Refusal := .next (s.octRun (fun t => t.octStore 1 rb ra imm))

/-! Branches, jumps, windows -/

/-- A branch: own address + 4 × OFF where the condition holds (R407). -/
def State.octBranch (s : State) (ra rb : Reg) (off : BitVec 16) (c : Word → Word → Bool) : Host.Outcome State Fault Refusal :=
  .next (s.octRun (fun t =>
    if c (t.octReg ra) (t.octReg rb) then t.setPc (t.cc.pc + (off.signExtend 32 <<< 2)) else t.octNext))

/-- BEQ. -/
def execOctBeq (ra rb : Reg) (off : BitVec 16) (s : State) : Host.Outcome State Fault Refusal := s.octBranch ra rb off (fun a b => a == b)
/-- BNE. -/
def execOctBne (ra rb : Reg) (off : BitVec 16) (s : State) : Host.Outcome State Fault Refusal := s.octBranch ra rb off (fun a b => a != b)
/-- BLT, signed. -/
def execOctBlt (ra rb : Reg) (off : BitVec 16) (s : State) : Host.Outcome State Fault Refusal := s.octBranch ra rb off (fun a b => a.slt b)
/-- BGE, signed. -/
def execOctBge (ra rb : Reg) (off : BitVec 16) (s : State) : Host.Outcome State Fault Refusal := s.octBranch ra rb off (fun a b => !a.slt b)
/-- BLTU. -/
def execOctBltu (ra rb : Reg) (off : BitVec 16) (s : State) : Host.Outcome State Fault Refusal := s.octBranch ra rb off (fun a b => a.ult b)
/-- BGEU. -/
def execOctBgeu (ra rb : Reg) (off : BitVec 16) (s : State) : Host.Outcome State Fault Refusal := s.octBranch ra rb off (fun a b => !a.ult b)

/-- JMP. -/
def execOctJmp (off : BitVec 26) (s : State) : Host.Outcome State Fault Refusal :=
  .next (s.octRun (fun t => t.setPc (t.cc.pc + (off.signExtend 32 <<< 2))))

/-- A call (R392) to a target: WOVF with 12 live frames, else the next window with the return address in its w15. -/
def State.octCall (s : State) (target : Word) : State :=
  let d := (s.csr 0x11).toNat
  if d = 12 then s.octFault 1 (s.csr 0x10)
  else
    let n := (s.cwp + 1) % 12
    let s1 := (s.setCsr 0x10 (w32 n)).setCsr 0x11 (w32 ((d + 1) % 16))
    (s1.setWinReg n 15 (s.cc.pc + 4)).setPc target

/-- CALLW (R392); ILLEGAL in the trap window. -/
def execOctCallw (off : BitVec 26) (s : State) : Host.Outcome State Fault Refusal :=
  .next (s.octRun (fun t =>
    if t.octTw then t.octFault 4 (octJ 0x29 off) else t.octCall (t.cc.pc + (off.signExtend 32 <<< 2))))

/-- JR: a target that is not a multiple of 4 raises ALIGN (Table CC-5). -/
def execOctJr (ra : Reg) (imm : BitVec 16) (s : State) : Host.Outcome State Fault Refusal :=
  .next (s.octRun (fun t =>
    let a := t.octReg ra + imm.signExtend 32
    if a.toNat % 4 ≠ 0 then t.octFault 6 a else t.setPc a))

/-- CALLWR: as CALLW, its target aligned as JR's (DEDUCED). -/
def execOctCallwr (ra : Reg) (imm : BitVec 16) (s : State) : Host.Outcome State Fault Refusal :=
  .next (s.octRun (fun t =>
    let a := t.octReg ra + imm.signExtend 32
    if t.octTw then t.octFault 4 (octI 0x2B 0 ra imm)
    else if a.toNat % 4 ≠ 0 then t.octFault 6 a else t.octCall a))

/-- RETW (R393). -/
def execOctRetw (s : State) : Host.Outcome State Fault Refusal :=
  .next (s.octRun (fun t =>
    let d := (t.csr 0x11).toNat
    if t.octTw then t.octFault 4 (octX 0 0 0 0)
    else if 2 ≤ d then
      ((t.setCsr 0x10 (w32 ((t.cwp + 11) % 12))).setCsr 0x11 (w32 (d - 1))).setPc (t.winReg t.cwp 15)
    else if t.csr 0x12 ≠ 0 then t.octFault 2 (t.csr 0x10) else t.octFault 3 (t.csr 0x10)))

/-! MAC unit -/

/-- An accumulator. -/
def State.macc (s : State) (k : Nat) : BitVec 72 := Tab.get (fun _ => 0) s.cc.macc k
def State.setMacc (s : State) (k : Nat) (v : BitVec 72) : State := { s with cc := { s.cc with macc := Tab.put (fun _ => 0) s.cc.macc k v } }

/-- MCTL as a write leaves it: an RSHIFT of 41–63 becomes 40 (Table CC-1). -/
def mctlFix (v : Nat) : Word := w32 ((if 40 < v % 64 then 40 else v % 64) + (v / 64 % 2) * 64)

/-- The 40 bytes of the MAC unit (R403). -/
def State.macSave (s : State) : Nat :=
  (List.range 4).foldl (fun a k => a + (s.macc k).toNat * 2 ^ (72 * k)) 0 + (s.csr 0x22).toNat * 2 ^ 288

/-- The switch to the running task's save area (R403): none where it fails. The state that comes back holds what was done. -/
def State.macSwitch (s : State) : State × Bool :=
  let area := (s.csr 0x20).toNat
  let own := (s.csr 0x21).toNat
  let bad := fun (a : Nat) => decide (a % 8 ≠ 0) || decide (0x80000 < a + 40)
  if area = own then (s, true)
  else if area = 0 ∨ bad area then (s, false)
  else
    let words := (List.range 5).map (fun i => 8 * i)
    let (s1, ok1) : State × Bool :=
      if own = 0 then (s, true)
      else if bad own then (s, false)
      else ((s.writeWords 0 (words.map (fun o => (memCore + own + o, s.macSave / 2 ^ (8 * o) % 2 ^ 64, 255)))).1, true)
    if ¬ ok1 then (s1, false)
    else
      let (s2, v, st) := words.foldl (fun (acc : State × Nat × Nat) o =>
        let (t, d, e) := acc.1.coreRead (area + o)
        (t, acc.2.1 + d * 2 ^ (8 * o), max acc.2.2 e)) (s1, 0, 0)
      if st ≠ 0 then (s2, false)
      else
        let s3 := (List.range 4).foldl (fun (t : State) k => t.setMacc k (BitVec.ofNat 72 (v / 2 ^ (72 * k)))) s2
        ((s3.setCsr 0x22 (mctlFix (v / 2 ^ 288))).setCsr 0x21 (s.csr 0x20), true)

/-- A MAC instruction (OP 0x30): ILLEGAL in the trap window, then the switch, then its work. -/
def State.octMacRun (s : State) (word : Word) (f : State → State) : Host.Outcome State Fault Refusal :=
  .next (s.octRun (fun t =>
    if t.octTw then t.octFault 4 word
    else
      let (t1, ok) := t.macSwitch
      if ok then (f t1).octNext else t1.octFault 11 (t1.csr 0x20)))

/-- An accumulator number in a register field. -/
def accReg (a : Fin 4) : Reg := ⟨a.val, by omega⟩

/-- MAC: a signed 64-bit product extended to 72 bits, added. -/
def execOctMac (acc : Fin 4) (ra rb : Reg) (s : State) : Host.Outcome State Fault Refusal :=
  s.octMacRun (octR 0x30 0 (accReg acc) ra rb) (fun t =>
    t.setMacc acc (t.macc acc + BitVec.ofInt 72 ((t.octReg ra).toInt * (t.octReg rb).toInt)))
/-- MACU: unsigned. -/
def execOctMacu (acc : Fin 4) (ra rb : Reg) (s : State) : Host.Outcome State Fault Refusal :=
  s.octMacRun (octR 0x30 1 (accReg acc) ra rb) (fun t =>
    t.setMacc acc (t.macc acc + BitVec.ofNat 72 ((t.octReg ra).toNat * (t.octReg rb).toNat)))
/-- MAC2: signed products of the low and of the high halves. -/
def execOctMac2 (acc : Fin 4) (ra rb : Reg) (s : State) : Host.Outcome State Fault Refusal :=
  s.octMacRun (octR 0x30 2 (accReg acc) ra rb) (fun t =>
    let a := (t.octReg ra).toNat
    let b := (t.octReg rb).toNat
    t.setMacc acc (t.macc acc + BitVec.ofInt 72 (sext 16 a * sext 16 b + sext 16 (a / 2 ^ 16) * sext 16 (b / 2 ^ 16))))
/-- MACRD: rounded, shifted, saturated where SAT is 1. -/
def execOctMacrd (rd : Reg) (acc : Fin 4) (s : State) : Host.Outcome State Fault Refusal :=
  s.octMacRun (octR 0x30 3 rd (accReg acc) 0) (fun t =>
    let k := (t.csr 0x22).toNat % 64
    let v := ((t.macc acc).toInt + (if k = 0 then 0 else (2 ^ (k - 1) : Nat))) / (2 ^ k : Nat)
    t.setOct rd (BitVec.ofInt 32 (if wbit (t.csr 0x22) 6 then satS 32 v else v)))
/-- MACLD: rb above ra, bits 71–64 the sign of rb. -/
def execOctMacld (acc : Fin 4) (ra rb : Reg) (s : State) : Host.Outcome State Fault Refusal :=
  s.octMacRun (octR 0x30 4 (accReg acc) ra rb) (fun t =>
    t.setMacc acc (BitVec.ofInt 72 ((t.octReg rb).toInt * 2 ^ 32 + (t.octReg ra).toNat)))
/-- MACCLR. -/
def execOctMacclr (acc : Fin 4) (s : State) : Host.Outcome State Fault Refusal :=
  s.octMacRun (octR 0x30 5 (accReg acc) 0 0) (fun t => t.setMacc acc 0)

/-! Traps, interrupts, control and status registers -/

/-- TEXIT (R396): in T only. -/
def execOctTexit (s : State) : Host.Outcome State Fault Refusal :=
  .next (s.octRun (fun t =>
    let w := octX 1 0 0 0
    if ¬ t.octTw then t.octFault 4 w
    else if ¬ t.octPriv then t.octFault 5 w
    else (t.setCsr 0 (t.csr 1)).setPc (t.csr 2)))

/-- TRAP: cause 12, TPC at the next instruction. -/
def execOctTrap (arg : BitVec 12) (s : State) : Host.Outcome State Fault Refusal :=
  .next (s.octRun (fun t => t.octTrap 12 0 (t.cc.pc + 4) (w32 arg.toNat)))

/-- BRK: cause 13, or a halt where CC_CFG.BRK_HALT is 1. -/
def execOctBrk (s : State) : Host.Outcome State Fault Refusal :=
  .next (s.octRun (fun t =>
    if t.rb R.CC_CFG F.CC_CFG_BRK_HALT then t.octNext.octHalt else t.octTrap 13 0 (t.cc.pc + 4) 0))

/-- WAIT (R402): fetching stops until an enabled line is pending. -/
def execOctWait (s : State) : Host.Outcome State Fault Refusal :=
  .next (s.octRun (fun t =>
    if ¬ t.octPriv then t.octFault 5 (octX 4 0 0 0)
    else let u := t.octNext; { u with cc := { u.cc with wait := true } }))

/-- CYCLE: CCLK since the core's last start (800 MHz against YCLK's 500 MHz). -/
def State.octCycle (s : State) : Nat := 8 * (s.now - s.cc.start) / 5

/-- Is interrupt line k pending (R401)? -/
def State.irqPend (s : State) (k : Nat) : Bool :=
  if k = 0 then decide ((s.csr 0x44).toNat + 2 ^ 32 * (s.csr 0x45).toNat ≤ s.octCycle)
  else if k = 1 then s.rb R.CC_MBOX_STAT F.CC_MBOX_STAT_H2C_FULL
  else s.rb (R.CC_IRQ_SEL k) F.CC_IRQ_SEL_EN && s.srcPending (s.rf (R.CC_IRQ_SEL k) F.CC_IRQ_SEL_SOURCE)

/-- The lowest line that is pending and enabled (R402). -/
def State.irqDue (s : State) : Option Nat := (List.range 32).find? (fun k => s.irqPend k && wbit (s.csr 0x30) k)

/-- CSRs that may be named (Table CC-1), and those that may be written. -/
def csrKnown (n : Nat) : Bool :=
  n ≤ 5 || (0x10 ≤ n && n ≤ 0x14) || (0x20 ≤ n && n ≤ 0x22) || n == 0x30 || n == 0x31 || (0x40 ≤ n && n ≤ 0x42)
    || n == 0x44 || n == 0x45 || (0x100 ≤ n && n < 0x120)
/-- Read-only CSRs. -/
def csrRo (n : Nat) : Bool := n == 3 || n == 4 || n == 0x10 || n == 0x31 || n == 0x40 || n == 0x41 || n == 0x42

/-- What a read of a CSR answers, and its effect: CYCLE_LO latches CYCLE_HI. A number that Table CC-1 does not list answers a
free value. -/
def State.csrRead (s : State) (n : Nat) : State × Word :=
  if n = 0x40 then (s.setCsr 0x41 (w32 (s.octCycle / 2 ^ 32)), w32 s.octCycle)
  else if n = 0x42 then (s, w32 s.now)
  else if n = 0x31 then (s, w32 ((List.range 32).foldl (fun a k => a + b2n (s.irqPend k) * 2 ^ k) 0))
  else if csrKnown n then (s, s.csr n)
  else (s.tick, Config.csrValue s.freeCtr)

/-- The value that a write of a CSR stores (Table CC-1): reserved bits are discarded. -/
def csrStore (n : Nat) (old v : Word) : Word :=
  let x := v.toNat
  if n = 0 then w32 (x % 4 + old.toNat / 4 % 2 * 4)
  else if n = 1 then w32 (x % 8)
  else if n = 5 then w32 (x / 512 * 512)
  else if n = 0x11 then w32 (x % 16)
  else if n = 0x13 then w32 (x / 64 * 64)
  else if n = 0x14 then w32 (x % 16)
  else if n = 0x22 then mctlFix x
  else if 0x100 ≤ n ∧ n % 2 = 0 then w32 (x / 64 * 64)
  else if 0x100 ≤ n then w32 (andNot x 0x20)
  else v

/-- RDCR (R391): user mode reads only CYCLE and YTIME. -/
def execOctRdcr (rd : Reg) (arg : BitVec 12) (s : State) : Host.Outcome State Fault Refusal :=
  .next (s.octRun (fun t =>
    let n := arg.toNat
    if ¬ t.octPriv ∧ ¬ (0x40 ≤ n ∧ n ≤ 0x42) then t.octFault 5 (octX 5 rd 0 n)
    else let (u, v) := t.csrRead n; (u.setOct rd v).octNext))

/-- WRCR (R391): privileged, and to a CSR that is not read-only. -/
def execOctWrcr (arg : BitVec 12) (ra : Reg) (s : State) : Host.Outcome State Fault Refusal :=
  .next (s.octRun (fun t =>
    let n := arg.toNat
    if ¬ t.octPriv ∨ csrRo n then t.octFault 5 (octX 6 0 ra n)
    else if csrKnown n then (t.setCsr n (csrStore n (t.csr n) (t.octReg ra))).octNext
    else t.octNext))

/-- XRD (R395). -/
def execOctXrd (rd : Reg) (n : Fin 16) (s : State) : Host.Outcome State Fault Refusal :=
  .next (s.octRun (fun t =>
    let w := (t.csr 0x14).toNat
    if 13 ≤ w then t.octFault 4 (octX 7 rd 0 n.val)
    else if ¬ t.octPriv then t.octFault 5 (octX 7 rd 0 n.val)
    else (t.setOct rd (t.winReg w n.val)).octNext))

/-- XWR (R395). -/
def execOctXwr (n : Fin 16) (ra : Reg) (s : State) : Host.Outcome State Fault Refusal :=
  .next (s.octRun (fun t =>
    let w := (t.csr 0x14).toNat
    if 13 ≤ w then t.octFault 4 (octX 8 0 ra n.val)
    else if ¬ t.octPriv then t.octFault 5 (octX 8 0 ra n.val)
    else (t.setWinReg w n.val (t.octReg ra)).octNext))

/-- INTERRUPT_TAKE (R402): between instructions, in a rotating window with IE 1, the lowest line that is pending and enabled is
taken; a WAIT ends with IE 0 too. -/
def execInterruptTake (s : State) : Host.Outcome State Fault Refusal :=
  .next (if s.cc.halt ∨ s.cc.bus.isSome ∨ s.blkHeld 19 then s
    else match s.irqDue with
      | none => s
      | some k =>
        let s1 : State := { s with cc := { s.cc with wait := false } }
        if s1.octIe ∧ ¬ s1.octTw then s1.octTrap (32 + k) 0 s1.cc.pc (w32 k) else s1)

/-- CYCLE_REACHES_TMRCMP (R401, R402): line 0 becomes pending; a WAIT for it ends. -/
def execCycleReachesTmrcmp (s : State) : Host.Outcome State Fault Refusal :=
  .next (if s.irqPend 0 ∧ wbit (s.csr 0x30) 0 ∧ s.cc.wait ∧ ¬ s.cc.halt ∧ ¬ s.octIe then
      { s with cc := { s.cc with wait := false } } else s)

/-- CC_HALT (R414): after the current instruction. -/
def execCcHalt (s : State) : Host.Outcome State Fault Refusal := .next (if s.cc.halt then s else s.octHalt)

/-- CC_RUN (R397, R414): a halted core resumes; no effect after a double trap. -/
def execCcRun (s : State) : Host.Outcome State Fault Refusal :=
  .next (if s.cc.dt then s else { s with cc := { s.cc with halt := false } })

/-- CC_STAT as it reads: HALT, DT, PRIV, TW and WAITING beside START and RT. -/
def State.ccStat (s : State) : Word :=
  w32 (andNot (s.rg R.CC_STAT).toNat 31 + b2n s.cc.halt + 2 * b2n s.cc.dt + 4 * b2n s.octPriv + 8 * b2n s.octTw + 16 * b2n s.cc.wait)

end Sys2Proof.Machine
end

