-- ==== Sys2Proof/Machine/Starter.lean ====
section
/-! DEFINITION. The CC block beside the core's instructions (13_octey_control_core.md, R397, R408–R414): the Starter, the core watchdog,
the mailboxes and the core's block reset. -/

namespace Sys2Proof.Machine

/-! Block reset and double trap -/

/-- CC_BLK_RST (R413): registers of the block and of the core; core memory stays. -/
def State.ccBlkRst (s : State) : State := (s.clearRegs .block 0x680000 0x6A0000).startCore 3

/-- CC_BLK_RST. -/
def execCcBlkRst (s : State) : Host.Outcome State Fault Refusal :=
  .next (s.blkRst 19 s.ccBlkRst)

/-- DOUBLE_TRAP_RESET (R397): with DT_RST the Run reset that follows a double trap. -/
def execDoubleTrapReset (s : State) : Host.Outcome State Fault Refusal :=
  .next (if s.cc.dt ∧ s.rb R.CC_CFG F.CC_CFG_DT_RST then s.resetRequest 20 0 false else s)

/-! Watchdog -/

/-- The limit of the core watchdog in YCLK: units of 100 µs (R411). -/
def State.ccLimit (s : State) : Nat := 50000 * s.rf R.CC_WDT_CFG F.CC_WDT_CFG_LIMIT
/-- What it has left. -/
def State.ccLeft (s : State) : Nat := s.cc.wdt.count s.ccLimit s.now

/-- A write of CC_WDT_CFG (R411): EN only sets, and PAUSE moves only for code fetched from the Starter ROM. -/
def State.ccWdtWrite (s : State) (v : Word) (rom : Bool) : State :=
  let c := R.CC_WDT_CFG
  let was := s.rb c F.CC_WDT_CFG_EN
  let pa := s.rb c F.CC_WDT_CFG_PAUSE
  let p1 := if rom then F.CC_WDT_CFG_PAUSE.bit v else pa
  let en := was || F.CC_WDT_CFG_EN.bit v
  let s1 := s.setRg c (w32 (b2n en + 2 * b2n p1 + 0x10000 * F.CC_WDT_CFG_LIMIT.get v))
  let w := if en ∧ ¬ was then { at_ := s.now, left := if pa then some s1.ccLimit else none } else s.cc.wdt
  { s1 with cc := { s1.cc with wdt := if p1 ≠ pa then w.pause p1 s1.ccLimit s.now else w } }

/-- CC_WDT_KICK (R411). -/
def State.ccKick (s : State) (v : Word) : State :=
  if F.CC_WDT_KICK_KEY.get v = 0x5A5A then { s with cc := { s.cc with wdt := s.cc.wdt.kick s.ccLimit s.now } } else s
/-- CC_WDT_KICK. -/
def execCcWdtKick (v : Word) (s : State) : Host.Outcome State Fault Refusal := .next (s.ccKick v)

/-- Does the core watchdog count? -/
def State.ccCounts (s : State) : Bool := s.rb R.CC_WDT_CFG F.CC_WDT_CFG_EN && !s.rb R.CC_WDT_CFG F.CC_WDT_CFG_PAUSE

/-- CC_WDT_WARN (R411): half the limit is left. -/
def execCcWdtWarn (s : State) : Host.Outcome State Fault Refusal :=
  .next (if s.ccCounts ∧ 2 * s.ccLeft ≤ s.ccLimit then s.raiseF R.CC_EVT F.CC_EVT_WDT_WARN else s)

/-- CC_WDT_EXPIRY (R411). -/
def execCcWdtExpiry (s : State) : Host.Outcome State Fault Refusal :=
  .next (if s.ccCounts ∧ s.ccLeft = 0 then s.resetRequest 17 0 false else s)

/-! Mailboxes (R412) -/

/-- A write into a box: ignored and LOST where it is full. -/
def State.mboxWrite (s : State) (a : Nat) (full : Fld) (v : Word) : State :=
  if s.rb R.CC_MBOX_STAT full then s.setRb R.CC_MBOX_STAT F.CC_MBOX_STAT_LOST true
  else (s.setRg a v).setRb R.CC_MBOX_STAT full true

/-- A write of CC_MBOX_C2H: CC_EVT.MBOX too, where the word is stored. -/
def State.c2hWrite (s : State) (v : Word) : State :=
  let s1 := s.mboxWrite R.CC_MBOX_C2H F.CC_MBOX_STAT_C2H_FULL v
  if s.rb R.CC_MBOX_STAT F.CC_MBOX_STAT_C2H_FULL then s1 else s1.raiseF R.CC_EVT F.CC_EVT_MBOX

/-- A read of a box by its reader: its word, and the box is empty. -/
def State.mboxRead (s : State) (a : Nat) (full : Fld) : State × Word := (s.setRb R.CC_MBOX_STAT full false, s.rg a)

/-- MBOX_H2C_WRITE. -/
def execMboxH2cWrite (v : Word) (s : State) : Host.Outcome State Fault Refusal :=
  .next (s.mboxWrite R.CC_MBOX_H2C F.CC_MBOX_STAT_H2C_FULL v)
/-- MBOX_H2C_READ. -/
def execMboxH2cRead (s : State) : Host.Outcome State Fault Refusal :=
  let (s1, v) := s.mboxRead R.CC_MBOX_H2C F.CC_MBOX_STAT_H2C_FULL
  .next (s1.emit (.readBack R.CC_MBOX_H2C v))
/-- MBOX_C2H_WRITE. -/
def execMboxC2hWrite (v : Word) (s : State) : Host.Outcome State Fault Refusal := .next (s.c2hWrite v)
/-- MBOX_C2H_READ. -/
def execMboxC2hRead (s : State) : Host.Outcome State Fault Refusal :=
  let (s1, v) := s.mboxRead R.CC_MBOX_C2H F.CC_MBOX_STAT_C2H_FULL
  .next (s1.emit (.readBack R.CC_MBOX_C2H v))

/-! The Starter -/

/-- Step 1 with an open lowering (R326, R327): both watchdogs pause and the erase starts at sector 0; an erase that already runs goes
on. -/
def State.lowerStart (s : State) : State :=
  let c := s.rg R.CC_WDT_CFG
  let r := s.rg R.RS_WDT_CFG
  let s1 := s.ccWdtWrite (F.CC_WDT_CFG_PAUSE.put (F.CC_WDT_CFG_EN.put c 0) 1) true
  let s2 := s1.rsWdtWrite (F.RS_WDT_CFG_PAUSE.put (F.RS_WDT_CFG_EN.put r 0) 1) true
  if s2.fl.run.isSome ∨ ¬ s2.fl.recs.isEmpty ∨ s2.ot.run.isSome then s2 else s2.lowerNext 0

/-- A trim page copied (Table TR-1). -/
def State.trimPut (s : State) (l : List Byte) : State :=
  let s1 := [(R.YK_TDC_SCALE, 0x8, 2), (R.CF_TAP_CAL, 0xA, 2), (R.TR_TSENS, 0xC, 4), (R.TR_VSENS, 0x10, 4), (R.TR_VIN, 0x14, 4)].foldl
    (fun (t : State) e => t.store e.1 (w32 (ofBytesLE ((l.drop e.2.1).take e.2.2)))) s
  let s2 := s1.each (List.range 128) (fun n t =>
    (t.store (R.YK_CUFF_ADJ n) (w32 (l.getD (0x20 + n) 0).toNat)).store (R.CF_OUT_ADJ n) (w32 (l.getD (0xA0 + n) 0).toNat))
  s2.each (List.range 16) (fun k t =>
    (t.store (R.TR_SERDES_LO k) (w32 (ofBytesLE ((l.drop (0x120 + 8 * k)).take 4)))).store
      (R.TR_SERDES_HI k) (w32 (ofBytesLE ((l.drop (0x124 + 8 * k)).take 4))))

/-- Step 2 (R331): the highest slot that is neither erased nor killed; never a lower one. -/
def State.trimCopy (s : State) : State :=
  let none_ := fun (t : State) => ((t.setRb R.TR_STAT F.TR_STAT_UNTRIMMED true).setRb R.YK_STATUS F.YK_STATUS_UNTRIMMED true).setRb
    R.GL_STAT F.GL_STAT_UNTRIMMED true
  match (List.range 16).reverse.find? (fun k => !s.trimErased k && !s.trimKilled k) with
  | none => none_ s
  | some k =>
    let (s1, l, ok) := s.flRead (0x3FE0000 + 0x400 * k) 0x3E0
    if ok && trimOk l then
      ((s1.trimPut l).setRf R.TR_STAT F.TR_STAT_SLOT k).setRf R.TR_STAT F.TR_STAT_SOURCE (l.getD 6 0).toNat
    else none_ s1

/-- A register of the map image, by its word (R346): SC offsets 0x1000–0x139F. -/
def mapReg (i : Nat) : Nat := 0x561000 + 4 * i

/-- The map image as bytes, of a register reading. -/
def mapBytes (f : Nat → Word) : List Byte := (List.range 232).flatMap (fun i => bytesLE 4 (f (mapReg i)).toNat)

/-- The staged map made live, with its digest (R346). -/
def State.mapLive (s : State) : State :=
  let dig := hashBytes (Config.sha384 (mapBytes s.rg))
  let live := (List.range 232).foldl (fun t i => Tab.put fwDefault t (mapReg i) (s.rg (mapReg i))) ([] : Tab Word)
  ({ s with sc := { s.sc with live := live } } : State).each (List.range 12) (fun k t =>
    t.setRg (R.SC_FW_DIG k) (w32 (ofBytesLE (sliceB dig (4 * k) 4))))

/-- Does a policy record hold (R347)? -/
def policyOk (l : List Byte) : Bool :=
  ofBytesLE (l.take 4) == 0x4C505651 && ofBytesLE ((l.drop 1020).take 4) == crc32c (l.take 1020)

/-- The first offset of a policy slot, 0–11. -/
def policyAt (k : Nat) : Nat := 0x3FE5000 + 0x400 * k

/-- The valid record with the highest SEQ among the 12 slots. -/
def State.policyRead (s : State) : State × Option (Nat × List Byte) :=
  (List.range 12).foldl (fun (q : State × Option (Nat × List Byte)) k =>
    let (t, l, ok) := q.1.flRead (policyAt k) 1024
    let n := ofBytesLE ((l.drop 4).take 4)
    if ok && policyOk l && (match q.2 with | some (m, _) => decide (m < n) | none => true) then (t, some (n, l)) else (t, q.2)) (s, none)

/-- Step 3 (R346): the staged map and the ICP policy from the record, then the map live; without one, the map of R346 that gives
partition 0 every block. -/
def State.policyLoad (s : State) : State :=
  let (s1, r) := s.policyRead
  match r with
  | some (_, l) =>
    let s2 := s1.each (List.range 232) (fun i t => t.store (mapReg i) (w32 (ofBytesLE ((l.drop (12 + 4 * i)).take 4))))
    s2.mapLive.setRb R.CG_ICP_POLICY F.CG_ICP_POLICY_SIGNED (wbit (w32 (ofBytesLE ((l.drop 8).take 4))) 0)
  | none =>
    let s2 := s1.each (List.range 232) (fun i t => t.store (mapReg i) (fwDefault (mapReg i)))
    s2.mapLive.setRb R.CG_ICP_POLICY F.CG_ICP_POLICY_SIGNED true

/-- A record put in its place by sequence count. -/
def seqInsert (l : List Byte) : List (List Byte) → List (List Byte)
  | [] => [l]
  | m :: r => if ofBytesLE ((m.drop 4).take 4) ≤ ofBytesLE ((l.drop 4).take 4) then m :: seqInsert l r else l :: m :: r

/-- One valid record of the repair log applied (R333): the flag says that it was, and not skipped. -/
def State.logApply (s : State) (l : List Byte) : State × Bool :=
  let kind := ofBytesLE (l.take 2)
  let n := ofBytesLE ((l.drop 8).take 2)
  let row := ofBytesLE ((l.drop 10).take 2)
  if kind = 1 then
    if s.sm.repairs.any (fun r => r.bank == n && r.row == row) ∨ 2 ≤ (s.repairsOf n .soft).length ∨ 96 ≤ n ∨ 4096 ≤ row then (s, false)
    else match s.freeSpare n with
      | some i => ((s.repairStart { bank := n, row := row, spare := i, kind := .soft, back := false }).repairDone, true)
      | none => (s, false)
  else if kind = 2 then
    let old := s.rg R.AR_COLMAP
    let v := if F.AR_COLMAP_V0.bit old then F.AR_COLMAP_V1.put (F.AR_COLMAP_FAIL1.put old n) 1
      else F.AR_COLMAP_V0.put (F.AR_COLMAP_FAIL0.put old n) 1
    if 2 ≤ (colMarks old).length ∨ 50 ≤ n ∨ colMapBad old v then (s, false)
    else
      let s1 := s.store R.AR_COLMAP v
      (s1.setRf R.FT_STAT F.FT_STAT_GUSSET_FREE (2 - (colMarks v).length), true)
  else (s, false)

/-- Step 5 (R333): the log in sequence order, and its counts. -/
def State.logRun (s : State) : State :=
  let (s1, rs) := s.flRecords logBase 2048
  let good := (rs.filter (fun e => e.2 && recOk e.1)).foldl (fun o e => seqInsert e.1 o) []
  let (s2, a, k) := good.foldl (fun (q : State × Nat × Nat) l =>
    let (t, ok) := q.1.logApply l
    if ok then (t, q.2.1 + 1, q.2.2) else (t, q.2.1, q.2.2 + 1)) (s1, 0, 0)
  let bad := rs.length - good.length
  ((s2.setRf R.FL_LOG_STAT F.FL_LOG_STAT_APPLIED (satN 255 a)).setRf R.FL_LOG_STAT F.FL_LOG_STAT_BAD (satN 63 bad)).setRf R.FL_LOG_STAT
    F.FL_LOG_STAT_SKIP (satN 63 k)

/-- The runtime image's signatures (R410, R335–R338): none where both verify, else a Table CG-4 code. -/
def State.rtSig (s : State) (img : List Byte) : Option Nat :=
  let msg := img.take 0x1000
  match s.keyIndex img with
  | none => some 3
  | some _ =>
    if ¬ Config.rsaVerify (sliceB img 0x1000 388) msg (sliceB img 0x1200 384) then some 4
    else if ¬ Config.slhVerify (sliceB img 0x1380 48) msg (sliceB img 0x13B0 16224) then some 5 else none

/-- The core executes WAIT with IE 0. -/
def State.ccIdle (s : State) : State := { s with cc := { s.cc with boot := false, wait := true } }

/-- The core goes on at an address (R410). -/
def State.ccGo (s : State) (a : Nat) : State := { s with cc := { s.cc with boot := false, pc := w32 a } }

/-- The runtime image failed (R410): it is not tried again. -/
def State.rtFail (s : State) (code : Nat) : State :=
  (((s.setRf R.CC_BOOT F.CC_BOOT_RT_CODE code).setRf R.CC_STAT F.CC_STAT_RT 2).raiseF R.CC_EVT F.CC_EVT_RT_FAIL).ccIdle

/-- The runtime image (R410, Table CC-7): header, both signatures, the code copied to LOAD and its hash. -/
def State.rtLoad (s : State) : State :=
  let (s1, h, ok) := s.flRead 0x3200000 0x6000
  let len := fieldB h 0xC 4
  let ld := fieldB h 0x10 4
  let en := fieldB h 0x14 4
  if ¬ ok then s1.rtFail 8
  else if fieldB h 0 4 ≠ 0x54525651 ∨ fieldB h 4 2 ≠ 1 then s1.rtFail 1
  else if len % 8 ≠ 0 ∨ 458752 < len ∨ ld % 8 ≠ 0 ∨ 0x80000 < ld + len ∨ 0x80000 ≤ ld ∨ 0x80000 ≤ en then s1.rtFail 9
  else match s1.rtSig h with
    | some c => s1.rtFail c
    | none =>
      let (s2, code, ok2) := s1.flRead 0x3206000 len
      if ¬ ok2 then s2.rtFail 8
      else
        let s3 := s2.each (List.range (len / 8)) (fun i t => t.storeWord (memCore + ld + 8 * i) (ofBytesLE (sliceB code (8 * i) 8)))
        if hashBytes (Config.sha384 code) != sliceB h 0x20 48 then s3.rtFail 6
        else (s3.setRf R.CC_STAT F.CC_STAT_RT 1).ccGo en

/-- Step 7 (R408, R410). -/
def State.rtStart (s : State) (kind : Nat) : State :=
  if ¬ s.qvMode then s.ccIdle
  else
    let r := (s.rg R.CC_RESTART).toNat
    if 2 ≤ kind ∧ r ≠ 0 then s.ccGo r else s.rtLoad

/-- STARTER_START (R408–R410): the steps of Table CC-6 for the start. A Run or Block start before CFG_GO begins at step 1, with the
steps of the Cold or Warm start that it cuts short: step 5 where the sequence under way is Cold. -/
def execStarterStart (s : State) : Host.Outcome State Fault Refusal :=
  let kind := s.rf R.CC_STAT F.CC_STAT_START
  let cold := kind == 0 || (decide (2 ≤ kind) && (match s.rs.seq with | some q => q.reach == 0 | none => false))
  .next (if ¬ s.cc.boot ∨ s.blkHeld 19 then s
    else if kind < 2 ∨ ¬ s.rb R.CC_BOOT F.CC_BOOT_CFG_GO then
      let (s1, open_) := s.lowerOpen
      if open_ then s1.lowerStart
      else
        let s2 := (s1.trimCopy.policyLoad).setRb R.CC_BOOT F.CC_BOOT_CFG_GO true
        let s3 := if cold then s2.logRun else s2
        (s3.setRb R.CC_BOOT F.CC_BOOT_ARRAY_GO true).rtStart kind
    else s.rtStart kind)

end Sys2Proof.Machine
end

