-- ==== Sys2Proof/Machine/Ft.lean ====
section
/-! DEFINITION. The fault unit's commands (14_fault_containment.md, R415–R439): detections, recoveries, checkpoints, groups. -/

namespace Sys2Proof.Machine

/-! Groups -/

/-- An enabled group that is protected (R416): Single or Paired. -/
def State.grpOn (s : State) (g : Nat) : Bool :=
  s.rb (R.FT_GRP_CFG g) F.FT_GRP_CFG_EN && s.rf (R.FT_GRP_CFG g) F.FT_GRP_CFG_MODE != 0

/-- The protected group of a tile. -/
def State.guard (s : State) (t : Nat) : Option Nat := (s.tileGroup t).filter (fun g => s.grpOn g)

/-- The protected groups with a tile for which `p` holds. -/
def State.grpsWith (s : State) (p : Nat → Bool) : List Nat :=
  (List.range 32).filter (fun g => s.grpOn g && (tilesOf (s.grpMask g)).any p)

/-- The protected groups with a tile in a logical column. -/
def State.colGroups (s : State) (l : Nat) : List Nat := s.grpsWith (fun t => t % 12 == l / 4)

/-- The logical column that a physical column serves (R89). -/
def State.logCol (s : State) (p : Nat) : Option Nat := (List.range 48).find? (fun l => s.colsInUse.getD l 50 == p)

/-- The SMB-resident queue that feeds a tile port lane (Table SQ-6). -/
def State.feedQ (s : State) (lane : Nat) : Option Nat :=
  s.enabledQs.find? (fun q => F.SQ_Q_BIND_CONS_KIND.get (s.rg (R.SQ_Q_BIND q)) == 2 && F.SQ_Q_BIND_CONS_ID.get (s.rg (R.SQ_Q_BIND q)) == lane)

/-- Does a protected group use a bank: for its Lining, its mirror, or the replay window of a lane (R422, R423, R433)? -/
def State.bankGroup (s : State) (b : Nat) : Option Nat :=
  match s.guard b with
  | some g => some g
  | none => (List.range 32).find? (fun g => s.grpOn g &&
      ((s.rb (R.FT_GRP_CFG g) F.FT_GRP_CFG_MIRROR && s.rb (R.FT_GRP_CFG g) F.FT_GRP_CFG_SPARE_V && s.rf (R.FT_GRP_CFG g) F.FT_GRP_CFG_SPARE == b)
        || (tilesOf (s.grpMask g)).any (fun t => (List.range 4).any (fun j =>
          match s.feedQ (4 * t + j) with
          | some q => s.rf (R.SQ_Q_BASE q) F.SQ_Q_BASE_BASE / 128 == b
          | none => false))))

/-! Elements (Table FT-1, FT_LOG_LOC) -/

/-- The protected group that an element concerns. -/
def State.elemGroup (s : State) (e : Nat × Nat) : Option Nat :=
  match e.1 with
  | 1 => match s.logCol (e.2 % 64) with
    | some l => match s.guard (12 * (e.2 / 256 % 32 / 4) + l / 4) with
      | some g => some g
      | none => (s.colGroups l).head?
    | none => none
  | 2 => s.bankGroup (e.2 / 4096 % 128)
  | 4 => if 12 ≤ e.2 ∧ e.2 < 108 then s.guard (e.2 - 12) else none
  | _ => none

/-- Does the test of an element freeze the Array (R427, R433)? -/
def State.elemFreezes (s : State) (det : Nat) (e : Nat × Nat) : Bool := e.1 == 1 || (e.1 != 3 && det != 5 && (s.elemGroup e).isSome)

/-- The same element: rows of one column are one. -/
def sameElem (a b : Nat × Nat) : Bool := a.1 == b.1 && (if a.1 = 1 then a.2 % 64 == b.2 % 64 else a.2 == b.2)

/-- FT_STAT as the recovery stands. -/
def State.ftShow (s : State) : State :=
  let q := s.ft.queue.length
  let s1 := s.setRf R.FT_STAT F.FT_STAT_QUEUED q
  match s.ft.run with
  | none => ((s1.setRf R.FT_STAT F.FT_STAT_STATE 0).setRf R.FT_STAT F.FT_STAT_GROUP 0).setRb R.FT_STAT F.FT_STAT_GROUP_V false
  | some r => ((s1.setRf R.FT_STAT F.FT_STAT_STATE r.step).setRf R.FT_STAT F.FT_STAT_GROUP (r.grp.getD 0)).setRb R.FT_STAT F.FT_STAT_GROUP_V
      r.grp.isSome

/-- The recovery under way replaced. -/
def State.setRun (s : State) (r : Option Recovery) : State := ({ s with ft := { s.ft with run := r } } : State).ftShow

/-! FT_LOG -/

/-- An entry written into the lowest free place (R428): CLASS, RESULT and group beside the element; none where the log is full. -/
def State.ftLog (s : State) (det : Nat) (code loc cls res : Nat) (g : Option Nat) (rep time : Nat) : State × Option Nat :=
  match (List.range 64).find? (fun e => !s.rb (R.FT_LOG_CTL e) F.FT_LOG_CTL_VALID) with
  | none => (s.raiseF R.FT_EVT F.FT_EVT_LOG_FULL, none)
  | some e =>
    let c := 1 + 2 * cls + 16 * det + 256 * code + 4096 * res + 65536 * g.getD 0 + 2 ^ 21 * b2n g.isSome + 2 ^ 22 * satN 255 rep
    ((((s.setRg (R.FT_LOG_CTL e) (w32 c)).setRg (R.FT_LOG_LOC e) (w32 loc)).setRg (R.FT_LOG_TIME e) (w32 time)).setRg (R.FT_LOG_REC e) 0,
      some e)

/-- Every element of a detection logged without a test (CLASS 3). -/
def State.ftOnlyLog (s : State) (f : FaultRec) (res : Nat → Nat) (rep : Nat) : State :=
  f.elems.foldl (fun t e =>
    let g := t.elemGroup e
    (t.ftLog f.det e.1 e.2 3 (res (b2n g.isSome)) g rep f.time).1) s

/-! Starting -/

/-- The checkpoint in flight of a group discarded (R422, Table FT-7). -/
def State.ckptDiscard (s : State) (g : Nat) : State :=
  if (s.grp g).flight.isSome then
    (s.setGrp g { s.grp g with flight := none, more := 0 }).setRb (R.FT_GRP_STAT g) F.FT_GRP_STAT_BUSY false
  else s

/-- The groups that a recovery restores or discards checkpoints of. -/
def State.runGroups (s : State) (r : Recovery) : List Nat :=
  (List.range 32).filter (fun g => r.grp == some g || r.els.any (fun e =>
    e.code == 1 && (match s.logCol (e.loc % 64) with | some l => (s.colGroups l).contains g | none => false)) ||
    r.cols.any (fun c => (s.colGroups c.1).contains g))

/-- The elements of a detection as a recovery holds them. -/
def FaultRec.els (f : FaultRec) (rep : Nat) : List FtElem :=
  f.elems.map (fun e => { code := e.1, loc := e.2, det := f.det, time := f.time, cls := 0, rep := rep, log := none })

/-- An SMB row to be tested is placed under TEMP (R239, R428), after a copy that runs; where no spare row is free, or the bank holds a TEMP repair,
it is tested where it is. -/
def State.rowTemp (s : State) (loc : Nat) : State :=
  let b := loc / 4096 % 128
  let t := s.repairDone
  match t.freeSpare b with
  | some i =>
    if 96 ≤ b ∨ ¬ (t.repairsOf b .temp).isEmpty then t
    else (t.repairStart { bank := b, row := loc % 4096, spare := i, kind := .temp, back := false }).repairDone
  | none => t

/-- The SMB rows among elements placed under TEMP. -/
def State.rowTemps (s : State) (l : List FtElem) : State :=
  (l.filter (fun e => e.code == 2)).foldl (fun t e => t.rowTemp e.loc) s

/-- A recovery, or a test alone, begun for a detection (R427, R433): DETECT and FREEZE are behind it, TEST runs. -/
def State.ftStart (s : State) (f : FaultRec) (rep : Nat) : State :=
  let r : Recovery := { grp := (f.elems.filterMap (fun e => s.elemGroup e)).head?, els := f.els rep, step := 3, t0 := f.time,
                        freeze := f.elems.any (fun e => s.elemFreezes f.det e), cols := [], cannot := false }
  let s1 := s.setRun (some r)
  let s2 := s1.each (s1.runGroups r) (fun g t => t.ckptDiscard g)
  (if r.freeze then s2.frozenShow else s2).rowTemps r.els

/-- A further detection of an element that a recovery holds (Table FT-7): REPEAT. -/
def State.ftRepeat (s : State) (r : Recovery) (f : FaultRec) : State :=
  let hit := fun (e : FtElem) => f.elems.any (fun x => sameElem x (e.code, e.loc))
  let s1 := r.els.foldl (fun t e => match e.log with
    | some k => if hit e then t.bump (R.FT_LOG_CTL k) F.FT_LOG_CTL_REPEAT 1 else t
    | none => t) s
  s1.setRun (some { r with els := r.els.map (fun e => if hit e then { e with rep := e.rep + 1 } else e) })

/-- The groups that a detection concerns: what it finds of their checkpoints in flight is discarded (R422, Table FT-7). -/
def State.detGroups (s : State) (f : FaultRec) : List Nat :=
  s.runGroups { grp := (f.elems.filterMap (fun e => s.elemGroup e)).head?, els := f.els 0, step := 3, t0 := f.time, freeze := false, cols := [],
                cannot := false }

/-- DETECTION (R415, R427, R433, R438): the oldest fault record reaches the fault unit. -/
def execDetection (s : State) : Host.Outcome State Fault Refusal :=
  .next (match s.faults with
    | [] => s
    | f :: rest =>
      let s1 := ({ s with faults := rest } : State).raiseF R.FT_EVT F.FT_EVT_DETECT
      if f.elems.isEmpty then s1
      else if ¬ s1.rb R.FT_CTRL F.FT_CTRL_EN then s1.ftOnlyLog f (fun v => 2 + v) 0
      else match s1.ft.run with
        | none => s1.ftStart f 0
        | some r =>
          let known := f.elems.all (fun x => r.els.any (fun e => sameElem x (e.code, e.loc)))
          let g := (f.elems.filterMap (fun e => s1.elemGroup e)).head?
          if known then s1.ftRepeat r f
          else if r.freeze ∧ g.isSome ∧ (g == r.grp) then
            let new := (f.els 0).filter (fun x => !r.els.any (fun e => sameElem (x.code, x.loc) (e.code, e.loc)))
            let r1 : Recovery := { r with els := r.els ++ new, step := 3 }
            let s2 := s1.setRun (some r1)
            ((s2.each (s2.runGroups r1) (fun k t => t.ckptDiscard k)).frozenShow).rowTemps new
          else
            let s2 := s1.each (s1.detGroups f) (fun k t => t.ckptDiscard k)
            if s2.ft.queue.any (fun e => f.elems.all (fun x => e.1.elems.any (fun y => sameElem x y))) then
              { s2 with ft := { s2.ft with queue := s2.ft.queue.map (fun e =>
                  if f.elems.all (fun x => e.1.elems.any (fun y => sameElem x y)) then (e.1, e.2 + 1) else e) } }
            else if 8 ≤ s2.ft.queue.length then s2.ftOnlyLog f (fun _ => 3) 0
            else ({ s2 with ft := { s2.ft with queue := s2.ft.queue ++ [(f, 0)] } } : State).ftShow)

/-! TEST and REMAP -/

/-- A record appended to the flash repair log by the fault unit (R428, Table FL-7). -/
def State.ftAppend (s : State) (kind n row : Nat) : State :=
  if ¬ s.rb R.FT_CTRL F.FT_CTRL_LOG_APPEND then s
  else match s.firstErased logBase 2048 with
    | none => s.raiseF R.FT_EVT F.FT_EVT_LOG_FULL
    | some o =>
      let (s1, rs) := s.flRecords logBase 2048
      (s1.flProgUnit o (withCrc (bytesLE 2 kind ++ [0, 0] ++ bytesLE 4 (lastSeq rs + 1) ++ bytesLE 2 n ++ bytesLE 2 row
        ++ List.replicate 16 0))).flCounts

/-- Entries of a table moved: those of [src, src + n) replace those of [dst, dst + n). -/
def Tab.moved {α : Type} [DecidableEq α] (d : Nat → α) (t : Tab α) (src dst n : Nat) : Tab α :=
  let got := t.filter (fun e => decide (src ≤ e.1) && decide (e.1 < src + n))
  got.foldl (fun u e => Tab.put d u (e.1 - src + dst) e.2) (t.filter (fun e => !(decide (dst ≤ e.1) && decide (e.1 < dst + n))))

/-- A range of memory copied with its codewords; a corrected word arrives corrected, an uncorrectable one as poison (R429). -/
def State.memMove (s : State) (src dst n : Nat) : State :=
  let bad := (s.syn.map (fun (e : Nat × BitVec 8) => e.1)).filter (fun w => decide (src ≤ 8 * w) && decide (8 * w < src + n))
  let s1 : State := { s with mem := Tab.moved memDefault s.mem src dst n, syn := Tab.moved synDefault s.syn (src / 8) (dst / 8) (n / 8) }
  bad.foldl (fun t w => match s.classAt (8 * w) with
    | .good => t
    | .corrected _ => t.storeWord (8 * w - src + dst) (s.fixedAt (8 * w))
    | _ => t.storePoison (8 * w - src + dst)) s1

/-- A physical column copied to another (R429): Pleat store, local memory, register state of its 32 PEs. -/
def State.copyCol (s : State) (src dst : Nat) : State :=
  let s1 := (s.memMove (memLM + 0x40000 * src) (memLM + 0x40000 * dst) 0x40000).memMove (memPleat + 0x4000 * src) (memPleat + 0x4000 * dst) 0x4000
  let gone := s1.arr.aborted.filter (fun a => !(decide (512 * dst ≤ a) && decide (a < 512 * (dst + 1))))
  let new := (s1.arr.aborted.filter (fun a => decide (512 * src ≤ a) && decide (a < 512 * (src + 1)))).map (fun a => a - 512 * src + 512 * dst)
  { s1 with arr := { s1.arr with
      pes := Tab.moved (fun _ => Pe.idle) s1.arr.pes (32 * src) (32 * dst) 32
      privs := Tab.moved (fun _ => Priv.zero) s1.arr.privs (512 * src) (512 * dst) 512
      aborted := gone ++ new } }

/-- REMAP (R429): a lasting column written into AR_COLMAP, and the columns whose logical position moves copied; the flag says that a Gusset
was free. -/
def State.remap (s : State) (p : Nat) : State × Bool :=
  let old := s.rg R.AR_COLMAP
  if (colMarks old).contains p then (s, true)
  else if 2 ≤ (colMarks old).length then (s.raiseF R.FT_EVT F.FT_EVT_NO_GUSSET, false)
  else
    let v := if F.AR_COLMAP_V0.bit old then F.AR_COLMAP_V1.put (F.AR_COLMAP_FAIL1.put old p) 1
      else F.AR_COLMAP_V0.put (F.AR_COLMAP_FAIL0.put old p) 1
    let was := s.colsInUse
    let s1 := (s.store R.AR_COLMAP v).setRf R.FT_STAT F.FT_STAT_GUSSET_FREE (2 - (colMarks v).length)
    let now := s1.colsInUse
    (((List.range 48).reverse.filter (fun l => was.getD l 0 != now.getD l 0)).foldl (fun t l => t.copyCol (was.getD l 0) (now.getD l 0)) s1, true)

/-- The express output registers that unprotected PEs of a logical column write (Table FT-5). -/
def State.colExpress (s : State) (l : Nat) : List Nat :=
  ((List.range 32).flatMap (fun r =>
    let i := peIx l r
    let p := (s.pe i).act
    if (s.guard (peTile i)).isSome ∨ ¬ s.validAt i p then []
    else (s.dests i (s.pleat i p)).filterMap (fun d => match d with | .xret k => some k | _ => none))).eraseDups

/-- A column classed (R428–R430, Table FT-5): UNPROT and EXPRESS; a lasting one is remapped. -/
def State.colClass (s : State) (r : Recovery) (e : FtElem) (fail : Bool) : State × Recovery :=
  let p := e.loc % 64
  match s.logCol p with
  | none => if fail then ((s.remap p).1.ftAppend 2 p 0, r) else (s, r)
  | some l =>
    let bare := (List.range 8).any (fun y => (s.guard (12 * y + l / 4)).isNone)
    let s1 := if bare then s.raiseF R.FT_EVT F.FT_EVT_UNPROT else s
    if ¬ fail then (s1, { r with cols := r.cols ++ [(l, false)] })
    else
      let s2 := (s1.colExpress l).foldl (fun t k => ((t.ftLog e.det 5 k 3 2 none 0 e.time).1).raiseF R.FT_EVT F.FT_EVT_EXPRESS) s1
      let (s3, ok) := s2.remap p
      (s3.ftAppend 2 p 0, { r with cols := r.cols ++ [(l, true)], cannot := r.cannot || !ok })

/-- An SMB row classed (R239, R428): one that passes is released, and its spare row returns to the pool; a lasting one is made SOFT, while the bank
holds fewer than two, and put into the repair log. -/
def State.rowClass (s : State) (loc : Nat) (fail : Bool) : State :=
  let b := loc / 4096 % 128
  let row := loc % 4096
  let t := s.repairDone
  match t.tempOf b row with
  | none => t
  | some k =>
    if ¬ fail then (t.repairStart { bank := b, row := row, spare := k.spare, kind := .temp, back := true }).repairDone
    else if 2 ≤ (t.repairsOf b .soft).length then t
    else (t.tempSoft k).ftAppend 1 b row

/-- One element classed and logged (R428, R433): a link by whether it is up, every other by its test. -/
def State.elemClass (s : State) (r : Recovery) (e : FtElem) (fail : Bool) : State × Recovery × FtElem :=
  let bad := if e.code = 3 then !s.linkUp (e.loc % 128) (e.loc / 256 % 4) else fail
  let g := s.elemGroup (e.code, e.loc)
  let cls := if bad then 2 else 1
  let (s1, k) := s.ftLog e.det e.code e.loc cls (if g.isSome then 0 else 2) g e.rep e.time
  let s2 := s1.raiseF R.FT_EVT (if bad then F.FT_EVT_LASTING else F.FT_EVT_TRANSIENT)
  let (s3, r1) := match e.code with
    | 1 => s2.colClass r e bad
    | 2 => (s2.rowClass e.loc bad, r)
    | 4 => if bad ∧ e.det ≠ 5 then (s2.loseNode e.loc, r) else (s2, r)
    | _ => (s2, r)
  (s3, r1, { e with cls := cls, log := k })

/-- The detection that waits longest is handled next (R438); a domain command that waited for the end of the recovery goes on (R447). -/
def State.ftNext (s : State) : State :=
  match s.ft.queue with
  | [] => s.domResume
  | (f, n) :: q => ({ s with ft := { s.ft with queue := q } } : State).ftStart f n

/-- RECOVERY_TEST_DONE (R428, R429): the elements not yet tested pass or fail, bit k of `fails` for the k-th of them; lasting
columns are remapped. A second lasting element ends the work (R434). -/
def execRecoveryTestDone (fails : BitVec 64) (s : State) : Host.Outcome State Fault Refusal :=
  .next (match s.ft.run with
    | none => s
    | some r =>
      if r.step ≠ 3 then s
      else
        let (s1, r1, els, _) := r.els.foldl (fun (q : State × Recovery × List FtElem × Nat) e =>
          if e.cls ≠ 0 then (q.1, q.2.1, q.2.2.1 ++ [e], q.2.2.2)
          else
            let (t, ra, ea) := q.1.elemClass q.2.1 e (fails.toNat.testBit q.2.2.2)
            (t, ra, q.2.2.1 ++ [ea], q.2.2.2 + 1)) (s, r, [], 0)
        let lasting := (els.filter (fun e => e.cls == 2 && (e.code == 1 || e.code == 4))).length
        let r2 : Recovery := { r1 with els := els, step := 5, cannot := r1.cannot || decide (2 ≤ lasting) }
        if r.freeze then s1.setRun (some r2) else (s1.setRun none).ftNext)

/-! TRANSFER -/

/-- The place in SMB of a PE's Lining record in a bank (R422). -/
def State.recordAt (s : State) (g bank i half : Nat) : Nat :=
  0x80000 * bank + 4096 * s.rf (R.FT_GRP_CFG g) F.FT_GRP_CFG_LIN_BASE + 10240 * half + 640 * (4 * (peRow i % 4) + peCol i % 4)

/-- The private state that a record's bytes give to Pleat p (Table FT-2). -/
def privOf (l : List Byte) (p : Nat) : Priv :=
  let w := fun (o n : Nat) => ofBytesLE ((l.drop o).take n)
  let b := 32 + 34 * p
  let x := w (576 + 4 * p) 4
  let it := x / 0x20000 % 2048
  { p0 := w32 (w b 4), p1 := w32 (w (b + 4) 4), p2 := w32 (w (b + 8) 4), p3 := w32 (w (b + 12) 4),
    acc0 := BitVec.ofNat 72 (w (b + 16) 9), acc1 := BitVec.ofNat 72 (w (b + 25) 9), fl := PeFlags.ofWord (w32 (x % 64)),
    ptr := x / 64 % 2048, dec := if it.testBit 4 then some (it % 16) else none, turn := if it.testBit 4 then 0 else it % 16,
    mSide := if it.testBit 5 then some (it.testBit 6) else none, mLast := it.testBit 7, latch := it.testBit 8, dup := none, edge := none }

/-- A PE's state put back: shared registers and private state; its FIFOs empty. -/
def State.putPe (s : State) (i act : Nat) (l : List Byte) : State :=
  let x : Pe := { Pe.idle with s := (List.range 8).map (fun k => w32 (ofBytesLE ((l.drop (4 * k)).take 4))), act := act }
  (s.setPe i x).each (List.range 16) (fun p t => t.setPriv i p (privOf l p))

/-- The records of a group's PEs read from a half of its Lining, each from the bank that `bank` names for its tile; the flag says
that every word was good. -/
def State.readLining (s : State) (g half : Nat) (bank : Nat → Nat) (pes : List Nat) : State × List (Nat × List Byte) × Bool :=
  pes.foldl (fun (q : State × List (Nat × List Byte) × Bool) i =>
    let a := q.1.recordAt g (bank (peTile i)) i half
    let (t, l, st) := q.1.readWords 0 ((List.range 80).map (fun k => q.1.smbPlace (a + 8 * k)))
    (t, q.2.1 ++ [(i, l.flatMap (bytesLE 8))], q.2.2 && st == 0)) (s, [], true)

/-- The items that begin in a run of tokens. -/
def itemsIn : Bool → List Token → Nat
  | _, [] => 0
  | mid, t :: r => if t.fold then itemsIn mid r else b2n (!mid) + itemsIn (!t.last) r

/-- A replay window presented again at an inbound port (R423, R431): a lane's by the queue engine that feeds it, a fabric port's by the user
logic after REWIND, with the recorded FOLD tokens at their places. -/
def State.rewind (s : State) (q : Nat) : State :=
  let k := s.qu q
  let clean : Queue := { k with ents := [], held := [], pend := [], items := 0, prodMid := false, consMid := false, kept := [], keptOld := 0 }
  if q < 1160 then
    let n := (k.kept.filter (fun t => !t.fold)).length
    (s.setQu q { clean with replay := k.kept.dropWhile (fun t => t.fold), pend := k.kept.takeWhile (fun t => t.fold) }).emit (.fabric 2 q n)
  else match s.feedQ (q - 1160) with
    | none => s.setQu q { clean with ents := k.kept }
    | some f =>
      let s1 := s.setQu q clean
      let x := s1.qu f
      let ents := k.kept ++ x.ents
      let s2 := s1.setQu f { x with ents := ents, items := itemsIn false ents, consMid := false }
      if s2.rb (R.SQ_Q_CFG f) F.SQ_Q_CFG_GATED then
        s2.setRf (R.SQ_Q_KICK f) F.SQ_Q_KICK_CREDIT (s2.rf (R.SQ_Q_KICK f) F.SQ_Q_KICK_CREDIT + (k.kept.filter (fun t => t.last && !t.fold)).length)
      else s2

/-- The inbound ports of a group (R423). -/
def State.groupPorts (s : State) (g : Nat) : List Nat :=
  ((List.range 64).map (· + 1024) ++ (List.range 384).map (· + 1160)).filter (fun q =>
    s.tileGroup (portTile q) == some g && (!(s.qu q).kept.isEmpty || !(s.qu q).ents.isEmpty || !(s.qu q).held.isEmpty || !(s.qu q).pend.isEmpty))

/-- The wavefronts recorded since the current Lining put in flight again for the group's PEs (R423, R431): each takes the slot that
it still has, or a free one; past the free slots none. FOLD tokens of the replay windows name the slots given. -/
def State.rewaves (s : State) (g : Nat) : State :=
  let mine := fun (i : Nat) => s.tileGroup (peTile i) == some g
  (s.grp g).waves.foldl (fun t k =>
    let todo := (s.maskPes k.req.mask).filter mine
    match t.arr.slots.find? (fun x => x.seq == k.seq && x.req.trig != 5) with
    | some x => t.putSlot { x with todo := x.todo.filter (fun i => !mine i) ++ todo, replay := true }
    | none => match (List.range 16).find? (fun n => !t.arr.slots.any (fun x => x.id == n)) with
      | none => t
      | some n =>
        let ren := fun (q : Queue) => { q with kept := q.kept.map (fun u =>
          if u.fold ∧ u.data.toNat / 256 % 4096 = k.seq then { u with data := w32 (u.data.toNat - u.data.toNat % 16 + n) } else u) }
        { t with
          arr := { t.arr with slots := t.arr.slots ++ [{ k with id := n, todo := todo, t0 := t.now, stuck := false, replay := true }] }
          qs := Tab.mapKeep (fun _ => Queue.empty) (fun _ q => ren q) t.qs }) s

/-- Checkpoint tokens and slots of a group taken out. -/
def State.dropCkpt (s : State) (g : Nat) : State :=
  (s.arr.slots.filter (fun k => k.req.trig == 5 && k.req.grp == g)).foldl (fun t k =>
    let t1 := t.freeSlot k.id
    { t1 with
      arr := { t1.arr with pes := Tab.mapKeep (fun _ => Pe.idle) (fun _ x => x.dropSlot k.id) t1.arr.pes
                           sw := t1.arr.sw.filter (fun w => !(w.req.trig == 5 && w.req.grp == g)) }
      qs := Tab.mapKeep (fun _ => Queue.empty) (fun _ x => x.dropSlot k.id) t1.qs }) s

/-- A group's work cannot continue (R434): its streams end PARTIAL with code FAULT, it holds until CLEAR. -/
def State.ftFail (s : State) (g : Nat) : State :=
  let lanes := (tilesOf (s.grpMask g)).flatMap (fun t => (List.range 4).map (fun j => 4 * t + j))
  let qs := s.enabledQs.filter (fun q =>
    let b := s.rg (R.SQ_Q_BIND q)
    (F.SQ_Q_BIND_CONS_KIND.get b == 2 && lanes.contains (F.SQ_Q_BIND_CONS_ID.get b))
      || (F.SQ_Q_BIND_PROD_KIND.get b == 2 && lanes.contains (F.SQ_Q_BIND_PROD_ID.get b)))
  let s1 := qs.foldl (fun t q => t.endStreams q 9) s
  (s1.setRb (R.FT_GRP_STAT g) F.FT_GRP_STAT_FAILED true).raiseF R.FT_EVT F.FT_EVT_PARTIAL

/-- The exits of a group (R424): lanes and fabric ports, and the express output registers that its PEs write. -/
def State.allExits (s : State) (g : Nat) : List Nat :=
  s.groupExits g ++ (((s.maskPes (s.grpMask g)).flatMap (fun i =>
    let p := (s.pe i).act
    if s.validAt i p then (s.dests i (s.pleat i p)).filterMap (fun d => match d with | .xret k => some (448 + k) | _ => none) else [])).eraseDups)

/-- A group restored from its current Lining, with its entries rewound and its exits suppressing (R430, R431). `bank` names the bank of each
tile's records, `pes` the PEs, `act` a Pleat that every PE then takes. -/
def State.restore (s : State) (g : Nat) (recs : List (Nat × List Byte)) (act : Option Nat) : State :=
  let k := s.grp g
  let s1 := recs.foldl (fun t e =>
    let a := match act with | some p => p | none => ((k.act.find? (fun x => x.1 == e.1)).map (fun x => x.2)).getD (t.pe e.1).act
    let t1 := t.putPe e.1 a e.2
    if t1.tilePaired (peTile e.1) then t1.putPe (e.1 + 1) a e.2 else t1) s
  let pes := recs.map (fun e => e.1)
  let s2 : State := { s1 with arr := { s1.arr with genReqs := s1.arr.genReqs.filter (fun q => !pes.contains q.pe) } }
  let s3 := (s2.dropCkpt g).rewaves g
  let s4 := s3.each (s3.groupPorts g) (fun q t => t.rewind q)
  s4.each (s4.allExits g) (fun e t =>
    let x := t.exit e
    t.setExit e { x with sup := (x.cnt + 2 ^ 28 - x.cur) % 2 ^ 28, new := none })

/-- A group restored from its Lining, or it cannot continue (R430, R434). -/
def State.restoreGroup (s : State) (g : Nat) : State × Bool :=
  if ¬ s.rb (R.FT_GRP_STAT g) F.FT_GRP_STAT_CKPT_V then (s, false)
  else
    let (s1, recs, ok) := s.readLining g (s.rf (R.FT_GRP_STAT g) F.FT_GRP_STAT_CKPT % 2) (fun t => t) (s.maskPes (s.grpMask g))
    if ok then (s1.restore g recs none, true) else (s1, false)

/-- The columns of a pair copied from the side that stands (R430): private state, shared registers, local memory. -/
def State.pairCopy (s : State) (g src dst : Nat) : State :=
  ((List.range 32).filter (fun r => s.tileGroup (peTile (peIx dst r)) == some g)).foldl (fun t r =>
    let a := peIx src r
    let b := peIx dst r
    let t1 := t.setPe b (t.pe a)
    let t2 := t1.each (List.range 16) (fun p u => u.setPriv b p (u.priv a p))
    t2.memMove (memLM + 0x2000 * t2.phys a) (memLM + 0x2000 * t2.phys b) 0x2000) s

/-- The side of a pair of logical columns to restore (R430): the one lasting side, else the one side named. -/
def pairSide (cols : List (Nat × Bool)) (l : Nat) : Option Nat :=
  let p := l / 2 * 2
  let bad := fun (c : Nat) => cols.any (fun e => e.1 == c && e.2)
  let named := fun (c : Nat) => cols.any (fun e => e.1 == c)
  if bad p != bad (p + 1) then some (if bad p then p else p + 1)
  else if bad p then none
  else if named p != named (p + 1) then some (if named p then p else p + 1) else none

/-- One group of a recovery at the end of TRANSFER: the flag says that its work goes on. -/
def State.groupTransfer (s : State) (r : Recovery) (g : Nat) : State × Bool :=
  let cols := r.cols.filter (fun c => (s.colGroups c.1).contains g)
  if r.cannot ∨ s.rb (R.FT_GRP_STAT g) F.FT_GRP_STAT_OPEN then (s, false)
  else if cols.isEmpty then (s, true)
  else if s.rf (R.FT_GRP_CFG g) F.FT_GRP_CFG_MODE = 2 ∧ cols.all (fun c => (pairSide r.cols c.1).isSome) then
    ((cols.filterMap (fun c => pairSide r.cols c.1)).eraseDups.foldl (fun t l => t.pairCopy g (if l % 2 = 0 then l + 1 else l - 1) l) s, true)
  else s.restoreGroup g

/-- A group whose node is lost moves to its spare tile (R435), or cannot continue. -/
def State.nodeMove (s : State) (g node : Nat) : State × Bool :=
  let c := R.FT_GRP_CFG g
  let t := node - 12
  let sp := s.rf c F.FT_GRP_CFG_SPARE
  let fb := s.rf (R.FT_GRP_FB g) F.FT_GRP_FB_FALLBACK
  if s.rb (R.FT_GRP_STAT g) F.FT_GRP_STAT_OPEN ∨ ¬ s.rb c F.FT_GRP_CFG_SPARE_V ∨ ¬ s.rb c F.FT_GRP_CFG_MIRROR
      ∨ ¬ s.rb (R.FT_GRP_STAT g) F.FT_GRP_STAT_CKPT_V then (s, false)
  else
    let half := s.rf (R.FT_GRP_STAT g) F.FT_GRP_STAT_CKPT % 2
    let pes := (s.maskPes (s.grpMask g)).filter (fun i => peTile i != t)
    let (s1, recs, ok) := s.readLining g half (fun x => x) pes
    let (s2, mir, ok2) := s1.readLining g half (fun _ => sp) (s.tilePes t)
    if ok && ok2 then
      let moved := mir.map (fun e => (e.1 - 16 * t + 16 * sp, e.2))
      ((s2.restore g (recs ++ moved) (some fb)).raiseF R.FT_EVT F.FT_EVT_NODE_MOVED, true)
    else (s2, false)

/-- TRANSFER_DONE (R430, R431, R434, R435): every group concerned is restored or fails; the Array is released. -/
def execTransferDone (s : State) : Host.Outcome State Fault Refusal :=
  .next (match s.ft.run with
    | none => s
    | some r =>
      if r.step ≠ 5 then s
      else
        let s := s.smbSettle
        let lost := r.els.find? (fun e => e.code == 4 && e.cls == 2 && e.det != 5)
        let (s1, bad) := (s.runGroups r).foldl (fun (q : State × List Nat) g =>
          let (t, ok) := match lost with
            | some e => if 12 ≤ e.loc ∧ e.loc < 108 ∧ s.guard (e.loc - 12) = some g ∧ ¬ r.cannot then q.1.nodeMove g e.loc else q.1.groupTransfer r g
            | none => q.1.groupTransfer r g
          if ok then (t, q.2) else (t.ftFail g, q.2 ++ [g])) (s, [])
        let s2 := if bad.isEmpty then s1 else (r.els.filterMap (fun e => e.log)).foldl (fun t k => t.setRf (R.FT_LOG_CTL k) F.FT_LOG_CTL_RESULT 1) s1
        (s2.setRun (some { r with step := 6 })).frozenShow)

/-- REPLAY_DONE (R431, R432): every backlog has drained to live input. -/
def execReplayDone (s : State) : Host.Outcome State Fault Refusal :=
  .next (match s.ft.run with
    | none => s
    | some r =>
      if r.step ≠ 6 then s
      else
        let n := satN (2 ^ 32 - 1) (2 * (s.now - r.t0))
        let gs := s.runGroups r
        let s1 := (s.setRg R.FT_REC_TIME (w32 n)).setRg R.FT_REC_MAX (w32 (max n (s.rg R.FT_REC_MAX).toNat))
        let s2 := s1.raise R.FT_GRP_PEND (gs.foldl (fun x g => x + 2 ^ g) 0)
        let s3 := s2.each gs (fun g t => t.bump (R.FT_GRP_STAT g) F.FT_GRP_STAT_RECOVERIES 1)
        let s4 := (r.els.filterMap (fun e => e.log)).foldl (fun t k => t.setRg (R.FT_LOG_REC k) (w32 n)) s3
        let s5 := s4.raiseF R.FT_EVT F.FT_EVT_RECOVERED
        let s6 := if 10000 < s.now - r.t0 then s5.raiseF R.FT_EVT F.FT_EVT_OVERRUN else s5
        (s6.setRun none).frozenShow.ftNext)

/-! Checkpoints -/

/-- CHECKPOINT_INTERVAL (R420, Table FT-7): INTERVAL µs after the previous issue, and after a recovery. -/
def execCheckpointInterval (g : Fin 32) (s : State) : Host.Outcome State Fault Refusal :=
  let c := R.FT_GRP_CFG g
  let n := s.rf c F.FT_GRP_CFG_INTERVAL
  .next (if s.rb c F.FT_GRP_CFG_EN ∧ n ≠ 0 ∧ (s.grp g).lastAt + 500 * n ≤ s.now ∧ s.ft.run.isNone then s.ckptIssue g else s)

/-- CKPT (R420): a write of FT_GRP_CMD[g].CKPT; during a recovery the checkpoint follows it. -/
def execFtCkpt (g : Fin 32) (s : State) : Host.Outcome State Fault Refusal :=
  .next (if s.rb (R.FT_GRP_CFG g) F.FT_GRP_CFG_EN then s.ckptIssue g else s)

/-- A checkpoint complete (R422–R425): its half is the current Lining, the windows go on from its token, the group is closed. -/
def State.ckptDone (s : State) (g : Nat) (c : CkFlight) : State :=
  let k := s.grp g
  let st := R.FT_GRP_STAT g
  let s1 := s.setGrp g { k with num := (k.num + 1) % 4096, act := c.act, waves := k.waves.drop k.wavesOld, wavesOld := 0 }
  let s2 := (((s1.setRf st F.FT_GRP_STAT_CKPT c.num).setRb st F.FT_GRP_STAT_CKPT_V true).setRb st F.FT_GRP_STAT_OPEN false)
  let s3 := s2.each (s2.allExits g) (fun e t =>
    let x := t.exit e
    t.setExit e { x with cur := x.new.getD x.cnt, new := none })
  let ports := ((List.range 64).map (· + 1024) ++ (List.range 384).map (· + 1160)).filter (fun q => s.tileGroup (portTile q) == some g)
  let s4 := s3.each ports (fun q t =>
    let x := t.qu q
    let t1 := if x.kept.isEmpty then t else t.setQu q { x with kept := x.kept.drop x.keptOld, keptOld := 0 }
    if q < 1088 then t1.emit (.fabric 1 q c.num) else t1)
  s4.ckptOver g

/-- LINING_RECORD_WRITTEN (R421, R422, R435): the oldest record that waits goes to the Lining, and with MIRROR to the spare tile's bank; the
last one completes the checkpoint. -/
def execLiningRecordWritten (g : Fin 32) (s : State) : Host.Outcome State Fault Refusal :=
  .next (match (s.grp g).flight with
    | none => s
    | some c => match c.shadow with
      | [] => s
      | (i, l) :: r => if s.smbBusy then s else
        let cfg := R.FT_GRP_CFG g
        let put := fun (t : State) (bank : Nat) =>
          let a := t.recordAt g bank i (c.num % 2)
          (t.writeWords 0 ((List.range 80).map (fun k => (t.smbPlace (a + 8 * k), ofBytesLE ((l.drop (8 * k)).take 8), 255)))).1
        let s1 := put s (peTile i)
        let s2 := if s1.rb cfg F.FT_GRP_CFG_MIRROR ∧ s1.rb cfg F.FT_GRP_CFG_SPARE_V then put s1 (s1.rf cfg F.FT_GRP_CFG_SPARE) else s1
        let c1 : CkFlight := { c with shadow := r }
        let s3 := s2.setGrp g { s2.grp g with flight := some c1 }
        if r.isEmpty ∧ (s3.maskPes (s3.grpMask g)).all (fun j => c1.act.any (fun e => e.1 == j)) then s3.ckptDone g c1 else s3)

/-! Groups -/

/-- CLEAR (R434): FIFOs and port queues of a FAILED group emptied. -/
def execGrpClear (g : Fin 32) (s : State) : Host.Outcome State Fault Refusal :=
  .next (if ¬ s.rb (R.FT_GRP_STAT g) F.FT_GRP_STAT_FAILED then s
    else
      let pes := (tilesOf (s.grpMask g)).flatMap (fun t => (List.range 16).map (fun j => 16 * t + j))
      let s1 := pes.foldl (fun t i => t.setPe i { t.pe i with n := Fifo.empty, e := Fifo.empty, so := Fifo.empty, w := Fifo.empty }) s
      let ports := ((List.range 128).map (· + 1024) ++ (List.range 384).map (· + 1160)).filter (fun q =>
        s.tileGroup (portTile (if 1088 ≤ q ∧ q < 1152 then q - 64 else q)) == some g.val)
      let s2 := s1.each ports (fun q t => t.setQu q Queue.empty)
      s2.setRb (R.FT_GRP_STAT g) F.FT_GRP_STAT_FAILED false)

/-- A write refused (R416). -/
def State.ftCfgErr (s : State) : State := s.raiseF R.FT_EVT F.FT_EVT_CFG_ERR

/-- FT_INJECT_WRITE (Table FT-1, Table FT-7): a detection of code 7 on a physical column, ignored during a recovery. -/
def State.ftInject (s : State) (v : Word) : State :=
  let c := F.FT_INJECT_COL.get v
  if ¬ F.FT_INJECT_GO.bit v then s
  else if s.ft.run.isSome ∨ 50 ≤ c then s.ftCfgErr
  else s.report 7 [(1, c + 256 * F.FT_INJECT_ROW.get v)]

/-- FT_INJECT. -/
def execFtInject (v : Word) (s : State) : Host.Outcome State Fault Refusal := .next (s.ftInject v)

/-- Two enabled groups share a tile. -/
def State.grpClash (s : State) : Bool :=
  let on := (List.range 32).filter (fun g => s.rb (R.FT_GRP_CFG g) F.FT_GRP_CFG_EN)
  on.any (fun a => on.any (fun b => decide (a < b) && s.grpMask a &&& s.grpMask b != 0))

/-- A write of FT_GRP_CFG[g] or of its mask words (R416): refused while EN is 1, unless it clears EN, and where it would put a tile into
two enabled groups. -/
def State.grpWrite (s : State) (a : Nat) (v : Word) : State :=
  let g := (a - R.FT_GRP_MASK_W0 0) / 0x20
  let cfg := decide (a = R.FT_GRP_CFG g)
  let en := s.rb (R.FT_GRP_CFG g) F.FT_GRP_CFG_EN
  let new := s.store a v
  if en && !(cfg && !F.FT_GRP_CFG_EN.bit v) then s.ftCfgErr
  else if new.grpClash then s.ftCfgErr
  else if cfg ∧ F.FT_GRP_CFG_EN.bit v then new.setGrp g { new.grp g with lastAt := s.now }
  else new

/-- FT_GRP_CFG_WRITE (R416): FT_GRP_CFG and the mask words; any other offset is left alone. -/
def execFtGrpCfgWrite (off : BitVec 24) (v : Word) (s : State) : Host.Outcome State Fault Refusal :=
  let a := off.toNat
  .next (if 0x6A0100 ≤ a ∧ a < 0x6A0500 ∧ a % 4 = 0 ∧ a % 0x20 < 0x10 then s.grpWrite a v else s)

/-- FT_BLK_RST (R439): ignored while a recovery runs. -/
def State.ftBlkRst (s : State) : State := if s.ft.run.isSome then s else s.clearRegs .block 0x6A0000 0x6C0000

/-- FT_BLK_RST. -/
def execFtBlkRst (s : State) : Host.Outcome State Fault Refusal :=
  .next (s.blkRst 20 s.ftBlkRst)

/-- FT_EXIT_CNT and FT_EXIT_CKPT as they read (R424): the count stands behind while a replay drops tokens (R431). -/
def State.exitCount (s : State) (ckpt : Bool) : Word :=
  let x := s.exit (s.rf R.FT_EXIT_SEL F.FT_EXIT_SEL_EXIT)
  w32 (if ckpt then x.cur else (x.cnt + 2 ^ 28 - x.sup % 2 ^ 28) % 2 ^ 28)

end Sys2Proof.Machine
end

