-- ==== Sys2Proof/Machine/Hx.lean ====
section
/-! DEFINITION. The HX bus unit's register view (16_hx_compatibility.md, R461–R484): the bus with its write buffer, the angle timer over an
axis and 64 marks, captures, programming of the HX area, and mixed use in QV mode. -/

namespace Sys2Proof.Machine

/-! Parts of the view -/

/-- The axis that serves the timer. -/
def HxParm.ax (p : HxParm) : Fin 8 := ⟨p.axis % 8, Nat.mod_lt _ (by decide)⟩

/-- A Cuff counted from one of the view's. -/
def hxCuff (n : Nat) : Fin 128 := ⟨n % 128, Nat.mod_lt _ (by decide)⟩

/-- Does the unit serve its view (R482)? Accesses are ignored until step 10 (R480). -/
def State.hxServes (s : State) : Bool := s.hx.live && s.hxParm.on

/-- Are bus accesses answered on balls 96–125 (R480, R483)? -/
def State.hxOnBalls (s : State) : Bool :=
  s.hxServes && (!s.qvMode || !s.rb R.HX_MIX_CFG F.HX_MIX_CFG_PATH)

/-- The event source of a flag bit of the view (R468): bit `j` of IRQ_FLAG`n`. -/
def State.hxSrc (s : State) (n j : Nat) : Nat := if n < 4 then s.hxParm.mbase + 16 * n + j else 1456 + j

/-- The sources of the view. -/
def State.hxSrcs (s : State) : List Nat :=
  (List.range 64).map (fun j => s.hxParm.mbase + j) ++ (List.range 11).map (fun j => 1456 + j)

/-- nIRQ of the view (R468, R483): while CTRL.IRQ_EN is 1 and an enabled source is pending. In mixed use the sources are the view's. -/
def State.hxIrq (s : State) : Bool :=
  if !s.qvMode then s.nIrqLow
  else s.hxServes && (s.hv 2).testBit 1 && s.hxSrcs.any (fun k => s.srcEn k && s.srcPending k)

/-- nWAIT (R466): low while a write waits for a place in the buffer. -/
def State.hxWaitLow (s : State) : Bool := s.hx.held.isSome

/-- HX_EVT.IRQ stands for nIRQ with PATH 1 (R483). -/
def State.hxIrqEvent (s : State) : State :=
  if s.qvMode ∧ s.rb R.HX_MIX_CFG F.HX_MIX_CFG_PATH ∧ s.hxIrq ∧ ¬ s.rb R.HX_EVT F.HX_EVT_IRQ then s.raiseF R.HX_EVT F.HX_EVT_IRQ else s

/-- PROG_BUSY: a stream is being received, translated or written. -/
def ProgState.busy : ProgState → Bool
  | .receiving => true
  | .translating => true
  | .writing => true
  | _ => false

/-- The image of the HX region runs (READY): stage 3 of region 0 in HX mode, of the region of the first channel pin in mixed use. -/
def State.hxReady (s : State) : Bool :=
  let r := ballRegion s.cg.hdr s.hxParm.outB
  decide (s.fbStage = 3) && (!s.qvMode || r == 15 || decide ((s.cgr r).stage = 3))

/-- What the timer shows (R471): with PACE the values of the last tick boundary. -/
def State.hxTimer (s : State) : HxShown :=
  if s.rb R.HX_CFG F.HX_CFG_PACE then s.hx.shown
  else
    let a := s.ax s.hxParm.axis
    { pos := s.hxWrapCount s.hx.cnt, vel := a.v, down := a.down, indexed := s.hx.indexed }

/-- SPEED: counts per 1,024 ticks, that is 32,000 YCLK, saturating (R471, Table HX-5). -/
def hxSpeed (vel : Int) : Int :=
  let x := vel * 32000
  let q := x / 0x100000000 + (if x % 0x100000000 ≠ 0 ∧ Config.hxSpeedUp vel = true then 1 else 0)
  if 32767 < q then 32767 else if q < -32768 then -32768 else q

/-- The 16 bits of a view register that a list of flags gives. -/
def bits16 (f : Nat → Bool) (n : Nat) : Nat := (List.range n).foldl (fun x j => x + b2n (f j) * 2 ^ j) 0

/-- The _LO partner of a _HI register of the view, by its address; the addresses of pairs. -/
def hxHiOf (i : Nat) : Option Nat :=
  if i = 0x11 ∨ i = 0x13 ∨ i = 0x16 ∨ i = 0x18 ∨ i = 0x1C then some (i + 1)
  else if 0x20 ≤ i ∧ i < 0x40 ∧ i % 4 = 1 then some (i + 1)
  else if 0x40 ≤ i ∧ (i - 0x40) % 3 = 0 then some (i + 1)
  else none

/-- A value that waits under a view address. -/
def hxWaiting (t : Tab (BitVec 16)) (i : Nat) : Option Nat := (t.find? (fun e => e.1 == i)).map (fun e => e.2.toNat)

/-- The bits of a view register that a write stores and a read returns (Tables HX-4 to HX-7). -/
def hxRwMask (i : Nat) : Nat :=
  if i = 2 then 3 else if 9 ≤ i ∧ i ≤ 0xC then 0xFFFF else if i = 0xD then 0x7FF else if i = 0x10 then 0x3F
  else if i = 0x13 ∨ i = 0x14 ∨ (0x16 ≤ i ∧ i ≤ 0x19) then 0xFFFF
  else if 0x20 ≤ i ∧ i < 0x40 then (if i % 4 = 0 then 3 else 0)
  else if 0x40 ≤ i then (if (i - 0x40) % 3 = 2 then 0x7F else 0xFFFF)
  else 0

/-- The value of view register `i`, without the effects of a read. -/
def State.hxValue (s : State) (i : Nat) : Nat :=
  let t := s.hxTimer
  if i = 3 then b2n s.hxReady + 2 * b2n s.hx.prog.busy + (s.hv 3 / 4 % 4) * 4
  else if 4 ≤ i ∧ i ≤ 7 then bits16 (fun j => s.srcPending (s.hxSrc (i - 4) j)) 16
  else if i = 8 then bits16 (fun j => s.srcPending (1456 + j)) 11
  else if 9 ≤ i ∧ i ≤ 0xC then bits16 (fun j => s.srcEn (s.hxSrc (i - 9) j)) 16
  else if i = 0xD then bits16 (fun j => s.srcEn (1456 + j)) 11
  else if i = 0xE then s.hx.prog.code + 16 * s.hx.result
  else if i = 0x11 then t.pos.toNat % 0x10000
  else if i = 0x12 then t.pos.toNat / 0x10000 % 0x10000
  else if i = 0x15 then 0
  else if i = 0x1A then trunc 16 (hxSpeed t.vel)
  else if i = 0x1B then b2n t.down + 2 * b2n t.indexed
  else if i = 0x1C then s.hxTicks % 0x10000
  else if i = 0x1D then s.hxTicks / 0x10000
  else s.hv i

/-- That value after the writes still in the buffer, and the _HI half that waits (R464). -/
def State.hxSeen (s : State) (i : Nat) : Nat :=
  match (s.hx.buf.filter (fun e => e.1 == i)).getLast? with
  | some e => if hxRwMask i = 0 then s.hxValue i else e.2.toNat &&& hxRwMask i
  | none => (hxWaiting s.hx.stage i).getD (s.hxValue i)

/-- A flag register read: the bits returned clear (R465, R468). -/
def State.hxClearFlags (s : State) (i : Nat) : State :=
  let x := s.hxValue i
  if i = 3 then s.setHv 3 0
  else if 4 ≤ i ∧ i ≤ 7 then
    s.each (bitList 16 x) (fun j t =>
      match srcReg (t.hxSrc (i - 4) j) with
      | some (a, m) => t.setRg a (w32 (andNot (t.rg a).toNat m))
      | none => t)
  else if i = 8 then s.setRg R.HX_EVT (w32 (andNot (s.rg R.HX_EVT).toNat x))
  else s

/-- The next halfword of the report (R479): from the HX area's report; past its 64 KiB the value is open. -/
def State.hxReportNext (s : State) : State × Nat :=
  if s.hx.rptAt < 0x8000 then
    let (s1, l, _) := s.flRead (0x31F0000 + 2 * s.hx.rptAt) 2
    ({ s1 with hx := { s1.hx with rptAt := s1.hx.rptAt + 1 } }, ofBytesLE l)
  else (s.tick, (Config.hxPast s.freeCtr).toNat)

/-- A read of view register `i` (R463–R465): a _LO read latches its _HI partner, a read of flags clears what it returned. -/
def State.hxRead (s : State) (i : Nat) : State × Nat :=
  if i = 0xF then s.hxReportNext
  else match hxHiOf i with
    | some j => ({ s with hx := { s.hx with latch := Tab.ins j (BitVec.ofNat 16 (s.hxSeen j)) (Tab.erase s.hx.latch j) } }, s.hxSeen i)
    | none =>
      match hxWaiting s.hx.latch i with
      | some x => (s, x)
      | none => (s.hxClearFlags i, s.hxSeen i)

/-! Writes -/

/-- A refused timer, compare or capture write (STAT.CFG_ERR, HX_EVT.CFG_ERR). -/
def State.hxRefuse (s : State) : State := (s.setHv 3 (setBit (s.hv 3) 2)).raiseF R.HX_EVT F.HX_EVT_CFG_ERR

/-- A pair of the view committed (R464). -/
def State.hxPair (s : State) (i lo : Nat) : State × Nat :=
  let hi := (hxWaiting s.hx.stage (i + 1)).getD (s.hv (i + 1))
  let s1 : State := { s with hx := { s.hx with stage := Tab.erase s.hx.stage (i + 1), latch := Tab.erase s.hx.latch (i + 1) } }
  ((s1.setHv i lo).setHv (i + 1) hi, lo + 0x10000 * hi)

/-- ZVAL copied to the axis (R470). -/
def State.hxZval (s : State) : State :=
  s.setRg64 (R.YK_AX_ZVAL_LO s.hxParm.axis) (R.YK_AX_ZVAL_HI s.hxParm.axis) (s.hv2 0x18 * 0x10000)

/-- CTRL (R470): a change of TMR_EN starts or stops the axis; an axis that cannot be set up leaves TMR_EN as it was and is refused. -/
def State.hxCtrl (s : State) (v : Nat) : State × Bool :=
  let p := s.hxParm
  let was := (s.hv 2).testBit 0
  let en := v.testBit 0
  let s1 := s.setHv 2 (v % 4)
  let cfg := s.hv 0x10
  if en && !was then
    let s2 := s1.setRg (R.YK_AX_IN p.axis) (F.YK_AX_IN_IN_Z.put (F.YK_AX_IN_IN_B.put (F.YK_AX_IN_IN_A.put (s.rg (R.YK_AX_IN p.axis)) p.inA) p.inB) p.inZ)
    let s3 := s2.setRf (R.YK_AX_FILT p.axis) F.YK_AX_FILT_FILT ((125 * (cfg / 8 % 8) + 3) / 4)
    let s4 := (s3.setRg (R.YK_AX_HYST p.axis) 0x8000).setRg (R.YK_AX_VTHR p.axis) 0xFFFFFFFF
    let s5 := (s4.setRf (R.YK_AX_LOSSCFG p.axis) F.YK_AX_LOSSCFG_LOSS_MULT 0).hxZval
    let w := w32 (1 + 16 * b2n (s.hxMod != 0) + 32 * (cfg % 2) + 64 * (cfg / 2 % 4) + 0x80000000)
    if s5.axCfgBad p.axis w then ((s.setHv 2 (andNot (v % 4) 1)).hxRefuse, false)
    else
      let s6 : State := { s5 with hx := { s5.hx with cnt := 0, indexed := false } }
      (s6.after (execAxCfgWrite p.ax w s6), true)
  else if was && !en then
    (s1.after (execAxCfgWrite p.ax (F.YK_AX_CFG_EN.put (s1.rg (R.YK_AX_CFG p.axis)) 0) s1), true)
  else (s1, true)

/-- TMR_CFG (R470): refused while the timer is enabled, and with Z_MODE 3. -/
def State.hxTmrCfg (s : State) (v : Nat) : State × Bool :=
  if (s.hv 2).testBit 0 ∨ v / 2 % 4 = 3 then (s.hxRefuse, false) else (s.setHv 0x10 (v % 0x40), true)

/-- The position of channel k's mark in counts (R472): VAL on a cyclic timer; on a linear one the value equal to it modulo 2^32 in
[p - 2^31, p + 2^31), p the axis's count. -/
def State.hxTarget (s : State) (val : Nat) : Int :=
  if s.hxMod ≠ 0 then val
  else
    let lo := (s.ax s.hxParm.axis).p / oneCount - 0x80000000
    lo + ((val : Int) - lo) % 0x100000000

/-- Channel k written to its mark, and its Cuff (R472). -/
def State.hxChannel (s : State) (k : Nat) : State × Bool :=
  let p := s.hxParm
  let n := p.mbase + k
  let c := s.hv (0x42 + 3 * k)
  let tgt := trunc 64 (s.hxTarget (s.hv2 (0x40 + 3 * k)) * 0x10000)
  let act := c / 8 % 4
  let oe := c.testBit 5 && decide (k < 16)
  let cuff := hxCuff (p.outB + k)
  let s1 := if k < 16 then
      let w := s.rg (R.CF_CFG cuff)
      s.after (execCfCfgWrite cuff (if oe then F.CF_CFG_INIT.put (F.CF_CFG_OWNER.put w 1) 0 else F.CF_CFG_OWNER.put w 0) s)
    else s
  let edge := oe && act != 0
  let s2 := (s1.setRg64 (R.MK_ENT_POS_LO n) (R.MK_ENT_POS_HI n) tgt).setRg (R.MK_ENT_HYST n) 0x20000
  let s3 := (s2.setRg64 (R.MK_ENT_PER_LO n) (R.MK_ENT_PER_HI n) 0).setRg (R.MK_ENT_ARG0 n) (w32 (if edge then cuff.val + 0x100 * (act - 1) else 0))
  let s4 := s3.setRg (R.MK_ENT_ARG1 n) 0
  let ctl := p.axis + 8 * (c / 2 % 4) + 32 * (c % 2) + 64 * (c / 64 % 2) + 0x100 * b2n edge
  let (s5, r) := s4.writeCtl n (w32 ctl) none
  match r with
  | some _ => (s5.hxRefuse, false)
  | none => (s5, true)

/-- The modulus of the axis and its CYCLIC bit (R470). -/
def State.hxAxMod (s : State) (m : Nat) : State :=
  let p := s.hxParm
  let cyc := fun (t : State) (b : Bool) => t.after (execAxCfgWrite p.ax (F.YK_AX_CFG_CYCLIC.put (t.rg (R.YK_AX_CFG p.axis)) (b2n b)) t)
  let mod := fun (t : State) =>
    let t1 := t.after (execModLoWrite p.ax (w32 (m * 0x10000)) t)
    t1.after (execModHiWrite p.ax (w32 (m / 0x10000)) t1)
  if m = 0 then mod (cyc s false) else cyc (mod s) true

/-- A MOD_LO commit (R470): 1–255 refused; so is one that would change CYCLIC of the running axis (R9). The marks are disarmed, the
modulus is written, the armed channels are written again. -/
def State.hxModWrite (s : State) (lo : Nat) : State × Bool :=
  let (s1, m) := s.hxPair 0x16 lo
  if (0 < m ∧ m < 256) ∨ ((s.hv 2).testBit 0 ∧ (m = 0) ≠ (s.hxMod = 0)) then
    (({ s with hx := s1.hx } : State).hxRefuse, false)
  else
    let s2 := (s1.hxDisarm s.hxParm).hxAxMod m
    let s3 : State := { s2 with hx := { s2.hx with cnt := s2.hxWrapCount s2.hx.cnt } }
    ((List.range 64).filter (fun k => (s3.hv (0x42 + 3 * k)).testBit 0)).foldl (fun (q : State × Bool) k =>
      let (t, ok) := q.1.hxChannel k
      (t, q.2 && ok)) (s3, true)

/-- TMR_CMD (R470). With the timer off the count changes at once. -/
def State.hxCmd (s : State) (v : Nat) : State :=
  let p := s.hxParm
  let on := (s.hv 2).testBit 0
  let s1 := if v.testBit 0 then
      let t := s.setRg64 (R.YK_AX_SWPOS_LO p.axis) (R.YK_AX_SWPOS_HI p.axis) (s.hv2 0x13 * 0x10000)
      let t1 := t.after (execAxSet p.ax t)
      if on then t1 else { t1 with hx := { t1.hx with cnt := t1.hxWrapCount (t1.hv2 0x13) } }
    else s
  if v.testBit 1 then
    let t := s1.after (execAxRst p.ax s1)
    if on ∨ v.testBit 0 then t else { t with hx := { t.hx with cnt := 0 } }
  else s1

/-- CAP_CFG of capture k (R473). -/
def State.hxCapCfg (s : State) (k v : Nat) : State :=
  let p := s.hxParm
  let c := hxCuff (p.cap + k)
  let e := v % 4
  let w := s.rg (R.CF_CFG c)
  let s1 := s.setHv (0x20 + 4 * k) e
  s1.after (execCfCfgWrite c (F.CF_CFG_ICAP_SLOT.put (F.CF_CFG_ICAP_EDGE.put (F.CF_CFG_ICAP_EN.put w (b2n (e != 0))) e) (p.slot + k)) s1)

/-- Enables of one mask register (R468). -/
def State.hxMask (s : State) (n width v : Nat) : State :=
  s.each (List.range width) (fun j t =>
    let k : Fin 1536 := ⟨t.hxSrc n j % 1536, Nat.mod_lt _ (by decide)⟩
    t.after (execEvSrcCfgWrite k (F.EV_SRC_CFG_EN.put (t.rg (R.EV_SRC_CFG k)) (b2n (v.testBit j))) t))

/-! Programming -/

/-- The stream ends with a RESULT. -/
def State.progEndWith (s : State) (r : Nat) : State :=
  { s with hx := { s.hx with prog := .done, result := r, stream := [], image := [], report := [], jtag := false } }

/-- START (R476): refused BUSY while a stream is under way. -/
def State.progBegin (s : State) (jtag : Bool) : State :=
  if s.hx.prog.busy then { s with hx := { s.hx with result := 7 } }
  else { s with hx := { s.hx with prog := .receiving, result := 0, stream := [], jtag := jtag } }

/-- Halfwords of the stream; more than 1 MiB ends it TOO_LARGE (R476). -/
def State.progFeed (s : State) (l : List (BitVec 16)) : State :=
  if s.hx.prog ≠ .receiving then s
  else if 0x80000 < s.hx.stream.length + l.length then s.progEndWith 2
  else { s with hx := { s.hx with stream := s.hx.stream ++ l } }

/-- The stream as bytes. -/
def halfBytes (l : List (BitVec 16)) : List Byte := l.flatMap (fun h => bytesLE 2 h.toNat)

/-- Why the stream at END is not taken (R476, R478): UNSIGNED, SIGNATURE, CRC; else the HX-1130 image it carries. -/
def State.progCheck (s : State) : Nat ⊕ List (BitVec 16) :=
  let l := s.hx.stream
  let hdr := halfBytes (l.take 0x3000)
  let bare := decide (imgMagic hdr ≠ 0x46435651) || decide (l.length < 0x3000)
  let img := if s.rdp = 0 then l else l.drop 0x3000
  if s.rdp ≠ 0 ∧ bare = true then .inl 3
  else if s.rdp ≠ 0 ∧ (hashBytes (Config.sha384 (halfBytes img)) ≠ imgFrameHash hdr ∨ (s.rtSig hdr).isSome) then .inl 4
  else if Config.hxCrcOk img then .inr img else .inl 1

/-- END (R476): the stream is checked; HX_EVT.PROG ends the Starter's WAIT. -/
def State.progFinish (s : State) : State :=
  if s.hx.prog ≠ .receiving then s
  else match s.progCheck with
    | .inl r => s.progEndWith r
    | .inr img => ({ s with hx := { s.hx with prog := .translating, stream := img } } : State).raiseF R.HX_EVT F.HX_EVT_PROG

/-- ABORT (R476) of a stream being received or translated. -/
def State.progStop (s : State) : State :=
  if s.hx.prog = .receiving ∨ s.hx.prog = .translating then s.progEndWith 6 else s

/-- PROG_CTRL (R476, R479): START only as the bus write after the key. Programming is a function of HX mode. -/
def State.progCtrl (s : State) (open_ : Bool) (v : Nat) : State × Bool :=
  if v = 3 then ({ s with hx := { s.hx with rptAt := 0 } }, true)
  else if s.qvMode then (s.hxRefuse, false)
  else if v = 1 then (if open_ then s.progBegin false else s, true)
  else if v = 2 then (if s.hx.jtag then s else s.progFinish, true)
  else if v = 4 then (if s.hx.jtag then s else s.progStop, true)
  else (s, true)

/-! A write of the view -/

/-- A write of view register `i` in bus order (R464, R466); false where it is refused. -/
def State.hxWrite (s0 : State) (i v : Nat) : State × Bool :=
  let open_ := s0.hx.unlock
  let s : State := { s0 with hx := { s0.hx with unlock := decide (i = 0xE) && decide (v = 0xA5C3) } }
  let half := fun (_ : Unit) =>
    (({ s with hx := { s.hx with stage := Tab.ins i (BitVec.ofNat 16 v) (Tab.erase s.hx.stage i), latch := Tab.erase s.hx.latch i } } : State), true)
  if i = 2 then s.hxCtrl v
  else if 9 ≤ i ∧ i ≤ 0xC then (s.hxMask (i - 9) 16 v, true)
  else if i = 0xD then (s.hxMask 4 11 v, true)
  else if i = 0xE then s.progCtrl open_ v
  else if i = 0xF then (if s.hx.jtag then s else s.progFeed [BitVec.ofNat 16 v], true)
  else if i = 0x10 then s.hxTmrCfg v
  else if i = 0x13 then ((s.hxPair 0x13 v).1, true)
  else if i = 0x15 then (s.hxCmd v, true)
  else if i = 0x16 then s.hxModWrite v
  else if i = 0x18 then
    ((s.hxPair 0x18 v).1.hxZval, true)
  else if i = 0x14 ∨ i = 0x17 ∨ i = 0x19 then half ()
  else if 0x20 ≤ i ∧ i < 0x40 then (if i % 4 = 0 then s.hxCapCfg ((i - 0x20) / 4) v else s, true)
  else if 0x40 ≤ i ∧ i < 0x100 then
    let k := (i - 0x40) / 3
    if (i - 0x40) % 3 = 0 then (s.hxPair i v).1.hxChannel k
    else if (i - 0x40) % 3 = 1 then half ()
    else (s.setHv i (v % 0x80)).hxChannel k
  else (s, true)

/-- A write of the view where the unit serves it; else nothing. -/
def State.hxAccess (s : State) (i v : Nat) : State := if s.hxServes then (s.hxWrite i v).1 else s

/-! Commands of the bus -/

/-- HX_BUS_READ (R463–R465): a read on the bus balls; A[9] is ignored. -/
def execHxBusRead (addr : BitVec 9) (s : State) : Host.Outcome State Fault Refusal :=
  .next (if s.hxOnBalls then
      let (s1, v) := s.hxRead (addr.toNat % 256)
      s1.emit (.hxBus (BitVec.ofNat 16 v))
    else s)

/-- HX_BUS_WRITE (R466): the write takes a place in the buffer, or waits with nWAIT low for one. -/
def execHxBusWrite (addr : BitVec 9) (v : BitVec 16) (s : State) : Host.Outcome State Fault Refusal :=
  .next (if s.hxOnBalls ∧ s.hx.held = none then
      if s.hx.buf.length < 8 then { s with hx := { s.hx with buf := s.hx.buf ++ [(addr.toNat % 256, v)] } }
      else { s with hx := { s.hx with held := some (addr.toNat % 256, v) } }
    else s)

/-- HX_WRITE_APPLY (R464, R466): the oldest buffered write takes effect; a waiting one takes its place. -/
def execHxWriteApply (s : State) : Host.Outcome State Fault Refusal :=
  match s.hx.buf with
  | [] => .next s
  | e :: r =>
    let s1 : State := { s with hx := { s.hx with buf := r ++ s.hx.held.toList, held := none } }
    .next (s1.hxAccess e.1 e.2.toNat)

/-- TMR_EN_WRITE (R470): a write of CTRL. -/
def execTmrEnWrite (v : BitVec 16) (s : State) : Host.Outcome State Fault Refusal := .next (s.hxAccess 2 v.toNat)
/-- TMR_CFG_WRITE (R470). -/
def execTmrCfgWrite (v : BitVec 16) (s : State) : Host.Outcome State Fault Refusal := .next (s.hxAccess 0x10 v.toNat)
/-- HX_MOD_COMMIT (R470): a write of MOD_LO. -/
def execHxModCommit (v : BitVec 16) (s : State) : Host.Outcome State Fault Refusal := .next (s.hxAccess 0x16 v.toNat)
/-- LOAD (R470). -/
def execTmrLoad (s : State) : Host.Outcome State Fault Refusal := .next (s.hxAccess 0x15 1)
/-- CLR (R470). -/
def execTmrClr (s : State) : Host.Outcome State Fault Refusal := .next (s.hxAccess 0x15 2)
/-- CMP_COMMIT (R472): a write of CMP_CFG[k] or CMP_LO[k]. -/
def execCmpCommit (k : Fin 64) (cfg : Bool) (v : BitVec 16) (s : State) : Host.Outcome State Fault Refusal :=
  .next (s.hxAccess (0x40 + 3 * k.val + (if cfg then 2 else 0)) v.toNat)
/-- CAP_CFG_WRITE (R473). -/
def execCapCfgWrite (k : Fin 8) (v : BitVec 16) (s : State) : Host.Outcome State Fault Refusal :=
  .next (s.hxAccess (0x20 + 4 * k.val) v.toNat)

/-- HX_TICK (R471): where a 16 MHz boundary passed in the YCLK just ended, POS, SPEED and TMR_STAT take the timer's present values. -/
def execHxTick (s : State) : Host.Outcome State Fault Refusal :=
  .next (if s.now = 0 ∨ (s.now - 1) * 4 / 125 ≠ s.now * 4 / 125 then
      let a := s.ax s.hxParm.axis
      ({ s with hx := { s.hx with shown := { pos := s.hxWrapCount s.hx.cnt, vel := a.v, down := a.down, indexed := s.hx.indexed } } } : State).hxIrqEvent
    else s)

/-- PROG_START (R476): PROG_CTRL 0x0001. -/
def execProgStart (s : State) : Host.Outcome State Fault Refusal := .next (s.hxAccess 0xE 1)
/-- PROG_DATA_WRITE (R476). -/
def execProgDataWrite (v : BitVec 16) (s : State) : Host.Outcome State Fault Refusal := .next (s.hxAccess 0xF v.toNat)
/-- PROG_END (R476): PROG_CTRL 0x0002. -/
def execProgEnd (s : State) : Host.Outcome State Fault Refusal := .next (s.hxAccess 0xE 2)
/-- PROG_ABORT (R476): PROG_CTRL 0x0004. -/
def execProgAbort (s : State) : Host.Outcome State Fault Refusal := .next (s.hxAccess 0xE 4)
/-- PROG_REWIND (R479): PROG_CTRL 0x0003. -/
def execProgRewind (s : State) : Host.Outcome State Fault Refusal := .next (s.hxAccess 0xE 3)

/-- PROG_DATA_READ (R479). -/
def execProgDataRead (s : State) : Host.Outcome State Fault Refusal :=
  .next (if s.hxServes then
      let (s1, v) := s.hxRead 0xF
      s1.emit (.hxBus (BitVec.ofNat 16 v))
    else s)

/-- The device seal put into a KIND 3 image (R339): HMAC over the first 0x1000 bytes, in the place of the RSA signature. -/
def State.hxSeal (s : State) (img : List Byte) : List Byte :=
  img.take 0x1200 ++ hashBytes (Config.hmac384 (s.derivedKey "QV-SEAL") (img.take 0x1000)) ++ img.drop 0x1230

/-- HX_TRANSLATE_DONE (R477, R479): a design that does not fit is refused; else the sealed image and its report go to the HX area, whose
sectors are erased. -/
def execHxTranslateDone (s : State) : Host.Outcome State Fault Refusal :=
  .next (if s.hx.prog ≠ .translating ∨ ¬ s.hx.live then s
    else
      let l := s.hx.stream
      if ¬ Config.hxFits l ∨ 2000 < Config.hxFrames l then
        (s.progEndWith 2).setRb R.HX_COMPAT_REPORT F.HX_COMPAT_REPORT_REFUSED true
      else
        let rep := (Config.hxReport l).take 0x10000
        let s1 := s.each (List.range 32) (fun k t => t.sectorErase (0x300 + k))
        let w := w32 (fieldB rep 0 2 % 4096 + 0x10000 * (Config.hxFrames l % 2048))
        { s1.setRg R.HX_COMPAT_REPORT w with
          hx := { s1.hx with prog := .writing, stream := [], image := (s.hxSeal (Config.hxImage l)).take 0x1F0000, report := rep } })

/-- Bytes padded with erased ones to whole 32-byte units. -/
def flPad (l : List Byte) : List Byte := l ++ List.replicate ((32 - l.length % 32) % 32) 0xFF

/-- HX_FLASH_WRITE_DONE (R477): both parts are programmed and read back; `ok` says that they match. On OK a Warm reset follows; a mismatch
ends with FLASH and leaves what was programmed open. -/
def execHxFlashWriteDone (ok : Bool) (s : State) : Host.Outcome State Fault Refusal :=
  .next (if s.hx.prog ≠ .writing ∨ ¬ s.hx.live then s
    else
      let s1 := (s.flProg 0x3000000 (flPad s.hx.image)).flProg 0x31F0000 (flPad s.hx.report)
      if ok then (s1.progEndWith 0).resetRequest 10 0 false
      else (s1.each (List.range 32) (fun k t => t.sectorPart (0x300 + k))).progEndWith 5)

/-- HX_JTAG_PROGRAM (R476): an image through the HX-1130 JTAG instructions: START, its halfwords, END. It is not taken while the bus
programs. -/
def execHxJtagProgram (words : List (BitVec 16)) (s : State) : Host.Outcome State Fault Refusal :=
  .next (if s.qvMode ∨ ¬ s.hx.live ∨ s.hx.prog.busy = true then s
    else ((s.progBegin true).progFeed words).progFinish)

/-! Mixed use -/

/-- HX_MIX_CFG_WRITE (R482, R483): EN only in QV mode, and not while a partial load runs; with PATH 1 a G1 reservation on Q_RSP is
admitted first, by the device's own partner. -/
def execHxMixCfgWrite (v : Word) (s : State) : Host.Outcome State Fault Refusal :=
  let a := R.HX_MIX_CFG
  let was := s.rb a F.HX_MIX_CFG_EN
  let en := F.HX_MIX_CFG_EN.bit v
  .next (if was != en ∧ (s.cg.part.isSome ∨ ¬ s.qvMode) then s.raiseF R.HX_EVT F.HX_EVT_CFG_ERR
    else if en ∧ ¬ was ∧ F.HX_MIX_CFG_PATH.bit v then
      let q := s.rg R.HX_MIX_Q
      let r := F.HI_RSV_REQ_LAT.put (F.HI_RSV_REQ_QUEUE.put 0 (F.HX_MIX_Q_Q_RSP.get q)) (F.HX_MIX_Q_LAT.get q)
      let (s1, w) := s.rsvAdmit r 1
      if w.toNat % 4 = 0 then s1.store a v
      else (s1.store a (F.HX_MIX_CFG_EN.put v 0)).raiseF R.HX_EVT F.HX_EVT_CFG_ERR
    else s.store a v)

/-- A word of the partner queue's answer. -/
def hxAnswer (x : Nat) : Token := Token.word (w32 x) true

/-- Do Q_REQ and Q_RSP end at the stream channels that the unit takes (R483)? -/
def State.hxBound (s : State) (q r : Nat) : Bool :=
  let c := F.HX_MIX_Q_CHAN.get (s.rg R.HX_MIX_Q)
  let a := s.rg (R.SQ_Q_BIND q)
  let b := s.rg (R.SQ_Q_BIND r)
  F.SQ_Q_BIND_CONS_KIND.get a == 5 && F.SQ_Q_BIND_CONS_ID.get a == c && F.SQ_Q_BIND_PROD_KIND.get b == 5 && F.SQ_Q_BIND_PROD_ID.get b == c + 1

/-- HX_VIEW_REQUEST (R483, Table HX-11): the next word of Q_REQ is served and answered into Q_RSP; `rst` says that the HX region's partial
load holds the image in reset, and then the request is refused. -/
def execHxViewRequest (rst : Bool) (s : State) : Host.Outcome State Fault Refusal :=
  let m := s.rg R.HX_MIX_Q
  let q := F.HX_MIX_Q_Q_REQ.get m
  let r := F.HX_MIX_Q_Q_RSP.get m
  .next (if s.qvMode ∧ s.hxServes ∧ s.rb R.HX_MIX_CFG F.HX_MIX_CFG_PATH ∧ s.hxBound q r ∧ s.qTakes r then
      match s.qHead q with
      | none => s
      | some t =>
        let s1 := s.qDrop q
        let w := t.data.toNat
        let i := w % 256
        let x := w / 0x10000
        if rst then s1.qGive r (hxAnswer 0x10000) false
        else if w.testBit 9 then
          let (s2, ok) := s1.hxWrite i x
          (s2.qGive r (hxAnswer (x + 0x10000 * b2n !ok)) false).hxIrqEvent
        else
          let (s2, y) := s1.hxRead i
          (s2.qGive r (hxAnswer y) false).hxIrqEvent
    else s)

/-- HX_BLK_RST (R480). -/
def execHxBlkRst (s : State) : Host.Outcome State Fault Refusal :=
  .next (s.blkRst 21 s.hxLoad)

/-- HX_STAT as it reads. -/
def State.hxStat (s : State) : Word :=
  w32 (b2n (!s.qvMode) + 2 * b2n s.hx.prog.busy + 4 * b2n (s.qvMode && s.rb R.HX_MIX_CFG F.HX_MIX_CFG_EN) + 16 * s.hx.result)

end Sys2Proof.Machine
end

