-- ==== Sys2Proof/Machine/Security.lean ====
section
/-! DEFINITION. The security controller's commands (11_signatures_and_two_party_control.md, R341–R342, R346–R353) and the ends of OTP
pulses (R320, R322, R325, R326), which finish its operations. -/

namespace Sys2Proof.Machine

/-! Policy records -/

/-- A policy record of the live map for a slot (R347). -/
def State.policyWrite (s : State) (slot : Nat) (signed : Bool) : State :=
  let (s1, r) := s.policyRead
  let seq := match r with | some (n, _) => n + 1 | none => 1
  let l := bytesLE 4 0x4C505651 ++ bytesLE 4 seq ++ bytesLE 4 (b2n signed) ++ mapBytes s.fwLive ++ List.replicate 80 0
  s1.flRecord { off := policyAt slot, bytes := l ++ bytesLE 4 (crc32c l), why := .policy }

/-- The lowest erased policy slot (R347). -/
def State.policyFree (s : State) : Option Nat :=
  (List.range 12).find? (fun k => (List.range 32).all (fun u => s.flErased (policyAt k + 32 * u)))

/-! Proposals -/

/-- SC_TP_STAT.STATE and RESULT; SC_EVT.TP_DONE for OK, TP_REJECT for every other result (R351). -/
def State.tpResult (s : State) (res : Nat) : State :=
  let s1 := s.setRf R.SC_TP_STAT F.SC_TP_STAT_RESULT res
  if res = 0 then s1.raiseF R.SC_EVT F.SC_EVT_TP_DONE else s1.raiseF R.SC_EVT F.SC_EVT_TP_REJECT

/-- The open proposal closed. -/
def State.tpClose (s : State) (res : Nat) : State :=
  (({ s with sc := { s.sc with prop := none } } : State).setRf R.SC_TP_STAT F.SC_TP_STAT_STATE 0).tpResult res

/-- A rejection counted; eight in a row lock the controller (R352). -/
def State.tpReject (s : State) : State :=
  let s1 := s.setRf R.SC_TP_STAT F.SC_TP_STAT_REJ (s.rf R.SC_TP_STAT F.SC_TP_STAT_REJ + 1)
  if 8 ≤ s1.rf R.SC_TP_STAT F.SC_TP_STAT_REJ then (s1.setRf R.SC_TP_STAT F.SC_TP_STAT_STATE 3).raiseF R.SC_EVT F.SC_EVT_TP_LOCK else s1

/-- An operation that ends OK clears the count (R352). -/
def State.tpOk (s : State) : State := (s.tpClose 0).setRf R.SC_TP_STAT F.SC_TP_STAT_REJ 0

/-- Fields of a proposal (Table SC-8). -/
def propOp (p : List Byte) : Nat := fieldB p 0 2
def propArg (p : List Byte) : Nat := fieldB p 4 4

/-- Are OP and ARG defined, with reserved bytes 0 (Table SC-7)? -/
def propOk (p : List Byte) : Bool :=
  let a := propArg p
  fieldB p 2 2 == 0 &&
    (match propOp p with
      | 1 | 2 | 3 => a == 0
      | 4 | 7 => decide (a ≤ 1)
      | 5 => decide (a ≤ 3)
      | 6 => decide (1 ≤ a) && decide (a ≤ 1440)
      | _ => false)

/-- The bytes of a run of registers. -/
def State.regBytes (s : State) (f : Nat → Nat) (n : Nat) : List Byte := (List.range n).flatMap (fun k => bytesLE 4 (s.rg (f k)).toNat)

/-- The checks of R349 in their order: none where all pass, else the result. -/
def State.propJudge (s : State) : Option Nat :=
  let l := s.regBytes R.SC_TP_PROP 42
  let p := l.take 120
  let set := fun (k : Nat) => (s.otBytes k 12).any (fun b => b != 0)
  if s.sc.prop.isSome then some 4
  else if ¬ set 72 ∨ ¬ set 84 ∨ s.rf R.SC_TP_STAT F.SC_TP_STAT_STATE = 3 then some 14
  else if ¬ propOk p then some 3
  else if sliceB p 8 16 ≠ s.otBytes 0 4 ∨ sliceB p 24 48 ≠ s.regBytes R.SC_TP_CHAL 12 then some 2
  else if l.drop 120 ≠ hashBytes (Config.hmac384 (s.otBytes 72 12) p) then some 1
  else none

/-- PROPOSE (R349): by the partner that writes SC_TP_CMD. New challenge bytes follow every PROPOSE. -/
def State.propose (s : State) (pid : Nat) : State :=
  let p := (s.regBytes R.SC_TP_PROP 42).take 120
  (match s.propJudge with
    | some c => let s1 := s.tpResult c; if c = 1 ∨ c = 2 then s1.tpReject else s1
    | none =>
      let s1 : State := { s with sc := { s.sc with prop := some { bytes := p, by_ := pid, time := s.now, exec := false } } }
      ((s1.setRf R.SC_TP_STAT F.SC_TP_STAT_STATE 1).setRf R.SC_TP_STAT F.SC_TP_STAT_OP (propOp p)).setRf R.SC_TP_STAT
        F.SC_TP_STAT_PROPOSER pid).newChal

/-- PROPOSE. -/
def execTpPropose (pid : BitVec 10) (s : State) : Host.Outcome State Fault Refusal := .next (s.propose pid.toNat)

/-- Has the window of a proposal ended (R349): 10 s? -/
def State.propLate (s : State) (p : Proposal) : Bool := decide (p.time + 5000000000 ≤ s.now)

/-- CONSENT (R350): the operation of the proposal executes next (Table SC-7). -/
def State.consent (s : State) (pid : Nat) : State :=
  match s.sc.prop with
  | none => s.tpResult 5
  | some p =>
    if p.exec then s.tpResult 5
    else if s.propLate p then s.tpClose 8
    else if pid = p.by_ then s.tpResult 6
    else if s.regBytes R.SC_TP_CONS 12 ≠ hashBytes (Config.hmac384 (s.otBytes 84 12) (hashBytes (Config.sha384 p.bytes))) then
      (s.tpClose 7).tpReject
    else ({ s with sc := { s.sc with prop := some { p with exec := true } } } : State).setRf R.SC_TP_STAT F.SC_TP_STAT_STATE 2

/-- CONSENT. -/
def execTpConsent (pid : BitVec 10) (s : State) : Host.Outcome State Fault Refusal := .next (s.consent pid.toNat)

/-- CANCEL (R350): the proposer alone closes an open proposal. -/
def State.tpCancel (s : State) (pid : Nat) : State :=
  match s.sc.prop with
  | none => s.tpResult 5
  | some p => if p.exec then s.tpResult 5 else if pid = p.by_ then s.tpClose 15 else s

/-- CANCEL. -/
def execTpCancel (pid : BitVec 10) (s : State) : Host.Outcome State Fault Refusal := .next (s.tpCancel pid.toNat)

/-- PROPOSAL_EXPIRE (R350). -/
def execProposalExpire (s : State) : Host.Outcome State Fault Refusal :=
  .next (match s.sc.prop with
    | some p => if ¬ p.exec ∧ s.propLate p then s.tpClose 8 else s
    | none => s)

/-! Operations at execution (R351, Tables SC-7 and SC-9) -/

/-- The operation that executes, when it is `op` and no OTP pulse runs and no record is being programmed. -/
def State.tpRun (s : State) (op : Nat) (f : Proposal → State) : State :=
  match s.sc.prop with
  | some p => if p.exec ∧ propOp p.bytes = op ∧ s.ot.run.isNone ∧ s.fl.recs.isEmpty then f p else s
  | none => s

/-- RDP_RAISE1 (R325). -/
def execRdpRaise1 (s : State) : Host.Outcome State Fault Refusal :=
  .next (s.tpRun 1 (fun _ =>
    match s.rdp1Free with
    | none => s.tpClose 9
    | some b => if 1 ≤ s.rdp then s.tpClose 11 else s.otPulse [b] .raise1))

/-- RDP_RAISE2 (R325): always allowed. -/
def execRdpRaise2 (s : State) : Host.Outcome State Fault Refusal :=
  .next (s.tpRun 2 (fun _ =>
    match (List.range 3).filter (fun b => !wbit (s.otWord 55) b) with
    | [] => s.tpOk
    | l => s.otPulse (l.map (fun b => (55, b))) .raise2))

/-- RDP_LOWER (R326): BEGIN for the journal; a Warm reset follows it, and the Starter goes on. -/
def execRdpLower (s : State) : Host.Outcome State Fault Refusal :=
  .next (s.tpRun 3 (fun _ =>
    if s.rdp ≠ 1 then s.tpClose 11
    else match s.journalRec .lowerBegin 1 1 0 with
      | some r => (s.setRg R.FL_RDP_STAT 1).flRecord r
      | none => (s.setRg R.FL_RDP_STAT 1).resetRequest 10 0 false))

/-- FW_COMMIT (R346, R347). -/
def execFwCommit (s : State) : Host.Outcome State Fault Refusal :=
  .next (s.tpRun 4 (fun p =>
    let persist := propArg p.bytes == 1
    if p.bytes.drop 72 ≠ hashBytes (Config.sha384 (mapBytes s.rg)) then s.tpClose 12
    else match persist, s.policyFree with
      | true, none => s.tpClose 13
      | true, some k => s.mapLive.policyWrite k (s.rb R.CG_ICP_POLICY F.CG_ICP_POLICY_SIGNED)
      | false, _ => s.mapLive.tpOk))

/-- REVOKE (R348): never the last digest that accepts a key pair. -/
def execKeyRevoke (s : State) : Host.Outcome State Fault Refusal :=
  .next (s.tpRun 5 (fun p =>
    let k := propArg p.bytes
    let live := (List.range 4).filter (fun j => !wbit (s.otWord 52) j && (s.otBytes (4 + 12 * j) 12).any (fun b => b != 0))
    if ¬ live.contains k ∨ live.length = 1 then s.tpClose 10 else s.otPulse [(52, k)] .revoke))

/-- DEBUG_UNLOCK (R348). -/
def execDebugUnlock (s : State) : Host.Outcome State Fault Refusal :=
  .next (s.tpRun 6 (fun p =>
    let m := propArg p.bytes
    if s.rdp ≠ 1 then s.tpClose 11
    else (({ s with sc := { s.sc with dbgEnd := s.now + 30000000000 * m } } : State).setRg R.SC_DBG_STAT (w32 (1 + 2 * m))).tpOk))

/-- DEBUG_UNLOCK_END (R348). -/
def execDebugUnlockEnd (s : State) : Host.Outcome State Fault Refusal :=
  .next (if s.rb R.SC_DBG_STAT F.SC_DBG_STAT_UNLOCKED ∧ s.sc.dbgEnd ≤ s.now then
      (s.setRg R.SC_DBG_STAT 0).raiseF R.SC_EVT F.SC_EVT_DBG_END
    else s)

/-- ICP_POLICY (R347, R348): SIGNED, with a record that holds the live map. -/
def execIcpPolicy (s : State) : Host.Outcome State Fault Refusal :=
  .next (s.tpRun 7 (fun p =>
    let sg := propArg p.bytes == 1
    match s.policyFree with
    | none => s.tpClose 13
    | some k => (s.setRb R.CG_ICP_POLICY F.CG_ICP_POLICY_SIGNED sg).policyWrite k sg))

/-- SC_TP_STAT as it reads: SECONDS left in the window. -/
def State.tpStat (s : State) : Word :=
  match s.sc.prop with
  | some p =>
    let left := if p.exec then 0 else (p.time + 5000000000 - s.now) / 500000000
    F.SC_TP_STAT_SECONDS.put (s.rg R.SC_TP_STAT) left
  | none => s.rg R.SC_TP_STAT

/-- SC_DBG_STAT as it reads: whole MINUTES left. -/
def State.dbgStat (s : State) : Word :=
  if s.rb R.SC_DBG_STAT F.SC_DBG_STAT_UNLOCKED then w32 (1 + 2 * ((s.sc.dbgEnd - s.now) / 30000000000)) else s.rg R.SC_DBG_STAT

/-! OTP pulses -/

/-- The last pulse of a run has ended: its bits are read back (R320) and what asked for them goes on. A bit of an operation or of a lowering
that reads 0 is pulsed again. -/
def State.otDone (s : State) (r : OtRun) : State :=
  let bad := r.done.filter (fun e => !wbit (s.otWord e.1) e.2)
  let s0 : State := { s with ot := { s.ot with run := none } }
  let s1 := s0.setRb R.OT_STAT F.OT_STAT_BUSY false
  if r.why ≠ .prog ∧ ¬ bad.isEmpty then s1.otPulse bad r.why
  else match r.why with
    | .prog => (s1.otEnd (if bad.isEmpty then 0 else 4)).keyStat
    | .raise1 => s1.rdpDerive.tpOk
    | .raise2 => s1.rdpDerive.tpOk
    | .revoke => s1.keyStat.tpOk
    | .lower => s1.rdpDerive.resetRequest 10 0 false

/-- OTP_PULSE_END (R320, R322): the pulse on the bit in hand ends; `ok` says that the bit now reads 1. Resets deferred by the pulse then
take effect. -/
def execOtpPulseEnd (ok : Bool) (s : State) : Host.Outcome State Fault Refusal :=
  .next (match s.ot.run with
    | none => s
    | some r =>
      (match r.left with
        | [] => s.otDone r
        | (k, b) :: l =>
          let s1 := if ok then s.otSet k b else s
          let r1 : OtRun := { r with left := l, done := r.done ++ [(k, b)] }
          let s2 : State := { s1 with ot := { s1.ot with run := some r1 } }
          if l.isEmpty then s2.otDone r1 else s2).resetDeferred)

/-! Records of the system sector -/

/-- A record has been programmed: the lowering or the operation that it belongs to goes on (R326, R347, R351). -/
def State.recordDone (s : State) (r : FlRec) : State :=
  let s1 := ({ s.flProg r.off r.bytes with fl := { s.fl with recs := s.fl.recs.drop 1 } } : State).flShow
  match r.why with
  | .lowerBegin => s1.resetRequest 10 0 false
  | .lowerEnd => s1.lowerLevel
  | .policy => s1.tpOk

/-- FLASH_PROGRAM_DONE (R311): the die completes the page in hand; with no command running, the record in hand, or what a reset cut short
(R317). -/
def execFlashProgramDone (s : State) : Host.Outcome State Fault Refusal :=
  .next (match s.fl.run, s.fl.recs with
    | some (.program l), _ => s.flPageDone l
    | none, r :: _ => s.recordDone r
    | none, [] => s.flReady
    | some (.erase _ _), _ => s)

/-! Attestation -/

/-- ATTEST_GO (R340, R341): SC_ATT_CMD.GO by a partner. -/
def State.attest (s : State) (pid : Nat) : State :=
  if s.rb R.SC_ATT_STAT F.SC_ATT_STAT_BUSY then s
  else if s.rb R.SC_STAT F.SC_STAT_ID_BAD then s.setRg R.SC_ATT_STAT 2
  else
    let a : Attest := { pid := pid, nonce := s.regBytes R.SC_ATT_NONCE 8, base := 4096 * s.rf R.SC_ATT_BASE F.SC_ATT_BASE_BASE }
    ({ s with sc := { s.sc with att := some a } } : State).setRg R.SC_ATT_STAT 1

/-- ATTEST_GO. -/
def execAttestGo (pid : BitVec 10) (s : State) : Host.Outcome State Fault Refusal := .next (s.attest pid.toNat)

/-- Bytes cut or filled with zeros to a length. -/
def fitB (n : Nat) (l : List Byte) : List Byte := (l ++ List.replicate n 0).take n

/-- A measurement entry (R342). -/
def measure (id idx flags seq : Nat) (dig : List Byte) : List Byte :=
  bytesLE 2 id ++ bytesLE 1 idx ++ bytesLE 1 flags ++ bytesLE 4 seq ++ fitB 48 dig

/-- The SHA-384 of bytes, as bytes. -/
def digestB (l : List Byte) : List Byte := hashBytes (Config.sha384 l)

/-- The entries of a report (Table SC-6). -/
def State.measures (s : State) : List (List Byte) :=
  let h := s.cg.hdr
  let boot := if h.isEmpty then [] else
    [measure 2 s.cg.idx 1 (imgSeq h) (digestB h),
     measure 3 0 (1 + 2 * b2n (s.rb R.CG_SCRUB_STAT F.CG_SCRUB_STAT_EBM_OK)) 0 (imgEbmHash h)]
  let lib := if s.cg.libHdr.isEmpty then [] else [measure 4 0 1 (imgSeq s.cg.libHdr) (digestB (s.cg.libHdr.take 0x1000))]
  let slot := s.rf R.TR_STAT F.TR_STAT_SLOT
  let trim := if s.rb R.TR_STAT F.TR_STAT_UNTRIMMED then measure 6 0 2 0 []
    else measure 6 slot 1 0 (digestB (s.flRead (0x3FE0000 + 0x400 * slot) 1024).2.1)
  let regs := ((List.range 15).filter (fun r => s.regionState r != 0 && !(s.cgr r).hdr.isEmpty)).map (fun r =>
    measure (16 + r) r (1 + 2 * b2n (s.regionState r == 3)) (imgSeq (s.cgr r).hdr) (digestB ((s.cgr r).hdr.take 0x1000)))
  [measure 1 0 1 0 (digestB ((List.range 65536).map Config.romByte))] ++ boot ++ lib
    ++ [measure 5 0 1 0 (s.regBytes R.SC_FW_DIG 12), trim] ++ regs

/-- The report (Table SC-5), signed over bytes 0x000–0x77F with both identity keys. -/
def State.report5 (s : State) (nonce : List Byte) : List Byte :=
  let ms := s.measures
  let key := fitB 436 (Config.idPublic (s.flRead 0x3FE4000 0x1000).2.1)
  let head := bytesLE 4 0x54415651 ++ bytesLE 2 1 ++ bytesLE 2 ms.length ++ bytesLE 4 18528
    ++ bytesLE 1 s.rdp ++ bytesLE 1 (s.rf R.SC_STAT F.SC_STAT_BOOTKEY) ++ bytesLE 1 ((s.otWord 52).toNat % 16) ++ bytesLE 1 (b2n s.qvMode)
    ++ s.otBytes 0 4 ++ nonce ++ bytesLE 8 s.now ++ bytesLE 4 (s.rg R.CG_RETRY_COUNT).toNat
    ++ bytesLE 4 (b2n (s.rb R.CG_ICP_POLICY F.CG_ICP_POLICY_SIGNED) + 2 * b2n (s.rb R.SC_DBG_STAT F.SC_DBG_STAT_UNLOCKED))
  let body := fitB 0x5C0 (fitB 0x80 head ++ ms.flatten) ++ key ++ List.replicate 12 0
  body ++ fitB 384 (Config.rsaSign s.freeCtr body) ++ fitB 16224 (Config.slhSign s.freeCtr body)

/-- Words of SMB written for a partner at an offset (R341): the flag says that the WR would be answered OK. -/
def State.smbPut (s : State) (pid a : Nat) (l : List Byte) : State × Bool :=
  if 0x3000000 < a + l.length then (s, false)
  else
    let (s1, ok) := s.fwJudge pid 0 a false true
    if ¬ ok then (s1, false)
    else if ¬ s1.domOn (2 + a / 0x80000 / 12) then (s1, false)
    else
      let (s2, st) := s1.writeWords 1 ((List.range (l.length / 8)).map (fun i =>
        (s1.smbPlace (a + 8 * i), ofBytesLE (sliceB l (8 * i) 8), 255)))
      (s2, st == 0)

/-- ATTEST_DONE (R341): the report goes to SMB as WR requests of at most 512 B each, every one judged as the requester's. -/
def execAttestDone (s : State) : Host.Outcome State Fault Refusal :=
  .next (match s.sc.att with
    | none => s
    | some a => if s.smbRangeHeld a.base (512 * 37) then s else
      let l := s.report5 a.nonce
      let s0 : State := { s with sc := { s.sc with att := none }, freeCtr := s.freeCtr + 1 }
      let (s1, ok) := (List.range 37).foldl (fun (q : State × Bool) k =>
        let (t, g) := q.1.smbPut a.pid (a.base + 512 * k) (sliceB l (512 * k) 512)
        (t, q.2 && g)) (s0, true)
      (s1.setRg R.SC_ATT_STAT (if ok then 0 else 4)).raiseF R.SC_EVT F.SC_EVT_ATT_DONE)

end Sys2Proof.Machine
end

