-- ==== Sys2Proof/Machine/RegWrite.lean ====
section
/-! DEFINITION. What a register write does in each block beside storing its RW, W1C and W1S bits (R5, R504): the command bits and the
settings that a block takes at once. The effects themselves are in the blocks' own files. -/

namespace Sys2Proof.Machine

/-- Who makes a register access: its partner ID, whether it is the control core, and whether its code comes from the Starter ROM. -/
structure BusWho where
  pid  : Nat
  core : Bool
  rom  : Bool
deriving DecidableEq, Repr

/-- A command run where a bit asks for it. -/
def State.cmdIf (s : State) (c : Bool) (f : State → Host.Outcome State Fault Refusal) : State := if c then s.after (f s) else s

/-- A command that the block runs. -/
def State.cmd (s : State) (f : State → Host.Outcome State Fault Refusal) : State := s.after (f s)

/-! The Yoke, marks, Cuffs -/

/-- YK_AX_CMD (R46): its bits are commands. -/
def State.axCmd (s : State) (n : Fin 8) (v : Word) : State :=
  (((s.cmdIf (F.YK_AX_CMD_SET.bit v) (execAxSet n)).cmdIf (F.YK_AX_CMD_SETV.bit v) (execAxSetv n)).cmdIf
    (F.YK_AX_CMD_RESUME.bit v) (execAxResume n)).cmdIf (F.YK_AX_CMD_AX_RST.bit v) (execAxRst n)

/-- Block YK. -/
def State.wrYk (s : State) (a : Nat) (v : Word) : State :=
  if a = R.YK_CTRL then
    (s.cmdIf (F.YK_CTRL_SNAP_ALL.bit v) execSnapAll).cmdIf (F.YK_CTRL_BLK_RST.bit v) execYkBlkRst
  else if R.YK_AX_CFG 0 ≤ a ∧ a < R.YK_AX_CFG 8 then
    let n : Fin 8 := Fin.ofNat 8 ((a - R.YK_AX_CFG 0) / 0x100)
    if a = R.YK_AX_CFG n then s.cmd (execAxCfgWrite n v)
    else if a = R.YK_AX_FILT n then s.cmd (execAxFiltWrite n v)
    else if a = R.YK_AX_SSI n then s.cmd (execAxSsiWrite n v)
    else if a = R.YK_AX_MOD_LO n then s.cmd (execModLoWrite n v)
    else if a = R.YK_AX_MOD_HI n then s.cmd (execModHiWrite n v)
    else if a = R.YK_AX_CMD n then s.axCmd n v
    else s.store a v
  else s.store a v

/-- Block MK. -/
def State.wrMk (s : State) (a : Nat) (v : Word) : State :=
  (s.mkWrite a v).cmdIf (decide (a = R.MK_CTRL) && F.MK_CTRL_BLK_RST.bit v) execMkBlkRst

/-- Block CF. -/
def State.wrCf (s : State) (a : Nat) (v : Word) : State :=
  if a = R.CF_CTRL then s.cmdIf (F.CF_CTRL_BLK_RST.bit v) execCfBlkRst
  else match regIx (R.CF_CFG 0) 128 4 a with
    | some n => s.cmd (execCfCfgWrite (Fin.ofNat 128 n) v)
    | none => s.store a v

/-! The Array, Pleats, queues -/

/-- AR_EXP_CFG[k] (R126): a port enabled by the write captures its Cuffs anew; a disabled one keeps no word waiting, and its
output register holds 0 (R127). -/
def State.expCfg (s : State) (k : Nat) (v : Word) : State :=
  let was := s.rb (R.AR_EXP_CFG k) F.AR_EXP_CFG_EN
  let s1 := s.store (R.AR_EXP_CFG k) v
  let en := s1.rb (R.AR_EXP_CFG k) F.AR_EXP_CFG_EN
  let new := s1.arr.expNew.filter (fun j => j != k)
  if en && was then s1
  else
    let s2 := if en then s1 else s1.setRg (R.AR_EXP_OUT k) 0
    let x : Arr := { s2.arr with
      expNew := if en then new ++ [k] else new
      expPend := s2.arr.expPend.filter (fun e => e.1 != k) }
    { s2 with arr := x }

/-- Block AR. -/
def State.wrAr (s : State) (a : Nat) (v : Word) : State :=
  if a = R.AR_CTRL then
    ((s.store a v).cmd (execFreezeWrite (F.AR_CTRL_FREEZE.bit v))).cmdIf (F.AR_CTRL_BLK_RST.bit v) execArBlkRst
  else if a = R.AR_COLMAP then s.cmd (execArColmapWrite v)
  else if a = R.AR_PE_CMD then
    if F.AR_PE_CMD_RD.bit v then s.cmd execPeDataRead else s.cmdIf (F.AR_PE_CMD_WR.bit v) execPeDataWrite
  else match regIx (R.AR_EXP_CFG 0) 16 4 a with
    | some k => s.expCfg k v
    | none => s.store a v

/-- Block PL. -/
def State.wrPl (s : State) (a : Nat) (v : Word) : State :=
  if a = R.PL_CTRL then
    (s.cmdIf (F.PL_CTRL_CANCEL_WAVES.bit v) execCancelWaves).cmdIf (F.PL_CTRL_BLK_RST.bit v) execPlBlkRst
  else if a = R.PL_FOLD_CMD then s.cmdIf (F.PL_FOLD_CMD_GO.bit v) (execFoldCmdGo v)
  else if a = R.PL_LOAD_CMD then if F.PL_LOAD_CMD_GO.bit v then s.cmd (execPleatLoadQueue v) else s
  else if a = R.PL_WCMD then
    if F.PL_WCMD_RD.bit v then s.cmd execPleatWordRead else s.cmdIf (F.PL_WCMD_WR.bit v) execPleatWordWrite
  else s.store a v

/-- Is an offset one of the configuration registers of a queue or sensor port (R178)? -/
def sqConfig (a : Nat) : Bool :=
  (R.SQ_Q_CFG 0 ≤ a && a < R.SQ_Q_CFG 1024 && a % 64 < 0x10) || (R.SQ_SP_CFG 0 ≤ a && a < R.SQ_SP_CFG 8 && a % 32 < 0xC)

/-- Block SQ. -/
def State.wrSq (s : State) (a : Nat) (v : Word) : State :=
  if a = R.SQ_CTRL then s.cmdIf (F.SQ_CTRL_BLK_RST.bit v) execSqBlkRst
  else if sqConfig a then s.sqConfigWrite a v
  else match regIx (R.SQ_Q_CMD 0) 1024 64 a, regIx (R.SQ_PQ_CMD 0) 136 16 a, regIx (R.SQ_SP_CMD 0) 8 32 a with
    | some q, _, _ => if F.SQ_Q_CMD_FLUSH.bit v then s.flushQ q else s
    | _, some k, _ => if F.SQ_PQ_CMD_FLUSH.bit v then s.flushQ (1024 + k) else s
    | _, _, some p => s.cmdIf (F.SQ_SP_CMD_ALIGN.bit v) (execSpAlign (Fin.ofNat 8 p))
    | none, none, none => s.store a v

/-! Network, probes, stream memory -/

/-- Block NW: a node marked lost (R214). -/
def State.wrNw (s : State) (a : Nat) (v : Word) : State :=
  match regIx (R.NW_NODE_CTL 0) 120 4 a with
  | some n => if F.NW_NODE_CTL_LOST.bit v then s.loseNode n else s
  | none => s.store a v

/-- DB_CTRL: a trace enabled sends the records that wait (R222). -/
def State.dbCtrl (s : State) (v : Word) : State :=
  let s1 := s.store R.DB_CTRL v
  s1.tracePort.cmdIf (F.DB_CTRL_BLK_RST.bit v) execDbBlkRst

/-- Block DB. -/
def State.wrDb (s : State) (a : Nat) (v : Word) : State :=
  if a = R.DB_CTRL then s.dbCtrl v
  else match regIx (R.DB_PRB_CMD 0) 16 0x100 a with
    | some k => s.cmdIf (F.DB_PRB_CMD_CLR.bit v) (execProbeClr (Fin.ofNat 16 k))
    | none => s.store a v

/-- SM_REPAIR_CMD with GO (R239). -/
def State.repairGo (s : State) (v : Word) : State :=
  let bank := F.SM_REPAIR_CMD_BANK.get v
  let b : Fin 96 := Fin.ofNat 96 bank
  let row : Fin 4096 := Fin.ofNat 4096 (F.SM_REPAIR_CMD_ROW.get v)
  if 96 ≤ bank then s
  else match F.SM_REPAIR_CMD_KIND.get v with
    | 0 => s.cmd (execRepairSoft b row)
    | 1 => s.cmd (execRepairTemp b row)
    | 2 => s.cmd (execRepairRelease b row)
    | _ => s

/-- Block SM. -/
def State.wrSm (s : State) (a : Nat) (v : Word) : State :=
  if a = R.SM_CTRL then (s.store a v).cmdIf (F.SM_CTRL_BLK_RST.bit v) execSmBlkRst
  else if a = R.SM_SCR_CMD then
    (s.cmdIf (F.SM_SCR_CMD_ABORT.bit v) execScrubAbort).cmdIf (F.SM_SCR_CMD_GO.bit v) execScrubGo
  else if a = R.SM_REPAIR_CMD then if F.SM_REPAIR_CMD_GO.bit v then s.repairGo v else s
  else s.store a v

/-! Fabric, configuration -/

/-- Block FB, without its user window. -/
def State.wrFb (s : State) (a : Nat) (v : Word) : State :=
  if a = R.FB_CTRL then s.cmdIf (F.FB_CTRL_BLK_RST.bit v) execFbBlkRst
  else if a = R.FB_CAP_CMD then
    (s.cmdIf (F.FB_CAP_CMD_CANCEL.bit v) execCapCancel).cmdIf (F.FB_CAP_CMD_ARM.bit v) execCapArm
  else if R.FB_PLL_CFG 0 ≤ a ∧ a < R.FB_PLL_CFG 4 ∧ a % 0x20 < 0x1C then s.pllWrite ((a - R.FB_PLL_CFG 0) / 0x20) a v
  else match regIx (R.FB_MPORT_CFG 0) 4 4 a, regIx (R.FB_TMR_CMP 0) 32 0x10 a with
    | some m, _ => s.cmd (execMportCfgWrite (Fin.ofNat 4 m) v)
    | none, some k => s.cmpWrite k v
    | none, none => s.store a v

/-- Block CG. -/
def State.wrCg (s : State) (a : Nat) (v : Word) : State :=
  if a = R.CG_CTRL then
    (s.cmdIf (F.CG_CTRL_PL_ABORT.bit v) execPlAbort).cmdIf (F.CG_CTRL_LIB_ABORT.bit v) execLibAbort
  else if a = R.CG_HOST_CMD then s.cmdIf (F.CG_HOST_CMD_GO.bit v) execCgHostGo
  else if a = R.CG_RB_CMD then s.cmdIf (F.CG_RB_CMD_RD.bit v) execReadback
  else if a = R.CG_LIB_CMD then s.cmdIf (F.CG_LIB_CMD_GO.bit v) (execLibGo v)
  else s.store a v

/-! Flash, OTP, security -/

/-- Block FL; the flag is false where the firewall refuses the flash access that a command makes (R344). -/
def State.wrFl (s : State) (w : BusWho) (a : Nat) (v : Word) : State × Bool :=
  if a = R.FL_CTRL then
    (((((s.store a v).cmdIf (F.FL_CTRL_SUSPEND.bit v) execFlashSuspend).cmdIf (F.FL_CTRL_RESUME.bit v) execFlashResume).cmdIf
      (F.FL_CTRL_BLK_RST.bit v) execFlBlkRst), true)
  else if a = R.FL_CMD then
    if F.FL_CMD_GO.bit v then s.flOp w.pid (F.FL_CMD_OP.get v) (F.FL_CMD_LEN.get v) else (s, true)
  else (s.store a v, true)

/-- Block OT. -/
def State.wrOt (s : State) (a : Nat) (v : Word) : State :=
  if a = R.OT_CMD then
    if F.OT_CMD_RD.bit v then s.cmd execOtpRead else s.cmdIf (F.OT_CMD_PROG.bit v) execOtpProg
  else s.store a v

/-- Block SC. -/
def State.wrSc (s : State) (w : BusWho) (a : Nat) (v : Word) : State :=
  if a = R.SC_ATT_CMD then if F.SC_ATT_CMD_GO.bit v then s.attest w.pid else s
  else if a = R.SC_TP_CMD then
    let s1 := if F.SC_TP_CMD_PROPOSE.bit v then s.propose w.pid else s
    let s2 := if F.SC_TP_CMD_CONSENT.bit v then s1.consent w.pid else s1
    if F.SC_TP_CMD_CANCEL.bit v then s2.tpCancel w.pid else s2
  else s.store a v

/-! Host, Lace, events, Ethernet -/

/-- HI_CTRL (R355): a MMIO_PID of 0 leaves the field as it is. -/
def State.hiCtrl (s : State) (v : Word) : State :=
  let p := F.HI_CTRL_MMIO_PID
  let s1 := s.store R.HI_CTRL (if p.get v = 0 then p.put v (s.rf R.HI_CTRL p) else v)
  s1.cmdIf (F.HI_CTRL_BLK_RST.bit v) execHiBlkRst

/-- HI_MSIX_CTL[n]: a vector unmasked while its message waits sends it (PCIe format). -/
def State.msixCtl (s : State) (n : Nat) (v : Word) : State :=
  let s1 := s.store (R.HI_MSIX_CTL n) v
  let p := s1.rg (R.HI_MSIX_PBA (n / 32))
  if wbit p (n % 32) ∧ ¬ s1.rb (R.HI_MSIX_CTL n) F.HI_MSIX_CTL_MASK then
    (s1.setRg (R.HI_MSIX_PBA (n / 32)) (w32 (clrBit p.toNat (n % 32)))).sendMsix n
  else s1

/-- Queue pair registers: HI_QP_CFG and the ring bases, which an enabled queue pair refuses (R358). -/
def State.qpWrite (s : State) (q a : Nat) (v : Word) : State :=
  if a = R.HI_QP_CFG q then s.qpCfgWrite q v
  else if a < R.HI_QP_CFG q ∧ s.rb (R.HI_QP_CFG q) F.HI_QP_CFG_EN then s.hiCfgErr
  else s.store a v

/-- Block HI. -/
def State.wrHi (s : State) (a : Nat) (v : Word) : State :=
  if a = R.HI_CTRL then s.hiCtrl v
  else if a = R.HI_PT_CMD then
    (s.cmdIf (F.HI_PT_CMD_JOIN.bit v) execPtJoin).cmdIf (F.HI_PT_CMD_LEAVE.bit v) execPtLeave
  else if a = R.HI_RSV_CMD then
    (s.cmdIf (F.HI_RSV_CMD_RELEASE.bit v) (execReservationRelease (Fin.ofNat 256 (F.HI_RSV_CMD_INDEX.get v)))).cmdIf
      (F.HI_RSV_CMD_RESERVE.bit v) execRsvReserve
  else if R.HI_QP_SQ_BASE_LO 0 ≤ a ∧ a < R.HI_QP_SQ_BASE_LO 1024 then s.qpWrite ((a - R.HI_QP_SQ_BASE_LO 0) / 0x20) a v
  else match regIx (R.HI_MSIX_CTL 0) 64 16 a with
    | some n => s.msixCtl n v
    | none => s.store a v

/-- Block LC. -/
def State.wrLc (s : State) (a : Nat) (v : Word) : State :=
  if a = R.LC_CMD then
    (s.cmdIf (F.LC_CMD_DISCOVER.bit v) execLcDiscover).cmdIf (F.LC_CMD_START.bit v) execLcStartCmd
  else if a = R.LC_IMG_CMD then s.cmdIf (F.LC_IMG_CMD_GO.bit v) (execLcImgGo v)
  else s.store a v

/-- Block EV. -/
def State.wrEv (s : State) (a : Nat) (v : Word) : State :=
  match regIx (R.EV_SRC_CFG 0) 1536 4 a with
  | some k => s.cmd (execEvSrcCfgWrite (Fin.ofNat 1536 k) v)
  | none => s.store a v

/-- Block EN. EN_PTP_INC counts from the write on (R191). -/
def State.wrEn (s : State) (a : Nat) (v : Word) : State :=
  if a = R.EN_CTRL then
    (s.cmdIf (F.EN_CTRL_PTP_SET.bit v) execPtpSet).cmdIf (F.EN_CTRL_BLK_RST.bit v) execEnBlkRst
  else if a = R.EN_PTP_STEP then s.cmd (execEnPtpStep v)
  else if a = R.EN_PTP_INC then (s.setPtp s.ptpNow).store a v
  else s.store a v

/-! Control core, fault unit -/

/-- CC_CTRL (R414): a block reset stands over RUN. -/
def State.ccCtrl (s : State) (v : Word) : State :=
  if F.CC_CTRL_BLK_RST.bit v then s.cmd execCcBlkRst
  else (s.cmdIf (F.CC_CTRL_HALT.bit v) execCcHalt).cmdIf (F.CC_CTRL_RUN.bit v) execCcRun

/-- CC_PID (R400): 0 is no partner ID of the core; a field written 0 keeps its value. -/
def State.ccPid (s : State) (v : Word) : State :=
  let keep := fun (f : Fld) (x : Word) => if f.get x = 0 then f.put x (s.rf R.CC_PID f) else x
  s.store R.CC_PID (keep F.CC_PID_USER (keep F.CC_PID_PRIV v))

/-- Block CC. -/
def State.wrCc (s : State) (w : BusWho) (a : Nat) (v : Word) : State :=
  if a = R.CC_CTRL then s.ccCtrl v
  else if a = R.CC_PID then s.ccPid v
  else if a = R.CC_WDT_CFG then s.ccWdtWrite v w.rom
  else if a = R.CC_WDT_KICK then s.ccKick v
  else if a = R.CC_MBOX_H2C then s.cmd (execMboxH2cWrite v)
  else if a = R.CC_MBOX_C2H then s.cmd (execMboxC2hWrite v)
  else s.store a v

/-- Block FT. -/
def State.wrFt (s : State) (a : Nat) (v : Word) : State :=
  if a = R.FT_CTRL then (s.store a v).cmdIf (F.FT_CTRL_BLK_RST.bit v) execFtBlkRst
  else if a = R.FT_INJECT then s.cmd (execFtInject v)
  else if R.FT_GRP_MASK_W0 0 ≤ a ∧ a < R.FT_GRP_MASK_W0 32 then
    let g := (a - R.FT_GRP_MASK_W0 0) / 0x20
    if a ≤ R.FT_GRP_CFG g then s.grpWrite a v
    else if a = R.FT_GRP_CMD g then
      (s.cmdIf (F.FT_GRP_CMD_CLEAR.bit v) (execGrpClear (Fin.ofNat 32 g))).cmdIf (F.FT_GRP_CMD_CKPT.bit v) (execFtCkpt (Fin.ofNat 32 g))
    else s.store a v
  else s.store a v

/-! Power, reset, clocks; HX -/

/-- Blocks RS, PW, CK. -/
def State.wrRs (s : State) (w : BusWho) (a : Nat) (v : Word) : State :=
  if a = R.RS_CTRL then s.rsCtrlWrite v
  else if a = R.RS_WDT_CFG then s.rsWdtWrite v w.rom
  else if a = R.RS_WDT_KICK then s.rsKick v
  else if a = R.PW_DOM_CMD then if F.PW_DOM_CMD_GO.bit v then s.domCmd v else s
  else if a = R.CK_ACLK then s.aclkWrite v
  else s.store a v

/-- Block HX. -/
def State.wrHx (s : State) (a : Nat) (v : Word) : State :=
  if a = R.HX_CTRL then s.cmdIf (F.HX_CTRL_BLK_RST.bit v) execHxBlkRst
  else if a = R.HX_MIX_CFG then s.cmd (execHxMixCfgWrite v)
  else match regIx (R.HX_MAP 0) 256 4 a with
    | some i => s.hxAccess i (v.toNat % 0x10000)
    | none => s.store a v

/-! All blocks -/

/-- A write of a backed register by its block; the flag is false where the firewall refuses a flash access within it. -/
def State.blockWrite (s : State) (w : BusWho) (a : Nat) (v : Word) : State × Bool :=
  match blockOf a with
  | 1 => (s.wrRs w a v, true)
  | 2 => (s.wrYk a v, true)
  | 3 => (s.wrMk a v, true)
  | 4 => (s.wrCf a v, true)
  | 5 => (s.wrAr a v, true)
  | 6 => (s.wrPl a v, true)
  | 7 => (s.wrSq a v, true)
  | 8 => (s.wrNw a v, true)
  | 9 => (s.wrSm a v, true)
  | 10 => (s.wrFb a v, true)
  | 11 => (s.wrCg a v, true)
  | 12 => s.wrFl w a v
  | 13 => (s.wrOt a v, true)
  | 14 => (s.wrSc w a v, true)
  | 15 => (s.wrHi a v, true)
  | 16 => (s.wrEv a v, true)
  | 17 => (s.wrLc a v, true)
  | 18 => (s.wrEn a v, true)
  | 19 => (s.wrCc w a v, true)
  | 20 => (s.wrFt a v, true)
  | 21 => (s.wrHx a v, true)
  | 22 => (s.wrDb a v, true)
  | _ => (s.store a v, true)

end Sys2Proof.Machine
end

