-- ==== Sys2Proof/Machine/RegRead.lean ====
section
/-! DEFINITION. What a register reads (R5, R504): the value it holds, or, where the block shows its own state in it, that state; the
latches that a read takes; RC bits cleared. -/

namespace Sys2Proof.Machine

/-! Values shown -/

/-- Block YK: YK_TIME_LO latches YK_TIME_HI (R9), POS_LO the registers of its axis (R48). -/
def State.rdYk (s : State) (a : Nat) : State × Word :=
  if a = R.YK_TIME_LO then (s.setRg R.YK_TIME_HI (w32 (s.now / 2 ^ 32)), w32 s.now)
  else if a = R.YK_STATUS then (s, s.ykStatus)
  else match regIx (R.YK_AX_POS_LO 0) 8 0x100 a with
    | some n =>
      let t := if s.yk.snap.contains n then { s with yk := { s.yk with snap := s.yk.snap.filter (fun k => k != n) } } else s.latchAxis n
      (t, t.rg a)
    | none => (s, s.rg a)

/-- Block MK. -/
def State.rdMk (s : State) (a : Nat) : Word :=
  if R.MK_STAT 0 ≤ a ∧ a < R.MK_STAT 1024 then
    let n := (a - R.MK_STAT 0) / 16
    let m := s.mark n
    if a = R.MK_STAT n then m.stat
    else if a = R.MK_NEXT_LO n then w32 (trunc 64 m.target)
    else if a = R.MK_NEXT_HI n then w32 (trunc 64 m.target / 2 ^ 32)
    else m.firesReg
  else match regIx (R.MK_AX_STAT 0) 8 4 a with
    | some x => s.mkAxStat x
    | none => s.rg a

/-- Block CF. -/
def State.rdCf (s : State) (a : Nat) : Word :=
  match regIx (R.CF_STAT 0) 128 4 a with
  | some n => s.cfStat n
  | none => s.rg a

/-- AR_WPORT_STAT and AR_EPORT_STAT: the depths of row r's port queues. -/
def State.portDepths (s : State) (inQ outQ : Nat) : Word := w32 ((s.qu inQ).ents.length + 256 * (s.qu outQ).ents.length)

/-- Block AR. -/
def State.rdAr (s : State) (a : Nat) : Word :=
  match regIx (R.AR_WPORT_STAT 0) 32 4 a, regIx (R.AR_EPORT_STAT 0) 32 4 a with
  | some r, _ => s.portDepths (1024 + r) (1088 + r)
  | _, some r => s.portDepths (1056 + r) (1120 + r)
  | none, none => s.rg a

/-- PL_WAVE_STAT of a slot (R145). -/
def State.waveStat (s : State) (k : Nat) : Word :=
  match s.slotOf k with
  | some x => w32 (1 + 16 * x.req.target + 256 * (x.seq % 4096) + 2 ^ 20 * ((x.todo.map peTile).eraseDups).length)
  | none => 0

/-- PL_PE_ACT of a PE: its Pleat, WAITING while FOLD tokens stand at the head of some of its enabled inputs and not of all, or while a slot that
is stuck has not folded it (R154), and its valid Pleats. -/
def State.peActStat (s : State) (i : Nat) : Word :=
  let head := fun (d : Nat) => match ((s.pe i).fifo d).toks.head? with | some t => t.fold | none => false
  let prim := if s.isTwin i then i - 1 else i
  let wait := ((s.inputs i).any head && !(s.inputs i).all head) || s.arr.slots.any (fun k => k.stuck && k.todo.contains prim)
  w32 ((s.pe i).act + 16 * b2n wait + 256 * (List.range 16).foldl (fun x p => x + b2n (s.validAt i p) * 2 ^ p) 0)

/-- A bit for each Pleat. -/
def pleatBits (f : Nat → Bool) : Nat := (List.range 16).foldl (fun x p => x + b2n (f p) * 2 ^ p) 0

/-- PL_TILE_STAT of a tile (R136, R160). -/
def State.tileStat (s : State) (t : Nat) : Word :=
  w32 (pleatBits (fun p => (List.range 16).all (fun j => s.validAt (16 * t + j) p)) + 2 ^ 16 * pleatBits (fun p => s.busy t p))

/-- Block PL. -/
def State.rdPl (s : State) (a : Nat) : Word :=
  if a = R.PL_FOLD_STAT then w32 (s.arr.foldQ.length + 32 * s.arr.slots.length + 2 ^ 20 * (s.arr.seq % 4096))
  else if a = R.PL_LOAD_STAT then F.PL_LOAD_STAT_QDEPTH.put (s.rg a) s.loadDepth
  else match regIx (R.PL_WAVE_STAT 0) 16 4 a, regIx (R.PL_TILE_STAT 0) 96 4 a, regIx (R.PL_TILE_LOAD 0) 96 4 a,
      regIx (R.PL_PE_ACT 0) 1536 4 a with
    | some k, _, _, _ => s.waveStat k
    | _, some t, _, _ => s.tileStat t
    | _, _, some t, _ => w32 (pleatBits (fun p => s.loadingAt t p))
    | _, _, _, some i => s.peActStat i
    | none, none, none, none => s.rg a

/-- Block SQ. -/
def State.rdSq (s : State) (a : Nat) : Word :=
  match regIx (R.SQ_Q_STAT 0) 1024 64 a, regIx (R.SQ_Q_ITEMS 0) 1024 64 a, regIx (R.SQ_PQ_STAT 0) 136 16 a, regIx (R.SQ_SP_STAT 0) 8 32 a with
  | some q, _, _, _ => (s.qu q).stat
  | _, some q, _, _ => w32 (s.qu q).items
  | _, _, some k, _ => (s.qu (1024 + k)).pstat
  | _, _, _, some p => s.spStat p
  | none, none, none, none => s.rg a

/-- Block EN: EN_PTP_NS shows the clock and latches its seconds (R191); EN_TXTS_NS removes a timestamp (R192). -/
def State.rdEn (s : State) (a : Nat) : State × Word :=
  if a = R.EN_PTP_NS then
    let (sec, ns) := ptpSplit s.ptpNow
    ({ s with en := { s.en with latch := sec } }, w32 ns)
  else if a = R.EN_PTP_SEC_LO then (s, w32 s.en.latch)
  else if a = R.EN_PTP_SEC_HI then (s, w32 (s.en.latch / 2 ^ 32))
  else match regIx (R.EN_TXTS_NS 0) 4 0x40 a with
    | some p => s.txtsRead p
    | none => (s, s.rg a)

/-- Block DB: BYTES_LO latches BYTES_HI. -/
def State.rdDb (s : State) (a : Nat) : State × Word :=
  match regIx (R.DB_PRB_BYTES_LO 0) 16 0x100 a, regIx (R.DB_PRB_BYTES_HI 0) 16 0x100 a with
  | some k, _ => ({ s with net := { s.net with hiLatch := Tab.put (fun _ => 0) s.net.hiLatch k (s.rg (R.DB_PRB_BYTES_HI k)) } }, s.rg a)
  | _, some k => (s, Tab.get (fun _ => 0) s.net.hiLatch k)
  | none, none => (s, s.rg a)

/-- Block LC: OFS_LO latches OFS_HI. -/
def State.rdLc (s : State) (a : Nat) : State × Word :=
  match regIx (R.LC_PORT_OFS_LO 0) 2 0x20 a, regIx (R.LC_PORT_OFS_HI 0) 2 0x20 a with
  | some p, _ => ({ s with lc := { s.lc with ofsHi := Tab.put (fun _ => 0) s.lc.ofsHi p (s.rg (R.LC_PORT_OFS_HI p)) } }, s.rg a)
  | _, some p => (s, Tab.get (fun _ => 0) s.lc.ofsHi p)
  | none, none => (s, s.rg a)

/-- Block CC; a read of a full mailbox by the side it is meant for empties it (R412). -/
def State.rdCc (s : State) (w : BusWho) (a : Nat) : State × Word :=
  if a = R.CC_STAT then (s, s.ccStat)
  else if a = R.CC_PC then (s, s.cc.pc)
  else if a = R.CC_WDT_LEFT then (s, if s.rb R.CC_WDT_CFG F.CC_WDT_CFG_EN then w32 ((s.ccLeft + 49999) / 50000) else s.rg a)
  else if a = R.CC_MBOX_H2C ∧ w.core then s.mboxRead a F.CC_MBOX_STAT_H2C_FULL
  else if a = R.CC_MBOX_C2H ∧ ¬ w.core then s.mboxRead a F.CC_MBOX_STAT_C2H_FULL
  else (s, s.rg a)

/-- Blocks RS, PW, CK. -/
def State.rdRs (s : State) (a : Nat) : Word :=
  if a = R.RS_WDT_LEFT then if s.rb R.RS_WDT_CFG F.RS_WDT_CFG_EN then w32 ((s.rsLeft + 499999) / 500000) else s.rg a
  else match regIx (R.PW_DOM_STAT 0) 17 4 a with
    | some d => F.PW_DOM_STAT_STATE.put 0 (s.domShown d)
    | none => s.rg a

/-- Block HI. -/
def State.rdHi (s : State) (a : Nat) : Word :=
  match regIx (R.HI_QP_STAT 0) 1024 0x20 a with
  | some q => s.hiQpStat q
  | none => s.rg a

/-- Block HX. -/
def State.rdHx (s : State) (a : Nat) : State × Word :=
  if a = R.HX_STAT then (s, s.hxStat)
  else match regIx (R.HX_MAP 0) 256 4 a with
    | some i => let (t, x) := s.hxRead i
                (t, w32 x)
    | none => (s, s.rg a)

/-- EV_STAT. -/
def State.pendAny (s : State) : Bool := (List.range 1536).any (fun k => s.srcEn k && s.srcPending k)

/-! All blocks -/

/-- The value of a backed register and the latches that its read takes. -/
def State.shown (s : State) (w : BusWho) (a : Nat) : State × Word :=
  match blockOf a with
  | 1 => (s, s.rdRs a)
  | 2 => s.rdYk a
  | 3 => (s, s.rdMk a)
  | 4 => (s, s.rdCf a)
  | 5 => (s, s.rdAr a)
  | 6 => (s, s.rdPl a)
  | 7 => (s, s.rdSq a)
  | 10 => (s, if a = R.FB_REL_STAT then s.relStat else s.rg a)
  | 14 => (s, if a = R.SC_TP_STAT then s.tpStat else if a = R.SC_DBG_STAT then s.dbgStat else s.rg a)
  | 15 => (s, s.rdHi a)
  | 16 => (s, if a = R.EV_STAT then F.EV_STAT_PEND_ANY.put 0 (b2n s.pendAny) else s.rg a)
  | 17 => s.rdLc a
  | 18 => s.rdEn a
  | 19 => s.rdCc w a
  | 20 => (s, if a = R.FT_EXIT_CNT then s.exitCount false else if a = R.FT_EXIT_CKPT then s.exitCount true else s.rg a)
  | 21 => s.rdHx a
  | 22 => s.rdDb a
  | _ => (s, s.rg a)

end Sys2Proof.Machine
end

