-- ==== Sys2Proof/Machine/Serve.lean ====
section
/-! DEFINITION. What a request does at its target (06_ring_network.md, R200–R202, R218; 07_stream_memory.md, R226, R227, R231, R232;
03_array.md, R94; 18_address_map.md, R503–R505): stream memory, local memory, registers, kicks, event records, Lace messages. -/

namespace Sys2Proof.Machine

/-! Answers -/

/-- A request answered OK with its data. -/
def State.answerOk (s : State) (p : Packet) (data : List (BitVec 256)) : State := s.inject (p.reply 0 data)

/-- A request into a domain that is not ON (Table NW-7). -/
def State.answerOff (s : State) (p : Packet) : State := (s.answer p 4).raiseF R.NW_EVT F.NW_EVT_DOM_OFF

/-- The request p taken from where it was delivered and served by `f`; one that failed its header check or carries BAD units is answered
LINK_ERR (R200, R213). A request that is not there, or not the first of its port and VC, changes nothing (R217, R225). -/
def State.serve (s : State) (p : Packet) (f : State → State) : State :=
  if ¬ s.firstIn p then s
  else
    let s0 := s.unboxed p
    if ¬ p.parOk then (s0.hdrPar p).answer p 9
    else if p.bad then s0.answer p 9
    else f s0

/-- Does a domain take a request: it is ON, or closes and the request had reached its Seam before (R218)? -/
def State.seamTakes (s : State) (p : Packet) (d : Nat) : Bool := s.domOn d || (s.domState d == 3 && s.net.inTime.contains p)

/-- The same at a port behind the Seam of its domain (R218). -/
def State.serveOn (s : State) (p : Packet) (f : State → State) : State :=
  let on := s.seamTakes p (nodeDomain p.dst p.dstPort.toNat)
  s.serve p (fun t => if on then f t else t.answerOff p)

/-! Stream memory and local memory -/

/-- The places of a range of 64-bit words in the model's memory: SMB at port 0, local memory at port 3; none where the range does not
lie within the one bank or local memory that the node serves (R201). -/
def State.rangeOf (s : State) (p : Packet) (bytes : Nat) : Option (Nat → Nat) :=
  let a := p.addr.toNat
  if p.dstPort = 0 then s.smbRange p bytes
  else
    let i := a / 0x2000
    if i < 1536 ∧ peTile i + 12 = p.dst ∧ i = (a + bytes - 1) / 0x2000 then some (fun k => s.lmPlace i (a % 0x2000 / 4 + 2 * k)) else none

/-- A fill or a repair copy holds a place back (R233, R239, Table SM-4). -/
def State.memWaits (s : State) (p : Packet) (at_ : Nat) : Bool :=
  s.filling at_ || (match s.sm.run with
        | some r => p.dstPort == 0 && decide (p.addr.toNat / 0x80000 = r.bank)
            && decide (p.addr.toNat % 0x80000 / 128 ≤ r.row)
            && decide (r.row ≤ (p.addr.toNat % 0x80000 + 32 * max 1 p.len.toNat - 1) / 128)
        | none => false)

/-- A 256-bit unit of four words. -/
def unit4 (l : List Nat) : BitVec 256 := BitVec.ofNat 256 ((List.range 4).foldl (fun a i => a + l.getD i 0 * 2 ^ (64 * i)) 0)

/-- Words in units of four. -/
def units4 : List Nat → Nat → List (BitVec 256)
  | _, 0 => []
  | l, n + 1 => unit4 l :: units4 (l.drop 4) n

/-- A read served at a memory port (R231). -/
def State.memRead (s : State) (p : Packet) (place : Nat → Nat) : State :=
  let n := p.len.toNat
  let (s1, ds, st) := s.readWords (if p.dstPort = 0 then 1 else 0) ((List.range (4 * n)).map place)
  if st = 0 then s1.answerOk p (units4 ds n) else s1.answer p st

/-- A write served at a memory port (R226, R227, R232, R237): `lost` marks the words that port A writes in the same NCLK. -/
def State.memWrite (s : State) (p : Packet) (place : Nat → Nat) (lost : BitVec 64) : State :=
  let all := writeList p place
  let gone := fun (k : Nat) => p.dstPort == 0 && lost.toNat.testBit k && (match all[k]? with | some w => w.2.2 != 0 | none => false)
  let kept := (all.zip (List.range all.length)).filterMap (fun e => if gone e.2 then none else some e.1)
  let (s1, st) := s.writeWords (if p.dstPort = 0 then 1 else 0) kept
  if (List.range all.length).any gone then s1.writeLost.answer p 1
  else if st = 0 then s1.answerOk p [] else s1.answer p st

/-- An ATOM_ADD served at a memory port (R226, R227, R232). -/
def State.memAdd (s : State) (p : Packet) (place : Nat → Nat) (lost : Bool) : State :=
  let src := if p.dstPort = 0 then 1 else 0
  let (s1, old, st) := s.readWord (place 0) src
  if st ≠ 0 then s1.answer p st
  else if lost && p.dstPort == 0 then s1.writeLost.inject (p.reply 1 [BitVec.ofNat 256 old])
  else
    let sum := (old + (p.data.headD 0).toNat) % 2 ^ 64
    let (s2, _) := s1.writeWords src [(place 0, sum, 255)]
    s2.answerOk p [BitVec.ofNat 256 old]

/-- The memory access that a request makes. `lost`: see State.memWrite. -/
def State.memAccess (s : State) (p : Packet) (place : Nat → Nat) (lost : BitVec 64) : State :=
  match p.cmd.toNat with
  | 1 => s.memRead p place
  | 2 => s.memWrite p place lost
  | _ => s.memAdd p place (lost.toNat.testBit 0)

/-- A request at port B of a stream memory bank (R224, R344). -/
def State.smbServe (s : State) (p : Packet) (lost : BitVec 64) : State :=
  let (s1, st) := s.smbJudge p
  if st ≠ 0 then s1.answer p st
  else match s1.rangeOf p (memBytes p) with
    | none => s1.answer p 6
    | some place => s1.memAccess p place lost

/-- A request for local memory (R94, Table AR-2): it waits for its PE, or is answered LM_BUSY at once while LM_RING_EN is 0. -/
def State.lmServe (s : State) (p : Packet) : State :=
  if ¬ memShape p then s.answer p 6
  else match s.rangeOf p (memBytes p) with
    | none => s.answer p 6
    | some _ =>
      if s.rb (R.AR_TILE_CFG (peTile (p.addr.toNat / 0x2000))) F.AR_TILE_CFG_LM_RING_EN then
        { s with arr := { s.arr with lmWait := s.arr.lmWait ++ [{ pkt := p, time := s.now }] } }
      else s.answer p 5

/-- A RD, WR or ATOM_ADD at its target: a memory port, a Lace node (R381), or a port that does not take it (R195). -/
def State.memServe (s : State) (p : Packet) (lost : BitVec 64) : State :=
  let held := match s.rangeOf p (memBytes p) with
    | some place => (p.dstPort == 0 || p.dstPort == 3) && tileNode p.dst && s.memWaits p (place 0)
    | none => false
  if held then s
  else s.serveOn p (fun t =>
    if tileNode p.dst ∧ p.dstPort = 0 then t.smbServe p lost
    else if tileNode p.dst ∧ p.dstPort = 3 then t.lmServe p
    else if (p.dst = 111 ∨ p.dst = 112) ∧ p.dstPort = 0 then t.lcRequest p
    else t.answer p 8)

/-- Commands of Table NW-4. -/
def cmdKnown (c : Nat) : Bool := [1, 2, 3, 4, 5, 0x10, 0x11, 0x12, 0x13, 0x20, 0x21, 0x30, 0x31, 0x32, 0x33].contains c

/-- RD (R201, R231). A command that Table NW-4 does not name is answered UNSUPPORTED here. -/
def execNwRd (p : Packet) (s : State) : Host.Outcome State Fault Refusal :=
  .next (if ¬ cmdKnown p.cmd.toNat then s.serve p (fun t => t.answer p 8)
    else if p.cmd.toNat = 1 then s.memServe p 0 else s)
/-- WR (R201, R226, R227). -/
def execNwWr (p : Packet) (lost : BitVec 64) (s : State) : Host.Outcome State Fault Refusal :=
  .next (if p.cmd.toNat = 2 then s.memServe p lost else s)
/-- ATOM_ADD (R226, R227). -/
def execNwAtomAdd (p : Packet) (lost : Bool) (s : State) : Host.Outcome State Fault Refusal :=
  .next (if p.cmd.toNat = 3 then s.memServe p (if lost then 1 else 0) else s)

/-! Local memory accesses that wait -/

/-- The oldest local memory access that waits for a PE. -/
def State.lmFirst (s : State) (i : Nat) : Option LmWait := s.arr.lmWait.find? (fun w => w.pkt.addr.toNat / 0x2000 == i)

/-- A waiting access gone. -/
def State.lmDrop (s : State) (w : LmWait) : State := { s with arr := { s.arr with lmWait := s.arr.lmWait.erase w } }

/-- LM_ACCESS_GRANT (R94): in an ACLK without an access of its PE the oldest waiting one proceeds; it waits for a fill
(R244). -/
def execLmAccessGrant (pe : Fin 1536) (s : State) : Host.Outcome State Fault Refusal :=
  .next (match s.lmFirst pe with
    | none => s
    | some w =>
      match s.rangeOf w.pkt (memBytes w.pkt) with
      | none => (s.lmDrop w).answer w.pkt 6
      | some place => if s.filling (place 0) then s else (s.lmDrop w).memAccess w.pkt place 0)

/-- LM_WAIT_TIMEOUT (R94): the oldest access that has waited AR_LM_WAIT.MAX ACLK completes with LM_BUSY and changes no memory;
AR_ERR_LOC names its PE. -/
def execLmWaitTimeout (s : State) : Host.Outcome State Fault Refusal :=
  let max := s.aclkY (s.rf R.AR_LM_WAIT F.AR_LM_WAIT_MAX)
  .next (match s.arr.lmWait.find? (fun w => decide (w.time + max ≤ s.now)) with
    | none => s
    | some w => (((s.lmDrop w).answer w.pkt 5).raiseF R.AR_EVT F.AR_EVT_LM_BUSY).arErr (w.pkt.addr.toNat / 0x2000) 5)

/-! Registers (R503–R505, Table AM-2) -/

/-- Is an offset in the user window of the fabric (R263)? -/
def inUwin (off : Nat) : Bool := decide (0x480000 ≤ off) && decide (off < 0x500000)

/-- Is an offset backed (R503)? -/
def backed (off : Nat) : Bool := inUwin off || (findReg off).isSome

/-- A register access judged in the order of Table AM-2: 0, or the status that answers it. -/
def State.regJudge (s : State) (pid off : Nat) (shape wr : Bool) : State × Nat :=
  if 0x6F0000 ≤ off then (s, 6)
  else
    let (s1, ok) := s.fwJudge pid 1 off (!wr) wr
    (s1, if ¬ ok then 7 else if off % 4 ≠ 0 ∨ ¬ shape then 6 else if ¬ backed off then 6
         else if ¬ s1.domOn (blockDomain (blockOf off)) then 4 else 0)

/-- A backed register written: a block held in reset keeps what it holds. The flag is false where the firewall refuses a flash access. -/
def State.regWrite (s : State) (w : BusWho) (off : Nat) (v : Word) : State × Bool :=
  if s.blkHeld (blockOf off) then (s, true) else s.blockWrite w off v

/-- A backed register read, its RC bits cleared. -/
def State.regRead (s : State) (w : BusWho) (off : Nat) : State × Word :=
  if s.blkHeld (blockOf off) then (s, s.rg off)
  else
    let (t, v) := s.shown w off
    (t.readClear off, v)

/-- Who sent a request: the core's ROM code keeps its program counter at the access. -/
def State.whoOf (s : State) (p : Packet) : BusWho :=
  let core := p.src == 2 && p.srcPort == 0
  { pid := p.partner.toNat, core := core, rom := core && decide (0xFFF00000 ≤ s.cc.pc.toNat) }

/-- Has a node a register port (R195, Table NW-1)? -/
def regNode (n : Nat) : Bool := (List.range 24).any (fun b => blockNode b == n)

/-- Does the mark engine hold a register request back (R59): while CTL writes wait at its full insertion queue, and for one that would
wait there? -/
def State.mkHolds (s : State) (p : Packet) (wr : Bool) : Bool :=
  let off := p.addr.toNat
  p.dstPort == 1 && decide (0x20000 ≤ off) && decide (off < 0x40000) && p.parOk && !p.bad
    && (s.regJudge p.partner.toNat off (p.be == 0xF && p.data.length == (if wr then 1 else 0)) wr).2 == 0
    && (!s.mke.regq.isEmpty || (wr && s.mkStalls off (w32 (p.data.headD 0).toNat)))

/-- A register request at port 1 of the node of its block. -/
def State.regServe (s : State) (p : Packet) (wr : Bool) : State :=
  let late := s.seamTakes p (blockDomain (blockOf p.addr.toNat))
  if s.firstIn p ∧ s.mkHolds p wr then s
  else s.serve p (fun t =>
    if p.dstPort = 1 ∧ ¬ regNode p.dst then t.answer p 8
    else if p.dstPort ≠ 1 then
      if (p.dst = 111 ∨ p.dst = 112) ∧ p.dstPort = 0 then t.lcRequest p else t.answer p 8
    else
      let off := p.addr.toNat
      let shape := p.be == 0xF && p.data.length == (if wr then 1 else 0)
      let (t1, st0) := t.regJudge p.partner.toNat off shape wr
      let st := if st0 = 4 ∧ late then 0 else st0
      if blockNode (blockOf off) ≠ p.dst ∧ st ≠ 7 then t1.answer p 6
      else if st = 4 then t1.answerOff p
      else if st ≠ 0 then t1.answer p st
      else
        let v := w32 (p.data.headD 0).toNat
        if inUwin off then t1.uwinAccess (some p) off (if wr then some v else none)
        else if wr then
          let (t2, ok) := t1.regWrite (t1.whoOf p) off v
          if ok then t2.answerOk p [] else t2.answer p 7
        else
          let (t2, x) := t1.regRead (t1.whoOf p) off
          t2.answerOk p [BitVec.ofNat 256 x.toNat])

/-- REG_RD (R504). -/
def execNwRegRd (p : Packet) (s : State) : Host.Outcome State Fault Refusal :=
  .next (if p.cmd.toNat = 4 then s.regServe p false else s)
/-- REG_WR (R504). -/
def execNwRegWr (p : Packet) (s : State) : Host.Outcome State Fault Refusal :=
  .next (if p.cmd.toNat = 5 then s.regServe p true else s)
/-- MRD (R201): a register read on VC3. -/
def execNwMrd (p : Packet) (s : State) : Host.Outcome State Fault Refusal :=
  .next (if p.cmd.toNat = 0x31 then s.regServe p false else s)
/-- MWR (R201): a register write on VC3. -/
def execNwMwr (p : Packet) (s : State) : Host.Outcome State Fault Refusal :=
  .next (if p.cmd.toNat = 0x32 then s.regServe p true else s)

/-- REGISTER_WRITE (R504): a write of one register by the device's own partner, judged as Table AM-2 gives. -/
def execRegisterWrite (off : BitVec 24) (v : Word) (s : State) : Host.Outcome State Fault Refusal :=
  let (s1, st) := s.regJudge 0 off.toNat true true
  .next (if st ≠ 0 then s1
    else if inUwin off.toNat then s1.uwinAccess none off.toNat (some v)
    else (s1.regWrite { pid := 0, core := false, rom := false } off.toNat v).1)

/-! Position-critical requests -/

/-- KICK (R179): at a queue engine; a queue that another engine serves is ignored. -/
def execNwKick (p : Packet) (s : State) : Host.Outcome State Fault Refusal :=
  let q := p.addr.toNat % 0x1000
  .next (if p.cmd.toNat ≠ 0x10 then s
    else s.serveOn p (fun t =>
      if ¬ tileNode p.dst ∨ p.dstPort ≠ 2 then t.answer p 8
      else if q < 1024 ∧ t.engineNode q = p.dst then (t.kick q).answerOk p []
      else (t.raiseF R.SQ_EVT F.SQ_EVT_KICK_IGN).answerOk p []))

/-- The flag and record of a source named by an event record (Table EV-2). -/
def State.takeRecord (s : State) (u : BitVec 256) : State :=
  let w0 := u.toNat % 2 ^ 32
  let src := w0 % 2048
  let d : EvData := { late := w0.testBit 12, hold := w0.testBit 13, detail := bitsOf w0 16 16, w2 := w32 (u.toNat / 2 ^ 64),
                      w3 := w32 (u.toNat / 2 ^ 96) }
  if src < 1024 then s.raiseWith (R.EV_MK_PEND (src / 32)) (src % 32) d
  else match srcReg src with
    | some (a, m) => s.raise a m
    | none => s

/-- PEVT (R201): an event record at the event unit. -/
def execNwPevt (p : Packet) (s : State) : Host.Outcome State Fault Refusal :=
  .next (if p.cmd.toNat ≠ 0x11 then s
    else s.serveOn p (fun t =>
      if p.dst = 6 ∧ p.dstPort = 0 then (t.takeRecord (p.data.headD 0)).answerOk p [] else t.answer p 8))

/-- The frame of an LSEND request (R75, R376): to a device, or to all. The flag says that a way exists. -/
def State.laceSend (s : State) (u : BitVec 256) : State × Bool :=
  let x := u.toNat
  let time : Int := 128 * (bitsOf x 64 48 : Nat) + (bitsOf x 112 7 : Nat)
  let fields : List Int := [((bitsOf x 8 8 : Nat) : Int), ((bitsOf x 32 32 : Nat) : Int)]
  if x.testBit 6 then (s.lcBroadcast 3 time fields, true) else s.lcSendTo 3 (bitsOf x 0 6) time fields

/-- LSEND (R201, R376). -/
def execNwLsend (p : Packet) (s : State) : Host.Outcome State Fault Refusal :=
  .next (if p.cmd.toNat ≠ 0x12 then s
    else s.serveOn p (fun t =>
      if ¬ (p.dst = 111 ∨ p.dst = 112) ∨ p.dstPort ≠ 0 then t.answer p 8
      else
        let (t1, ok) := t.laceSend (p.data.headD 0)
        if ok then t1.answerOk p [] else t1.answer p 11))

/-- AXS (R50, R201): the sample is broadcast. -/
def execNwAxs (p : Packet) (s : State) : Host.Outcome State Fault Refusal :=
  .next (if p.cmd.toNat ≠ 0x13 then s
    else s.serveOn p (fun t =>
      if ¬ (p.dst = 111 ∨ p.dst = 112) ∨ p.dstPort ≠ 0 then t.answer p 8
      else
        let x := (p.data.headD 0).toNat
        let fields : List Int := [((x % 8 : Nat) : Int), ((bitsOf x 3 2 : Nat) : Int), sext 64 (bitsOf x 32 64), sext 64 (bitsOf x 96 64)]
        (t.lcBroadcast 1 (128 * (bitsOf x 160 64 : Nat)) fields).answerOk p []))

/-! QUERY -/

/-- Registers read for a QUERY, from one offset upward (R362): the values read, and the first refusal (Table AM-2). A user window offset
is no register. -/
def State.queryGo (s : State) (w : BusWho) : Nat → Nat → State × List Word × Nat
  | 0, _ => (s, [], 0)
  | n + 1, off =>
    let (s1, st) := s.regJudge w.pid off true false
    if st ≠ 0 then (s1, [], st)
    else if inUwin off then (s1, [], 6)
    else
      let (s2, v) := s1.regRead w off
      let (s3, l, e) := State.queryGo s2 w n (off + 4)
      (s3, v :: l, e)

/-- QUERY (R362, Table HI-3, Table HI-5): COUNT consecutive registers read in one step and written to host memory. -/
def execDescQuery (q : Fin 1024) (dseq : Word) (s : State) : Host.Outcome State Fault Refusal :=
  .next (match s.running q dseq 8 with
    | none => s
    | some d =>
      let n := d.fld 5 0 5
      let off := d.fld 4 0 24
      let a := d.num 2
      if a % 4 ≠ 0 ∨ off % 4 ≠ 0 ∨ n = 0 ∨ 16 < n then s.descFail q d 2 0
      else
        let (s1, l, e) := s.queryGo { pid := s.qpPid q, core := false, rom := false } n off
        let s2 := if l.isEmpty then s1 else s1.emit (.hostWrite a l)
        let d1 : Desc := { d with units := l.length, started := true }
        let s3 := s2.setDesc q d1
        if e = 0 then s3.descEnd q d.dseq 0 0 n n 0
        else if e = 7 then s3.descFail q d1 3 0
        else s3.descFail q d1 8 e)

end Sys2Proof.Machine
end

