-- ==== Sys2Proof/Machine/Dispatch.lean ====
section
/-! DEFINITION. What each command does: one arm per constructor of Instr, each one direct call of its meaning. -/

namespace Sys2Proof.Machine

/-- The effect of a command on everything but the queue. -/
def exec (i : Instr) (s : State) : Host.Outcome State Fault Refusal :=
  match i with
  | .axCfgWrite n v => Sys2Proof.Machine.execAxCfgWrite n v s
  | .axFiltWrite n v => Sys2Proof.Machine.execAxFiltWrite n v s
  | .axSsiWrite n v => Sys2Proof.Machine.execAxSsiWrite n v s
  | .modLoWrite n v => Sys2Proof.Machine.execModLoWrite n v s
  | .modHiWrite n v => Sys2Proof.Machine.execModHiWrite n v s
  | .inputEdge cuff level r => Sys2Proof.Machine.execInputEdge cuff level r s
  | .edgeDeliver n => Sys2Proof.Machine.execEdgeDeliver n s
  | .ssiFrameStart n => Sys2Proof.Machine.execSsiFrameStart n s
  | .ssiFrameEnd n bits => Sys2Proof.Machine.execSsiFrameEnd n bits s
  | .sincosSample n => Sys2Proof.Machine.execSincosSample n s
  | .mainsSample n => Sys2Proof.Machine.execMainsSample n s
  | .observerUpdate => Sys2Proof.Machine.execObserverUpdate s
  | .lossDetect n => Sys2Proof.Machine.execLossDetect n s
  | .holdTimeout n => Sys2Proof.Machine.execHoldTimeout n s
  | .axSet n => Sys2Proof.Machine.execAxSet n s
  | .axSetv n => Sys2Proof.Machine.execAxSetv n s
  | .axResume n => Sys2Proof.Machine.execAxResume n s
  | .axRst n => Sys2Proof.Machine.execAxRst n s
  | .posLoRead n => Sys2Proof.Machine.execPosLoRead n s
  | .snapAll => Sys2Proof.Machine.execSnapAll s
  | .ykBlkRst => Sys2Proof.Machine.execYkBlkRst s
  | .axisSampleSend => Sys2Proof.Machine.execAxisSampleSend s
  | .markCtlWrite n v => Sys2Proof.Machine.execMarkCtlWrite n v s
  | .markInsertDone a => Sys2Proof.Machine.execMarkInsertDone a s
  | .markEngineCycle => Sys2Proof.Machine.execMarkEngineCycle s
  | .actNone n => Sys2Proof.Machine.execActNone n s
  | .actCuffEdge n => Sys2Proof.Machine.execActCuffEdge n s
  | .actFold n => Sys2Proof.Machine.execActFold n s
  | .actDmaKick n => Sys2Proof.Machine.execActDmaKick n s
  | .actEvent n => Sys2Proof.Machine.execActEvent n s
  | .actCapture n => Sys2Proof.Machine.execActCapture n s
  | .actFabricStrobe n => Sys2Proof.Machine.execActFabricStrobe n s
  | .actLaceSend n => Sys2Proof.Machine.execActLaceSend n s
  | .disarmAll => Sys2Proof.Machine.execDisarmAll s
  | .mkBlkRst => Sys2Proof.Machine.execMkBlkRst s
  | .cuffTransition n lvl oe tap => Sys2Proof.Machine.execCuffTransition n lvl oe tap s
  | .cfCfgWrite n v => Sys2Proof.Machine.execCfCfgWrite n v s
  | .cuffInputCapture n => Sys2Proof.Machine.execCuffInputCapture n s
  | .cfBlkRst => Sys2Proof.Machine.execCfBlkRst s
  | .arColmapWrite v => Sys2Proof.Machine.execArColmapWrite v s
  | .freezeWrite on => Sys2Proof.Machine.execFreezeWrite on s
  | .arBlkRst => Sys2Proof.Machine.execArBlkRst s
  | .peDataRead => Sys2Proof.Machine.execPeDataRead s
  | .peDataWrite => Sys2Proof.Machine.execPeDataWrite s
  | .peNop pe => Sys2Proof.Machine.execPeNop pe s
  | .peMov pe hit => Sys2Proof.Machine.execPeMov pe hit s
  | .peAdd pe => Sys2Proof.Machine.execPeAdd pe s
  | .peSub pe => Sys2Proof.Machine.execPeSub pe s
  | .peAnd pe => Sys2Proof.Machine.execPeAnd pe s
  | .peOr pe => Sys2Proof.Machine.execPeOr pe s
  | .peXor pe => Sys2Proof.Machine.execPeXor pe s
  | .peAndn pe => Sys2Proof.Machine.execPeAndn pe s
  | .peShl pe => Sys2Proof.Machine.execPeShl pe s
  | .peShr pe => Sys2Proof.Machine.execPeShr pe s
  | .peSra pe => Sys2Proof.Machine.execPeSra pe s
  | .peRol pe => Sys2Proof.Machine.execPeRol pe s
  | .peAdd2 pe => Sys2Proof.Machine.execPeAdd2 pe s
  | .peSub2 pe => Sys2Proof.Machine.execPeSub2 pe s
  | .peAdd4 pe => Sys2Proof.Machine.execPeAdd4 pe s
  | .peSub4 pe => Sys2Proof.Machine.execPeSub4 pe s
  | .peAbsd4 pe => Sys2Proof.Machine.execPeAbsd4 pe s
  | .peCmp pe => Sys2Proof.Machine.execPeCmp pe s
  | .peSel pe => Sys2Proof.Machine.execPeSel pe s
  | .peMin pe => Sys2Proof.Machine.execPeMin pe s
  | .peMax pe => Sys2Proof.Machine.execPeMax pe s
  | .peAbs pe => Sys2Proof.Machine.execPeAbs pe s
  | .pePopc pe => Sys2Proof.Machine.execPePopc pe s
  | .peClz pe => Sys2Proof.Machine.execPeClz pe s
  | .peBfx pe => Sys2Proof.Machine.execPeBfx pe s
  | .peBfi pe => Sys2Proof.Machine.execPeBfi pe s
  | .peMul pe => Sys2Proof.Machine.execPeMul pe s
  | .peMulh pe => Sys2Proof.Machine.execPeMulh pe s
  | .peMac32 pe => Sys2Proof.Machine.execPeMac32 pe s
  | .peMac16 pe => Sys2Proof.Machine.execPeMac16 pe s
  | .peMac8 pe => Sys2Proof.Machine.execPeMac8 pe s
  | .peAccrd pe => Sys2Proof.Machine.execPeAccrd pe s
  | .peAccld pe => Sys2Proof.Machine.execPeAccld pe s
  | .peDivs pe => Sys2Proof.Machine.execPeDivs pe s
  | .peCord pe => Sys2Proof.Machine.execPeCord pe s
  | .peLd pe => Sys2Proof.Machine.execPeLd pe s
  | .peSt pe => Sys2Proof.Machine.execPeSt pe s
  | .peLut pe => Sys2Proof.Machine.execPeLut pe s
  | .peCnt pe => Sys2Proof.Machine.execPeCnt pe s
  | .pePcmp pe => Sys2Proof.Machine.execPePcmp pe s
  | .peRoute pe => Sys2Proof.Machine.execPeRoute pe s
  | .peMerge pe => Sys2Proof.Machine.execPeMerge pe s
  | .peSplit pe => Sys2Proof.Machine.execPeSplit pe s
  | .peDrop pe => Sys2Proof.Machine.execPeDrop pe s
  | .peDup pe => Sys2Proof.Machine.execPeDup pe s
  | .peGate pe => Sys2Proof.Machine.execPeGate pe s
  | .peFoldgen pe => Sys2Proof.Machine.execPeFoldgen pe s
  | .expressInputChange k => Sys2Proof.Machine.execExpressInputChange k s
  | .lmAccessGrant pe => Sys2Proof.Machine.execLmAccessGrant pe s
  | .lmWaitTimeout => Sys2Proof.Machine.execLmWaitTimeout s
  | .foldCmdGo v => Sys2Proof.Machine.execFoldCmdGo v s
  | .foldReqRise k => Sys2Proof.Machine.execFoldReqRise k s
  | .foldArrive => Sys2Proof.Machine.execFoldArrive s
  | .foldIssue => Sys2Proof.Machine.execFoldIssue s
  | .foldLoadWaitTimeout => Sys2Proof.Machine.execFoldLoadWaitTimeout s
  | .foldSwitchEdge => Sys2Proof.Machine.execFoldSwitchEdge s
  | .foldTokenEnter => Sys2Proof.Machine.execFoldTokenEnter s
  | .peFold pe => Sys2Proof.Machine.execPeFold pe s
  | .waveStuck slot => Sys2Proof.Machine.execWaveStuck slot s
  | .foldgenGrant => Sys2Proof.Machine.execFoldgenGrant s
  | .cancelWaves => Sys2Proof.Machine.execCancelWaves s
  | .plBlkRst => Sys2Proof.Machine.execPlBlkRst s
  | .pleatLoadQueue v => Sys2Proof.Machine.execPleatLoadQueue v s
  | .loadStart => Sys2Proof.Machine.execLoadStart s
  | .tileLoadDone tile => Sys2Proof.Machine.execTileLoadDone tile s
  | .pleatWordRead => Sys2Proof.Machine.execPleatWordRead s
  | .pleatWordWrite => Sys2Proof.Machine.execPleatWordWrite s
  | .queuePush q data tag last fold err par lost => Sys2Proof.Machine.execQueuePush q data tag last fold err par lost s
  | .queuePop q => Sys2Proof.Machine.execQueuePop q s
  | .sqFlush q => Sys2Proof.Machine.execSqFlush q s
  | .flushForced q => Sys2Proof.Machine.execFlushForced q s
  | .truncationMarker q => Sys2Proof.Machine.execTruncationMarker q s
  | .sqConfigWrite off v => Sys2Proof.Machine.execSqConfigWrite off v s
  | .spAlign p => Sys2Proof.Machine.execSpAlign p s
  | .spAlignTimeout p => Sys2Proof.Machine.execSpAlignTimeout p s
  | .spWord p lanes tap => Sys2Proof.Machine.execSpWord p lanes tap s
  | .spClockLoss p => Sys2Proof.Machine.execSpClockLoss p s
  | .sqBlkRst => Sys2Proof.Machine.execSqBlkRst s
  | .enFrameReceive p frame fcsOk hold => Sys2Proof.Machine.execEnFrameReceive p frame fcsOk hold s
  | .enFrameTransmit p => Sys2Proof.Machine.execEnFrameTransmit p s
  | .enPtpStep v => Sys2Proof.Machine.execEnPtpStep v s
  | .ptpSet => Sys2Proof.Machine.execPtpSet s
  | .txtsRead p => Sys2Proof.Machine.execTxtsRead p s
  | .enBlkRst => Sys2Proof.Machine.execEnBlkRst s
  | .packetHop node out hit => Sys2Proof.Machine.execPacketHop node out hit s
  | .nwRd p => Sys2Proof.Machine.execNwRd p s
  | .nwWr p lost => Sys2Proof.Machine.execNwWr p lost s
  | .nwAtomAdd p lost => Sys2Proof.Machine.execNwAtomAdd p lost s
  | .nwRegRd p => Sys2Proof.Machine.execNwRegRd p s
  | .nwRegWr p => Sys2Proof.Machine.execNwRegWr p s
  | .nwKick p => Sys2Proof.Machine.execNwKick p s
  | .nwPevt p => Sys2Proof.Machine.execNwPevt p s
  | .nwLsend p => Sys2Proof.Machine.execNwLsend p s
  | .nwAxs p => Sys2Proof.Machine.execNwAxs p s
  | .nwRdata p => Sys2Proof.Machine.execNwRdata p s
  | .nwAck p => Sys2Proof.Machine.execNwAck p s
  | .nwMnote p => Sys2Proof.Machine.execNwMnote p s
  | .nwMrd p => Sys2Proof.Machine.execNwMrd p s
  | .nwMwr p => Sys2Proof.Machine.execNwMwr p s
  | .nwMrsp p => Sys2Proof.Machine.execNwMrsp p s
  | .linkCrcFail node link => Sys2Proof.Machine.execLinkCrcFail node link s
  | .linkIdleTimeout node link => Sys2Proof.Machine.execLinkIdleTimeout node link s
  | .nodeLostSet node => Sys2Proof.Machine.execNodeLostSet node s
  | .responseTimeout => Sys2Proof.Machine.execResponseTimeout s
  | .probeClr k => Sys2Proof.Machine.execProbeClr k s
  | .dbBlkRst => Sys2Proof.Machine.execDbBlkRst s
  | .correctionWriteback => Sys2Proof.Machine.execCorrectionWriteback s
  | .scrubGo => Sys2Proof.Machine.execScrubGo s
  | .scrubAbort => Sys2Proof.Machine.execScrubAbort s
  | .scrubBeat => Sys2Proof.Machine.execScrubBeat s
  | .bgsWord g => Sys2Proof.Machine.execBgsWord g s
  | .bgsLate g => Sys2Proof.Machine.execBgsLate g s
  | .scrubPoisonWrite => Sys2Proof.Machine.execScrubPoisonWrite s
  | .repairSoft bank row => Sys2Proof.Machine.execRepairSoft bank row s
  | .repairTemp bank row => Sys2Proof.Machine.execRepairTemp bank row s
  | .repairRelease bank row => Sys2Proof.Machine.execRepairRelease bank row s
  | .repairCopyDone => Sys2Proof.Machine.execRepairCopyDone s
  | .memoryFillDone => Sys2Proof.Machine.execMemoryFillDone s
  | .smBlkRst => Sys2Proof.Machine.execSmBlkRst s
  | .tlContention line drivers anyZero => Sys2Proof.Machine.execTlContention line drivers anyZero s
  | .pllLockLoss p => Sys2Proof.Machine.execPllLockLoss p s
  | .pllLock p => Sys2Proof.Machine.execPllLock p s
  | .clockMuxSelect mux sel live falls => Sys2Proof.Machine.execClockMuxSelect mux sel live falls s
  | .clockMuxTimeout mux falls => Sys2Proof.Machine.execClockMuxTimeout mux falls s
  | .bramPortAccess block a b => Sys2Proof.Machine.execBramPortAccess block a b s
  | .timerMatch k edges => Sys2Proof.Machine.execTimerMatch k edges s
  | .timerCapture k capin => Sys2Proof.Machine.execTimerCapture k capin s
  | .mportRequest m p => Sys2Proof.Machine.execMportRequest m p s
  | .mportCfgWrite m v => Sys2Proof.Machine.execMportCfgWrite m v s
  | .uwinAnswer v => Sys2Proof.Machine.execUwinAnswer v s
  | .uwinTimeout => Sys2Proof.Machine.execUwinTimeout s
  | .userEventRise n => Sys2Proof.Machine.execUserEventRise n s
  | .releaseStage1 => Sys2Proof.Machine.execReleaseStage1 s
  | .releaseStage2 region => Sys2Proof.Machine.execReleaseStage2 region s
  | .releaseStage3 region => Sys2Proof.Machine.execReleaseStage3 region s
  | .flipflopRelease clk => Sys2Proof.Machine.execFlipflopRelease clk s
  | .cfgDoneChange level => Sys2Proof.Machine.execCfgDoneChange level s
  | .fbBlkRst => Sys2Proof.Machine.execFbBlkRst s
  | .capArm => Sys2Proof.Machine.execCapArm s
  | .capCancel => Sys2Proof.Machine.execCapCancel s
  | .ffCaptureTake tap edge plane => Sys2Proof.Machine.execFfCaptureTake tap edge plane s
  | .bootAttempt ext => Sys2Proof.Machine.execBootAttempt ext s
  | .sourceTimeout => Sys2Proof.Machine.execSourceTimeout s
  | .cgHostGo => Sys2Proof.Machine.execCgHostGo s
  | .signatureVerifyDone who units => Sys2Proof.Machine.execSignatureVerifyDone who units s
  | .proofEnd who => Sys2Proof.Machine.execProofEnd who s
  | .backoffEnd ext => Sys2Proof.Machine.execBackoffEnd ext s
  | .libGo v => Sys2Proof.Machine.execLibGo v s
  | .libAbort => Sys2Proof.Machine.execLibAbort s
  | .icpStart start words => Sys2Proof.Machine.execIcpStart start words s
  | .partialFrame words bad => Sys2Proof.Machine.execPartialFrame words bad s
  | .partialStall => Sys2Proof.Machine.execPartialStall s
  | .plAbort => Sys2Proof.Machine.execPlAbort s
  | .cfgScrubWord vote badA badB => Sys2Proof.Machine.execCfgScrubWord vote badA badB s
  | .regionReloadDone => Sys2Proof.Machine.execRegionReloadDone s
  | .scrubWdtExpiry straps => Sys2Proof.Machine.execScrubWdtExpiry straps s
  | .ebmCheck => Sys2Proof.Machine.execEbmCheck s
  | .readback => Sys2Proof.Machine.execReadback s
  | .flashRead len pid => Sys2Proof.Machine.execFlashRead len pid s
  | .flashProgram len pid => Sys2Proof.Machine.execFlashProgram len pid s
  | .flashProgramDone => Sys2Proof.Machine.execFlashProgramDone s
  | .flashErase pid => Sys2Proof.Machine.execFlashErase pid s
  | .erasePulseEnd erased => Sys2Proof.Machine.execErasePulseEnd erased s
  | .blankCheck len pid => Sys2Proof.Machine.execBlankCheck len pid s
  | .trimWrite pid => Sys2Proof.Machine.execTrimWrite pid s
  | .logAppend pid => Sys2Proof.Machine.execLogAppend pid s
  | .flashSuspend => Sys2Proof.Machine.execFlashSuspend s
  | .flashResume => Sys2Proof.Machine.execFlashResume s
  | .flBlkRst => Sys2Proof.Machine.execFlBlkRst s
  | .otpRead => Sys2Proof.Machine.execOtpRead s
  | .otpProg => Sys2Proof.Machine.execOtpProg s
  | .otpPulseEnd ok => Sys2Proof.Machine.execOtpPulseEnd ok s
  | .attestGo pid => Sys2Proof.Machine.execAttestGo pid s
  | .attestDone => Sys2Proof.Machine.execAttestDone s
  | .tpPropose pid => Sys2Proof.Machine.execTpPropose pid s
  | .tpConsent pid => Sys2Proof.Machine.execTpConsent pid s
  | .tpCancel pid => Sys2Proof.Machine.execTpCancel pid s
  | .proposalExpire => Sys2Proof.Machine.execProposalExpire s
  | .rdpRaise1 => Sys2Proof.Machine.execRdpRaise1 s
  | .rdpRaise2 => Sys2Proof.Machine.execRdpRaise2 s
  | .rdpLower => Sys2Proof.Machine.execRdpLower s
  | .fwCommit => Sys2Proof.Machine.execFwCommit s
  | .keyRevoke => Sys2Proof.Machine.execKeyRevoke s
  | .debugUnlock => Sys2Proof.Machine.execDebugUnlock s
  | .debugUnlockEnd => Sys2Proof.Machine.execDebugUnlockEnd s
  | .icpPolicy => Sys2Proof.Machine.execIcpPolicy s
  | .bar0Access write off v => Sys2Proof.Machine.execBar0Access write off v s
  | .bar2Access write addr n data => Sys2Proof.Machine.execBar2Access write addr n data s
  | .submissionDoorbell q v => Sys2Proof.Machine.execSubmissionDoorbell q v s
  | .completionDoorbell q v => Sys2Proof.Machine.execCompletionDoorbell q v s
  | .eventRingDoorbell page off v => Sys2Proof.Machine.execEventRingDoorbell page off v s
  | .flr => Sys2Proof.Machine.execFlr s
  | .pcieLinkDown => Sys2Proof.Machine.execPcieLinkDown s
  | .d3hotEntry => Sys2Proof.Machine.execD3hotEntry s
  | .hiBlkRst => Sys2Proof.Machine.execHiBlkRst s
  | .hiQpCfgWrite q v => Sys2Proof.Machine.execHiQpCfgWrite q v s
  | .queuePairDisable q v => Sys2Proof.Machine.execQueuePairDisable q v s
  | .descriptorFetch q words image hostErr => Sys2Proof.Machine.execDescriptorFetch q words image hostErr s
  | .streamIn q dseq v hostErr => Sys2Proof.Machine.execStreamIn q dseq v hostErr s
  | .streamOut q dseq => Sys2Proof.Machine.execStreamOut q dseq s
  | .memCopy q dseq data hostErr => Sys2Proof.Machine.execMemCopy q dseq data hostErr s
  | .loadPleats q dseq => Sys2Proof.Machine.execLoadPleats q dseq s
  | .foldAt q dseq => Sys2Proof.Machine.execFoldAt q dseq s
  | .markWrite q dseq => Sys2Proof.Machine.execMarkWrite q dseq s
  | .configPartial q dseq hdr hostErr => Sys2Proof.Machine.execConfigPartial q dseq hdr hostErr s
  | .descQuery q dseq => Sys2Proof.Machine.execDescQuery q dseq s
  | .descBarrier q dseq => Sys2Proof.Machine.execDescBarrier q dseq s
  | .completionRecordWrite q => Sys2Proof.Machine.execCompletionRecordWrite q s
  | .ptJoin => Sys2Proof.Machine.execPtJoin s
  | .ptLeave => Sys2Proof.Machine.execPtLeave s
  | .rsvReserve => Sys2Proof.Machine.execRsvReserve s
  | .reservationRelease k => Sys2Proof.Machine.execReservationRelease k s
  | .reservationWindowEnd want room => Sys2Proof.Machine.execReservationWindowEnd want room s
  | .laceAxs p h axis st pos vel => Sys2Proof.Machine.execLaceAxs p h axis st pos vel s
  | .lacePkt p h pkt re => Sys2Proof.Machine.execLacePkt p h pkt re s
  | .laceLsend p h tag data => Sys2Proof.Machine.execLaceLsend p h tag data s
  | .laceImg p h uid ofs bytes => Sys2Proof.Machine.execLaceImg p h uid ofs bytes s
  | .laceStart p h => Sys2Proof.Machine.execLaceStart p h s
  | .laceDly p tap t3 echo => Sys2Proof.Machine.execLaceDly p tap t3 echo s
  | .laceDisc p h uids east complete => Sys2Proof.Machine.execLaceDisc p h uids east complete s
  | .laceNote p h link heal => Sys2Proof.Machine.execLaceNote p h link heal s
  | .laceFrameCrcFail p lost => Sys2Proof.Machine.execLaceFrameCrcFail p lost s
  | .laceBlockTimeout p lost => Sys2Proof.Machine.execLaceBlockTimeout p lost s
  | .lacePortUp p => Sys2Proof.Machine.execLacePortUp p s
  | .dlyExchangeTimer p tap => Sys2Proof.Machine.execDlyExchangeTimer p tap s
  | .lcDiscover => Sys2Proof.Machine.execLcDiscover s
  | .discoveryTimer => Sys2Proof.Machine.execDiscoveryTimer s
  | .lcStartCmd => Sys2Proof.Machine.execLcStartCmd s
  | .startInstant => Sys2Proof.Machine.execStartInstant s
  | .lcImgGo v => Sys2Proof.Machine.execLcImgGo v s
  | .imgDone => Sys2Proof.Machine.execImgDone s
  | .evSrcCfgWrite src v => Sys2Proof.Machine.execEvSrcCfgWrite src v s
  | .eventModerationTimeout ring => Sys2Proof.Machine.execEventModerationTimeout ring s
  | .octAdd rd ra rb => Sys2Proof.Machine.execOctAdd rd ra rb s
  | .octSub rd ra rb => Sys2Proof.Machine.execOctSub rd ra rb s
  | .octAnd rd ra rb => Sys2Proof.Machine.execOctAnd rd ra rb s
  | .octOr rd ra rb => Sys2Proof.Machine.execOctOr rd ra rb s
  | .octXor rd ra rb => Sys2Proof.Machine.execOctXor rd ra rb s
  | .octAndn rd ra rb => Sys2Proof.Machine.execOctAndn rd ra rb s
  | .octShl rd ra rb => Sys2Proof.Machine.execOctShl rd ra rb s
  | .octShr rd ra rb => Sys2Proof.Machine.execOctShr rd ra rb s
  | .octSra rd ra rb => Sys2Proof.Machine.execOctSra rd ra rb s
  | .octSlt rd ra rb => Sys2Proof.Machine.execOctSlt rd ra rb s
  | .octSltu rd ra rb => Sys2Proof.Machine.execOctSltu rd ra rb s
  | .octMin rd ra rb => Sys2Proof.Machine.execOctMin rd ra rb s
  | .octMax rd ra rb => Sys2Proof.Machine.execOctMax rd ra rb s
  | .octClz rd ra => Sys2Proof.Machine.execOctClz rd ra s
  | .octPopc rd ra => Sys2Proof.Machine.execOctPopc rd ra s
  | .octMul rd ra rb => Sys2Proof.Machine.execOctMul rd ra rb s
  | .octMulh rd ra rb => Sys2Proof.Machine.execOctMulh rd ra rb s
  | .octDiv rd ra rb => Sys2Proof.Machine.execOctDiv rd ra rb s
  | .octDivu rd ra rb => Sys2Proof.Machine.execOctDivu rd ra rb s
  | .octRem rd ra rb => Sys2Proof.Machine.execOctRem rd ra rb s
  | .octAddi rd ra imm => Sys2Proof.Machine.execOctAddi rd ra imm s
  | .octAndi rd ra imm => Sys2Proof.Machine.execOctAndi rd ra imm s
  | .octOri rd ra imm => Sys2Proof.Machine.execOctOri rd ra imm s
  | .octXori rd ra imm => Sys2Proof.Machine.execOctXori rd ra imm s
  | .octShli rd ra imm => Sys2Proof.Machine.execOctShli rd ra imm s
  | .octShri rd ra imm => Sys2Proof.Machine.execOctShri rd ra imm s
  | .octSrai rd ra imm => Sys2Proof.Machine.execOctSrai rd ra imm s
  | .octLui rd imm => Sys2Proof.Machine.execOctLui rd imm s
  | .octLdw rd ra imm => Sys2Proof.Machine.execOctLdw rd ra imm s
  | .octLdh rd ra imm => Sys2Proof.Machine.execOctLdh rd ra imm s
  | .octLdhu rd ra imm => Sys2Proof.Machine.execOctLdhu rd ra imm s
  | .octLdb rd ra imm => Sys2Proof.Machine.execOctLdb rd ra imm s
  | .octLdbu rd ra imm => Sys2Proof.Machine.execOctLdbu rd ra imm s
  | .octSwapw rd ra imm => Sys2Proof.Machine.execOctSwapw rd ra imm s
  | .octStw rb ra imm => Sys2Proof.Machine.execOctStw rb ra imm s
  | .octSth rb ra imm => Sys2Proof.Machine.execOctSth rb ra imm s
  | .octStb rb ra imm => Sys2Proof.Machine.execOctStb rb ra imm s
  | .octBeq ra rb off => Sys2Proof.Machine.execOctBeq ra rb off s
  | .octBne ra rb off => Sys2Proof.Machine.execOctBne ra rb off s
  | .octBlt ra rb off => Sys2Proof.Machine.execOctBlt ra rb off s
  | .octBge ra rb off => Sys2Proof.Machine.execOctBge ra rb off s
  | .octBltu ra rb off => Sys2Proof.Machine.execOctBltu ra rb off s
  | .octBgeu ra rb off => Sys2Proof.Machine.execOctBgeu ra rb off s
  | .octJmp off => Sys2Proof.Machine.execOctJmp off s
  | .octCallw off => Sys2Proof.Machine.execOctCallw off s
  | .octJr ra imm => Sys2Proof.Machine.execOctJr ra imm s
  | .octCallwr ra imm => Sys2Proof.Machine.execOctCallwr ra imm s
  | .octMac acc ra rb => Sys2Proof.Machine.execOctMac acc ra rb s
  | .octMacu acc ra rb => Sys2Proof.Machine.execOctMacu acc ra rb s
  | .octMac2 acc ra rb => Sys2Proof.Machine.execOctMac2 acc ra rb s
  | .octMacrd rd acc => Sys2Proof.Machine.execOctMacrd rd acc s
  | .octMacld acc ra rb => Sys2Proof.Machine.execOctMacld acc ra rb s
  | .octMacclr acc => Sys2Proof.Machine.execOctMacclr acc s
  | .octRetw => Sys2Proof.Machine.execOctRetw s
  | .octTexit => Sys2Proof.Machine.execOctTexit s
  | .octTrap arg => Sys2Proof.Machine.execOctTrap arg s
  | .octBrk => Sys2Proof.Machine.execOctBrk s
  | .octWait => Sys2Proof.Machine.execOctWait s
  | .octRdcr rd arg => Sys2Proof.Machine.execOctRdcr rd arg s
  | .octWrcr arg ra => Sys2Proof.Machine.execOctWrcr arg ra s
  | .octXrd rd n => Sys2Proof.Machine.execOctXrd rd n s
  | .octXwr n ra => Sys2Proof.Machine.execOctXwr n ra s
  | .interruptTake => Sys2Proof.Machine.execInterruptTake s
  | .doubleTrapReset => Sys2Proof.Machine.execDoubleTrapReset s
  | .ccHalt => Sys2Proof.Machine.execCcHalt s
  | .ccRun => Sys2Proof.Machine.execCcRun s
  | .ccBlkRst => Sys2Proof.Machine.execCcBlkRst s
  | .ccWdtKick v => Sys2Proof.Machine.execCcWdtKick v s
  | .ccWdtWarn => Sys2Proof.Machine.execCcWdtWarn s
  | .ccWdtExpiry => Sys2Proof.Machine.execCcWdtExpiry s
  | .mboxH2cWrite v => Sys2Proof.Machine.execMboxH2cWrite v s
  | .mboxH2cRead => Sys2Proof.Machine.execMboxH2cRead s
  | .mboxC2hWrite v => Sys2Proof.Machine.execMboxC2hWrite v s
  | .mboxC2hRead => Sys2Proof.Machine.execMboxC2hRead s
  | .starterStart => Sys2Proof.Machine.execStarterStart s
  | .detection => Sys2Proof.Machine.execDetection s
  | .recoveryTestDone fails => Sys2Proof.Machine.execRecoveryTestDone fails s
  | .transferDone => Sys2Proof.Machine.execTransferDone s
  | .replayDone => Sys2Proof.Machine.execReplayDone s
  | .checkpointInterval g => Sys2Proof.Machine.execCheckpointInterval g s
  | .ftCkpt g => Sys2Proof.Machine.execFtCkpt g s
  | .grpClear g => Sys2Proof.Machine.execGrpClear g s
  | .liningRecordWritten g => Sys2Proof.Machine.execLiningRecordWritten g s
  | .ftInject v => Sys2Proof.Machine.execFtInject v s
  | .ftGrpCfgWrite off v => Sys2Proof.Machine.execFtGrpCfgWrite off v s
  | .ftBlkRst => Sys2Proof.Machine.execFtBlkRst s
  | .powerOn straps mv => Sys2Proof.Machine.execPowerOn straps mv s
  | .vinRise4v5 mv => Sys2Proof.Machine.execVinRise4v5 mv s
  | .brownout straps mv => Sys2Proof.Machine.execBrownout straps mv s
  | .phaseFail phase => Sys2Proof.Machine.execPhaseFail phase s
  | .powerGoodLoss straps => Sys2Proof.Machine.execPowerGoodLoss straps s
  | .thermalWarn tj => Sys2Proof.Machine.execThermalWarn tj s
  | .thermalTrip straps tj => Sys2Proof.Machine.execThermalTrip straps tj s
  | .thermalTripEnd tj => Sys2Proof.Machine.execThermalTripEnd tj s
  | .domainOff v => Sys2Proof.Machine.execDomainOff v s
  | .drainEnd => Sys2Proof.Machine.execDrainEnd s
  | .isolationEnd => Sys2Proof.Machine.execIsolationEnd s
  | .domainOn v => Sys2Proof.Machine.execDomainOn v s
  | .rampDone => Sys2Proof.Machine.execRampDone s
  | .refLoss => Sys2Proof.Machine.execRefLoss s
  | .refRestore => Sys2Proof.Machine.execRefRestore s
  | .aclkWrite v => Sys2Proof.Machine.execAclkWrite v s
  | .aclkRelock => Sys2Proof.Machine.execAclkRelock s
  | .nresetLow straps => Sys2Proof.Machine.execNresetLow straps s
  | .nresetRelease => Sys2Proof.Machine.execNresetRelease s
  | .perst => Sys2Proof.Machine.execPerst s
  | .systemWdtExpiry straps => Sys2Proof.Machine.execSystemWdtExpiry straps s
  | .rsWdtWarn => Sys2Proof.Machine.execRsWdtWarn s
  | .rsWdtKick v => Sys2Proof.Machine.execRsWdtKick v s
  | .softwareWarm straps v => Sys2Proof.Machine.execSoftwareWarm straps v s
  | .softwareRun v => Sys2Proof.Machine.execSoftwareRun v s
  | .jtagReset straps => Sys2Proof.Machine.execJtagReset straps s
  | .aonDisagree straps => Sys2Proof.Machine.execAonDisagree straps s
  | .resetStepRelease => Sys2Proof.Machine.execResetStepRelease s
  | .optionLoadDone => Sys2Proof.Machine.execOptionLoadDone s
  | .rsSafeWrite v => Sys2Proof.Machine.execRsSafeWrite v s
  | .hxBusRead addr => Sys2Proof.Machine.execHxBusRead addr s
  | .hxBusWrite addr v => Sys2Proof.Machine.execHxBusWrite addr v s
  | .hxWriteApply => Sys2Proof.Machine.execHxWriteApply s
  | .tmrEnWrite v => Sys2Proof.Machine.execTmrEnWrite v s
  | .tmrCfgWrite v => Sys2Proof.Machine.execTmrCfgWrite v s
  | .hxModCommit v => Sys2Proof.Machine.execHxModCommit v s
  | .tmrLoad => Sys2Proof.Machine.execTmrLoad s
  | .tmrClr => Sys2Proof.Machine.execTmrClr s
  | .cmpCommit k cfg v => Sys2Proof.Machine.execCmpCommit k cfg v s
  | .capCfgWrite k v => Sys2Proof.Machine.execCapCfgWrite k v s
  | .hxTick => Sys2Proof.Machine.execHxTick s
  | .progStart => Sys2Proof.Machine.execProgStart s
  | .progDataWrite v => Sys2Proof.Machine.execProgDataWrite v s
  | .progEnd => Sys2Proof.Machine.execProgEnd s
  | .progAbort => Sys2Proof.Machine.execProgAbort s
  | .progRewind => Sys2Proof.Machine.execProgRewind s
  | .progDataRead => Sys2Proof.Machine.execProgDataRead s
  | .hxTranslateDone => Sys2Proof.Machine.execHxTranslateDone s
  | .hxFlashWriteDone ok => Sys2Proof.Machine.execHxFlashWriteDone ok s
  | .hxMixCfgWrite v => Sys2Proof.Machine.execHxMixCfgWrite v s
  | .hxViewRequest rst => Sys2Proof.Machine.execHxViewRequest rst s
  | .hxBlkRst => Sys2Proof.Machine.execHxBlkRst s
  | .registerWrite off v => Sys2Proof.Machine.execRegisterWrite off v s
  | .perstRelease => Sys2Proof.Machine.execPerstRelease s
  | .pcieLinkUp rate width => Sys2Proof.Machine.execPcieLinkUp rate width s
  | .enLinkChange p block link fec => Sys2Proof.Machine.execEnLinkChange p block link fec s
  | .hxJtagProgram words => Sys2Proof.Machine.execHxJtagProgram words s
  | .tlContentionEnd line driver => Sys2Proof.Machine.execTlContentionEnd line driver s
  | .cycleReachesTmrcmp => Sys2Proof.Machine.execCycleReachesTmrcmp s

end Sys2Proof.Machine
end

