-- ==== Sys2Proof/Machine/Serial.lean ====
section
/-! DEFINITION. The hardened serial blocks of the fabric (08_logic_fabric.md, R258, Table FB-4) and a cycle of the user logic. User logic drives
the blocks through their fabric-side interfaces; they have no registers in the FB map, and the opcode table has no row for them. -/

namespace Sys2Proof.Machine

/-- The serial blocks of a clock region. -/
def State.ser (s : State) (r : Nat) : Serial := Tab.get (fun _ => Serial.idle) s.fb.serial r
/-- Those replaced. -/
def State.setSer (s : State) (r : Nat) (x : Serial) : State :=
  { s with fb := { s.fb with serial := Tab.put (fun _ => Serial.idle) s.fb.serial r x } }

/-- A value put at the end of a queue of n places; a full queue does not take it. -/
def fifoPut {α : Type} (n : Nat) (l : List α) (x : α) : List α := if l.length < n then l ++ [x] else l

/-- A word cut to its low bits, at most 32. -/
def lowBits {w : Nat} (n : Nat) (x : BitVec w) : BitVec w := BitVec.ofNat w (x.toNat % 2 ^ n)

/-- A UART character cut to its data bits. -/
def Uart.char (u : Uart) (c : BitVec 9) : BitVec 9 := lowBits u.bits c

/-- An event at an SPI block: a frame moves a word both ways (full duplex); a master needs one to send, a slave with none sends 0. -/
def Spi.on (k : Spi) (e : SerEvent) : Spi :=
  match e with
  | .spiSet m b md l c => { k with master := m, bits := 4 + b % 29, mode := md.val, lsb := l, cs := c.val }
  | .spiPut w => { k with tx := fifoPut 16 k.tx (lowBits k.bits w) }
  | .spiGet => { k with rx := k.rx.drop 1 }
  | .spiFrame w => if k.master && k.tx.isEmpty then k else { k with tx := k.tx.drop 1, rx := fifoPut 16 k.rx (lowBits k.bits w) }
  | _ => k

/-- An event at an I²C block. A block whose incoming queue is full, or that has nothing to send, stretches the clock; no byte comes into a
full queue. A lost arbitration is reported until the block is set up again. -/
def I2c.on (k : I2c) (e : SerEvent) : I2c :=
  let k1 := match e with
    | .i2cSet t r x => { k with target := t, rate := r.val, ten := x, lost := false }
    | .i2cPut b => { k with tx := fifoPut 8 k.tx b }
    | .i2cGet => { k with rx := k.rx.drop 1 }
    | .i2cSent => { k with tx := k.tx.drop 1 }
    | .i2cCame b => { k with rx := fifoPut 8 k.rx b }
    | .i2cLost => if k.target then k else { k with lost := true }
    | _ => k
  { k1 with stretch := decide (8 ≤ k1.rx.length) }

/-- An event at a UART: CTS holds its sending; RTS is open while the incoming queue has room. -/
def Uart.on (k : Uart) (e : SerEvent) : Uart :=
  match e with
  | .uartSet b p st => { k with bits := 5 + b % 5, parity := p.val, stop := if st then 2 else 1, brk := false }
  | .uartPut c => { k with tx := fifoPut 16 k.tx (k.char c) }
  | .uartGet => { k with rx := k.rx.drop 1 }
  | .uartSent => if k.cts then { k with tx := k.tx.drop 1 } else k
  | .uartCame c => { k with rx := fifoPut 16 k.rx (k.char c) }
  | .uartCts b => { k with cts := b }
  | .uartBreak => { k with brk := true }
  | _ => k

/-- The RTS of a UART. -/
def Uart.rts (k : Uart) : Bool := decide (k.rx.length < 16)

/-- An event at the serial blocks of a region. -/
def Serial.on (x : Serial) (e : SerEvent) : Serial := { spi := x.spi.on e, i2c := x.i2c.on e, uart := x.uart.on e }

/-- Does an event write a block's registers, which the staged release holds off before stage 2 (R265)? -/
def SerEvent.writes (e : SerEvent) : Bool :=
  match e with
  | .none => false
  | .uartCts _ => false
  | _ => true

/-- An event at the serial blocks of clock region r. -/
def State.serialEvent (s : State) (r : Nat) (e : SerEvent) : State :=
  if (s.fbStage < 2 ∧ e.writes) ∨ ¬ s.domOn (regionDom r) then s else s.setSer r ((s.ser r).on e)

/-- The event that a free number spells. -/
def SerEvent.of (n : Nat) : SerEvent :=
  let x := n / 18
  match n % 18 with
  | 1 => .spiSet (x % 2 == 1) (x / 2) (Fin.ofNat 4 (x / 64)) (x.testBit 8) (Fin.ofNat 4 (x / 512))
  | 2 => .spiPut (w32 x)
  | 3 => .spiGet
  | 4 => .spiFrame (w32 x)
  | 5 => .i2cSet (x % 2 == 1) (Fin.ofNat 3 (x / 2)) (x.testBit 8)
  | 6 => .i2cPut (BitVec.ofNat 8 x)
  | 7 => .i2cGet
  | 8 => .i2cSent
  | 9 => .i2cCame (BitVec.ofNat 8 x)
  | 10 => .i2cLost
  | 11 => .uartSet x (Fin.ofNat 3 (x / 8)) (x.testBit 8)
  | 12 => .uartPut (BitVec.ofNat 9 x)
  | 13 => .uartGet
  | 14 => .uartSent
  | 15 => .uartCame (BitVec.ofNat 9 x)
  | 16 => .uartCts (x % 2 == 1)
  | 17 => .uartBreak
  | _ => .none

/-- A cycle of the user logic (R246, R258): what its clocks make of its flip-flops, and an event at the serial blocks of one region. Both are
free values: the image's logic is not given. Before stage 2 nothing of it can move. -/
def State.userCycle (s : State) : State :=
  if s.fbStage < 2 then s
  else
    let s1 : State := { s with fb := { s.fb with ffs := Config.ffLogic s.freeCtr }, freeCtr := s.freeCtr + 1 }
    s1.serialEvent (Config.serialAt s.freeCtr % 8) (SerEvent.of (Config.serialDoes s.freeCtr))

end Sys2Proof.Machine
end

