-- ==== Sys2Proof/Machine/Step.lean ====
section
/-! DEFINITION. One step of the block: the command at the front of the queue takes its effect; on an empty queue the user logic of the
fabric has a cycle. -/

namespace Sys2Proof.Machine

/-- The queue of waiting commands replaced. -/
def State.withPending (s : State) (q : List Instr) : State := { s with pending := q }

/-- One step: the first waiting command runs on the state with the queue's rest; with none waiting the user logic
of the fabric has a cycle, for which the opcode table has no row (DESIGN CHOICE: what else the spec ties to a clock happens at the commands
that the opcode table gives it, log entry 2). -/
def step (s : State) : Host.Outcome State Fault Refusal :=
  match s.pending with
  | [] => .next s.userCycle
  | c :: r => exec c (s.withPending r)

/-- A state with the command that a table word spells put at the front of its queue; unchanged where the word spells none. -/
def State.withFetchWord (s : State) (nbits w : Nat) : State :=
  match decodeTableWord nbits w with
  | some c => s.withPending (c :: s.pending)
  | none => s

end Sys2Proof.Machine
end

