-- ==== Sys2Proof/Safety.lean ====
section
/-! DEFINITION. The terms in which statements speak of a run: which parts of the state a command leaves alone, what a command gives,
and the invariants of the block. -/

namespace Sys2Proof.Machine

/-- The parts of the state: one for each field of State. -/
inductive Part where
  | regs | mem | syn | yk | mke | cuffs | edgeSeq | sp | ev | hx | arr | qs | sm | net | ft | en | fb | cg | fl | ot | sc | cc | rs
  | hi | lc | faults | out | freeCtr | pending
deriving DecidableEq, Repr

/-- Two states agree on a part. Registers and memory are compared by what a read of each gives. -/
def State.agrees (s t : State) : Part → Prop
  | .regs => ∀ a, t.rg a = s.rg a
  | .mem => ∀ a, t.byteAt a = s.byteAt a
  | .syn => ∀ a, t.synAt a = s.synAt a
  | .yk => t.yk = s.yk
  | .mke => t.mke = s.mke
  | .cuffs => t.cuffs = s.cuffs
  | .edgeSeq => t.edgeSeq = s.edgeSeq
  | .sp => t.sp = s.sp
  | .ev => t.ev = s.ev
  | .hx => t.hx = s.hx
  | .arr => t.arr = s.arr
  | .qs => t.qs = s.qs
  | .sm => t.sm = s.sm
  | .net => t.net = s.net
  | .ft => t.ft = s.ft
  | .en => t.en = s.en
  | .fb => t.fb = s.fb
  | .cg => t.cg = s.cg
  | .fl => t.fl = s.fl
  | .ot => t.ot = s.ot
  | .sc => t.sc = s.sc
  | .cc => t.cc = s.cc
  | .rs => t.rs = s.rs
  | .hi => t.hi = s.hi
  | .lc => t.lc = s.lc
  | .faults => t.faults = s.faults
  | .out => t.out = s.out
  | .freeCtr => t.freeCtr = s.freeCtr
  | .pending => t.pending = s.pending

/-- The frame of a command: every part of the state but those named is as before. -/
def State.only (s : State) (ps : List Part) (t : State) : Prop := ∀ p, p ∉ ps → s.agrees t p

/-- Every register but those named holds what it held. -/
def State.regsBut (s : State) (as : List Nat) (t : State) : Prop := ∀ a, a ∉ as → t.rg a = s.rg a

/-- What raising an event may write beside the event's own register: the event unit's registers and the pending bits of the MSI-X
table (R385, R386). -/
def evPath (a : Nat) : Prop := (0x600000 ≤ a ∧ a < 0x640000) ∨ (0x581400 ≤ a ∧ a < 0x581408)

/-- The same where a command raises events. -/
def State.regsButEv (s : State) (as : List Nat) (t : State) : Prop := ∀ a, a ∉ as → ¬ evPath a → t.rg a = s.rg a

/-- What a command changes: the parts `ps` and the registers `as`; every other part and register is as before. -/
def State.frame (s : State) (ps : List Part) (as : List Nat) (t : State) : Prop := s.only (.regs :: ps) t ∧ s.regsBut as t

/-- The same for a command that raises events: the event unit, what leaves the part, and the registers of an event's way may change
beside them. -/
def State.frameEv (s : State) (ps : List Part) (as : List Nat) (t : State) : Prop :=
  s.only (.regs :: .ev :: .out :: ps) t ∧ s.regsButEv as t

/-- Nothing but these registers changed. -/
def State.frameR (s : State) (as : List Nat) (t : State) : Prop := s.frame [] as t

/-- What a register holds after a bus write of `v` by its access codes alone (R5, R7). -/
def State.written (s : State) (a : Nat) (v : Word) : Word := (s.store a v).rg a

/-- Every axis but `n` is as it was, and so is the rest of the Yoke. -/
def State.axesBut (s : State) (n : Nat) (t : State) : Prop :=
  (∀ m, m ≠ n → t.ax m = s.ax m) ∧ { t.yk with axes := s.yk.axes } = s.yk

/-- Every mark but `n` is as it was. -/
def State.marksBut (s : State) (n : Nat) (t : State) : Prop := ∀ m, m ≠ n → t.mark m = s.mark m

/-- Every Cuff but `n` is as it was. -/
def State.cuffsBut (s : State) (n : Nat) (t : State) : Prop := ∀ m, m ≠ n → t.cuff m = s.cuff m

/-- Every byte outside the `k` bytes from `a` reads as before. -/
def State.bytesBut (s : State) (a k : Nat) (t : State) : Prop := ∀ b, ¬ (a ≤ b ∧ b < a + k) → t.byteAt b = s.byteAt b

/-- No probe of the debug unit is enabled. -/
def State.noProbes (s : State) : Prop := ∀ k, k < 16 → s.rb (R.DB_PRB_CFG k) F.DB_PRB_CFG_EN = false

/-- A request of a command code has been made for a node: its sender waits for the response (R202), or, while it has no free tag, for
one (R210). -/
def State.sent (s : State) (cmd dst : Nat) (t : State) : Prop :=
  (∃ o ∈ t.net.outst, o.key = s.net.nextKey ∧ o.req.cmd.toNat = cmd ∧ o.req.dst = dst ∧ o.time = s.nclk) ∨
  (∃ h ∈ t.net.held, h.key = s.net.nextKey ∧ h.req.cmd.toNat = cmd ∧ h.req.dst = dst)

/-- A requester has a free tag, and no request of its own waits for one (R210, R216). -/
def State.tagFor (s : State) (node port : Nat) (tag : Nat) : Prop :=
  s.net.held = [] ∧ s.freeTag node port none = some tag

/-- A requester outside the model: what a response does there is only that it leaves the network (R202). -/
def Outst.outside (o : Outst) : Prop :=
  ¬ (o.port = 0 ∧ (o.node = 1 ∨ o.node = 2 ∨ o.node = 111 ∨ o.node = 116)) ∧ ¬ (12 ≤ o.node ∧ o.node < 108 ∧ o.port = 2)

/-- A cut notice of router `at_` is in the network, for the next router away from the cut (R211). -/
def State.noted (at_ node link : Nat) (t : State) : Prop :=
  ∃ e ∈ t.net.pkts, e.2.cmd.toNat = 0x30 ∧ e.2.dst = neighbour at_ (oppLink link) ∧ e.2.addr.toNat = link + 4 * node

/-- No event source of the part is enabled to write a record (R385, R386): flags that are raised stay set. -/
def State.quietEvents (s : State) : Prop := s.qvMode = false ∨ ∀ src < 1536, s.srcEn src = false

/-- The record of the firing of mark n (R66, R72, R76): its committed action has left the pipeline, MK_FIRES counts, MK_STAT shows it. -/
def State.fired (s : State) (n : Nat) (c : Commit) (t : State) : Prop :=
  t.mke.pipe = s.mke.pipe.erase c ∧ (t.mark n).fires = satN 0xFFFF ((s.mark n).fires + 1) ∧ (t.mark n).late = c.late ∧
  (t.mark n).hold = c.hold ∧ (t.mark n).lateness = c.lateness ∧ (t.mark n).inPipe = (s.mark n).inPipe - 1 ∧ s.marksBut n t

/-! Firing a PE (R106, R108), outside protection groups -/

/-- The active Pleat of a PE, and its private state. -/
def State.actPleat (s : State) (i : Nat) : Pleat := s.pleat i (s.pe i).act
def State.actPriv (s : State) (i : Nat) : Priv := s.priv i (s.pe i).act

/-- PE i may fire operation `op`: its tile is in no protection group, nothing holds it, its active Pleat is valid and has that code, and no
copies of a DUP wait. -/
def State.peOpen (s : State) (i op : Nat) : Prop :=
  s.tileGroup (peTile i) = none ∧ s.peRuns i = true ∧ s.validAt i (s.pe i).act = true ∧ (s.actPleat i).op = op ∧ (s.actPriv i).dup = none

/-- The operands that the operation reads are present: `ta` and `tb`. None comes through the address generator, but operand A of LD and
ST may name it as the place; two FIFO operands agree in LAST. -/
def State.peReady (s : State) (i op : Nat) (ta tb : Token) : Prop :=
  let q := s.actPleat i
  s.peOpen i op ∧
  (readsA op = true → (q.srcA ≠ 17 ∧ s.operand i q q.srcA 0 = some ta) ∨ (q.srcA = 17 ∧ (op = 0x23 ∨ op = 0x24) ∧ ta = valTok 0 false)) ∧
  (readsB op = true → q.srcB ≠ 17 ∧ s.operand i q q.srcB 0 = some tb) ∧
  (readsA op = true → readsB op = true → q.srcA < 4 → q.srcB < 4 → q.srcA ≠ q.srcB → ta.last = tb.last)

/-- Every destination of the active Pleat can take n tokens. -/
def State.peRoom (s : State) (i n : Nat) : Prop := ∀ d ∈ s.dests i (s.actPleat i), s.takes d n = true

/-- The state with the tokens of the FIFO operands consumed, one from each FIFO (R106). -/
def State.peTook (s : State) (i : Nat) : State :=
  let q := s.actPleat i
  let ea := readsA q.op && decide (q.srcA < 4)
  let eb := readsB q.op && decide (q.srcB < 4)
  let s1 := if ea then s.popFifo i q.srcA else s
  if eb ∧ ¬ (ea ∧ q.srcA = q.srcB) then s1.popFifo i q.srcB else s1

/-- LAST and ERR of a result (R109, R110): those of the FIFO operands. -/
def State.peLast (s : State) (i : Nat) (ta tb : Token) : Bool :=
  let q := s.actPleat i
  if readsA q.op && decide (q.srcA < 4) then ta.last else if readsB q.op && decide (q.srcB < 4) then tb.last else false
def State.peErr (s : State) (i : Nat) (ta tb : Token) : Bool :=
  let q := s.actPleat i
  (readsA q.op && decide (q.srcA < 4) && ta.err) || (readsB q.op && decide (q.srcB < 4) && tb.err)

/-- The state after a firing: operands consumed, the private state replaced, the result words (with LAST) delivered to `ds`; the rest of the
machine enters through `u`, the state after what the operation itself does. -/
def State.peSend (u : State) (i act : Nat) (err : Bool) (pv : Priv) (out : List (Word × Bool)) (ds : List Dst) : State :=
  (u.setPriv i act pv).sendAll i ds (out.map (Ctx.token i act err)) (out.map (Ctx.token i act err))

/-- A firing whose results go to every destination that the Pleat names. -/
def State.peDone (s : State) (i : Nat) (ta tb : Token) (pv : Priv) (out : List (Word × Bool)) : State :=
  (s.peTook i).peSend i (s.pe i).act (s.peErr i ta tb) pv out (s.dests i (s.actPleat i))

/-- A firing with one result and flags. -/
def State.peGives (s : State) (i : Nat) (ta tb : Token) (r : Word) (fl : PeFlags) : State :=
  s.peDone i ta tb { s.actPriv i with fl := fl } [(r, s.peLast i ta tb)]

/-- A response with a status has been put into the network for the requester of p, with its tag (R201, R202). -/
def State.answered (s : State) (p : Packet) (status : Nat) (t : State) : Prop :=
  ∃ e ∈ t.net.pkts, e.1 = s.net.nextId ∧ e.2.dst = p.src ∧ e.2.dstPort = p.srcPort ∧ e.2.tag = p.tag ∧ e.2.status.toNat = status

/-- The same with the data units of the response. -/
def State.answeredWith (s : State) (p : Packet) (data : List (BitVec 256)) (t : State) : Prop :=
  ∃ e ∈ t.net.pkts, e.1 = s.net.nextId ∧ e.2.dst = p.src ∧ e.2.dstPort = p.srcPort ∧ e.2.tag = p.tag ∧ e.2.status = 0 ∧ e.2.data = data

/-- A request of a command code waits at its target, the first of its port and VC, its header good and no unit BAD. -/
def State.arrived (s : State) (p : Packet) (cmd : Nat) : Prop := s.firstIn p = true ∧ p.cmd.toNat = cmd ∧ p.parOk = true ∧ p.bad = false

/-- The same at a memory port (0 stream memory, 3 local memory) of a tile node whose row is ON, of a legal shape, not held by a fill or a
repair copy, within a bank or local memory whose words stand at `place`. -/
def State.memReq (s : State) (p : Packet) (cmd port : Nat) (place : Nat → Nat) : Prop :=
  s.arrived p cmd ∧ tileNode p.dst = true ∧ p.dstPort.toNat = port ∧ s.domOn (nodeDomain p.dst p.dstPort.toNat) = true ∧ memShape p = true ∧
  s.rangeOf p (memBytes p) = some place ∧ s.memWaits p (place 0) = false

/-- The firewall passes a request of p's partner: kind 0 stream memory, 1 a register. -/
def State.fwPasses (s : State) (p : Packet) (kind addr : Nat) (rd wr : Bool) : Prop :=
  (s.fwJudge p.partner.toNat kind addr rd wr).2 = true

/-- The registers that a refusal of the firewall writes (R344). -/
def fwRegs : List Nat := [R.SC_FW_DENY, R.SC_FW_DENY_ADDR, R.SC_EVT]

/-- A register request accepted at port 1 of its block's node (Table AM-2): good shape, a backed offset outside the user window, its domain ON,
the firewall passing it. -/
def State.regReq (s : State) (p : Packet) (cmd : Nat) (wr : Bool) : Prop :=
  s.arrived p cmd ∧ p.dstPort = 1 ∧ p.be = 0xF ∧ p.data.length = (if wr then 1 else 0) ∧ p.addr.toNat < 0x6F0000 ∧
  blockNode (blockOf p.addr.toNat) = p.dst ∧ p.addr.toNat % 4 = 0 ∧ backed p.addr.toNat = true ∧ inUwin p.addr.toNat = false ∧
  s.domOn (blockDomain (blockOf p.addr.toNat)) = true ∧ s.fwPasses p 1 p.addr.toNat (!wr) wr ∧ s.mkHolds p wr = false

/-- A source of an image yields n bytes from an offset, and no word of them needs correction. -/
def State.yields (s : State) (src : ImgSrc) (o n : Nat) (l : List Byte) : Prop := s.srcRead src o n = (s, l, true)

/-- A flash command of a partner whose address the firewall passes (R344). -/
def State.flPasses (s : State) (pid : BitVec 10) (write : Bool) : Prop := (s.fwJudge pid.toNat 2 s.flAddr (!write) write).2 = true

/-- A flash command ended, or was refused, with a STATUS (R309). -/
def State.flEnded (s : State) (st : Nat) (t : State) : Prop :=
  t.rf R.FL_STAT F.FL_STAT_STATUS = st ∧
  (s.quietEvents → t.rb R.FL_EVT (if st = 0 then F.FL_EVT_DONE else F.FL_EVT_FAIL) = true)

/-- A flash command under way: BUSY. -/
def State.flBegun (r : FlRun) (t : State) : Prop := t.fl.run = some r ∧ t.rb R.FL_STAT F.FL_STAT_BUSY = true

/-- A boot attempt failed with a code of Table CG-4 and a frame (R283, R285, R286). -/
def State.bootFailed (s : State) (code frame : Nat) (t : State) : Prop :=
  t.rg R.CG_PROOF_ERR = w32 (code + 0x10000 * frame) ∧ t.rf R.CG_STATUS F.CG_STATUS_STATE = 3 ∧ t.cg.boot = none ∧ t.cg.failAt = s.now ∧
  t.cg.tries = s.cg.tries + 1 ∧ .cfgStatusPulse ∈ t.out ∧ t.rb R.SC_STAT F.SC_STAT_VERIFY_BUSY = t.verifying ∧ (s.quietEvents → t.rb R.CG_EVT F.CG_EVT_PROOF_FAIL = true) ∧
  s.frameEv [.cg, .lc] [R.CG_PROOF_ERR, R.CG_RETRY_COUNT, R.CG_STATUS, R.SC_STAT, R.CG_EVT] t

/-- A boot attempt whose header has passed step 1 (R283): its header of 0x6000 bytes is held, the content is being read while the signatures
are verified. -/
def State.bootBegun (s : State) (src : ImgSrc) (idx : Nat) (hdr : List Byte) (t : State) : Prop :=
  t.cg.boot = some { src := src, idx := idx, hdr := hdr, sig := none, units := 0, got := [] } ∧ t.rf R.CG_STATUS F.CG_STATUS_STATE = 1 ∧
  t.rb R.SC_STAT F.SC_STAT_VERIFY_BUSY = true ∧ s.only [.regs, .cg, .fb, .out] t

/-- A partial load ended with a status and a code, its region TORN (R296). -/
def State.loadTorn (s : State) (p : PartRun) (st : Nat) (code : Option Nat) (t : State) : Prop :=
  t.cg.part = none ∧ t.rg R.CG_PL_STAT = w32 (st + 16 * p.region + 256 * b2n p.host + 0x10000 * p.frame) ∧ t.regionState p.region = 3 ∧
  (t.cgr p.region).stage = 0 ∧ (∀ c, code = some c → t.rg R.CG_PROOF_ERR = w32 (c + 32 + 0x10000 * p.frame) ∧ .cfgStatusPulse ∈ t.out) ∧
  (p.host = false → .fabric 5 p.region st ∈ t.out) ∧
  (s.quietEvents → t.rb R.CG_EVT F.CG_EVT_TORN = true) ∧ s.only [.regs, .qs, .cg, .hi, .ev, .out, .freeCtr] t

/-- Every queue but those named is as it was. -/
def State.queuesBut (s : State) (qs : List Nat) (t : State) : Prop := ∀ q, q ∉ qs → t.qu q = s.qu q

/-- Where the k-th entry written from now on stands in memory, for an SMB-resident queue (R175). -/
def State.qSlot (s : State) (q k : Nat) : Nat :=
  s.smbPlace (4096 * s.rf (R.SQ_Q_BASE q) F.SQ_Q_BASE_BASE +
    (if k = 0 then (s.qu q).wptr else ((s.qu q).wptr + 8 * k) % 2 ^ s.rf (R.SQ_Q_CFG q) F.SQ_Q_CFG_SIZE)) / 8 * 8

/-- Every byte outside the next n entries of a queue's ring buffer reads as before. -/
def State.bytesButSlots (s : State) (q n : Nat) (t : State) : Prop :=
  ∀ b, (∀ k < n, ¬ (s.qSlot q k ≤ b ∧ b < s.qSlot q k + 8)) → t.byteAt b = s.byteAt b

/-- A queue that neither swallows nor has FOLD tokens, a replay window or a consumer waiting: a word pushed simply joins it. -/
def Queue.plain (k : Queue) : Prop := k.swallow = false ∧ k.pend = [] ∧ k.replay = [] ∧ k.popAt = none

/-- The next n entries of an SMB-resident queue stand in its engine's own bank, where it writes them itself (R176). -/
def State.slotsHere (s : State) (q n : Nat) : Prop :=
  ∀ k < n, (s.qStart q + ((s.qu q).wptr + 8 * k) % s.qBytes q) / 0x80000 = s.qBank q ∧ (s.qu q).wptr < s.qBytes q

/-- No flip mask is armed (R237): what is written is stored as it is. -/
def State.unarmed (s : State) : Prop := s.rb R.SM_FLIP_CFG F.SM_FLIP_CFG_ARM = false

/-- A register block returned by a reset of a reach, and no register outside it changed but those named (R6). -/
def State.blockReset (s : State) (rch : Reach) (lo hi : Nat) (as : List Nat) (t : State) : Prop :=
  ∀ a, a ∉ as → t.rg a = if lo ≤ a ∧ a < hi then clearReg rch a (s.rg a) else s.rg a

/-- A command answers a next state that has a property. -/
def gives (c : Instr) (s : State) (Q : State → Prop) : Prop := ∃ t, exec c s = .next t ∧ Q t

/-- The memory has its canonical form. -/
def State.MemInv (s : State) : Prop := Memory.wf s.mem = true

/-- The commands that fire a PE: each operation of Table AR-8. -/
def peOps (pe : Fin 1536) (hit : Option (Fin 13 × Fin 42)) : List Instr :=
  [.peNop pe, .peMov pe hit, .peAdd pe, .peSub pe, .peAnd pe, .peOr pe, .peXor pe, .peAndn pe, .peShl pe, .peShr pe, .peSra pe, .peRol pe,
   .peAdd2 pe, .peSub2 pe, .peAdd4 pe, .peSub4 pe, .peAbsd4 pe, .peCmp pe, .peSel pe, .peMin pe, .peMax pe, .peAbs pe, .pePopc pe, .peClz pe,
   .peBfx pe, .peBfi pe, .peMul pe, .peMulh pe] ++
  [.peMac32 pe, .peMac16 pe, .peMac8 pe, .peAccrd pe, .peAccld pe, .peDivs pe, .peCord pe, .peLd pe, .peSt pe, .peLut pe, .peCnt pe, .pePcmp pe,
   .peRoute pe, .peMerge pe, .peSplit pe, .peDrop pe, .peDup pe, .peGate pe, .peFoldgen pe]

/-- One queue pair replaced; every other one, and the rest of the host interface but the list of waiting FOLD_AT marks, is as before. -/
def State.qpNow (s : State) (q : Nat) (k : Qp) (t : State) : Prop :=
  t.qp q = k ∧ (∀ m, m ≠ q → t.qp m = s.qp m) ∧ { t.hi with qps := s.hi.qps, folds := s.hi.folds } = s.hi

/-- A descriptor ended: it is no longer in flight, and its record waits behind those of its queue pair (R363, R367). -/
def State.recorded (s : State) (q : Nat) (d : Desc) (status code units ckpt oseq : Nat) (t : State) : Prop :=
  s.qpNow q { s.qp q with infl := (s.qp q).infl.filter (fun e => e.dseq != d.dseq), recs := (s.qp q).recs ++ [.mk (recWords d.dseq status code units ckpt oseq) (d.fld 0 8 1 == 1)] } t

/-- A descriptor goes on. -/
def State.moved (s : State) (q : Nat) (d : Desc) (t : State) : Prop :=
  s.qpNow q { s.qp q with infl := (s.qp q).infl.map (fun e => if e.dseq = d.dseq then d else e) } t

/-- A frame of this device's own left on a port (R376). -/
def State.laceOwn (s : State) (p typ dst : Nat) (time : Int) (fields : List Int) (t : State) : Prop :=
  Out.lace p typ ([(s.lcDev : Int), (dst : Int), 0, (s.lc.seq : Int), (lcStamp time : Int)] ++ fields) ∈ t.out

/-- A copy of a frame that came on port p left on the other port, one hop on, with its time converted (R376, R378). -/
def State.laceCopy (s : State) (p : Fin 2) (typ : Nat) (h : LaceHdr) (fields : List Int) (t : State) : Prop :=
  Out.lace (1 - p.val) typ ([(h.src.toNat : Int), (h.dst.toNat : Int), (((h.hops.toNat + 1) % 256 : Nat) : Int), (h.seq.toNat : Int),
    (lcStamp (s.lcLocal p (laceStamp h)) : Int)] ++ fields) ∈ t.out

/-- A port of Lace is DOWN: its flag, the frames lost, and (with a number) the link recorded as cut (R375, R380). -/
def State.laceDown (s : State) (p : Fin 2) (lost : Nat) (t : State) : Prop :=
  t.rb (R.LC_PORT_STAT p) F.LC_PORT_STAT_UP = false ∧
  (s.quietEvents → (t.rg R.LC_EVT).toNat.testBit p = true ∧ (0 < lost → t.rb R.LC_EVT F.LC_EVT_LOST = true)) ∧
  t.rf R.LC_LOST F.LC_LOST_COUNT = satN 0xFFFFFFFF (s.rf R.LC_LOST F.LC_LOST_COUNT + lost) ∧
  (s.lcNumbered = false → s.frameEv [.lc] [R.LC_PORT_STAT p, R.LC_EVT, R.LC_LOST] t) ∧
  (s.lcNumbered = true → s.lcLink p ∈ t.lc.cuts ∧ (∀ r ∈ t.lc.reqs, r ∈ s.lc.reqs ∧ s.lcCrosses r (s.lcLink p) = false) ∧
    t.rb R.LC_STAT F.LC_STAT_TOPO = false ∧
    (s.lcUp (1 - p.val) = true → s.laceOwn (1 - p.val) 8 0xFF (128 * s.now) [(s.lcLink p : Int), 0] t))

/-- The core runs, and the state after the fetch of the instruction at its program counter is u (R399, R405). -/
def State.fetches (s u : State) : Prop :=
  s.cc.halt = false ∧ s.cc.wait = false ∧ s.cc.bus = none ∧ s.blkHeld 19 = false ∧ ∃ w, s.octFetch = (w, true) ∧ u = { w with cc := { w.cc with boot := false } }

/-- A trap taken (R396), or in the trap window a double trap (R397). -/
def State.trapped (u : State) (cause status : Nat) (tpc tval : Word) (t : State) : Prop :=
  (u.octTw = false → t.csr 1 = u.csr 0 ∧ t.csr 2 = tpc ∧ t.csr 3 = w32 (cause + 256 * status) ∧ t.csr 4 = tval ∧ t.octPriv = true ∧
    t.octIe = false ∧ t.octTw = true ∧ t.cc.pc = u.csr 5 + BitVec.ofNat 32 (8 * cause) ∧
    { t.cc with csr := u.cc.csr, pc := u.cc.pc } = u.cc ∧ u.only [.cc] t) ∧
  (u.octTw = true → t.cc = { u.cc with halt := true, dt := true } ∧ t.rg R.CC_DT_INFO = w32 (bitsOf (u.csr 3).toNat 0 6 + 256 * cause) ∧
    t.rg R.CC_DT_PC = u.cc.pc ∧ (u.quietEvents → t.rb R.CC_EVT F.CC_EVT_DOUBLE_TRAP = true) ∧
    u.frameEv [.cc] [R.CC_DT_INFO, R.CC_DT_PC, R.CC_EVT] t)

/-- A register written and the next instruction following: every other register of every window, and the rest of the core, is as before. -/
def State.octWrote (u : State) (rd : Reg) (v : Word) (t : State) : Prop :=
  t.octReg rd = v ∧ (∀ r, r ≠ rd → t.octReg r = u.octReg r) ∧ (∀ win n, n < 16 → win ≠ u.curWin → t.winReg win n = u.winReg win n) ∧
  t.cc.pc = u.cc.pc + 4 ∧ { t.cc with g := u.cc.g, w := u.cc.w, pc := u.cc.pc } = u.cc ∧ u.only [.cc] t

/-- Only the program counter changed. -/
def State.octWent (u : State) (pc : Word) (t : State) : Prop := t.cc = { u.cc with pc := pc } ∧ u.only [.cc] t

/-- An instruction of the core, with these operands. -/
def isOct (rd ra rb : Reg) (imm : BitVec 16) (off : BitVec 26) (arg : BitVec 12) (n : Fin 16) (acc : Fin 4) (c : Instr) : Prop :=
  c ∈ [.octAdd rd ra rb, .octSub rd ra rb, .octAnd rd ra rb, .octOr rd ra rb, .octXor rd ra rb, .octAndn rd ra rb, .octShl rd ra rb, .octShr rd ra rb,
   .octSra rd ra rb, .octSlt rd ra rb, .octSltu rd ra rb, .octMin rd ra rb, .octMax rd ra rb, .octClz rd ra, .octPopc rd ra, .octMul rd ra rb,
   .octMulh rd ra rb, .octDiv rd ra rb, .octDivu rd ra rb, .octRem rd ra rb, .octAddi rd ra imm, .octAndi rd ra imm, .octOri rd ra imm,
   .octXori rd ra imm, .octShli rd ra imm, .octShri rd ra imm, .octSrai rd ra imm, .octLui rd imm] ++
  [.octLdw rd ra imm, .octLdh rd ra imm, .octLdhu rd ra imm, .octLdb rd ra imm, .octLdbu rd ra imm, .octSwapw rd ra imm, .octStw rb ra imm,
   .octSth rb ra imm, .octStb rb ra imm, .octBeq ra rb imm, .octBne ra rb imm, .octBlt ra rb imm, .octBge ra rb imm, .octBltu ra rb imm,
   .octBgeu ra rb imm, .octJmp off, .octCallw off, .octJr ra imm, .octCallwr ra imm] ++
  [.octMac acc ra rb, .octMacu acc ra rb, .octMac2 acc ra rb, .octMacrd rd acc, .octMacld acc ra rb, .octMacclr acc, .octRetw, .octTexit,
   .octTrap arg, .octBrk, .octWait, .octRdcr rd arg, .octWrcr arg ra, .octXrd rd n, .octXwr n ra]

/-- A reset request from a part that runs (R450, R451, R456, Table RS-2): the sequence starts at its first step, the cause and its reach are
shown; a Run reset clears the array, the host interface and the queues; a deeper one the Yoke too. -/
def State.resetBegun (s : State) (code detail reach : Nat) (t : State) : Prop :=
  t.rs.seq = some (.mk reach 0 false code detail) ∧ t.rg R.RS_CAUSE = w32 (code + 64 * reach + 256 * detail) ∧
  t.hi = Hi.reset ∧ t.pending = s.pending ∧ t.faults = [] ∧ t.ft.run = none ∧
  (reach < 2 → t.yk = Yoke.reset ∧ t.mke = MkEng.reset ∧ t.cuffs = [] ∧ t.arr = Arr.reset ∧ t.qs = [] ∧ t.cc = Cc.reset) ∧
  (reach = 2 → t.yk.time = s.yk.time)

/-- No reset under way, held or deferred, no OTP pulse and no option load. -/
def State.resetFree (s : State) : Prop := s.rs.seq = none ∧ s.rs.held = [] ∧ s.rs.deferred = [] ∧ s.ot.run = none ∧ s.rs.optRun = false

end Sys2Proof.Machine
end

