-- ==== Sys2Proof/Certificates/Slice0/Obligations.lean ====
section
/-! DEFINITION. The statements of this row: what the commands of each family do, rule by rule; what each leaves as it was; and what holds of
every step. -/

open Sys2Proof Sys2Proof.Machine

/-- A step takes the command at the front of the queue and is exec of that command on the state with the queue's rest. On an empty queue the
user logic of the fabric has a cycle, which touches nothing but the fabric's flip-flops and serial blocks (log entry 2, the model's own choice). -/
def Obligations.StepRunsFront : Prop :=
  (∀ (c : Instr) (r : List Instr) (s : State), s.pending = c :: r → step s = exec c { s with pending := r }) ∧
  (∀ s : State, s.pending = [] → ∃ t, step s = .next t ∧ t.pending = [] ∧ s.only [.fb, .freeCtr] t)

/-- What reset leaves, by the values that the spec's register maps state: identification registers of the blocks, limits and time-outs, gains;
no flag set, every axis OFF, every mark idle, every PE FIFO and queue empty, nothing waiting. -/
def Obligations.ResetValues : Prop :=
  let s := State.reset
  s.rg R.YK_ID = 0x802 ∧ s.rf R.YK_TDC_SCALE F.YK_TDC_SCALE_SCALE = 0x8000 ∧ s.now = 0 ∧
  (∀ n < 8, s.rg (R.YK_AX_CFG n) = 0 ∧ s.rg (R.YK_AX_LOSS_TMO n) = 0x7A120 ∧ s.rg (R.YK_AX_GAIN n) = 0x2AAB8000 ∧
    s.rg (R.YK_AX_HYST n) = 0x10000 ∧ (s.ax n).st = .off ∧ (s.ax n).p = 0 ∧ (s.ax n).v = 0) ∧
  s.rg R.YK_EVT = 0 ∧ s.rg R.MK_EVT = 0 ∧ (∀ n < 1024, s.rg (R.MK_ENT_CTL n) = 0 ∧ (s.mark n).fires = 0 ∧ (s.mark n).inserted = false) ∧
  s.rg R.CF_TAP_CAL = 0x8000 ∧ (∀ n < 128, s.rf (R.CF_CFG n) F.CF_CFG_OWNER = 0) ∧
  s.rg R.AR_ID = 0x283001 ∧ s.rf R.AR_LM_WAIT F.AR_LM_WAIT_MAX = 0x1000 ∧ s.rb R.AR_CTRL F.AR_CTRL_FROZEN = false ∧
  (∀ i < 1536, (s.pe i).n.toks = [] ∧ (s.pe i).e.toks = [] ∧ (s.pe i).so.toks = [] ∧ (s.pe i).w.toks = []) ∧
  (∀ q, (s.qu q).ents = []) ∧ s.rf R.SQ_FLUSH_TMO F.SQ_FLUSH_TMO_TMO = 0x10000 ∧
  (∀ p < 8, s.rf (R.SQ_SP_SYNC p) F.SQ_SP_SYNC_SYNC = 0xF0A5) ∧
  (∀ k < 8, s.rg (R.FB_TMR_CMP k) = 0xFFFFFFFF)

/-- Memory's canonical form holds at reset. -/
def Obligations.ResetMemory : Prop := State.reset.MemInv

/-- No state stops the block: every command of the table, with every operand, is carried out in every state and leaves the queue as it is; every
step answers a next state. -/
def Obligations.EveryStepGoesOn : Prop :=
  (∀ (i : Instr) (s : State), ∃ t, exec i s = .next t ∧ t.pending = s.pending) ∧ ∀ s : State, ∃ t, step s = .next t

/-- A step takes exactly one command from the queue: no command adds to it, removes from it or reorders it. -/
def Obligations.StepTakesOneCommand : Prop := ∀ s t : State, step s = .next t → t.pending = s.pending.tail

/-- The canonical form of memory (addresses strictly rising, no entry equal to what an unlisted byte reads as) is kept by every step, from
every state that has it. -/
def Obligations.MemoryStaysCanonical : Prop := ∀ s t : State, s.MemInv → step s = .next t → t.MemInv

/-- R319: an OTP bit that reads 1 never returns to 0, whatever the step: no command, reset or loss of power clears one. -/
def Obligations.OtpBitsStaySet : Prop :=
  ∀ (s t : State) (k b : Nat), step s = .next t → wbit (s.otWord k) b = true → wbit (t.otWord k) b = true

/-- R27, R35. A mains-phase axis must be cyclic: a write that enables SRC 4 with CYCLIC 0 is refused as in R9. An axis that is disabled becomes
OFF; its position and velocity hold their last values, at the write and in every YCLK after it. -/
def Obligations.MainsAndDisabledAxes : Prop :=
  ∀ (s : State) (n : Fin 8) (v : Word),
    (F.YK_AX_CFG_EN.bit v = true → F.YK_AX_CFG_SRC.get v = 4 → F.YK_AX_CFG_CYCLIC.bit v = false →
      gives (.axCfgWrite n v) s (fun t => t.rg R.YK_CFG_ERR = w32 (setBit (s.rg R.YK_CFG_ERR).toNat n) ∧ s.frameR [R.YK_CFG_ERR] t)) ∧
    (s.rb (R.YK_AX_CFG n) F.YK_AX_CFG_EN = true → F.YK_AX_CFG_EN.bit v = false →
      gives (.axCfgWrite n v) s (fun t => t.rb (R.YK_AX_CFG n) F.YK_AX_CFG_EN = false ∧ (t.ax n).st = .off ∧ (t.ax n).p = (s.ax n).p ∧
        (t.ax n).v = (s.ax n).v ∧ s.axesBut n t ∧ s.frame [.yk] [R.YK_AX_CFG n] t)) ∧
    (s.rb (R.YK_AX_CFG n) F.YK_AX_CFG_EN = false → (s.ax n).cSet = false → (s.ax n).cSetv = false → (s.ax n).cRst = false →
      gives .observerUpdate s (fun t => (t.ax n).st = (s.ax n).st ∧ (t.ax n).p = (s.ax n).p ∧ (t.ax n).v = (s.ax n).v))

/-- R90, R132. A write of AR_COLMAP is refused unless AR_CTRL.FROZEN reads 1; a refused write keeps the old value, writes code 1 to AR_CFG_ERR and sets
AR_EVT.CFG_ERR; a remap moves nothing of the Array. Writes through AR_PE_DATA complete only while FROZEN is 1; otherwise STATUS returns BUSY
and nothing is written. -/
def Obligations.FrozenArrayWrites : Prop :=
  ∀ s : State,
    (∀ v : Word, s.rb R.AR_CTRL F.AR_CTRL_FROZEN = false →
      gives (.arColmapWrite v) s (fun t => t.rg R.AR_COLMAP = s.rg R.AR_COLMAP ∧ t.rg R.AR_CFG_ERR = 1 ∧
        (s.quietEvents → t.rb R.AR_EVT F.AR_EVT_CFG_ERR = true) ∧ s.frameEv [] [R.AR_CFG_ERR, R.AR_EVT] t)) ∧
    (∀ v : Word, gives (.arColmapWrite v) s (fun t => t.arr = s.arr ∧ ∀ a, t.byteAt a = s.byteAt a)) ∧
    (∀ v : Word, s.rb R.AR_CTRL F.AR_CTRL_FROZEN = true → s.ft.run = none → colMapBad (s.rg R.AR_COLMAP) v = false →
      gives (.arColmapWrite v) s (fun t => t.rg R.AR_COLMAP = s.written R.AR_COLMAP v)) ∧
    (∀ i p g, s.peSel = some (i, p, g) → g ≠ 19 → s.rb R.AR_CTRL F.AR_CTRL_FROZEN = true →
      gives .peDataWrite s (fun t => t.rf R.AR_PE_CMD F.AR_PE_CMD_STATUS = 0)) ∧
    (s.rb R.AR_CTRL F.AR_CTRL_FROZEN = false →
      gives .peDataWrite s (fun t => t.rf R.AR_PE_CMD F.AR_PE_CMD_STATUS = 1 ∧ s.frameR [R.AR_PE_CMD] t)) ∧
    ((∀ i p g, s.peSel = some (i, p, g) → g = 19) → s.rb R.AR_CTRL F.AR_CTRL_FROZEN = true →
      gives .peDataWrite s (fun t => t.rf R.AR_PE_CMD F.AR_PE_CMD_STATUS = 2 ∧ s.frameR [R.AR_PE_CMD] t))

/-- R9, R20, R36: the writes of an axis's configuration. A write that the rules refuse sets the axis's bit of YK_CFG_ERR and changes nothing
else; an accepted one is stored; enabling an axis starts it TRACKING at position 0.0 with velocity 0 and direction up (R34); a MOD_LO write
waits for the next MOD_HI write, which puts both words in force or, on a cyclic axis with a modulus out of range, neither. -/
def Obligations.AxisConfigWrites : Prop :=
  ∀ (s : State) (n : Fin 8) (v : Word),
    -- AX_CFG_WRITE: refused
    (s.axCfgBad n v = true →
      gives (.axCfgWrite n v) s (fun t => t.rg R.YK_CFG_ERR = w32 (setBit (s.rg R.YK_CFG_ERR).toNat n) ∧ s.frameR [R.YK_CFG_ERR] t)) ∧
    ((9 ≤ F.YK_AX_CFG_SRC.get v ∨ F.YK_AX_CFG_Z_MODE.get v = 3) → F.YK_AX_CFG_EN.bit v = true → s.axCfgBad n v = true) ∧
    -- AX_CFG_WRITE: accepted, EN rising, and EN falling
    (s.axCfgBad n v = false →
      gives (.axCfgWrite n v) s (fun t =>
        t.rg (R.YK_AX_CFG n) = s.written (R.YK_AX_CFG n) v ∧ s.frame [.yk] [R.YK_AX_CFG n] t ∧ s.axesBut n t ∧
        (s.rb (R.YK_AX_CFG n) F.YK_AX_CFG_EN = false → F.YK_AX_CFG_EN.bit v = true →
          (t.ax n).st = .tracking ∧ (t.ax n).p = 0 ∧ (t.ax n).v = 0 ∧ (t.ax n).down = false ∧ (t.ax n).turns = (s.ax n).turns) ∧
        (s.rb (R.YK_AX_CFG n) F.YK_AX_CFG_EN = true → F.YK_AX_CFG_EN.bit v = false →
          (t.ax n).st = .off ∧ (t.ax n).p = (s.ax n).p))) ∧
    -- AX_FILT_WRITE
    (F.YK_AX_FILT_MAINS_BW.get v < 5 →
      gives (.axFiltWrite n v) s (fun t => t.rg (R.YK_AX_FILT n) = s.written (R.YK_AX_FILT n) v ∧ s.frameR [R.YK_AX_FILT n] t)) ∧
    (5 ≤ F.YK_AX_FILT_MAINS_BW.get v →
      gives (.axFiltWrite n v) s (fun t => t.rg R.YK_CFG_ERR = w32 (setBit (s.rg R.YK_CFG_ERR).toNat n) ∧ s.frameR [R.YK_CFG_ERR] t)) ∧
    -- AX_SSI_WRITE
    (8 ≤ F.YK_AX_SSI_BITS.get v → F.YK_AX_SSI_BITS.get v ≤ 40 → F.YK_AX_SSI_CRC_LEN.get v ≠ 7 → 24 ≤ F.YK_AX_SSI_CLKDIV.get v →
      gives (.axSsiWrite n v) s (fun t => t.rg (R.YK_AX_SSI n) = s.written (R.YK_AX_SSI n) v ∧ s.frameR [R.YK_AX_SSI n] t)) ∧
    ((F.YK_AX_SSI_BITS.get v < 8 ∨ 40 < F.YK_AX_SSI_BITS.get v ∨ F.YK_AX_SSI_CRC_LEN.get v = 7 ∨ F.YK_AX_SSI_CLKDIV.get v < 24) →
      gives (.axSsiWrite n v) s (fun t => t.rg R.YK_CFG_ERR = w32 (setBit (s.rg R.YK_CFG_ERR).toNat n) ∧ s.frameR [R.YK_CFG_ERR] t)) ∧
    -- MOD_LO_WRITE
    gives (.modLoWrite n v) s (fun t => (t.ax n).modStage = some v ∧ s.axesBut n t ∧ s.frame [.yk] [] t) ∧
    -- MOD_HI_WRITE on a linear axis, on a cyclic one in range, and out of range
    (∀ lo, (s.ax n).modStage = some lo → s.rb (R.YK_AX_CFG n) F.YK_AX_CFG_CYCLIC = false →
      gives (.modHiWrite n v) s (fun t => t.rg (R.YK_AX_MOD_LO n) = lo ∧ t.rg (R.YK_AX_MOD_HI n) = v ∧ (t.ax n).modStage = none ∧
        s.axesBut n t ∧ s.frame [.yk] [R.YK_AX_MOD_LO n, R.YK_AX_MOD_HI n] t)) ∧
    (∀ lo, (s.ax n).modStage = some lo → s.rb (R.YK_AX_CFG n) F.YK_AX_CFG_CYCLIC = true → modOk (lo.toNat + 2 ^ 32 * v.toNat) = true →
      gives (.modHiWrite n v) s (fun t => t.rg (R.YK_AX_MOD_LO n) = lo ∧ t.rg (R.YK_AX_MOD_HI n) = v ∧ (t.ax n).modStage = none ∧
        s.axesBut n t ∧ s.frame [.yk] [R.YK_AX_MOD_LO n, R.YK_AX_MOD_HI n] t)) ∧
    (∀ lo, (s.ax n).modStage = some lo → s.rb (R.YK_AX_CFG n) F.YK_AX_CFG_CYCLIC = true → modOk (lo.toNat + 2 ^ 32 * v.toNat) = false →
      gives (.modHiWrite n v) s (fun t => t.rg R.YK_CFG_ERR = w32 (setBit (s.rg R.YK_CFG_ERR).toNat n) ∧ (t.ax n).modStage = none ∧
        s.axesBut n t ∧ s.frame [.yk] [R.YK_CFG_ERR] t))

/-- R12, R14, R20–R22, R264, R24–R26, R28: what comes in at an axis's inputs. A transition at a ball sets the level of its Cuff and queues an edge,
with its timestamp, for each axis whose YK_AX_IN names the ball; one at a plain user I/O sets that ball's level; the edge is delivered from cycle c(4 + FILT); an SSI frame that passes its CRC
becomes a measurement at its first clock edge, one that fails counts; a sine/cosine sample set becomes a measurement or an input error; a
sample of the mains tracker replaces position and velocity while the tracker (free, R28) is settled on 40-70 Hz and its input has the amplitude
SC_AMP_MIN. -/
def Obligations.AxisInputs : Prop :=
  ∀ (s : State) (n : Fin 8),
    -- INPUT_EDGE
    (∀ (c : Fin 200) (lv : Bool) (r : BitVec 8),
      (128 ≤ c.val → gives (.inputEdge c lv r) s (fun t => t.uio c = { s.uio c with inp := lv } ∧ (∀ k, k ≠ c.val → t.uio k = s.uio k) ∧
        s.only [.fb] t)) ∧
      (c.val < 128 → (s.cuff c).inp = lv → exec (.inputEdge c lv r) s = .next s) ∧
      (c.val < 128 → (s.cuff c).inp ≠ lv →
        gives (.inputEdge c lv r) s (fun t => (t.cuff c).inp = lv ∧ (t.cuff c).level = (s.cuff c).level ∧ s.cuffsBut c t ∧
          (s.axRoles n c = [.a] → (s.ax n).edges = [] → (t.ax n).edges = [InEdge.mk .a lv
            (128 * (s.now : Int) + rndDiv (r.toNat * s.rf R.YK_TDC_SCALE F.YK_TDC_SCALE_SCALE) 32768
                    - sext 8 (s.rf (R.YK_CUFF_ADJ c) F.YK_CUFF_ADJ_ADJ)) s.now]) ∧
          (s.axRoles n c = [] → t.ax n = s.ax n) ∧ s.frame [.yk, .cuffs] [] t))) ∧
    -- EDGE_DELIVER
    (∀ e r, (s.ax n).edges = e :: r → e.cyc + 4 + s.rf (R.YK_AX_FILT n) F.YK_AX_FILT_FILT ≤ s.now →
      gives (.edgeDeliver n) s (fun t => (t.ax n).edges = r ∧ (t.ax n).now = (s.ax n).now ++ [e] ∧ s.axesBut n t ∧ s.frame [.yk] [] t)) ∧
    -- SSI_FRAME_START
    (s.rb (R.YK_AX_CFG n) F.YK_AX_CFG_EN = true → s.rf (R.YK_AX_CFG n) F.YK_AX_CFG_SRC = 2 →
      (∀ l, (s.ax n).ssiLast = some l → l + s.rf (R.YK_AX_SSI_T n) F.YK_AX_SSI_T_PERIOD ≤ s.now) →
      gives (.ssiFrameStart n) s (fun t => (t.ax n).ssiT0 = some (128 * (s.now : Int)) ∧ (t.ax n).ssiLast = some s.now ∧ s.axesBut n t ∧
        s.frame [.yk] [] t)) ∧
    -- SSI_FRAME_END: the frame passes, and it fails without being a loss
    (∀ (b : BitVec 46) (t0 : Int), (s.ax n).ssiT0 = some t0 →
      let cfg := s.rg (R.YK_AX_SSI n)
      let w := F.YK_AX_SSI_CRC_LEN.get cfg
      let nb := F.YK_AX_SSI_BITS.get cfg
      let pos := b.toNat / 2 ^ w % 2 ^ nb
      (ssiCrcOk cfg pos (b.toNat % 2 ^ w) = true →
        gives (.ssiFrameEnd n b) s (fun t => (t.ax n).crcRun = 0 ∧ (t.ax n).ssiT0 = none ∧
          (t.ax n).meas = some (Meas.mk ((if F.YK_AX_SSI_GRAY.bit cfg then grayToBin nb pos else pos : Nat) * oneCount)
                                 (t0 + sext 16 (s.rf (R.YK_AX_SSI_T n) F.YK_AX_SSI_T_LATCH_ADJ)) none none) ∧
          s.axesBut n t ∧ s.frame [.yk] [] t)) ∧
      (ssiCrcOk cfg pos (b.toNat % 2 ^ w) = false → (s.ax n).armed = false →
        gives (.ssiFrameEnd n b) s (fun t => (t.ax n).crcRun = (s.ax n).crcRun + 1 ∧ (t.ax n).meas = (s.ax n).meas ∧
          t.rf (R.YK_AX_ERRCNT n) F.YK_AX_ERRCNT_CRC_ERR = satN 0xFFFF (s.rf (R.YK_AX_ERRCNT n) F.YK_AX_ERRCNT_CRC_ERR + 1) ∧
          s.axesBut n t ∧ s.frame [.yk] [R.YK_AX_ERRCNT n] t))) ∧
    -- SINCOS_SAMPLE: outside the amplitude limits, and the first valid one
    (let i := s.rg (R.YK_AX_IN n)
     let pt := F.YK_AX_IN_PORT.get i
     let q := s.spr pt
     let ofs := s.rg (R.YK_SC_OFS pt)
     let gn := s.rg (R.YK_SC_GAIN pt)
     let sn := (sext 16 (q.yokeSet.getD (F.YK_AX_IN_SIN_CH.get i) 0).toNat - sext 16 (F.YK_SC_OFS_SIN_OFS.get ofs)) * 0x4000
     let cs := (sext 16 (q.yokeSet.getD (F.YK_AX_IN_COS_CH.get i) 0).toNat - sext 16 (F.YK_SC_OFS_COS_OFS.get ofs))
                 * F.YK_SC_GAIN_COS_GAIN.get gn
     let f := s.rg (R.YK_AX_FILT n)
     let lim := fun (k : Nat) => (((128 * k * 0x4000) ^ 2 : Nat) : Int)
     s.rb (R.YK_AX_CFG n) F.YK_AX_CFG_EN = true → s.rf (R.YK_AX_CFG n) F.YK_AX_CFG_SRC = 3 → (s.ax n).scSeq < q.yokeSeq →
      (sn * sn + cs * cs < lim (F.YK_AX_FILT_SC_AMP_MIN.get f) →
        gives (.sincosSample n) s (fun t => (t.ax n).meas = (s.ax n).meas ∧ (t.ax n).scSeq = q.yokeSeq ∧
          t.rf (R.YK_AX_ERRCNT n) F.YK_AX_ERRCNT_IN_ERR = satN 0xFFFF (s.rf (R.YK_AX_ERRCNT n) F.YK_AX_ERRCNT_IN_ERR + 1) ∧
          (s.quietEvents → (t.rg R.YK_EVT).toNat.testBit (24 + n.val) = true) ∧
          s.axesBut n t ∧ s.frameEv [.yk] [R.YK_AX_ERRCNT n, R.YK_EVT] t)) ∧
      (lim (F.YK_AX_FILT_SC_AMP_MIN.get f) ≤ sn * sn + cs * cs → sn * sn + cs * cs ≤ lim (F.YK_AX_FILT_SC_AMP_MAX.get f) →
        (s.ax n).scAng = none →
        gives (.sincosSample n) s (fun t => (t.ax n).scSeq = q.yokeSeq ∧
          (t.ax n).meas = some (Meas.mk ((s.ax n).scPos + ((angle18 sn cs + 4 * F.YK_SC_GAIN_PHASE.get gn) % 0x40000 : Nat) * 0x10000)
                                 q.yokeTs none none) ∧
          s.axesBut n t ∧ s.frame [.yk] [] t))) ∧
    -- MAINS_SAMPLE
    (let q := s.spr (F.YK_AX_IN_PORT.get (s.rg (R.YK_AX_IN n)))
     s.rb (R.YK_AX_CFG n) F.YK_AX_CFG_EN = true → s.rf (R.YK_AX_CFG n) F.YK_AX_CFG_SRC = 4 → (s.ax n).scSeq < q.yokeSeq →
      let k := Config.mainsNext (s.ax n).trk (F.YK_AX_FILT_MAINS_BW.get (s.rg (R.YK_AX_FILT n)))
                 (sext 16 ((q.yokeSet.getD (F.YK_AX_IN_SIN_CH.get (s.rg (R.YK_AX_IN n))) 0).toNat)) q.yokeTs
      let good := Config.mainsSettled k = true ∧ 40 * 65536 ≤ (Config.mainsFreq k).toNat ∧ (Config.mainsFreq k).toNat ≤ 70 * 65536
      let strong := 128 * F.YK_AX_FILT_SC_AMP_MIN.get (s.rg (R.YK_AX_FILT n)) ≤ Config.mainsAmp k
      gives (.mainsSample n) s (fun t => (t.ax n).scSeq = q.yokeSeq ∧ ((t.ax n).lock = true ↔ good) ∧ (t.ax n).trk = k ∧
        (good → strong →
          (t.ax n).meas = some (Meas.mk (((s.axMod n : Nat) : Int) * (Config.mainsPhase k).toNat / 0x100000000) q.yokeTs
                                 (some (satS 40 (rndDiv (((s.axMod n : Nat) : Int) * (Config.mainsFreq k).toNat)
                                          (500000000 * 65536)))) none)) ∧
        ((¬ good ∨ ¬ strong) → (t.ax n).meas = (s.ax n).meas ∧ (t.ax n).reacq = 0) ∧
        s.axesBut n t ∧ s.frame [.yk] [] t))

/-- R33, R39, R41, R43, R48: one YCLK of the observer; loss of signal; the end of HOLDOVER. While the domain YOKE is ON the update makes one
position bus sample of all axes, stamped with the time, and advances YK_TIME by one; an axis under SET is placed at SWPOS; an axis without EN
keeps its position. A loss that is due takes a TRACKING axis to HOLDOVER, or to FROZEN; HOLD_TMO YCLK of HOLDOVER make it FROZEN. -/
def Obligations.ObserverAndLoss : Prop :=
  ∀ s : State,
    -- OBSERVER_UPDATE
    (2 ≤ s.rf (R.PW_DOM_STAT 16) F.PW_DOM_STAT_STATE →
      gives .observerUpdate s (fun t =>
        t.yk.time = s.yk.time + 1 ∧ t.yk.hist.length ≤ 272 ∧ t.yk.hist.head? = some (t.busNow s.now) ∧
        (∀ n < 8, s.rb (R.YK_AX_CFG n) F.YK_AX_CFG_EN = false → (s.ax n).cSet = false → (s.ax n).cRst = false → (t.ax n).p = (s.ax n).p) ∧
        (∀ n < 8, (s.ax n).cSet = true → (s.ax n).cRst = false →
          (t.ax n).p = mplace (s.axMod n) (sext 64 (s.rg64 (R.YK_AX_SWPOS_LO n) (R.YK_AX_SWPOS_HI n)) * 0x10000) ∧ (t.ax n).step = true) ∧
        (∀ n < 8, (s.ax n).cRst = true → (t.ax n).p = 0 ∧ (t.ax n).turns = 0 ∧ (t.ax n).rstStep = true) ∧
        s.only [.regs, .yk, .hx, .ev, .out] t)) ∧
    (s.rf (R.PW_DOM_STAT 16) F.PW_DOM_STAT_STATE < 2 →
      gives .observerUpdate s (fun t => t.yk.time = s.yk.time + 1 ∧ (∀ n, t.ax n = s.ax n) ∧ s.frame [.yk] [] t)) ∧
    -- LOSS_DETECT
    (∀ n : Fin 8, s.lossDue n (s.now - 1) = true →
      gives (.lossDetect n) s (fun t => ((t.ax n).st = .holdover ∨ (t.ax n).st = .frozen) ∧ (t.ax n).v = (s.ax n).ve ∧
        (s.rg (R.YK_AX_HOLD_TMO n) ≠ 0 → s.axMod n ≠ 0 → (t.ax n).st = .holdover ∧ (t.ax n).cause = 1) ∧
        (s.quietEvents → (t.rg R.YK_EVT).toNat.testBit n = true) ∧
        (∀ m, m ≠ n.val → t.ax m = s.ax m) ∧ s.frameEv [.yk] [R.YK_EVT] t)) ∧
    (∀ n : Fin 8, s.lossDue n (s.now - 1) = false → exec (.lossDetect n) s = .next s) ∧
    -- HOLD_TIMEOUT
    (∀ n : Fin 8, (s.ax n).st = .holdover → (s.ax n).tHold + (s.rg (R.YK_AX_HOLD_TMO n)).toNat ≤ s.now - 1 →
      gives (.holdTimeout n) s (fun t => (t.ax n).st = .frozen ∧ (t.ax n).cause = 3 ∧ (t.ax n).p = (s.ax n).p ∧
        (s.quietEvents → (t.rg R.YK_EVT).toNat.testBit (8 + n.val) = true) ∧
        (∀ m, m ≠ n.val → t.ax m = s.ax m) ∧ s.frameEv [.yk] [R.YK_EVT] t))

/-- R32, R44, R47, R48, R50, R55: the commands of an axis wait for the next YCLK; a POS_LO read latches the axis, SNAP_ALL all eight; a Block
reset returns the Yoke but not YK_TIME; every 500 YCLK the axes with TX are sent to the Lace unit. -/
def Obligations.YokeCommands : Prop :=
  ∀ s : State,
    (∀ n : Fin 8,
      gives (.axSet n) s (fun t => t.ax n = { s.ax n with cSet := true } ∧ s.axesBut n t ∧ s.frame [.yk] [] t) ∧
      gives (.axSetv n) s (fun t => t.ax n = { s.ax n with cSetv := true } ∧ s.axesBut n t ∧ s.frame [.yk] [] t) ∧
      gives (.axResume n) s (fun t => t.ax n = { s.ax n with cResume := true } ∧ s.axesBut n t ∧ s.frame [.yk] [] t) ∧
      gives (.axRst n) s (fun t => t.ax n = { s.ax n with cRst := true } ∧ s.axesBut n t ∧ s.frame [.yk] [] t) ∧
      -- POS_LO_READ
      (n.val ∉ s.yk.snap →
        gives (.posLoRead n) s (fun t =>
          t.rg64 (R.YK_AX_POS_LO n) (R.YK_AX_POS_HI n) = trunc 64 ((s.ax n).p / lsb16) ∧
          t.rg64 (R.YK_AX_VEL_LO n) (R.YK_AX_VEL_HI n) = trunc 64 (s.ax n).v ∧
          t.rg (R.YK_AX_TURNS n) = (s.ax n).turns ∧ t.rg (R.YK_AX_STAT n) = (s.ax n).stat ∧
          t.out = s.out ++ [.readBack (R.YK_AX_POS_LO n) (t.rg (R.YK_AX_POS_LO n))] ∧
          s.frame [.out] [R.YK_AX_POS_LO n, R.YK_AX_POS_HI n, R.YK_AX_VEL_LO n, R.YK_AX_VEL_HI n, R.YK_AX_STAT n, R.YK_AX_TURNS n,
            R.YK_AX_REACQ_ERR n] t)) ∧
      (n.val ∈ s.yk.snap →
        gives (.posLoRead n) s (fun t => t.yk.snap = s.yk.snap.filter (· != n.val) ∧
          t.out = s.out ++ [.readBack (R.YK_AX_POS_LO n) (s.rg (R.YK_AX_POS_LO n))] ∧ (∀ m, t.ax m = s.ax m) ∧ s.frame [.yk, .out] [] t))) ∧
    -- SNAP_ALL
    gives .snapAll s (fun t =>
      (∀ n < 8, t.rg64 (R.YK_AX_POS_LO n) (R.YK_AX_POS_HI n) = trunc 64 ((s.ax n).p / lsb16) ∧
        t.rg64 (R.YK_AX_VEL_LO n) (R.YK_AX_VEL_HI n) = trunc 64 (s.ax n).v) ∧
      t.yk.snap = List.range 8 ∧ (∀ m, t.ax m = s.ax m) ∧ t.yk.time = s.yk.time ∧ s.only [.regs, .yk] t) ∧
    -- YK_BLK_RST
    (s.blkHeld 2 = false → gives .ykBlkRst s (fun t => (∀ n, t.ax n = Axis.idle) ∧ t.yk.time = s.yk.time ∧
      (∀ a, t.rg a = if 0x10000 ≤ a ∧ a < 0x20000 then clearReg .block a (s.rg a) else s.rg a) ∧ s.only [.regs, .yk] t)) ∧
    (s.blkHeld 2 = true → exec .ykBlkRst s = .next s) ∧
    -- AXIS_SAMPLE_SEND
    (s.yk.lastTx + 500 ≤ s.now →
      gives .axisSampleSend s (fun t => t.yk.lastTx = s.now ∧
        (∀ n < 8, s.rb (R.YK_AX_LACE n) F.YK_AX_LACE_TX = true →
          (∃ o ∈ t.net.outst, o.req.cmd.toNat = 0x13 ∧ o.req.dst = nodeIx 3 9 ∧ o.req.data = [s.axsUnit n] ∧ o.time = s.nclk) ∨
          (∃ h ∈ t.net.held, h.req.cmd.toNat = 0x13 ∧ h.req.dst = nodeIx 3 9 ∧ h.req.data = [s.axsUnit n])) ∧
        (∀ m, t.ax m = s.ax m) ∧ (s.noProbes → s.frame [.yk, .net] [] t))) ∧
    (s.now < s.yk.lastTx + 500 → exec .axisSampleSend s = .next s)

/-- R57–R60, R64, R74, R86: the mark engine. A CTL word that Table MK-2 refuses reports its code and leaves the mark; an accepted entry takes effect
in the next YCLK, after the commits of that YCLK; a write that would be the 33rd insertion of its axis waits, and every later one behind it; an
insertion at the head completes after 4 YCLK; a YCLK of the engine commits at most one mark an axis, none on an axis that is OFF, FROZEN or inhibited;
DISARM_ALL makes every mark IDLE at the next YCLK; a Block reset clears marks and queues but no committed action. -/
def Obligations.MarkEngine : Prop :=
  ∀ s : State,
    (∀ (n : Fin 1024) (v : Word),
      let e := s.entryRegs n v
      -- MARK_CTL_WRITE refused, accepted, waiting for a place in the insertion queue, and behind one that waits
      (∀ c, s.mke.regq = [] → s.markRefusal v e = some c →
        gives (.markCtlWrite n v) s (fun t => t.mke = s.mke ∧ t.rg (R.MK_ENT_CTL n) = v ∧
          t.rf R.MK_CFG_ERR F.MK_CFG_ERR_INDEX = n ∧ t.rf R.MK_CFG_ERR F.MK_CFG_ERR_CODE = c ∧
          s.frameEv [] [R.MK_ENT_CTL n, R.MK_CFG_ERR, R.MK_EVT] t)) ∧
      (s.mke.regq = [] → s.markRefusal v e = none → (e.arm = false ∨ s.insertFull e.axis n = false) →
        gives (.markCtlWrite n v) s (fun t => t.rg (R.MK_ENT_CTL n) = v ∧
          t.mke = { s.mke with written := s.mke.written ++ [(s.now + 1, n.val, MkNew.mk e none)] } ∧ s.frame [.mke] [R.MK_ENT_CTL n] t)) ∧
      (s.mke.regq = [] → s.markRefusal v e = none → e.arm = true → s.insertFull e.axis n = true →
        gives (.markCtlWrite n v) s (fun t => t.mke = { s.mke with regq := [(R.MK_ENT_CTL n, v)] } ∧ s.frame [.mke] [] t)) ∧
      (s.mke.regq ≠ [] →
        gives (.markCtlWrite n v) s (fun t => t.mke = { s.mke with regq := s.mke.regq ++ [(R.MK_ENT_CTL n, v)] } ∧ s.frame [.mke] [] t))) ∧
    -- MARK_INSERT_DONE
    (∀ (a : Fin 8) (n : Nat) (r : List Nat), (s.mkAx a).queue = n :: r → (s.mkAx a).headAt + 4 ≤ s.now → (s.mark n).rep = false →
      (s.mkAx a).repWait = [] → s.mke.regq = [] →
      gives (.markInsertDone a) s (fun t => (t.mkAx a).queue = r ∧
        t.mark n = { s.mark n with inserted := true, insAt := s.now, crUp := none, crDn := none } ∧
        s.marksBut n t ∧ s.frame [.mke] [] t)) ∧
    (∀ a : Fin 8, s.now < (s.mkAx a).headAt + 4 → exec (.markInsertDone a) s = .next s) ∧
    -- MARK_ENGINE_CYCLE: commits, an entry that takes effect, DISARM_ALL
    (2 ≤ s.rf (R.PW_DOM_STAT 16) F.PW_DOM_STAT_STATE →
      gives .markEngineCycle s (fun t => s.mke.pipe <+: t.mke.pipe ∧ t.mke.pipe.length ≤ s.mke.pipe.length + 8 ∧
        (∀ c ∈ t.mke.pipe.drop s.mke.pipe.length, s.rb (R.MK_AX_CFG c.axis) F.MK_AX_CFG_INHIBIT = false ∧
          (s.busAx c.axis).st ≠ .off ∧ (s.busAx c.axis).st ≠ .frozen) ∧
        (∀ (w : Nat) (n : Fin 1024) (x : MkNew), s.mke.written = [(w, n.val, x)] → w ≤ s.now → s.mke.disarm = none → s.mke.pipe = [] →
          s.yk.hist.length ≤ 5 → s.mke.regq = [] → (s.mark n).inPipe = 0 → x.fold = none → x.ent.arm = true → x.ent.axis < 8 →
          n.val ∉ (s.mkAx x.ent.axis).queue →
          (t.mark n).ent = x.ent ∧ (t.mark n).target = x.ent.pos ∧ (t.mark n).remain = x.ent.rpt ∧ (t.mark n).fires = 0 ∧
          (t.mark n).up = (if x.ent.dir = 1 then .idle else .armed) ∧ (t.mark n).dn = (if x.ent.dir = 0 then .idle else .armed) ∧
          (t.mkAx x.ent.axis).queue = (s.mkAx x.ent.axis).queue ++ [n.val]) ∧
        (∀ (w : Nat) (n : Fin 1024) (x : MkNew), s.mke.written = [(w, n.val, x)] → w ≤ s.now → s.mke.disarm = none → s.mke.regq = [] →
          x.ent.arm = false → (t.mark n).up ≠ .armed ∧ (t.mark n).dn ≠ .armed ∧ (∀ a < 8, n.val ∉ (t.mkAx a).queue)) ∧
        (∀ d, s.mke.disarm = some d → d ≤ s.now → ∀ n, (t.mark n).up = .idle ∧ (t.mark n).dn = .idle) ∧
        (s.mke.regq = [] → s.frameEv [.mke, .hi] [R.MK_EVT, R.HI_EVT] t))) ∧
    -- DISARM_ALL
    (s.mke.regq = [] → gives .disarmAll s (fun t => t.mke = { s.mke with disarm := some (s.now + 1) } ∧ s.frame [.mke] [] t)) ∧
    (s.mke.regq ≠ [] → gives .disarmAll s (fun t => t.mke = { s.mke with regq := s.mke.regq ++ [(R.MK_CTRL, 2)] } ∧ s.frame [.mke] [] t)) ∧
    -- MK_BLK_RST
    (s.blkHeld 3 = false → gives .mkBlkRst s (fun t => (∀ n, t.mark n = Mark.idle) ∧ (∀ a, t.mkAx a = MkAxis.idle) ∧ t.mke.pipe = s.mke.pipe ∧
      t.mke.written = [] ∧ t.mke.regq = [] ∧
      (∀ a, 0x20000 ≤ a → a < 0x40000 → t.rg a = clearReg .block a (s.rg a)) ∧ s.only [.regs, .mke, .hi, .ev, .out] t)) ∧
    (s.blkHeld 3 = true → exec .mkBlkRst s = .next s)

/-- R75, R76, R79, R84, R139, R179: what each action of Table MK-7 does when it leaves the engine, beside the record of the firing: NONE nothing
more; CUFF_EDGE schedules edges at its Cuff, or drops them where the engine does not own it; FOLD reaches the fold unit; DMA_KICK sends a KICK to
the engine of its queue, or is ignored; EVENT raises the mark's source; CAPTURE fills a free slot; FABRIC_STROBE strobes a line; LACE_SEND sends an
LSEND. (Marks that the HX view uses also do what R472 says; here they are none.) -/
def Obligations.MarkActions : Prop :=
  ∀ (s : State) (n : Fin 1024) (c : Commit), (s.mark n).inPipe ≠ 0 → (s.mark n).behind = none → s.hxParm.on = false →
    -- NONE
    (s.leaving n 0 = some c → gives (.actNone n) s (fun t => s.fired n c t ∧ s.frameEv [.mke] [R.MK_EVT] t)) ∧
    -- CUFF_EDGE: a level or toggle edge, a pulse, and the drop
    (s.leaving n 1 = some c →
      let k := c.arg0.toNat % 128
      (s.cfOwner k = 1 → (s.cuff k).held < 8 → ∀ op, (bitsOf c.arg0.toNat 8 2, op) ∈ [(0, EdgeOp.setHi), (1, .setLo), (2, .toggle)] →
        gives (.actCuffEdge n) s (fun t => s.fired n c t ∧
          (t.cuff k).edges = (s.cuff k).edges ++ [CuffEdge.mk c.inst op s.edgeSeq none] ∧ s.cuffsBut k t ∧
          s.frameEv [.mke, .cuffs, .edgeSeq] [R.MK_EVT] t)) ∧
      (s.cfOwner k = 1 → (s.cuff k).held < 7 → bitsOf c.arg0.toNat 8 2 = 3 →
        gives (.actCuffEdge n) s (fun t => s.fired n c t ∧
          (t.cuff k).edges = (s.cuff k).edges ++ [CuffEdge.mk c.inst .pulseOn s.edgeSeq none,
            CuffEdge.mk (c.inst + widthTaps c.arg1.toNat) .pulseOff (s.edgeSeq + 1) none] ∧ s.cuffsBut k t ∧
          s.frameEv [.mke, .cuffs, .edgeSeq] [R.MK_EVT] t)) ∧
      (s.cfOwner k = 1 → 8 < (s.cuff k).held + (if bitsOf c.arg0.toNat 8 2 = 3 then 2 else 1) →
        gives (.actCuffEdge n) s (fun t => s.fired n c t ∧ (∀ m, t.cuff m = s.cuff m) ∧
          t.rf (R.CF_STAT k) F.CF_STAT_DROP = satN 0xFF (s.rf (R.CF_STAT k) F.CF_STAT_DROP + 1) ∧
          (s.quietEvents → t.rb R.CF_EVT F.CF_EVT_OVF = true) ∧ s.frameEv [.mke] [R.MK_EVT, R.CF_STAT k, R.CF_EVT] t)) ∧
      (s.cfOwner k ≠ 1 →
        gives (.actCuffEdge n) s (fun t => s.fired n c t ∧ (∀ m, t.cuff m = s.cuff m) ∧
          t.rf (R.CF_STAT k) F.CF_STAT_DROP = satN 0xFF (s.rf (R.CF_STAT k) F.CF_STAT_DROP + 1) ∧
          (s.quietEvents → t.rb R.CF_EVT F.CF_EVT_OWN_ERR = true) ∧ s.frameEv [.mke] [R.MK_EVT, R.CF_STAT k, R.CF_EVT] t))) ∧
    -- FOLD
    (s.leaving n 2 = some c →
      gives (.actFold n) s (fun t => s.fired n c t ∧
        (∃ f : FoldReq, t.arr.foldIn = s.arr.foldIn ++ [f] ∧ f.target = c.arg0.toNat % 16 ∧ f.wave = c.arg0.toNat.testBit 4 ∧ f.trig = 1 ∧
          let k := bitsOf c.arg0.toNat 8 4
          f.mask = s.mask3 (R.MK_TMASK_W0 k) (R.MK_TMASK_W1 k) (R.MK_TMASK_W2 k)) ∧
        s.frameEv [.mke, .arr, .hi] [R.MK_EVT] t)) ∧
    -- DMA_KICK
    (s.leaving n 3 = some c →
      let q := bitsOf c.arg0.toNat 0 12
      (q < 1024 → gives (.actDmaKick n) s (fun t => s.fired n c t ∧ s.sent 0x10 (s.engineNode q) t ∧
        (s.noProbes → s.frameEv [.mke, .net] [R.MK_EVT] t))) ∧
      (1024 ≤ q → gives (.actDmaKick n) s (fun t => s.fired n c t ∧ (s.quietEvents → t.rb R.SQ_EVT F.SQ_EVT_KICK_IGN = true) ∧
        s.frameEv [.mke] [R.MK_EVT, R.SQ_EVT] t))) ∧
    -- EVENT
    (s.leaving n 4 = some c →
      gives (.actEvent n) s (fun t => s.fired n c t ∧
        (s.quietEvents → (t.rg (R.EV_MK_PEND (n.val / 32))).toNat.testBit (n.val % 32) = true) ∧
        s.frameEv [.mke] [R.MK_EVT] t)) ∧
    -- CAPTURE: an instant whose YCLK has a sample, and one whose YCLK is still to be sampled; the timers of a released fabric
    (s.leaving n 5 = some c →
      let k := bitsOf c.arg0.toNat 8 4
      let m := c.arg0.toNat % 256
      s.rb (R.MK_CAP_STAT k) F.MK_CAP_STAT_VALID = false →
      gives (.actCapture n) s (fun t => s.fired n c t ∧
        t.rf (R.MK_CAP_STAT k) F.MK_CAP_STAT_SRC = n ∧ t.rb (R.MK_CAP_STAT k) F.MK_CAP_STAT_VALID = true ∧
        t.rf (R.MK_CAP_STAT k) F.MK_CAP_STAT_AXMASK = m ∧ t.rb (R.MK_CAP_STAT k) F.MK_CAP_STAT_KIND = false ∧
        t.rg (R.MK_CAP_TIME_LO k) = w32 (c.inst / 128).toNat ∧
        t.rg (R.MK_CAP_TIME_HI k) = w32 (bitsOf (c.inst / 128).toNat 32 16 + 0x10000 * (c.inst % 128).toNat) ∧
        (c.inst < 128 * (s.now : Int) → t.yk = s.yk ∧
          ∀ a < 8, t.rg64 (R.MK_CAP_POS_LO k a) (R.MK_CAP_POS_HI k a) = if m.testBit a then trunc 64 (s.posAt a c.inst) else 0) ∧
        (128 * (s.now : Int) ≤ c.inst → t.yk = { s.yk with capWait := s.yk.capWait ++ [(k, m, c.inst)] }) ∧
        (s.fbStage = 3 → s.fb.hold = false → s.domOn 10 = true → s.domOn 11 = true →
          t.fb = { s.fb with tmrTrig := s.fb.tmrTrig ++ bitList 32 c.arg1.toNat }) ∧
        (s.fbStage ≠ 3 → t.fb = s.fb) ∧
        s.only [.regs, .yk, .mke, .fb, .ev, .out] t)) ∧
    -- FABRIC_STROBE
    (s.leaving n 6 = some c → s.fbStage = 3 → s.fb.hold = false → s.domOn 10 = true → s.domOn 11 = true →
      gives (.actFabricStrobe n) s (fun t => s.fired n c t ∧ .strobe (c.arg0.toNat % 64) (c.inst % 128).toNat ∈ t.out ∧
        s.frameEv [.mke, .fb] [R.MK_EVT] t)) ∧
    -- LACE_SEND
    (s.leaving n 7 = some c →
      gives (.actLaceSend n) s (fun t => s.fired n c t ∧ s.sent 0x12 (nodeIx 3 9) t ∧
        (s.noProbes → s.frameEv [.mke, .net] [R.MK_EVT] t)))

/-- R77–R81, R83, R84, R86, R127, R264, R295: the Cuffs. A scheduled edge that falls in the present YCLK acts on an engine-owned Cuff, one that
makes no transition frees its place; a fabric or express Cuff follows its source (a flip-flop in reset gives its reset value), and in a Sleeved region the hold value; a user I/O that is
no Cuff does the same, but for one that a sensor port uses; an input-only one has no output. A
change of owner discards the scheduled edges into DROP and takes the new owner's level. An input edge that is selected fills the capture slot. A Block reset
discards edges and captures. -/
def Obligations.Cuffs : Prop :=
  ∀ (s : State) (n : Fin 128),
    -- CUFF_TRANSITION: the fabric's register is noted whatever the owner
    (∀ (b : Fin 200) (lv oe : Bool) (tap : BitVec 7), b.val = n.val →
      let o := s.outOf n lv oe
      gives (.cuffTransition b lv oe tap) s (fun t => (t.cuff n).src = o.1 ∧ (t.cuff n).oe = o.2 ∧ s.cuffsBut n t ∧
        s.frameEv [.cuffs] [R.CF_STAT n, R.CF_EVT] t) ∧
      -- the mark engine's edge, alone, at its instant; behind a moved transition; nothing scheduled
      (∀ e, s.hxBusCuff n = false → s.cfOwner n = 1 → (s.cuff n).edges = [e] → e.inst < 128 * ((s.now : Int) + 1) → (s.cuff n).lastTr = none →
        (s.cuff n).moved = [] →
        gives (.cuffTransition b lv oe tap) s (fun t => (t.cuff n).edges = [] ∧ (t.cuff n).target = e.aim (s.cuff n).target ∧
          (e.aim (s.cuff n).target ≠ (s.cuff n).target → (t.cuff n).level = e.aim (s.cuff n).target ∧ (t.cuff n).lastTr = some e.inst) ∧
          s.frame [.cuffs] [] t)) ∧
      (∀ e w r, s.hxBusCuff n = false → s.cfOwner n = 1 → (s.cuff n).edges = [e] → e.inst < 128 * ((s.now : Int) + 1) →
        (s.cuff n).moved = w :: r →
        gives (.cuffTransition b lv oe tap) s (fun t => (t.cuff n).edges = [] ∧ (t.cuff n).target = e.aim (s.cuff n).target ∧
          (t.cuff n).level = (s.cuff n).level ∧
          (t.cuff n).moved = (if e.aim (s.cuff n).target = (s.cuff n).target then w :: r else w :: r ++ [(e.inst, e.aim (s.cuff n).target)]) ∧
          s.frame [.cuffs] [] t)) ∧
      ((s.cfOwner n = 3 ∨ s.hxBusCuff n = true ∨ s.cfOwner n = 1 ∧ (s.cuff n).edges = [] ∧ (s.cuff n).moved = []) →
        gives (.cuffTransition b lv oe tap) s (fun t => t.cuff n = { s.cuff n with src := o.1, oe := o.2 } ∧ s.frame [.cuffs] [] t)) ∧
      -- the fabric, released and Sleeved
      (s.hxBusCuff n = false → s.cfOwner n = 0 → s.ballHeld n = false →
        gives (.cuffTransition b lv oe tap) s (fun t => (t.cuff n).level = o.1)) ∧
      (∀ h, s.hxBusCuff n = false → s.cfOwner n = 0 → s.userBallHold n = some h →
        gives (.cuffTransition b lv oe tap) s (fun t =>
          (t.cuff n).level = if h = 0 then false else if h = 1 then true else (s.cuff n).level)) ∧
      -- an express port
      (s.hxBusCuff n = false → s.cfOwner n = 2 →
        gives (.cuffTransition b lv oe tap) s (fun t =>
          (t.cuff n).level = wbit (s.rg (R.AR_EXP_OUT (s.rf (R.CF_CFG n) F.CF_CFG_EXP))) (n.val % 32)))) ∧
    -- CUFF_TRANSITION at a user I/O that is no Cuff
    (∀ (b : Fin 200) (lv oe : Bool) (tap : BitVec 7), 128 ≤ b.val →
      gives (.cuffTransition b lv oe tap) s (fun t => (t.uio b).src = (s.outOf b lv oe).1 ∧ (t.uio b).oe = (s.outOf b lv oe).2 ∧
        (t.uio b).inp = (s.uio b).inp ∧ (s.sensorBall b = true → (t.uio b).level = (s.uio b).level) ∧
        (s.sensorBall b = false → s.ballHeld b = false → (t.uio b).level = (s.outOf b lv oe).1) ∧
        (∀ k, k ≠ b.val → t.uio k = s.uio k) ∧ s.only [.fb] t)) ∧
    -- CF_CFG_WRITE
    (∀ v : Word,
      (F.CF_CFG_OWNER.get (s.written (R.CF_CFG n) v) = s.cfOwner n →
        gives (.cfCfgWrite n v) s (fun t => t.rg (R.CF_CFG n) = s.written (R.CF_CFG n) v ∧ (t.cuff n).edges = (s.cuff n).edges ∧
          (t.cuff n).level = (s.cuff n).level ∧ s.cuffsBut n t ∧ s.frame [.cuffs] [R.CF_CFG n] t)) ∧
      (F.CF_CFG_OWNER.get (s.written (R.CF_CFG n) v) ≠ s.cfOwner n → s.hxBusCuff n = false →
        gives (.cfCfgWrite n v) s (fun t => t.rg (R.CF_CFG n) = s.written (R.CF_CFG n) v ∧ (t.cuff n).edges = [] ∧ (t.cuff n).moved = [] ∧
          t.rf (R.CF_STAT n) F.CF_STAT_DROP = satN 0xFF (s.rf (R.CF_STAT n) F.CF_STAT_DROP + (s.cuff n).held) ∧
          (F.CF_CFG_OWNER.get (s.written (R.CF_CFG n) v) = 2 → (t.cuff n).level =
            wbit (s.rg (R.AR_EXP_OUT (F.CF_CFG_EXP.get (s.written (R.CF_CFG n) v)))) (n.val % 32)) ∧
          (F.CF_CFG_OWNER.get (s.written (R.CF_CFG n) v) = 1 → (t.cuff n).level = F.CF_CFG_INIT.bit (s.written (R.CF_CFG n) v)) ∧
          s.cuffsBut n t ∧ s.frameEv [.cuffs] [R.CF_CFG n, R.CF_STAT n, R.CF_EVT] t))) ∧
    -- CUFF_INPUT_CAPTURE
    (∀ e r, (s.cuff n).icap = e :: r →
      let cfg := s.rg (R.CF_CFG n)
      let k := F.CF_CFG_ICAP_SLOT.get cfg
      e.cyc + F.CF_CFG_IFILT.get cfg ≤ s.now → F.CF_CFG_ICAP_EN.bit cfg = true →
      (F.CF_CFG_ICAP_EDGE.get cfg).testBit (if e.level then 0 else 1) = true → s.rb (R.MK_CAP_STAT k) F.MK_CAP_STAT_VALID = false →
      s.hxParm.on = false →
      gives (.cuffInputCapture n) s (fun t => (t.cuff n).icap = r ∧ t.rb (R.MK_CAP_STAT k) F.MK_CAP_STAT_VALID = true ∧
        t.rf (R.MK_CAP_STAT k) F.MK_CAP_STAT_SRC = n ∧ t.rb (R.MK_CAP_STAT k) F.MK_CAP_STAT_KIND = true ∧
        t.rg (R.MK_CAP_TIME_LO k) = w32 (e.ts / 128).toNat ∧
        (e.ts < 128 * (s.now : Int) → t.yk = s.yk ∧
          ∀ a < 8, t.rg64 (R.MK_CAP_POS_LO k a) (R.MK_CAP_POS_HI k a) = trunc 64 (s.posAt a e.ts)) ∧
        (128 * (s.now : Int) ≤ e.ts → t.yk = { s.yk with capWait := s.yk.capWait ++ [(k, 0xFF, e.ts)] }) ∧
        s.cuffsBut n t ∧ s.only [.regs, .yk, .cuffs] t)) ∧
    -- CF_BLK_RST
    (s.blkHeld 4 = false → gives .cfBlkRst s (fun t => (∀ m, (t.cuff m).edges = [] ∧ (t.cuff m).moved = [] ∧ (t.cuff m).icap = []) ∧
      (∀ m < 128, t.rf (R.CF_CFG m) F.CF_CFG_OWNER = 0) ∧
      (∀ m, s.cfOwner m = 0 ∨ s.hxBusCuff m = true → (t.cuff m).level = (s.cuff m).level) ∧
      (∀ a, a ≠ R.CF_EVT → (∀ m < 128, a ≠ R.CF_STAT m) → ¬ evPath a →
        t.rg a = if 0x40000 ≤ a ∧ a < 0x100000 then clearReg .block a (s.rg a) else s.rg a) ∧
      s.only [.regs, .cuffs, .ev, .out] t)) ∧
    (s.blkHeld 4 = true → exec .cfBlkRst s = .next s)

/-- R108, R112, Table AR-8: the operations on whole words. A PE whose operands are present and whose destinations have room fires: it consumes the
tokens of its FIFO operands, sets its flags and sends the result to every destination that its Pleat names. Logic, shifts by b mod 32, counts
and fields set Z and N; SEL, MUL and MULH leave the flags. -/
def Obligations.PeWordOps : Prop :=
  ∀ (s : State) (pe : Fin 1536) (ta tb : Token), s.peRoom pe 1 →
    let a := ta.data
    let b := tb.data
    let q := s.actPleat pe
    let fl := (s.actPriv pe).fl
    let sh := b.toNat % 32
    (s.peReady pe 0x01 ta tb → exec (.peMov pe none) s = .next (s.peGives pe ta tb a (fl.zn a))) ∧
    (s.peReady pe 0x04 ta tb → exec (.peAnd pe) s = .next (s.peGives pe ta tb (a &&& b) (fl.zn (a &&& b)))) ∧
    (s.peReady pe 0x05 ta tb → exec (.peOr pe) s = .next (s.peGives pe ta tb (a ||| b) (fl.zn (a ||| b)))) ∧
    (s.peReady pe 0x06 ta tb → exec (.peXor pe) s = .next (s.peGives pe ta tb (a ^^^ b) (fl.zn (a ^^^ b)))) ∧
    (s.peReady pe 0x07 ta tb → exec (.peAndn pe) s = .next (s.peGives pe ta tb (a &&& ~~~b) (fl.zn (a &&& ~~~b)))) ∧
    (s.peReady pe 0x08 ta tb → exec (.peShl pe) s = .next (s.peGives pe ta tb (a <<< sh) (fl.zn (a <<< sh)))) ∧
    (s.peReady pe 0x09 ta tb → exec (.peShr pe) s = .next (s.peGives pe ta tb (a >>> sh) (fl.zn (a >>> sh)))) ∧
    (s.peReady pe 0x0A ta tb → exec (.peSra pe) s = .next (s.peGives pe ta tb (a.sshiftRight sh) (fl.zn (a.sshiftRight sh)))) ∧
    (s.peReady pe 0x0B ta tb → exec (.peRol pe) s = .next (s.peGives pe ta tb (a.rotateLeft sh) (fl.zn (a.rotateLeft sh)))) ∧
    (s.peReady pe 0x12 ta tb → exec (.peSel pe) s = .next (s.peGives pe ta tb (if fl.pred then a else b) fl)) ∧
    (s.peReady pe 0x15 ta tb → a.toInt ≠ -2147483648 →
      exec (.peAbs pe) s = .next (s.peGives pe ta tb (w32 a.toInt.natAbs) (fl.zn (w32 a.toInt.natAbs)))) ∧
    (s.peReady pe 0x15 ta tb → a.toInt = -2147483648 →
      exec (.peAbs pe) s = .next (s.peGives pe ta tb 0x7FFFFFFF { fl with z := false, n := false, sat := true })) ∧
    (s.peReady pe 0x16 ta tb → bitsOf q.mods 2 2 = 0 →
      exec (.pePopc pe) s = .next (s.peGives pe ta tb (w32 (popc 32 a.toNat)) (fl.zn (w32 (popc 32 a.toNat))))) ∧
    (s.peReady pe 0x17 ta tb → exec (.peClz pe) s = .next (s.peGives pe ta tb (w32 (clz 32 a.toNat)) (fl.zn (w32 (clz 32 a.toNat))))) ∧
    (s.peReady pe 0x18 ta tb →
      let f := bitsOf a.toNat (bitsOf b.toNat 0 5) (bitsOf b.toNat 5 5 + 1)
      let r := if q.mods.testBit 1 then w32 f else w32 (trunc 32 (sext (bitsOf b.toNat 5 5 + 1) f))
      exec (.peBfx pe) s = .next (s.peGives pe ta tb r (fl.zn r))) ∧
    (s.peReady pe 0x19 ta tb →
      ∃ r : Word, exec (.peBfi pe) s = .next (s.peGives pe ta tb r (fl.zn r)) ∧
        ∀ j < 32, r.getLsbD j = if bitsOf b.toNat 0 5 ≤ j ∧ j < bitsOf b.toNat 0 5 + (bitsOf b.toNat 5 5 + 1)
          then (s.actPriv pe).p0.getLsbD (j - bitsOf b.toNat 0 5) else a.getLsbD j) ∧
    (s.peReady pe 0x1A ta tb → exec (.peMul pe) s = .next (s.peGives pe ta tb (a * b) fl)) ∧
    (s.peReady pe 0x1B ta tb →
      exec (.peMulh pe) s = .next (s.peGives pe ta tb
        (if q.mods.testBit 1 then w32 (a.toNat * b.toNat / 2 ^ 32) else BitVec.ofInt 32 (a.toInt * b.toInt / 2 ^ 32)) fl))

/-- R113, Tables AR-7, AR-8: sums, differences and comparisons, by lane. Each lane of ADD and SUB and of their lane forms is the exact sum or
difference, wrapped, or clamped with SAT to the signed or, with U, the unsigned range; C is the OR of the carries or borrows, V of the signed
overflows, SAT is sticky. CMP gives all ones in each lane that meets its condition and their OR in PRED; MIN and MAX choose by lane; ABSD4 is
the distance of bytes; POPC with W counts the lanes that are not 0. -/
def Obligations.PeLaneOps : Prop :=
  ∀ (s : State) (pe : Fin 1536) (ta tb : Token), s.peRoom pe 1 →
    let a := ta.data
    let b := tb.data
    let q := s.actPleat pe
    let fl := (s.actPriv pe).fl
    let u := q.mods.testBit 1
    -- the sums and differences: command, code, lane width, whether it subtracts
    (∀ e ∈ [(Instr.peAdd pe, 0x02, 32, false), (.peSub pe, 0x03, 32, true), (.peAdd2 pe, 0x0C, 16, false), (.peSub2 pe, 0x0D, 16, true),
            (.peAdd4 pe, 0x0E, 8, false), (.peSub4 pe, 0x0F, 8, true)],
      let w := e.2.2.1
      let x := fun j => lane w a j
      let y := fun j => lane w b j
      let exact : Nat → Int := fun j => if e.2.2.2 then laneInt u w (x j) - laneInt u w (y j) else laneInt u w (x j) + laneInt u w (y j)
      let sgn : Nat → Int := fun j => if e.2.2.2 then sext w (x j) - sext w (y j) else sext w (x j) + sext w (y j)
      s.peReady pe e.2.1 ta tb →
      ∃ (r : Word) (g : PeFlags), exec e.1 s = .next (s.peGives pe ta tb r g) ∧
        (∀ j < 32 / w, lane w r j = (narrow (q.mods.testBit 0) u w (exact j)).1) ∧
        g.z = decide (r = 0) ∧ g.n = r.getLsbD 31 ∧ g.pred = fl.pred ∧
        (g.c = true ↔ ∃ j < 32 / w, if e.2.2.2 then x j < y j else 2 ^ w ≤ x j + y j) ∧
        (g.v = true ↔ ∃ j < 32 / w, sgn j ≠ satS w (sgn j)) ∧
        (g.sat = true ↔ fl.sat = true ∨ ∃ j < 32 / w, (narrow (q.mods.testBit 0) u w (exact j)).2 = true)) ∧
    -- CMP
    (s.peReady pe 0x11 ta tb →
      ∃ r : Word, ∃ g : PeFlags, exec (.peCmp pe) s = .next (s.peGives pe ta tb r g) ∧
        (∀ j < 32 / q.wM, lane q.wM r j = if cmpCond (bitsOf q.mods 5 3) (laneInt u q.wM (lane q.wM a j)) (laneInt u q.wM (lane q.wM b j))
          then 2 ^ q.wM - 1 else 0) ∧
        (g.pred = true ↔ ∃ j < 32 / q.wM, cmpCond (bitsOf q.mods 5 3) (laneInt u q.wM (lane q.wM a j)) (laneInt u q.wM (lane q.wM b j)) = true) ∧
        g.z = decide (r = 0) ∧ g.n = r.getLsbD 31 ∧ g.c = fl.c ∧ g.v = fl.v ∧ g.sat = fl.sat) ∧
    -- MIN and MAX
    (s.peReady pe 0x13 ta tb →
      ∃ r : Word, exec (.peMin pe) s = .next (s.peGives pe ta tb r (fl.zn r)) ∧
        ∀ j < 32 / q.wM, laneInt u q.wM (lane q.wM r j) = min (laneInt u q.wM (lane q.wM a j)) (laneInt u q.wM (lane q.wM b j))) ∧
    (s.peReady pe 0x14 ta tb →
      ∃ r : Word, exec (.peMax pe) s = .next (s.peGives pe ta tb r (fl.zn r)) ∧
        ∀ j < 32 / q.wM, laneInt u q.wM (lane q.wM r j) = max (laneInt u q.wM (lane q.wM a j)) (laneInt u q.wM (lane q.wM b j))) ∧
    -- ABSD4
    (s.peReady pe 0x10 ta tb →
      ∃ r : Word, exec (.peAbsd4 pe) s = .next (s.peGives pe ta tb r (fl.zn r)) ∧
        ∀ j < 4, (lane 8 r j : Int) = ((lane 8 a j : Int) - lane 8 b j).natAbs) ∧
    -- POPC of lanes
    (s.peReady pe 0x16 ta tb → bitsOf q.mods 2 2 ≠ 0 →
      let n := w32 ((List.range (32 / q.wM)).filter (fun j => lane q.wM a j != 0)).length
      q.wM ≠ 32 → exec (.pePopc pe) s = .next (s.peGives pe ta tb n (fl.zn n)))

/-- R114–R120, R97, R232, Table AR-8: accumulators, CORDIC, counters, positions and local memory. -/
def Obligations.PeStateOps : Prop :=
  ∀ (s : State) (pe : Fin 1536) (ta tb : Token),
    let a := ta.data
    let b := tb.data
    let q := s.actPleat pe
    let pv := s.actPriv pe
    let u := q.mods.testBit 1
    let one := q.mods.testBit 5
    let base : Int := if q.mods.testBit 0 then 0 else (pv.acc one).toInt
    let ls := s.peLast pe ta tb
    -- NOP
    (s.peReady pe 0x00 ta tb → exec (.peNop pe) s = .next (s.peDone pe ta tb pv [])) ∧
    -- MAC32, MAC16 without DUAL, MAC8: the sum of the products of the lanes, no result before an item's LAST
    (s.peReady pe 0x1C ta tb → (q.mods.testBit 6 = false ∨ ls = false) →
      exec (.peMac32 pe) s = .next (s.peDone pe ta tb (pv.setAcc one (BitVec.ofInt 72 (base + laneMul u 32 a b 0))) [])) ∧
    (s.peReady pe 0x1C ta tb → q.mods.testBit 6 = true → ls = true → s.peRoom pe 1 →
      let v : BitVec 72 := BitVec.ofInt 72 (base + laneMul u 32 a b 0)
      let o := accRead u (bitsOf q.imm 0 6) v
      exec (.peMac32 pe) s = .next (s.peDone pe ta tb { pv.setAcc one 0 with fl := { pv.fl with sat := pv.fl.sat || o.2 } } [(o.1, true)])) ∧
    (s.peReady pe 0x1D ta tb → q.mods.testBit 7 = false → (q.mods.testBit 6 = false ∨ ls = false) →
      exec (.peMac16 pe) s = .next (s.peDone pe ta tb
        (pv.setAcc one (BitVec.ofInt 72 (base + (laneMul u 16 a b 0 + laneMul u 16 a b 1)))) [])) ∧
    (s.peReady pe 0x1D ta tb → q.mods.testBit 7 = true → (q.mods.testBit 6 = false ∨ ls = false) →
      exec (.peMac16 pe) s = .next (s.peDone pe ta tb
        { pv with acc0 := accAdd (q.mods.testBit 0) pv.acc0 (laneMul u 16 a b 0),
                  acc1 := accAdd (q.mods.testBit 0) pv.acc1 (laneMul u 16 a b 1) } [])) ∧
    (s.peReady pe 0x1E ta tb → (q.mods.testBit 6 = false ∨ ls = false) →
      exec (.peMac8 pe) s = .next (s.peDone pe ta tb (pv.setAcc one (BitVec.ofInt 72 (base +
        (laneMul u 8 a b 0 + laneMul u 8 a b 1 + laneMul u 8 a b 2 + laneMul u 8 a b 3)))) [])) ∧
    -- ACCRD, ACCLD, DIVS
    (s.peReady pe 0x1F ta tb → s.peRoom pe 1 →
      let o := accRead u (bitsOf q.imm 0 6) (pv.acc one)
      let p1 : Priv := { pv with fl := { pv.fl with sat := pv.fl.sat || o.2 } }
      exec (.peAccrd pe) s = .next (s.peDone pe ta tb (if q.mods.testBit 0 then p1.setAcc one 0 else p1) [(o.1, false)])) ∧
    (s.peReady pe 0x20 ta tb →
      exec (.peAccld pe) s = .next (s.peDone pe ta tb
        (pv.setAcc one (BitVec.ofInt 72 ((a.toNat : Int) + 2 ^ 32 * b.toInt))) [])) ∧
    (s.peReady pe 0x21 ta tb → s.peRoom pe 1 →
      let v := pv.acc one
      let r := BitVec.ofNat 72 (v.toNat / 2 ^ 64 * 2 ^ 64 + divSteps b.toNat (bitsOf q.imm 0 6) (v.toNat % 2 ^ 64))
      exec (.peDivs pe) s = .next (s.peDone pe ta tb (pv.setAcc one r) [(w32 r.toNat, ls)])) ∧
    -- CORD
    (s.peReady pe 0x22 ta tb → s.peRoom pe 1 →
      let n := if bitsOf q.imm 5 5 = 0 then 32 else bitsOf q.imm 5 5
      let v := cordGo (q.imm.testBit 10) n (bitsOf q.imm 0 5) (pv.p0, pv.p1, pv.p2)
      exec (.peCord pe) s = .next (s.peDone pe ta tb { pv with p0 := v.1, p1 := v.2.1, p2 := v.2.2 }
        [(if bitsOf q.imm 11 2 = 0 then v.1 else if bitsOf q.imm 11 2 = 1 then v.2.1 else v.2.2, ls)])) ∧
    -- LD, ST, LUT
    (s.peReady pe 0x23 ta tb → s.peRoom pe 1 →
      let w := if q.srcA = 17 then pv.ptr else a.toNat % 2048
      let pv1 : Priv := if q.srcA = 17 then { pv with ptr := agNext q pv.ptr ls } else pv
      s.classAt (s.lmPlace pe w) = .good →
      exec (.peLd pe) s = .next (s.peDone pe ta tb pv1 [(w32 (s.numAt (s.lmPlace pe w) 4), ls)])) ∧
    (s.peReady pe 0x24 ta tb →
      let w := if q.srcA = 17 then pv.ptr else a.toNat % 2048
      let pv1 : Priv := if q.srcA = 17 then { pv with ptr := agNext q pv.ptr ls } else pv
      s.classAt (s.lmPlace pe w) = .good → s.rb R.SM_FLIP_CFG F.SM_FLIP_CFG_ARM = false →
      gives (.peSt pe) s (fun t => t.numAt (s.lmPlace pe w) 4 = b.toNat ∧ s.bytesBut (s.lmPlace pe w) 4 t ∧
        t.actPriv pe = pv1 ∧ s.frame [.arr, .mem, .syn, .sm] [] t)) ∧
    (s.peReady pe 0x25 ta tb → s.peRoom pe 1 →
      let w := lutAddr q a
      s.classAt (s.lmPlace pe w) = .good →
      exec (.peLut pe) s = .next (s.peDone pe ta tb pv [(w32 (s.numAt (s.lmPlace pe w) 4), ls)])) ∧
    -- CNT without LE, PCMP without EDGE
    (s.peReady pe 0x26 ta tb → q.mods.testBit 6 = false → s.peRoom pe 1 →
      let o := narrow (q.mods.testBit 0) false 32 (pv.p3.toInt + if q.mods.testBit 7 then a.toInt else 1)
      exec (.peCnt pe) s = .next (s.peDone pe ta tb { pv with p3 := w32 o.1, fl := { pv.fl with sat := pv.fl.sat || o.2 } } [(w32 o.1, ls)])) ∧
    (s.peReady pe 0x27 ta tb → q.mods.testBit 6 = false → q.mods.testBit 0 = false → s.peRoom pe 1 →
      let d := s.posSlice q.posAx q.slice - a
      exec (.pePcmp pe) s = .next (s.peDone pe ta tb
        { pv with fl := { pv.fl with z := decide (d = 0), n := d.msb, pred := if q.mods.testBit 7 then decide (d.toInt ≤ 0) else decide (0 ≤ d.toInt) } }
        [(d, ls)]))

/-- R122, R123, R156, Table AR-9: the operations that choose what passes. -/
def Obligations.PeStreamOps : Prop :=
  ∀ (s : State) (pe : Fin 1536) (ta tb : Token),
    let q := s.actPleat pe
    let pv := s.actPriv pe
    let ls := s.peLast pe ta tb
    let ds := s.dests pe q
    let cond := if q.srcB = 19 then pv.fl.pred else tb.data.getLsbD 0
    -- ROUTE: an item's first token chooses a destination, which is held to its LAST
    (s.peReady pe 0x28 ta tb → pv.dec = none →
      let k := if q.srcB < 4 then tb.data.toNat % 4 else b2n pv.fl.pred
      ∀ d, ds[k]? = some d → s.takes d 1 = true →
      exec (.peRoute pe) s = .next ((s.peTook pe).peSend pe (s.pe pe).act (s.peErr pe ta tb)
        { pv with dec := if ls then none else some k } [(ta.data, ls)] [d])) ∧
    -- MERGE: the side of an item under way, else by turns
    (s.peOpen pe 0x29 → s.peRoom pe 1 → q.srcA < 4 → q.srcB < 4 → ∀ (sd : Bool) (x : Token),
      s.operand pe q (if sd then q.srcB else q.srcA) 0 = some x →
      (pv.mSide = some sd ∨ (pv.mSide = none ∧ (s.operand pe q (if sd then q.srcA else q.srcB) 0 = none ∨
        sd = if q.mods.testBit 7 then false else !pv.mLast))) →
      exec (.peMerge pe) s = .next ((s.popFifo pe (if sd then q.srcB else q.srcA)).peSend pe (s.pe pe).act x.err
        { pv with mSide := if x.last then none else some sd, mLast := sd } [(x.data, x.last)] ds)) ∧
    -- SPLIT: the item's turn
    (s.peReady pe 0x2A ta tb → ∀ d, ds[pv.turn % max 1 ds.length]? = some d → s.takes d 1 = true →
      exec (.peSplit pe) s = .next ((s.peTook pe).peSend pe (s.pe pe).act (s.peErr pe ta tb)
        (if ls then { pv with turn := (pv.turn + 1) % max 1 ds.length } else pv) [(ta.data, ls)] [d])) ∧
    -- DROP: an item dropped, and one passed
    (s.peReady pe 0x2B ta tb → pv.dec = none → cond = true →
      exec (.peDrop pe) s = .next (s.peDone pe ta tb { pv with dec := if ls then none else some 1 } [])) ∧
    (s.peReady pe 0x2B ta tb → pv.dec = none → cond = false → s.peRoom pe 1 →
      exec (.peDrop pe) s = .next (s.peDone pe ta tb { pv with dec := if ls then none else some 0 } [(ta.data, ls)])) ∧
    -- DUP: the first of imm[3:0] + 1 copies
    (s.peReady pe 0x2C ta tb → s.peRoom pe 1 →
      let n := q.imm % 16
      exec (.peDup pe) s = .next (s.peDone pe ta tb
        { pv with dup := if n = 0 then none else some ({ ta with last := ls, err := s.peErr pe ta tb }, n) } [(ta.data, ls && n == 0)])) ∧
    -- GATE: passes, and discards
    (s.peReady pe 0x2D ta tb → (cond = true ∨ ls = true) → s.peRoom pe 1 →
      exec (.peGate pe) s = .next (s.peDone pe ta tb pv [(ta.data, ls)])) ∧
    (s.peReady pe 0x2D ta tb → cond = false → ls = false → exec (.peGate pe) s = .next (s.peDone pe ta tb pv [])) ∧
    -- FOLDGEN: passes A; at an item's LAST the latched condition asks for a wavefront and holds the PE
    (s.peReady pe 0x2E ta tb → (ls = false ∨ (pv.latch || cond) = false) → s.peRoom pe 1 →
      exec (.peFoldgen pe) s = .next (s.peDone pe ta tb { pv with latch := (pv.latch || cond) && !ls } [(ta.data, ls)])) ∧
    (s.peReady pe 0x2E ta tb → ls = true → (pv.latch || cond) = true → s.peRoom pe 1 → s.arr.slots = [] → ds = [] →
      gives (.peFoldgen pe) s (fun t => (t.pe pe).gen = true ∧ (t.actPriv pe).latch = false ∧
        t.arr.genReqs = s.arr.genReqs ++ [{ pe := pe, target := bitsOf q.imm 0 4, mask := bitsOf q.imm 4 4 }] ∧ s.frame [.arr] [] t))

/-- R90, R94, R126, R131–R133, R164: the Array beside its firings: remap only while FROZEN, FREEZE, the registers of a PE through AR_PE_CMD,
an express input word, waiting accesses to local memory, the block reset. -/
def Obligations.ArrayControl : Prop :=
  ∀ s : State,
    -- AR_COLMAP_WRITE
    (∀ v : Word,
      (s.rb R.AR_CTRL F.AR_CTRL_FROZEN = false →
        gives (.arColmapWrite v) s (fun t => t.rg R.AR_COLMAP = s.rg R.AR_COLMAP ∧ t.rg R.AR_CFG_ERR = 1 ∧
          s.frameEv [] [R.AR_CFG_ERR, R.AR_EVT] t)) ∧
      (s.rb R.AR_CTRL F.AR_CTRL_FROZEN = true → s.ft.run = none → colMapBad (s.rg R.AR_COLMAP) v = false →
        gives (.arColmapWrite v) s (fun t => t.rg R.AR_COLMAP = s.written R.AR_COLMAP v ∧
          t.rf R.FT_STAT F.FT_STAT_GUSSET_FREE = 2 - (colMarks (s.written R.AR_COLMAP v)).length ∧
          s.frameR [R.AR_COLMAP, R.FT_STAT] t))) ∧
    -- FREEZE_WRITE
    (∀ on : Bool, gives (.freezeWrite on) s (fun t => t.rb R.AR_CTRL F.AR_CTRL_FREEZE = on ∧
      t.rb R.AR_CTRL F.AR_CTRL_FROZEN = (on || s.recFrozen || s.rs.relock) ∧ s.frameR [R.AR_CTRL] t)) ∧
    -- PE_DATA_READ
    (∀ i p g, s.peSel = some (i, p, g) →
      gives .peDataRead s (fun t => t.rg R.AR_PE_DATA = w32 (s.peReg i p g) ∧ t.rg R.AR_PE_CMD = 4 ∧
        s.frameR [R.AR_PE_DATA, R.AR_PE_CMD] t)) ∧
    -- PE_DATA_WRITE
    (∀ i p g, s.peSel = some (i, p, g) → g ≠ 19 → s.rb R.AR_CTRL F.AR_CTRL_FROZEN = true → s.tilePaired (peTile i) = false →
      gives .peDataWrite s (fun t => t.rg R.AR_PE_CMD = 4 ∧
        (g = 8 → t.priv i p = { s.priv i p with p0 := s.rg R.AR_PE_DATA }) ∧
        (g = 18 → t.priv i p = { s.priv i p with fl := PeFlags.ofWord (s.rg R.AR_PE_DATA) }) ∧
        (g < 8 → t.pe i = { s.pe i with s := (s.pe i).s.set g (s.rg R.AR_PE_DATA) }) ∧
        s.frame [.arr] [R.AR_PE_CMD] t)) ∧
    (s.rb R.AR_CTRL F.AR_CTRL_FROZEN = false →
      gives .peDataWrite s (fun t => t.rg R.AR_PE_CMD = 12 ∧ s.frameR [R.AR_PE_CMD] t)) ∧
    -- EXPRESS_INPUT_CHANGE
    (∀ k : Fin 16, s.rb (R.AR_EXP_CFG k) F.AR_EXP_CFG_EN = true → s.rg (R.AR_EXP_IN k) ≠ s.expWord k →
      s.feedNow (peIx 0 (2 * k.val)) 3 = 6 → (s.pe (peIx 0 (2 * k.val))).w.toks.length < 4 → s.rb R.AR_CTRL F.AR_CTRL_FROZEN = false →
      s.tileGroup (peTile (peIx 0 (2 * k.val))) = none →
      gives (.expressInputChange k) s (fun t => t.rg (R.AR_EXP_IN k) = s.expWord k ∧
        (t.pe (peIx 0 (2 * k.val))).w.toks = (s.pe (peIx 0 (2 * k.val))).w.toks ++ [valTok (s.expWord k) false] ∧
        s.frame [.arr] [R.AR_EXP_IN k] t)) ∧
    -- LM_ACCESS_GRANT: a read of good words
    (∀ (pe : Fin 1536) (w : LmWait) (place : Nat → Nat), s.lmFirst pe = some w → s.rangeOf w.pkt (memBytes w.pkt) = some place →
      w.pkt.cmd.toNat = 1 → (∀ k < 4 * w.pkt.len.toNat, s.classAt (place k) = .good) →
      gives (.lmAccessGrant pe) s (fun t => t.arr = { s.arr with lmWait := s.arr.lmWait.erase w } ∧
        s.answeredWith w.pkt (units4 ((List.range (4 * w.pkt.len.toNat)).map (fun k => s.rawAt (place k))) w.pkt.len.toNat) t ∧
        (s.noProbes → s.frame [.arr, .net] [] t))) ∧
    -- LM_WAIT_TIMEOUT
    (∀ w, s.arr.lmWait.find? (fun w => decide (w.time + s.aclkY (s.rf R.AR_LM_WAIT F.AR_LM_WAIT_MAX) ≤ s.now)) = some w →
      gives .lmWaitTimeout s (fun t => t.arr = { s.arr with lmWait := s.arr.lmWait.erase w } ∧ s.answered w.pkt 5 t ∧
        t.rg R.AR_ERR_LOC = w32 (peCol (w.pkt.addr.toNat / 0x2000) + 0x100 * peRow (w.pkt.addr.toNat / 0x2000) + 0x50000) ∧
        (s.quietEvents → t.rb R.AR_EVT F.AR_EVT_LM_BUSY = true) ∧ (s.noProbes → s.frameEv [.arr, .net, .freeCtr] [R.AR_EVT, R.AR_ERR_LOC] t))) ∧
    -- AR_BLK_RST
    (s.blkHeld 5 = false → gives .arBlkRst s (fun t => (∀ i < 1536, (t.pe i).n.toks = [] ∧ (t.pe i).e.toks = [] ∧ (t.pe i).so.toks = [] ∧ (t.pe i).w.toks = []) ∧
      (∀ i p, t.priv i p = Priv.zero) ∧ (∀ q, (1024 ≤ q ∧ q < 1152) ∨ (1160 ≤ q ∧ q < 1544) → t.qu q = Queue.empty) ∧
      t.arr.slots = [] ∧ t.arr.foldQ = [] ∧ t.arr.loadQ = [] ∧ t.arr.loadRun = none ∧
      s.only [.regs, .arr, .qs, .sm, .ft, .hi, .ev, .out, .freeCtr] t)) ∧
    (s.blkHeld 5 = true → exec .arBlkRst s = .next s)

/-- R97–R101, R104, R108, R110, R127, R131: where a firing's token goes and what no firing touches. A MOV's result arrives in the FIFO of the next PE with
the Pleat's number as TAG, or in the output register of an enabled express port; a PE of a FROZEN Array, or one whose active Pleat has another
operation, does nothing; an operand from the address generator is the local memory word at its pointer, which moves on; a firing leaves
the Yoke, the marks, the Cuffs, and every block outside the Array's paths alone. -/
def Obligations.PeFiring : Prop :=
  ∀ (s : State) (pe : Fin 1536),
    -- delivery to a FIFO and to an express port
    (∀ (ta tb : Token) (p side code : Nat), s.peReady pe 0x01 ta tb → s.dests pe (s.actPleat pe) = [.fifo p side code] → s.peRoom pe 1 →
      s.tileGroup (peTile p) = none → ((s.pe p).fifo side).pend = [] →
      gives (.peMov pe none) s (fun t =>
        ((t.pe p).fifo side).toks.getLast? = some (Token.make ta.data (s.pe pe).act (s.peLast pe ta tb) false (s.peErr pe ta tb) (some pe.val)) ∧
        s.frame [.arr] [] t) ∧
      -- an upset of a bit that the parity covers: kept with ERR, counted, located
      (∀ b : Fin 42, b ≠ 36 → p ≠ pe.val → s.rf R.AR_ERRCNT F.AR_ERRCNT_PARITY < 0xFFFF →
        gives (.peMov pe (some (0, b))) s (fun t =>
          ((t.pe p).fifo side).toks.getLast? =
            some (Token.seal { (Token.make ta.data (s.pe pe).act (s.peLast pe ta tb) false (s.peErr pe ta tb) (some pe.val)).upset b with err := true }) ∧
          t.rf R.AR_ERRCNT F.AR_ERRCNT_PARITY = s.rf R.AR_ERRCNT F.AR_ERRCNT_PARITY + 1 ∧
          t.rg R.AR_ERR_LOC = w32 (peCol p + 0x100 * peRow p + 0x10000)))) ∧
    (∀ (ta tb : Token) (k : Nat), s.peReady pe 0x01 ta tb → s.dests pe (s.actPleat pe) = [.xret k] →
      (s.exit (448 + k)).sup = 0 → s.rb (R.AR_EXP_CFG k) F.AR_EXP_CFG_EN = true →
      gives (.peMov pe none) s (fun t => t.rg (R.AR_EXP_OUT k) = ta.data ∧ (t.exit (448 + k)).cnt = ((s.exit (448 + k)).cnt + 1) % 2 ^ 28 ∧
        s.frame [.arr, .ft] [R.AR_EXP_OUT k] t)) ∧
    -- an operand through the address generator
    (∀ tb, s.peOpen pe 0x01 → (s.actPleat pe).srcA = 17 → s.peRoom pe 1 →
      s.classAt (s.lmPlace pe (s.actPriv pe).ptr) = .good →
      let x := w32 (s.numAt (s.lmPlace pe (s.actPriv pe).ptr) 4)
      exec (.peMov pe none) s = .next (s.peDone pe (valTok x false) tb
        { s.actPriv pe with ptr := agNext (s.actPleat pe) (s.actPriv pe).ptr false, fl := (s.actPriv pe).fl.zn x } [(x, false)])) ∧
    -- nothing fires
    (s.rb R.AR_CTRL F.AR_CTRL_FROZEN = true → s.tileGroup (peTile pe) = none → ∀ hit, ∀ c ∈ peOps pe hit, exec c s = .next s) ∧
    (∀ hit, ∀ c ∈ peOps pe hit, ∀ t, exec c s = .next t →
      s.only [.regs, .mem, .syn, .sm, .arr, .qs, .ft, .faults, .ev, .out, .freeCtr] t ∧ t.cuffs = s.cuffs ∧ t.mke = s.mke)

/-- R138–R142, R144, R145, R151, R154, R156, R157, Table PL-7: folds, from the trigger to the switch edge and the end of a wavefront. -/
def Obligations.Folds : Prop :=
  ∀ s : State,
    -- FOLD_CMD_GO, FOLD_REQ_RISE: a fold on its way
    (∀ v : Word, F.PL_FOLD_CMD_GO.bit v = true →
      gives (.foldCmdGo v) s (fun t => s.frame [.arr] [] t ∧ t.arr = { s.arr with foldIn := s.arr.foldIn ++
        [{ target := F.PL_FOLD_CMD_PLEAT.get v, wave := F.PL_FOLD_CMD_KIND.bit v,
           mask := s.mask3 R.PL_FOLD_MASK_W0 R.PL_FOLD_MASK_W1 R.PL_FOLD_MASK_W2, trig := 2, gen := none, grp := 0, desc := none }] })) ∧
    (∀ k : Fin 8, s.rb (R.PL_FSTRB k) F.PL_FSTRB_EN = true →
      gives (.foldReqRise k) s (fun t => s.frame [.arr] [] t ∧ t.arr = { s.arr with foldIn := s.arr.foldIn ++
        [{ target := s.rf (R.PL_FSTRB k) F.PL_FSTRB_PLEAT, wave := s.rb (R.PL_FSTRB k) F.PL_FSTRB_KIND,
           mask := s.gmask (s.rf (R.PL_FSTRB k) F.PL_FSTRB_GMASK), trig := 3, gen := none, grp := 0, desc := none }] })) ∧
    -- FOLD_ARRIVE: into the queue of 16, or refused with code 5
    (∀ f r, s.arr.foldIn = f :: r → s.arr.foldQ.length < 16 →
      gives .foldArrive s (fun t => s.frame [.arr] [] t ∧
        t.arr = { s.arr with foldIn := r, foldQ := s.arr.foldQ ++ [f], headAt := if s.arr.foldQ.isEmpty then s.nclk else s.arr.headAt })) ∧
    (∀ f r, s.arr.foldIn = f :: r → 16 ≤ s.arr.foldQ.length → f.trig ≠ 5 → f.gen = none →
      gives .foldArrive s (fun t => t.arr = { s.arr with foldIn := r } ∧ t.rg R.PL_FOLD_ERR = w32 (5 + 16 * f.target + 256 * f.trig) ∧
        s.frameEv [.arr, .hi] [R.PL_FOLD_ERR, R.PL_EVT, R.HI_EVT] t)) ∧
    -- FOLD_ISSUE of a global fold, and of a wavefront, and a refusal
    (∀ f r, s.arr.foldQ = f :: r → s.foldHeld f = false → s.foldCode f = none → f.trig ≠ 5 → s.maskLoading f.mask f.target = false →
      (f.wave = false → f.gen = none →
        gives .foldIssue s (fun t => t.arr = { s.arr with foldQ := r, headAt := s.nclk, headIn := [], seq := (s.arr.seq + 1) % 4096, sw := s.arr.sw ++ [{ req := f, slot := 0, seq := (s.arr.seq + 1) % 4096 }] } ∧ s.frameEv [.arr, .hi] [R.HI_EVT] t)) ∧
      (f.wave = true → f.gen = none → ∀ k, (List.range 16).find? (fun k => !s.arr.slots.any (fun x => x.id == k)) = some k →
        gives .foldIssue s (fun t => t.arr.foldQ = r ∧ t.arr.seq = (s.arr.seq + 1) % 4096 ∧
          t.arr.slots = s.arr.slots ++ [Slot.mk k f ((s.arr.seq + 1) % 4096) (s.maskPes f.mask) 0 false false] ∧
          s.frameEv [.arr, .hi] [R.HI_EVT] t))) ∧
    (∀ f r c a, s.arr.foldQ = f :: r → s.foldHeld f = false → s.foldCode f = some (c, a) → f.gen = none → f.trig ≠ 5 →
      gives .foldIssue s (fun t => t.arr = { s.arr with foldQ := r, headAt := s.nclk, headIn := [] } ∧
        t.rg R.PL_FOLD_ERR = w32 (c + 16 * f.target + 256 * f.trig + (match a with | some i => 0x1000 * peCol i + 0x40000 * peRow i | none => 0)) ∧
        s.frameEv [.arr, .hi] [R.PL_FOLD_ERR, R.PL_EVT, R.HI_EVT] t)) ∧
    -- FOLD_LOAD_WAIT_TIMEOUT: code 2
    (∀ f r, s.arr.foldQ = f :: r → s.arr.headAt + 64 ≤ s.nclk → s.maskLoading f.mask f.target = true → f.gen = none → f.trig ≠ 5 →
      gives .foldLoadWaitTimeout s (fun t => t.arr = { s.arr with foldQ := r, headAt := s.nclk, headIn := [] } ∧
        t.rg R.PL_FOLD_ERR = w32 (2 + 16 * f.target + 256 * f.trig) ∧ s.frameEv [.arr, .hi] [R.PL_FOLD_ERR, R.PL_EVT, R.HI_EVT] t)) ∧
    -- FOLD_SWITCH_EDGE of a global fold with no wavefront in flight: every PE of the tiles changes Pleat
    (∀ w r, s.arr.sw = w :: r → w.req.wave = false → s.arr.slots = [] →
      gives .foldSwitchEdge s (fun t => t.arr.sw = r ∧ (∀ i < 1536, w.req.mask.testBit (peTile i) = true → (t.pe i).act = w.req.target) ∧
        s.only [.regs, .arr, .ft, .ev, .out] t)) ∧
    -- FOLD_TOKEN_ENTER
    gives .foldTokenEnter s (fun t => (∀ q, t.qu q = (s.qu q).settle (s.qCap q) (s.keeps q)) ∧
      (∀ i, (t.pe i).n = (s.pe i).n.settle ∧ (t.pe i).e = (s.pe i).e.settle ∧ (t.pe i).so = (s.pe i).so.settle ∧ (t.pe i).w = (s.pe i).w.settle) ∧
      ((∀ q, s.qLevel q = 0) → s.frame [.arr, .qs] [] t) ∧ s.only [.regs, .arr, .qs, .ev, .out] t ∧
      (∀ q < 1544, s.quietEvents → (s.qu q).ents.length < s.qLevel q → s.qLevel q ≤ (t.qu q).ents.length →
        (t.rg (R.SQ_THR_PEND (q / 32))).toNat.testBit (q % 32) = true)) ∧
    -- PE_FOLD at a PE with one enabled input and no destination, the last of its slot
    (∀ (pe : Fin 1536) (k : Slot), s.foldSlot pe = some k → s.foldFree pe k = true → s.tileGroup (peTile pe) = none → (s.pe pe).gen = false →
      s.validAt pe (s.pe pe).act = true → s.dests pe (s.actPleat pe) = [] → k.req.trig ≠ 5 →
      gives (.peFold pe) s (fun t => (t.pe pe).act = k.req.target ∧ s.frame [.arr] [] t)) ∧
    -- WAVE_STUCK
    (∀ (id : Fin 16) (k : Slot), s.slotOf id = some k → (s.rg R.PL_WAVE_TMO).toNat ≠ 0 → k.t0 ≠ 0 → k.stuck = false →
      k.t0 + s.aclkY (s.rg R.PL_WAVE_TMO).toNat ≤ s.now + 1 →
      gives (.waveStuck id) s (fun t => (∃ x, t.slotOf id = some x ∧ x.stuck = true) ∧ (s.quietEvents → t.rb R.PL_EVT F.PL_EVT_WAVE_STUCK = true) ∧
        s.frameEv [.arr, .faults] [R.PL_EVT] t)) ∧
    -- FOLDGEN_GRANT
    (∀ g r, s.arr.genReqs = g :: r → s.arr.slots = [] →
      gives .foldgenGrant s (fun t => s.frame [.arr] [] t ∧ t.arr = { s.arr with genReqs := r, foldIn := s.arr.foldIn ++
        [{ target := g.target, wave := true, mask := s.gmask g.mask, trig := 4, gen := some g.pe, grp := 0, desc := none }] })) ∧
    -- CANCEL_WAVES, PL_BLK_RST
    gives .cancelWaves s (fun t => t.arr.slots = [] ∧ s.only [.regs, .arr, .qs, .ft, .ev, .out] t) ∧
    (s.blkHeld 6 = false → gives .plBlkRst s (fun t => t.arr.slots = [] ∧ t.arr.foldIn = [] ∧ t.arr.foldQ = [] ∧ t.arr.sw = [] ∧ t.arr.loadQ = [] ∧ t.arr.loadRun = none ∧
      t.arr.seq = 0 ∧ s.only [.regs, .arr, .qs, .ft, .hi, .ev, .out, .freeCtr] t)) ∧
    (s.blkHeld 6 = true → exec .plBlkRst s = .next s)

/-- R158–R162, R164: Pleat loads and the access to stored Pleat words. -/
def Obligations.PleatLoads : Prop :=
  ∀ s : State,
    -- PLEAT_LOAD_QUEUE
    (∀ v : Word, F.PL_LOAD_CMD_GO.bit v = true →
      (s.loadDepth < 8 →
        gives (.pleatLoadQueue v) s (fun t => s.frame [.arr] [] t ∧ t.arr = { s.arr with loadQ := s.arr.loadQ ++
          [{ plane := F.PL_LOAD_CMD_PLANE.get v, slot := F.PL_LOAD_CMD_SLOT.get v,
             mask := s.mask3 R.PL_LOAD_MASK_W0 R.PL_LOAD_MASK_W1 R.PL_LOAD_MASK_W2, src := none }] })) ∧
      (8 ≤ s.loadDepth →
        gives (.pleatLoadQueue v) s (fun t => t.arr = s.arr ∧ t.rf R.PL_LOAD_STAT F.PL_LOAD_STAT_STATUS = 4 ∧
          s.frameEv [] [R.PL_LOAD_STAT, R.PL_EVT] t))) ∧
    -- LOAD_START: accepted, and refused
    (∀ l r, s.arr.loadRun = none → s.arr.loadQ = l :: r →
      (s.loadBad l = none → tilesOf l.mask ≠ [] →
        gives .loadStart s (fun t => s.frame [.arr] [] t ∧
          t.arr = { s.arr with loadQ := r, loadRun := some { req := l, tiles := tilesOf l.mask, bad := 0, first := none } })) ∧
      (∀ c, s.loadBad l = some c → l.src = none →
        gives .loadStart s (fun t => t.arr = { s.arr with loadQ := r } ∧ t.rg R.PL_LOAD_STAT = w32 (16 * c) ∧
          (s.quietEvents → t.rb R.PL_EVT F.PL_EVT_LOAD_REFUSED = true) ∧ s.frameEv [.arr] [R.PL_LOAD_STAT, R.PL_EVT] t))) ∧
    -- TILE_LOAD_DONE: the last tile of a load
    (∀ (tile : Fin 96) (k : LoadRun), s.arr.loadRun = some k → k.tiles = [tile.val] → k.req.src = none →
      gives (.tileLoadDone tile) s (fun t => t.arr.loadRun = none ∧ (s.quietEvents → t.rb R.PL_EVT F.PL_EVT_LOAD_DONE = true) ∧
        t.arr.loadQ = s.arr.loadQ ∧ s.only [.regs, .mem, .syn, .sm, .arr, .faults, .ev, .out] t)) ∧
    -- PLEAT_WORD_READ, PLEAT_WORD_WRITE
    (∀ i p w, s.wsel = some (i, p, w) →
      (s.classAt (s.pleatAt i p + 4 * w) = .good →
        gives .pleatWordRead s (fun t => t.rg R.PL_WDATA = w32 (s.numAt (s.pleatAt i p + 4 * w) 4) ∧ t.rg R.PL_WCMD = 4 ∧
          s.frameR [R.PL_WDATA, R.PL_WCMD] t)) ∧
      (s.busy (peTile i) p = true → gives .pleatWordWrite s (fun t => t.rg R.PL_WCMD = 12 ∧ s.frameR [R.PL_WCMD] t)) ∧
      (s.busy (peTile i) p = false → s.unarmed → s.classAt (s.pleatAt i p + 4 * w) = .good → s.tilePaired (peTile i) = false →
        gives .pleatWordWrite s (fun t => t.numAt (s.pleatAt i p + 4 * w) 4 = (s.rg R.PL_WDATA).toNat ∧ t.rg R.PL_WCMD = 4 ∧
          s.bytesBut (s.pleatAt i p + 4 * w) 4 t ∧ s.frame [.mem, .syn, .sm, .arr] [R.PL_WCMD] t)))

/-- R166–R179: a word enters a queue behind those in it and, for an SMB-resident queue, is stored in its ring buffer; what a queue cannot take
stays with its producer; its consumer takes the oldest; a GATED queue pays one credit for an item; a flush discards every data entry and
swallows the rest of the item of its producer. A configuration write of an enabled queue is refused with code 1, one that breaks a rule with
its code, and changes nothing. -/
def Obligations.QueueCommands : Prop :=
  ∀ (s : State) (q : Fin 1160) (d : Word) (tag : BitVec 4) (last err par lost : Bool),
    -- QUEUE_PUSH: the word joins the queue
    (∀ c, s.queueConn q true = some c → s.connHeld c = false → s.qTakes q = true → (s.qu q).plain → (q.val < 1024 → s.unarmed ∧ s.slotsHere q 1) →
      (1024 ≤ q.val ∨ lost = false ∨ s.qPortA q true = true) →
      gives (.queuePush q d tag last false err par lost) s (fun t =>
        (t.qu q).ents = (s.qu q).ents ++ [if par || decide (q.val < 1024) then Token.make d tag.toNat last false err none
            else (Token.make d tag.toNat last false err none).upset 40] ∧ (t.qu q).prodMid = !last ∧
        (t.qu q).items = (s.qu q).items + (if (s.qu q).prodMid = true ∧ (s.qu q).items ≠ 0 then 0 else 1) ∧ s.queuesBut [q.val] t ∧
        (q.val < 1024 → t.rawAt (s.qSlot q 0) = (Token.make d tag.toNat last false err none).entry ∧ s.bytesButSlots q 1 t ∧
          s.frameEv [.qs, .mem, .syn, .sm] [R.SQ_THR_PEND (q.val / 32)] t) ∧
        (1024 ≤ q.val → s.frameEv [.qs] [R.SQ_THR_PEND (q.val / 32)] t) ∧
        (s.quietEvents → s.qLevel q = (s.qu q).ents.length + 1 →
          (t.rg (R.SQ_THR_PEND (q.val / 32))).toNat.testBit (q.val % 32) = true))) ∧
    -- its write to the buffer lost to port A; sent to another bank; the word straight on to the fabric's consumer that waits
    (∀ c, q.val < 1024 → s.queueConn q true = some c → s.connHeld c = false → s.qTakes q = true → (s.qu q).plain → s.slotsHere q 1 →
      s.qPortA q true = false →
      gives (.queuePush q d tag last false err par true) s (fun t => (∀ b, t.byteAt b = s.byteAt b) ∧
        t.rf R.SM_WL_CNT F.SM_WL_CNT_COUNT = satN (2 ^ F.SM_WL_CNT_COUNT.w - 1) (s.rf R.SM_WL_CNT F.SM_WL_CNT_COUNT + 1) ∧
        (s.quietEvents → t.rb R.SM_EVT F.SM_EVT_WRITE_LOST = true) ∧
        s.frameEv [.qs] [R.SQ_THR_PEND (q.val / 32), R.SM_WL_CNT, R.SM_EVT] t)) ∧
    (∀ c, q.val < 1024 → s.queueConn q true = some c → s.connHeld c = false → s.qTakes q = true → (s.qu q).plain →
      (s.qStart q + (s.qu q).wptr) / 0x80000 ≠ s.qBank q →
      gives (.queuePush q d tag last false err par lost) s (fun t => (∀ b, t.byteAt b = s.byteAt b) ∧
        s.sent 2 (smbNode (s.qStart q + (s.qu q).wptr)) t ∧ (s.noProbes → s.frameEv [.qs, .net] [R.SQ_THR_PEND (q.val / 32)] t))) ∧
    (∀ c, q.val < 1024 → s.queueConn q true = some c → s.connHeld c = false → s.qTakes q = true → F.SQ_Q_BIND_CONS_KIND.get (s.rg (R.SQ_Q_BIND q)) = 5 →
      s.qStraight q (Token.make d tag.toNat last false err none) = true → (s.qu q).pend = [] → (s.qu q).replay = [] →
      gives (.queuePush q d tag last false err par lost) s (fun t => t.out = s.out ++ [.word q d (tag.toNat % 16) last false err] ∧
        (t.qu q).ents = [] ∧ (t.qu q).popAt = none ∧ s.queuesBut [q.val] t ∧ s.frame [.qs, .out] [R.SQ_Q_KICK q] t)) ∧
    (∀ c fold, s.queueConn q true = some c → s.connHeld c = false → s.qTakes q = false → (q.val < 1024 ∨ fold = false) →
      exec (.queuePush q d tag last fold err par lost) s = .next s) ∧
    (∀ c, s.queueConn q true = some c → s.connHeld c = false → s.qTakes q = true → (s.qu q).swallow = true → (s.qu q).pend = [] →
      gives (.queuePush q d tag last false err par lost) s (fun t => (t.qu q).ents = (s.qu q).ents ∧ (t.qu q).swallow = !last ∧
        s.queuesBut [q.val] t ∧ s.frame [.qs] [] t)) ∧
    (∀ c, 1024 ≤ q.val → s.queueConn q true = some c → s.connHeld c = false →
      gives (.queuePush q d tag last true err par lost) s (fun t =>
        (s.quietEvents → t.rb R.PL_EVT F.PL_EVT_FAB_FOLD = true) ∧ s.frameEv [] [R.PL_ERRCNT, R.PL_EVT] t)) ∧
    -- QUEUE_POP by the fabric
    (∀ (p : Fin 1544) c w r, s.queueConn p false = some c → s.connHeld c = false → s.qHead p = some w → (s.qu p).marker = false →
      (s.qu p).held = [] → (s.qu p).ents = w :: r → (s.qu p).pend = [] →
      (1088 ≤ p.val →
        gives (.queuePop p) s (fun t => t.out = s.out ++ [.word p w.data w.tag w.last w.fold w.err] ∧ (t.qu p).ents = r ∧
          s.queuesBut [p.val] t ∧ s.frame [.qs, .out] [] t)) ∧
      (p.val < 1024 → r.length < 32 →
        gives (.queuePop p) s (fun t => t.out = s.out ++ [.word p w.data w.tag w.last w.fold w.err] ∧ (t.qu p).ents = r ∧
          s.queuesBut [p.val] t ∧ s.frame [.qs, .out] [R.SQ_Q_KICK p] t ∧
          t.rf (R.SQ_Q_KICK p) F.SQ_Q_KICK_CREDIT = s.rf (R.SQ_Q_KICK p) F.SQ_Q_KICK_CREDIT -
            (if w.last && !w.fold && s.rb (R.SQ_Q_CFG p) F.SQ_Q_CFG_GATED then 1 else 0)))) ∧
    -- a FOLD token that a flush kept comes first; an empty queue makes its consumer wait
    (∀ (p : Fin 1544) c w r, s.queueConn p false = some c → s.connHeld c = false → s.qHead p = some w → (s.qu p).marker = false →
      (s.qu p).held = w :: r → gives (.queuePop p) s (fun t => t.out = s.out ++ [.word p w.data w.tag w.last w.fold w.err] ∧
        t.qu p = { s.qu p with held := r } ∧ s.queuesBut [p.val] t ∧ s.frame [.qs, .out] [] t)) ∧
    (∀ p : Fin 1544, s.qHead p = none → gives (.queuePop p) s (fun t => (t = s ∨ t.qu p = { s.qu p with popAt := some s.now }) ∧
      s.queuesBut [p.val] t ∧ s.only [.qs] t)) ∧
    -- FLUSH
    ((s.qu q).flushing = false → s.streamsOn q = [] →
      gives (.sqFlush q) s (fun t => (t.qu q).ents = [] ∧ (t.qu q).held = (s.qu q).held ++ (s.qu q).ents.filter (fun e => e.fold) ∧ (t.qu q).items = 0 ∧
        (t.qu q).marker = ((s.qu q).marker || (s.qu q).consMid) ∧ (t.qu q).flushing = (s.qu q).prodMid ∧
        (t.qu q).swallow = ((s.qu q).swallow || (s.qu q).prodMid) ∧ s.queuesBut [q.val] t ∧
        (q.val < 1024 → t.rf (R.SQ_Q_KICK q) F.SQ_Q_KICK_CREDIT = 0 ∧ s.frame [.qs] [R.SQ_Q_KICK q] t) ∧
        (1024 ≤ q.val → s.frame [.qs] [] t))) ∧
    ((s.qu q).flushing = true → exec (.sqFlush q) s = .next s) ∧
    -- FLUSH_FORCED
    ((s.qu q).flushing = true → s.rg R.SQ_FLUSH_TMO ≠ 0 → (s.qu q).lastAt + s.flushWait q ≤ s.now →
      gives (.flushForced q) s (fun t => t.qu q = { s.qu q with flushing := false, forced := true } ∧ s.queuesBut [q.val] t ∧
        (s.quietEvents → t.rb R.SQ_EVT F.SQ_EVT_FLUSH_FORCED = true) ∧ s.frameEv [.qs] [R.SQ_EVT] t)) ∧
    (((s.qu q).flushing = false ∨ s.now < (s.qu q).lastAt + s.flushWait q) → exec (.flushForced q) s = .next s) ∧
    -- TRUNCATION_MARKER to a port of the fabric
    ((s.qu q).marker = true → 1088 ≤ q.val → q.val < 1152 →
      gives (.truncationMarker q) s (fun t => t.out = s.out ++ [.word q 0 (s.qu q).lastTag true false true] ∧
        t.qu q = { s.qu q with marker := false } ∧ s.queuesBut [q.val] t ∧ s.frame [.qs, .out] [] t)) ∧
    ((s.qu q).marker = false → exec (.truncationMarker q) s = .next s)

/-- R178, R193: the configuration writes of the queues and the sensor ports, and the Block reset. -/
def Obligations.QueueConfig : Prop :=
  ∀ (s : State) (v : Word),
    (∀ q < 1024, ∀ a, a.toNat = R.SQ_Q_BASE q ∨ a.toNat = R.SQ_Q_BIND q ∨ a.toNat = R.SQ_Q_LIMIT q →
      (s.rb (R.SQ_Q_CFG q) F.SQ_Q_CFG_EN = true →
        gives (.sqConfigWrite a v) s (fun t => t.rf R.SQ_CFG_ERR F.SQ_CFG_ERR_QNUM = q ∧ t.rf R.SQ_CFG_ERR F.SQ_CFG_ERR_CODE = 1 ∧
          (s.quietEvents → t.rb R.SQ_EVT F.SQ_EVT_CFG_ERR = true) ∧ s.frameEv [] [R.SQ_CFG_ERR, R.SQ_EVT] t)) ∧
      (s.rb (R.SQ_Q_CFG q) F.SQ_Q_CFG_EN = false → (a.toNat = R.SQ_Q_BIND q → bindOk v = true) →
        (a.toNat = R.SQ_Q_BASE q → bufBad (s.rf (R.SQ_Q_CFG q) F.SQ_Q_CFG_SIZE) (4096 * F.SQ_Q_BASE_BASE.get v) = false) →
        gives (.sqConfigWrite a v) s (fun t => t.rg a.toNat = s.written a.toNat v ∧ s.frameR [a.toNat] t)) ∧
      (s.rb (R.SQ_Q_CFG q) F.SQ_Q_CFG_EN = false → a.toNat = R.SQ_Q_BASE q →
        bufBad (s.rf (R.SQ_Q_CFG q) F.SQ_Q_CFG_SIZE) (4096 * F.SQ_Q_BASE_BASE.get v) = true →
        gives (.sqConfigWrite a v) s (fun t => t.rf R.SQ_CFG_ERR F.SQ_CFG_ERR_QNUM = q ∧ t.rf R.SQ_CFG_ERR F.SQ_CFG_ERR_CODE = 2 ∧
          s.frameEv [] [R.SQ_CFG_ERR, R.SQ_EVT] t))) ∧
    (∀ q < 1024, ∀ a, a.toNat = R.SQ_Q_CFG q →
      (s.rb (R.SQ_Q_CFG q) F.SQ_Q_CFG_EN = false ∨ F.SQ_Q_CFG_EN.bit v = false → bufBad (F.SQ_Q_CFG_SIZE.get v) (s.qStart q) = true →
        gives (.sqConfigWrite a v) s (fun t => t.rf R.SQ_CFG_ERR F.SQ_CFG_ERR_QNUM = q ∧ t.rf R.SQ_CFG_ERR F.SQ_CFG_ERR_CODE = 2 ∧
          s.frameEv [] [R.SQ_CFG_ERR, R.SQ_EVT] t)) ∧
      (s.rb (R.SQ_Q_CFG q) F.SQ_Q_CFG_EN = false → F.SQ_Q_CFG_EN.bit v = false → bufBad (F.SQ_Q_CFG_SIZE.get v) (s.qStart q) = false →
        gives (.sqConfigWrite a v) s (fun t => t.rg (R.SQ_Q_CFG q) = s.written (R.SQ_Q_CFG q) v ∧ s.frameR [R.SQ_Q_CFG q] t)) ∧
      (s.rb (R.SQ_Q_CFG q) F.SQ_Q_CFG_EN = false → F.SQ_Q_CFG_EN.bit v = true → s.enableBad q v = none →
        gives (.sqConfigWrite a v) s (fun t => t.rg (R.SQ_Q_CFG q) = s.written (R.SQ_Q_CFG q) v ∧ s.frameR [R.SQ_Q_CFG q] t)) ∧
      (∀ c, s.rb (R.SQ_Q_CFG q) F.SQ_Q_CFG_EN = false → F.SQ_Q_CFG_EN.bit v = true → s.enableBad q v = some c →
        gives (.sqConfigWrite a v) s (fun t => t.rf R.SQ_CFG_ERR F.SQ_CFG_ERR_QNUM = q ∧ t.rf R.SQ_CFG_ERR F.SQ_CFG_ERR_CODE = c ∧
          s.frameEv [] [R.SQ_CFG_ERR, R.SQ_EVT] t)) ∧
      ((F.SQ_Q_CFG_SIZE.get v < 12 ∨ 25 < F.SQ_Q_CFG_SIZE.get v) → s.enableBad q v = some 2) ∧
      (s.rb (R.SQ_Q_CFG q) F.SQ_Q_CFG_EN = true → F.SQ_Q_CFG_EN.bit v = false → (s.qu q).flushing = false → s.streamsOn q = [] →
        bufBad (F.SQ_Q_CFG_SIZE.get v) (s.qStart q) = false →
        gives (.sqConfigWrite a v) s (fun t => t.rg (R.SQ_Q_CFG q) = s.written (R.SQ_Q_CFG q) v ∧
          (t.qu q).ents = [] ∧ (t.qu q).swallow = false ∧ s.queuesBut [q] t ∧
          s.frame [.qs] [R.SQ_Q_CFG q, R.SQ_Q_KICK q] t))) ∧
    (∀ p < 8, ∀ a, a.toNat = R.SQ_SP_CFG p ∨ a.toNat = R.SQ_SP_DLY p ∨ a.toNat = R.SQ_SP_SYNC p →
      ((s.spr p).st ≠ .aligning → (s.spr p).st ≠ .locked →
        gives (.sqConfigWrite a v) s (fun t => t.rg a.toNat = s.written a.toNat v ∧ s.frameR [a.toNat] t)) ∧
      (((s.spr p).st = .aligning ∨ (s.spr p).st = .locked) →
        gives (.sqConfigWrite a v) s (fun t => t.rf R.SQ_CFG_ERR F.SQ_CFG_ERR_QNUM = 1152 + p ∧ t.rf R.SQ_CFG_ERR F.SQ_CFG_ERR_CODE = 5 ∧
          s.frameEv [] [R.SQ_CFG_ERR, R.SQ_EVT] t))) ∧
    -- SQ_BLK_RST
    (s.blkHeld 7 = false → gives .sqBlkRst s (fun t =>
      (∀ q, q < 1024 ∨ (1152 ≤ q ∧ q < 1160) → t.qu q = Queue.empty) ∧
      (∀ q, (1024 ≤ q ∧ q < 1152) ∨ 1160 ≤ q → t.qu q = s.qu q) ∧
      (∀ p < 8, (t.spr p).st = (s.spr p).st ∧ (t.spr p).discard = decide ((s.spr p).frames ≠ 0)) ∧
      s.blockReset .block 0x300000 0x340000 ((List.range 1024).map R.SQ_Q_KICK ++ (List.range 37).map R.SQ_THR_PEND) t ∧
      s.only [.regs, .qs, .sp] t)) ∧
    (s.blkHeld 7 = true → exec .sqBlkRst s = .next s)

/-- R182–R186: a sensor port aligns, takes its words into its queue of 512, ends an item that it cannot finish with a marker, and falls DOWN
when its clock stops. -/
def Obligations.SensorPorts : Prop :=
  ∀ (s : State) (p : Fin 8) (lanes : BitVec 64) (tap : BitVec 7),
    let q := 1152 + p.val
    let l := s.spLane p lanes
    let word := fun (x : Nat) (last : Bool) => Token.make (w32 x) 0 last false false none
    -- ALIGN
    ((s.spr p).midItem = false →
      gives (.spAlign p) s (fun t => (t.spr p).st = .aligning ∧ (t.spr p).laneLock = 0 ∧ (t.spr p).words = 0 ∧ (t.spr p).runs = [0, 0, 0, 0] ∧ (t.spr p).slide = [0, 0, 0, 0] ∧
        (∀ k, k ≠ p.val → t.spr k = s.spr k) ∧ s.frame [.sp] [] t)) ∧
    ((s.spr p).midItem = true → (s.qu q).plain →
      gives (.spAlign p) s (fun t => (t.spr p).st = .aligning ∧ (t.spr p).midItem = false ∧ (∀ k, k ≠ p.val → t.spr k = s.spr k) ∧
        s.queuesBut [q] t ∧ (s.quietEvents → t.rb R.SQ_EVT F.SQ_EVT_SP_OVF = true) ∧
        s.frameEv [.sp, .qs, .out] [R.SQ_THR_PEND 36, R.SQ_SP_STAT p, R.SQ_EVT] t)) ∧
    -- SP_ALIGN_TIMEOUT
    ((s.spr p).st = .aligning → 65536 ≤ (s.spr p).words →
      gives (.spAlignTimeout p) s (fun t => t.spr p = { s.spr p with st := .unlocked } ∧ (∀ k, k ≠ p.val → t.spr k = s.spr k) ∧
        (s.quietEvents → t.rb R.SQ_EVT F.SQ_EVT_SP_ALIGN_FAIL = true) ∧ s.frameEv [.sp] [R.SQ_EVT] t)) ∧
    ((s.spr p).st ≠ .aligning ∨ (s.spr p).words < 65536 → exec (.spAlignTimeout p) s = .next s) ∧
    -- SP_WORD while aligning, of a RAW item, of a set of two words, with the queue full
    ((s.spr p).st = .aligning →
      gives (.spWord p lanes tap) s (fun t => (t.spr p).words = (s.spr p).words + 1 ∧ ((t.spr p).st = .aligning ∨ (t.spr p).st = .locked) ∧
        (∀ k, k ≠ p.val → t.spr k = s.spr k) ∧ s.frame [.sp] [] t)) ∧
    ((s.spr p).st = .locked → s.rf (R.SQ_SP_CFG p) F.SQ_SP_CFG_MODE = 2 → (s.spr p).discard = false → (s.qu q).plain →
      (s.qu q).ents.length < 511 →
      gives (.spWord p lanes tap) s (fun t =>
        (t.qu q).ents = (s.qu q).ents ++ [word (l 0 % 256 + 256 * (l 1 % 256) + 0x10000 * (l 2 % 256) + 0x1000000 * (l 3 % 256)) (s.spFrame p).2] ∧
        (t.spr p).frames = (s.spFrame p).1 ∧ (t.spr p).midItem = !(s.spFrame p).2 ∧ (∀ k, k ≠ p.val → t.spr k = s.spr k) ∧
        s.queuesBut [q] t ∧ s.frameEv [.sp, .qs] [R.SQ_THR_PEND 36] t)) ∧
    ((s.spr p).st = .locked → s.rf (R.SQ_SP_CFG p) F.SQ_SP_CFG_MODE = 1 → (s.spr p).discard = false → (s.qu q).plain →
      (s.qu q).ents.length < 510 →
      gives (.spWord p lanes tap) s (fun t =>
        (t.qu q).ents = (s.qu q).ents ++ [word (l 0 + 0x10000 * l 1) false, word (l 2 + 0x10000 * l 3) (s.spFrame p).2] ∧
        ((s.spr p).decim = 0 → (t.spr p).yokeSeq = (s.spr p).yokeSeq + 1 ∧ (t.spr p).decim = s.rf (R.SQ_SP_CFG p) F.SQ_SP_CFG_DECIM ∧
          (t.spr p).yokeSet = [BitVec.ofNat 16 (l 0), BitVec.ofNat 16 (l 1), BitVec.ofNat 16 (l 2), BitVec.ofNat 16 (l 3)]) ∧
        ((s.spr p).decim ≠ 0 → (t.spr p).decim = (s.spr p).decim - 1 ∧ (t.spr p).yokeSet = (s.spr p).yokeSet) ∧
        s.queuesBut [q] t ∧ s.frameEv [.sp, .qs] [R.SQ_THR_PEND 36] t)) ∧
    ((s.spr p).st = .locked → s.rf (R.SQ_SP_CFG p) F.SQ_SP_CFG_MODE = 2 → (s.spr p).discard = false → (s.qu q).plain →
      (s.qu q).ents.length = 511 →
      gives (.spWord p lanes tap) s (fun t =>
        (t.qu q).ents = (s.qu q).ents ++ [Token.make 0 0 true false true none] ∧ (t.spr p).discard = !(s.spFrame p).2 ∧
        (s.quietEvents → t.rb R.SQ_EVT F.SQ_EVT_SP_OVF = true) ∧
        s.queuesBut [q] t ∧ s.frameEv [.sp, .qs] [R.SQ_THR_PEND 36, R.SQ_SP_STAT p, R.SQ_EVT] t)) ∧
    -- SP_CLOCK_LOSS
    ((s.spr p).st = .locked → (s.qu q).plain →
      gives (.spClockLoss p) s (fun t => (t.spr p).st = .down ∧ (∀ k, k ≠ p.val → t.spr k = s.spr k) ∧
        (s.quietEvents → t.rb R.SQ_EVT F.SQ_EVT_SP_DOWN = true) ∧ s.queuesBut [q] t ∧
        ((s.spr p).midItem = false → t.qu q = s.qu q) ∧ s.frameEv [.sp, .qs] [R.SQ_THR_PEND 36, R.SQ_SP_STAT p, R.SQ_EVT] t)) ∧
    ((s.spr p).st ≠ .locked → exec (.spClockLoss p) s = .next s)

/-- R187–R193: the Ethernet unit. A frame with a bad FCS or length, a bad checksum, or matched by nothing is dropped and counted; another goes
whole, behind a header of six words, into its queue, from the receive buffer of 64 KiB that holds it until then. A port sends a whole item as a frame, padded to 60 bytes and with its FCS. The 1588
clock steps and loads; a read of a transmit timestamp takes the oldest. -/
def Obligations.Ethernet : Prop :=
  ∀ (s : State) (p : Fin 4) (f : List Byte),
    -- EN_FRAME_RECEIVE: a port that is off, no room in the receive buffer, a frame that waits in it
    let same := fun (t : State) => (∀ k, t.enPort k = s.enPort k) ∧ t.ptpNow = s.ptpNow
    (∀ ok, (s.rb (R.EN_PORT_CFG p) F.EN_PORT_CFG_EN = false ∨ s.rb (R.EN_PORT_STAT p) F.EN_PORT_STAT_LINK = false) →
      exec (.enFrameReceive p f ok true) s = .next s ∧
      ((s.enPort p).rx = [] → gives (.enFrameReceive p f ok false) s (fun t => same t ∧ s.frame [.en] [] t))) ∧
    (s.rb (R.EN_PORT_CFG p) F.EN_PORT_CFG_EN = true → s.rb (R.EN_PORT_STAT p) F.EN_PORT_STAT_LINK = true →
      (∀ ok, 65536 < (s.enPort p).rxUsed + f.length →
        gives (.enFrameReceive p f ok true) s (fun t => t.rg (R.EN_RXDROP p) = (s.bump (R.EN_RXDROP p) F.EN_RXDROP_ROOM 1).rg (R.EN_RXDROP p) ∧
          s.frameR [R.EN_RXDROP p] t)) ∧
      ((s.enPort p).rxUsed + f.length ≤ 65536 → 60 ≤ f.length → f.length ≤ 9596 → ethType f ≠ 0x8808 → checksOk f = true →
        gives (.enFrameReceive p f true true) s (fun t =>
          (∃ x : RxFrame, x.bytes = f ∧ (t.enPort p).rx = (s.enPort p).rx ++ [x]) ∧ (t.enPort p).txts = (s.enPort p).txts ∧
          (∀ k, k ≠ p.val → t.enPort k = s.enPort k) ∧ s.frame [.en] [] t))) ∧
    -- bad FCS or length, a bad checksum, no match; delivered
    (s.rb (R.EN_PORT_CFG p) F.EN_PORT_CFG_EN = true → s.rb (R.EN_PORT_STAT p) F.EN_PORT_STAT_LINK = true → (s.enPort p).rx = [] → f.length ≤ 65536 →
      (∀ ok, (ok = false ∨ f.length < 60 ∨ 9596 < f.length) →
        gives (.enFrameReceive p f ok false) s (fun t => t.rg (R.EN_RXDROP p) = (s.bump (R.EN_RXDROP p) F.EN_RXDROP_FCS_LEN 1).rg (R.EN_RXDROP p) ∧
          same t ∧ s.frame [.en] [R.EN_RXDROP p] t)) ∧
      (60 ≤ f.length → f.length ≤ 9596 → ethType f ≠ 0x8808 →
        (checksOk f = false →
          gives (.enFrameReceive p f true false) s (fun t => t.rg (R.EN_RXDROP p) = (s.bump (R.EN_RXDROP p) F.EN_RXDROP_CHK 1).rg (R.EN_RXDROP p) ∧
            same t ∧ s.frame [.en] [R.EN_RXDROP p] t)) ∧
        (checksOk f = true → steerable f = false → s.rb (R.EN_PORT_CFG p) F.EN_PORT_CFG_DEF_EN = false →
          gives (.enFrameReceive p f true false) s (fun t => t.rg (R.EN_RXDROP p) = (s.bump (R.EN_RXDROP p) F.EN_RXDROP_NOMATCH 1).rg (R.EN_RXDROP p) ∧
            same t ∧ s.frame [.en] [R.EN_RXDROP p] t)) ∧
        (∀ rule : Option Nat, checksOk f = true → (if steerable f then (List.range 256).find? (fun i => s.ruleHit i p f) else none) = rule →
          (rule = none → s.rb (R.EN_PORT_CFG p) F.EN_PORT_CFG_DEF_EN = true) →
          let q := match rule with | some i => s.rf (R.EN_RULE_CFG i) F.EN_RULE_CFG_QNUM | none => s.rf (R.EN_PORT_CFG p) F.EN_PORT_CFG_DEFQ
          let form := match rule with | some i => s.rb (R.EN_RULE_CFG i) F.EN_RULE_CFG_FORM | none => false
          let body := if form then (f.drop (udpAt f + 8)).take (fb16 f (udpAt f + 4) - 8) else f
          let n := 6 + (packWords body).length
          s.rf (R.SQ_Q_BIND q) F.SQ_Q_BIND_PROD_KIND = 3 → s.qRoom q n = true → (s.qu q).plain → q < 1024 → s.unarmed → s.slotsHere q n →
          gives (.enFrameReceive p f true false) s (fun t =>
            (∃ h : List Word, h.length = 6 ∧ h.head? = some (w32 (body.length + 0x10000 * p.val + 0x40000 * rule.getD 0 + 0x4000000 * b2n form +
                0x8000000 * b2n (ethTag f) + 0x10000000 * b2n rule.isNone)) ∧
              (t.qu q).ents.map (fun e => e.data) = (s.qu q).ents.map (fun e => e.data) ++ h ++ packWords body) ∧
            (t.qu q).prodMid = false ∧ t.rg (R.EN_RXCNT p) = (s.bump (R.EN_RXCNT p) F.EN_RXCNT_FRAMES 1).rg (R.EN_RXCNT p) ∧
            s.queuesBut [q] t ∧ s.bytesButSlots q n t ∧ same t ∧
            s.frameEv [.qs, .mem, .syn, .sm, .en] [R.EN_RXCNT p, R.SQ_THR_PEND (q / 32)] t)))) ∧
    (60 ≤ f.length → f.length ≤ 9596 → ethType f = 0x8808 → (s.enPort p).rx = [] →
      gives (.enFrameReceive p f true false) s (fun t => same t ∧ s.frame [.en] [] t)) ∧
    -- EN_FRAME_TRANSMIT of an item that holds its whole frame
    (let q := s.rf (R.EN_PORT_CFG p) F.EN_PORT_CFG_TXQ
     ∀ (w : Token) (l : List Token) (e : Token) (r : List Token),
      s.rb (R.EN_PORT_CFG p) F.EN_PORT_CFG_EN = true → s.rb (R.EN_PORT_CFG p) F.EN_PORT_CFG_TX_EN = true →
      s.rb (R.EN_PORT_STAT p) F.EN_PORT_STAT_LINK = true → s.rf (R.SQ_Q_BIND q) F.SQ_Q_BIND_CONS_KIND = 3 →
      s.rf (R.SQ_Q_BIND q) F.SQ_Q_BIND_CONS_ID = p.val → (s.qu q).ents = w :: l ++ e :: r → (∀ x ∈ w :: l, x.last = false ∧ x.fold = false) →
      e.last = true → e.fold = false → (s.qu q).pend = [] → (s.qu q).marker = false → (s.qHead q).isSome = true → q < 1024 →
      (s.qu q).held = [] → (s.qu q).away = [] → (s.qu q).ents.length ≤ 32 → (s.enPort p).tx = none →
      let body := wordBytes ((l ++ [e]).map (fun x => x.data))
      let len := w.data.toNat % 0x10000
      let frame := body.take len ++ List.replicate (60 - len) 0
      len ≤ body.length → wbit w.data 16 = false →
      gives (.enFrameTransmit p) s (fun t => t.out = s.out ++ [.eth p (frame ++ bytesLE 4 (crc32 0xEDB88320 frame))] ∧
        (t.qu q).ents = r ∧ (t.enPort p).seq = (s.enPort p).seq + 1 ∧ (t.enPort p).txts = (s.enPort p).txts ∧ (t.enPort p).tx = none ∧ s.queuesBut [q] t ∧
        s.frame [.qs, .en, .out] [R.SQ_Q_KICK q] t)) ∧
    -- EN_PTP_STEP, PTP_SET
    (∀ v : Word, gives (.enPtpStep v) s (fun t => t.ptpNow = (((s.ptpNow : Int) + v.toInt * 2 ^ 24) % (2 ^ 48 * ptpSec : Nat)).toNat ∧
      t.en.ports = s.en.ports ∧ s.frame [.en] [] t)) ∧
    gives .ptpSet s (fun t => t.ptpNow = (((s.rg R.EN_PTP_SEC_LO).toNat + 2 ^ 32 * s.rf R.EN_PTP_SEC_HI F.EN_PTP_SEC_HI_SEC) * ptpSec +
      s.rf R.EN_PTP_NS F.EN_PTP_NS_NS * 2 ^ 24) % (2 ^ 48 * ptpSec) ∧ t.en.ports = s.en.ports ∧ s.frame [.en] [] t) ∧
    -- TXTS_READ
    ((s.enPort p).txts = [] → gives (.txtsRead p) s (fun t => t.out = s.out ++ [.readBack (R.EN_TXTS_NS p) 0] ∧ s.frame [.out] [] t)) ∧
    (∀ x r, (s.enPort p).txts = x :: r →
      gives (.txtsRead p) s (fun t => t.out = s.out ++ [.readBack (R.EN_TXTS_NS p) (w32 (x.ns + 2 ^ 31))] ∧ (t.enPort p).txts = r ∧
        t.rg (R.EN_TXTS_SEC p) = w32 (x.sec + 0x10000 * x.seq) ∧ s.frame [.en, .out] [R.EN_TXTS_SEC p] t)) ∧
    -- EN_BLK_RST
    (s.blkHeld 18 = true → exec .enBlkRst s = .next s) ∧
    (s.blkHeld 18 = false → gives .enBlkRst s (fun t => (∀ k < 4, (t.enPort k).txts = [] ∧ (t.enPort k).rx = [] ∧ (t.enPort k).tx = none) ∧ t.ptpNow = s.ptpNow ∧ s.blockReset .block 0x660000 0x680000 [] t ∧
      ((∀ k < 4, (s.enPort k).tx = none) → t.out = s.out) ∧ s.only [.regs, .en, .out] t)) ∧
    -- EN_LINK_CHANGE
    (∀ block link fec, s.rb (R.EN_PORT_CFG p) F.EN_PORT_CFG_EN = true →
      gives (.enLinkChange p block link fec) s (fun t => t.rb (R.EN_PORT_STAT p) F.EN_PORT_STAT_LINK = link ∧
        t.rg (R.EN_PORT_STAT p) = w32 ((s.rg (R.EN_PORT_STAT p)).toNat / 8 * 8 + b2n block + 2 * b2n link +
          4 * b2n (fec && s.rf (R.EN_PORT_CFG p) F.EN_PORT_CFG_FEC != 0)) ∧ s.frameR [R.EN_PORT_STAT p] t))

/-- R197, R198, R200, R204, R207, R208, R211, R214: routers and links. The first unit by VC, priority and turn goes over its link or out at its
destination, its header perhaps upset in the router; a header without a route is answered by the router; a unit that fails its CRC is sent
again before any other; four failures in a row, or silence, take a link DOWN at both ends, which then tell their ring; every router on the way
records the cut; a lost node loses its links and forwards nothing. -/
def Obligations.NetworkLinks : Prop :=
  ∀ (s : State) (node : Fin 120),
    -- PACKET_HOP
    (∀ (out : Fin 20) hit, s.lost node = true → exec (.packetHop node out hit) s = .next s) ∧
    (∀ (out : Fin 20) hit, s.lost node = false → (node.val ≠ 116 ∨ s.net.trace = []) → s.noProbes →
      (∀ id p st, s.netDead node = some (id, p, st) → isResponse p.cmd.toNat = false → p.cmd.toNat ≠ 0x30 →
        gives (.packetHop node out hit) s (fun t => s.answered p (st % 64) t ∧ s.frameEv [.net, .freeCtr] [R.NW_EVT, R.NW_ERR_LOG] t)) ∧
      (∀ id p st, s.netDead node = some (id, p, st) → isResponse p.cmd.toNat = true →
        gives (.packetHop node out hit) s (fun t => t.pkt id = none ∧ (s.quietEvents → t.rb R.NW_EVT F.NW_EVT_RSP_DISC = true) ∧
          s.frameEv [.net] [R.NW_EVT, R.NW_ERR_LOG] t)) ∧
      (s.netDead node = none → s.netWinner node out = none → exec (.packetHop node out hit) s = .next s) ∧
      (∀ c pk, s.netDead node = none → s.netWinner node out = some c → s.rf R.NW_TEST F.NW_TEST_COUNT = 0 → s.waiting c.src = [] →
        pk = (match hit with | some b => if c.unit.idx = 0 then c.pkt.upset b.val else c.pkt | none => c.pkt) →
        (out.val < 4 →
          gives (.packetHop node out hit) s (fun t => t.nq c.src = (s.nq c.src).drop 1 ∧
            t.nq c.dst = s.nq c.dst ++ [{ c.unit with since := s.nclk }] ∧ (∀ k, k ≠ c.src → k ≠ c.dst → t.nq k = s.nq k) ∧
            (c.unit.idx = 0 → t.pkt c.unit.pid = some pk) ∧ t.net.inbox = s.net.inbox ∧
            t.crcRunOf (neighbour node out) (oppLink out) = 0 ∧ t.replayOf node out = none ∧ s.frame [.net] [] t)) ∧
        (4 ≤ out.val → c.unit.idx < c.pkt.data.length →
          gives (.packetHop node out hit) s (fun t => t.nq c.src = (s.nq c.src).drop 1 ∧ t.net.inbox = s.net.inbox ∧ s.frame [.net] [] t)) ∧
        (4 ≤ out.val → c.pkt.data.length ≤ c.unit.idx →
          gives (.packetHop node out hit) s (fun t => t.pkt c.unit.pid = none ∧
            t.net.inbox = s.net.inbox ++ [{ pk with bad := c.unit.bad || s.net.badIn.contains c.unit.pid }] ∧ s.frame [.net] [] t))) ∧
      (∀ c, s.netDead node = none → s.netWinner node out = some c → out.val < 4 → s.rf R.NW_TEST F.NW_TEST_NODE = node →
        s.rf R.NW_TEST F.NW_TEST_LINK = out → 0 < s.rf R.NW_TEST F.NW_TEST_COUNT →
        s.crcRunOf (neighbour node out) (oppLink out) < 3 →
        gives (.packetHop node out hit) s (fun t => t.rf R.NW_TEST F.NW_TEST_COUNT = s.rf R.NW_TEST F.NW_TEST_COUNT - 1 ∧
          (∀ k, t.nq k = s.nq k) ∧ t.replayOf node out = some c.src ∧
          t.crcRunOf (neighbour node out) (oppLink out) = s.crcRunOf (neighbour node out) (oppLink out) + 1 ∧
          s.frame [.net, .faults] [R.NW_TEST, R.NW_LINK_ERR (neighbour node out), R.NW_ERR_LOG] t))) ∧
    (∀ last (x y : NetCand), x.pkt.vc = 2 → y.pkt.vc ≠ 2 → s.netBefore last x y = true ∧ s.netBefore last y x = false) ∧
    (∀ last (x y : NetCand), x.pkt.vc ≠ 2 → y.pkt.vc ≠ 2 → s.prio y.pkt < s.prio x.pkt → s.netBefore last x y = true) ∧
    -- LINK_CRC_FAIL
    (∀ link : Fin 4, s.linkUp (neighbour node link) (oppLink link) = true → s.crcRunOf node link < 3 →
      gives (.linkCrcFail node link) s (fun t => t.crcRunOf node link = s.crcRunOf node link + 1 ∧
        t.rg (R.NW_LINK_ERR node) = (s.bump (R.NW_LINK_ERR node) (linkErrFld link) 1).rg (R.NW_LINK_ERR node) ∧
        t.faults = s.faults ++ [{ det := 4, elems := [(3, node.val + 256 * link.val)], time := s.now }] ∧
        (∀ c, s.netWinner (neighbour node link) (oppLink link) = some c →
          t.replayOf (neighbour node link) (oppLink link) = some c.src) ∧ (∀ k, t.nq k = s.nq k) ∧
        s.frame [.net, .faults] [R.NW_LINK_ERR node, R.NW_ERR_LOG] t)) ∧
    (∀ link : Fin 4, s.linkUp (neighbour node link) (oppLink link) = true → 3 ≤ s.crcRunOf node link →
      gives (.linkCrcFail node link) s (fun t => t.linkUp (neighbour node link) (oppLink link) = false ∧ t.linkUp node link = false ∧
        s.only [.regs, .net, .faults, .ev, .out] t)) ∧
    (∀ link : Fin 4, s.linkUp (neighbour node link) (oppLink link) = false →
      exec (.linkCrcFail node link) s = .next s ∧ exec (.linkIdleTimeout node link) s = .next s) ∧
    -- LINK_IDLE_TIMEOUT
    (∀ link : Fin 4, s.linkUp (neighbour node link) (oppLink link) = true →
      gives (.linkIdleTimeout node link) s (fun t => t.linkUp (neighbour node link) (oppLink link) = false ∧ t.linkUp node link = false ∧
        (s.linkUp node (oppLink link) = true → s.lost node = false → t.noted node node link) ∧
        (s.linkUp (neighbour node link) link = true → s.lost (neighbour node link) = false →
          t.noted (neighbour node link) (neighbour node link) (oppLink link)) ∧
        s.only [.regs, .net, .faults, .ev, .out] t)) ∧
    -- MNOTE
    (∀ (p : Packet) (cut : Nat) (link : Nat), s.firstIn p = true → p.cmd.toNat = 0x30 → p.dst < 120 → s.noProbes →
      cut = p.addr.toNat / 4 % 120 → link = p.addr.toNat % 4 →
      (s.linkUp cut link = true → exec (.nwMnote p) s = .next (s.unboxed p)) ∧
      (s.linkUp cut link = false →
        gives (.nwMnote p) s (fun t => t.net.inbox = s.net.inbox.erase p ∧ (s.quietEvents → t.rb R.NW_EVT F.NW_EVT_CUT = true) ∧
          (link = 0 → t.rb (R.NW_NODE_STAT p.dst) F.NW_NODE_STAT_XCUT_V = true ∧
            t.rf (R.NW_NODE_STAT p.dst) F.NW_NODE_STAT_XCUT = cut % 12 ∧ cut % 12 ∈ t.cutsAt p.dst 0) ∧
          (link = 1 → t.rb (R.NW_NODE_STAT p.dst) F.NW_NODE_STAT_XCUT_V = true ∧
            t.rf (R.NW_NODE_STAT p.dst) F.NW_NODE_STAT_XCUT = (cut % 12 + 11) % 12 ∧ (cut % 12 + 11) % 12 ∈ t.cutsAt p.dst 0) ∧
          (link = 2 → t.rb (R.NW_NODE_STAT p.dst) F.NW_NODE_STAT_YCUT_V = true ∧
            t.rf (R.NW_NODE_STAT p.dst) F.NW_NODE_STAT_YCUT = cut / 12 ∧ cut / 12 ∈ t.cutsAt p.dst 1) ∧
          (link = 3 → t.rb (R.NW_NODE_STAT p.dst) F.NW_NODE_STAT_YCUT_V = true ∧
            t.rf (R.NW_NODE_STAT p.dst) F.NW_NODE_STAT_YCUT = (cut / 12 + 9) % 10 ∧ (cut / 12 + 9) % 10 ∈ t.cutsAt p.dst 1) ∧
          (s.linkUp p.dst (oppLink link) = true → s.lost p.dst = false → t.noted p.dst cut link) ∧
          s.frameEv [.net] [R.NW_EVT, R.NW_NODE_STAT p.dst] t))) ∧
    (∀ p : Packet, s.firstIn p = false → exec (.nwMnote p) s = .next s) ∧
    -- NODE_LOST_SET
    (s.lost node = false →
      gives (.nodeLostSet node) s (fun t => t.lost node = true ∧ (∀ l < 4, t.linkUp node l = false) ∧
        s.only [.regs, .net, .ev, .out] t)) ∧
    (s.lost node = true → exec (.nodeLostSet node) s = .next s)

/-- R200–R202, R213, R216: a response completes the request of its requester and tag; without one it is discarded; one that came damaged, or
LINK_ERR, makes the host interface and the queue engines ask once more; NW_RSP_TMO ends what has waited longest. -/
def Obligations.NetworkResponses : Prop :=
  ∀ (s : State) (p : Packet),
    let hit := fun (o : Outst) => o.node == p.dst && o.port == p.dstPort.toNat && o.tag == p.tag.toNat
    let dom := s.domState (nodeDomain p.dst p.dstPort.toNat)
    let rsp := fun (c : Instr) (code : Nat) => p.cmd.toNat = code → s.firstIn p = true →
      (s.net.outst.find? hit = none ∨ dom = 0 ∨ dom = 1 ∨ dom = 5 →
        gives c s (fun t => t.net = (s.unboxed p).net ∧ (s.quietEvents → t.rb R.NW_EVT F.NW_EVT_RSP_DISC = true) ∧ s.frameEv [.net] [R.NW_EVT] t)) ∧
      (∀ o, s.net.outst.find? hit = some o → 2 ≤ dom → dom ≠ 5 → s.net.held = [] →
        (p.parOk = true → p.bad = false → (p.status.toNat ≠ 9 ∨ reissues o = false) → o.outside →
          gives c s (fun t => t.net = { (s.unboxed p).net with outst := s.net.outst.filter (fun q => !hit q) } ∧
            t.out = s.out ++ [.resp o.node o.port o.tag p.status.toNat (p.data.map (fun u => w32 u.toNat))] ∧ s.frame [.net, .out] [] t)) ∧
        (p.parOk = false → reissues o = false → o.outside →
          gives c s (fun t => t.net = { (s.unboxed p).net with outst := s.net.outst.filter (fun q => !hit q) } ∧
            .resp o.node o.port o.tag 9 (p.data.map (fun u => w32 u.toNat)) ∈ t.out ∧
            (s.quietEvents → t.rb R.NW_EVT F.NW_EVT_HDR_PAR = true) ∧ s.frameEv [.net, .faults] [R.NW_EVT, R.NW_ERR_LOG] t)) ∧
        (∀ tag, reissues o = true → s.noProbes → p.parOk = true → (p.status.toNat = 9 ∨ p.bad = true) →
          ({ s with net := { s.net with outst := s.net.outst.filter (fun q => !hit q) } } : State).freeTag o.req.src o.req.srcPort.toNat
            (some o.tag) = some tag →
          gives c s (fun t => (∃ x ∈ t.net.outst, x.node = o.req.src ∧ x.again = true ∧ x.req.cmd = o.req.cmd ∧ x.req.addr = o.req.addr ∧
            x.tag = tag ∧ x.tag ≠ o.tag ∧ x.key = o.key ∧ x.time = s.nclk) ∧ s.frame [.net] [] t)))
    -- RDATA, ACK, MRSP
    rsp (.nwRdata p) 0x20 ∧ rsp (.nwAck p) 0x21 ∧ rsp (.nwMrsp p) 0x33 ∧
    (s.firstIn p = false → exec (.nwRdata p) s = .next s ∧ exec (.nwAck p) s = .next s ∧ exec (.nwMrsp p) s = .next s) ∧
    -- RESPONSE_TIMEOUT
    (∀ o, s.net.outst.find? (fun o => (s.rg R.NW_RSP_TMO).toNat != 0 && decide (o.time + (s.rg R.NW_RSP_TMO).toNat ≤ s.nclk)) = some o →
      o.outside → s.net.held = [] →
      gives .responseTimeout s (fun t => t.net.outst = s.net.outst.erase o ∧ (∃ l, t.out = l ++ [.resp o.node o.port o.tag 12 []]) ∧
        { node := o.node, port := o.port, tag := o.tag, time := s.nclk + (s.rg R.NW_RSP_TMO).toNat } ∈ t.net.quar ∧
        (s.quietEvents → t.rb R.NW_EVT F.NW_EVT_TMO = true) ∧ s.frameEv [.net, .faults] [R.NW_EVT, R.NW_ERR_LOG] t)) ∧
    (s.rg R.NW_RSP_TMO = 0 → exec .responseTimeout s = .next s)

/-- R200, R201, R213, R218, R226, R227, R231, R232: memory requests at their target. -/
def Obligations.NetworkMemory : Prop :=
  ∀ (s : State) (p : Packet) (place : Nat → Nat), s.noProbes →
    -- RD of good words
    (s.memReq p 1 0 place → s.fwPasses p 0 p.addr.toNat true false → (∀ k < 4 * p.len.toNat, s.classAt (place k) = .good) →
      gives (.nwRd p) s (fun t => t.net.inbox = s.net.inbox.erase p ∧ s.frame [.net] [] t ∧
        s.answeredWith p (units4 ((List.range (4 * p.len.toNat)).map (fun k => s.rawAt (place k))) p.len.toNat) t)) ∧
    -- WR of whole words, and of part of one unit
    (∀ n, s.memReq p 2 0 place → s.fwPasses p 0 p.addr.toNat false true → s.unarmed → p.be = 0xFFFFFFFF →
      n = 4 * p.len.toNat →
      gives (.nwWr p 0) s (fun t => s.answered p 0 t ∧ t.net.inbox = s.net.inbox.erase p ∧ s.frame [.net, .mem, .syn, .sm] [] t ∧
        (∀ k < n, (∀ j, k < j → j < n → place j / 8 ≠ place k / 8) →
          t.rawAt (place k) = bitsOf (p.data.getD (k / 4) 0).toNat (64 * (k % 4)) 64 ∧ t.classAt (place k) = .good) ∧
        (∀ b, (∀ k < n, b / 8 ≠ place k / 8) → t.byteAt b = s.byteAt b))) ∧
    (s.memReq p 2 0 place → s.fwPasses p 0 p.addr.toNat false true → s.unarmed → p.len = 1 →
      (∀ k < 4, s.classAt (place k) = .good) →
      gives (.nwWr p 0) s (fun t => s.answered p 0 t ∧ t.net.inbox = s.net.inbox.erase p ∧ s.frame [.net, .mem, .syn, .sm] [] t ∧
        (∀ j < 32, (t.byteAt (place (j / 8) / 8 * 8 + j % 8)).toNat =
          if p.be.getLsbD j then bitsOf (p.data.getD 0 0).toNat (8 * j) 8 else (s.byteAt (place (j / 8) / 8 * 8 + j % 8)).toNat) ∧
        (∀ b, (∀ k < 4, b / 8 ≠ place k / 8) → t.byteAt b = s.byteAt b))) ∧
    -- WR that port A robs of its first word
    (s.memReq p 2 0 place → s.fwPasses p 0 p.addr.toNat false true → s.unarmed → p.be = 0xFFFFFFFF → p.len = 1 →
      gives (.nwWr p 15) s (fun t => s.answered p 1 t ∧ (∀ b, t.byteAt b = s.byteAt b) ∧
        t.rg R.SM_WL_CNT = (s.bump R.SM_WL_CNT F.SM_WL_CNT_COUNT 1).rg R.SM_WL_CNT ∧
        (s.quietEvents → t.rb R.SM_EVT F.SM_EVT_WRITE_LOST = true) ∧
        s.frameEv [.net, .freeCtr] [R.SM_WL_CNT, R.SM_EVT] t)) ∧
    -- ATOM_ADD
    (s.memReq p 3 0 place → s.fwPasses p 0 p.addr.toNat true true → s.unarmed → s.classAt (place 0) = .good →
      gives (.nwAtomAdd p false) s (fun t => s.answeredWith p [BitVec.ofNat 256 (s.rawAt (place 0))] t ∧ t.net.inbox = s.net.inbox.erase p ∧
        t.rawAt (place 0) = (s.rawAt (place 0) + (p.data.headD 0).toNat) % 2 ^ 64 ∧ s.bytesBut (place 0 / 8 * 8) 8 t ∧
        s.frame [.net, .mem, .syn, .sm] [] t)) ∧
    -- local memory waits for its PE, or LM_BUSY
    (∀ c, (c = .nwRd p ∧ s.memReq p 1 3 place) ∨ (c = .nwWr p 0 ∧ s.memReq p 2 3 place) ∨ (c = .nwAtomAdd p false ∧ s.memReq p 3 3 place) →
      (s.rb (R.AR_TILE_CFG (peTile (p.addr.toNat / 0x2000))) F.AR_TILE_CFG_LM_RING_EN = true →
        gives c s (fun t => t.arr.lmWait = s.arr.lmWait ++ [{ pkt := p, time := s.now }] ∧ t.net.inbox = s.net.inbox.erase p ∧
          s.frame [.arr, .net] [] t)) ∧
      (s.rb (R.AR_TILE_CFG (peTile (p.addr.toNat / 0x2000))) F.AR_TILE_CFG_LM_RING_EN = false →
        gives c s (fun t => s.answered p 5 t ∧ t.net.inbox = s.net.inbox.erase p ∧ s.frame [.net, .freeCtr] [] t))) ∧
    -- refusals: a damaged request, a domain that is not ON, the firewall, a command unknown
    (∀ c, (c = .nwRd p ∧ p.cmd.toNat = 1) ∨ (c = .nwWr p 0 ∧ p.cmd.toNat = 2) ∨ (c = .nwAtomAdd p false ∧ p.cmd.toNat = 3) →
      s.firstIn p = true → s.rangeOf p (memBytes p) = none →
      (p.parOk = true → p.bad = true → gives c s (fun t => s.answered p 9 t ∧ s.frame [.net, .freeCtr] [] t)) ∧
      (p.parOk = true → p.bad = false → s.seamTakes p (nodeDomain p.dst p.dstPort.toNat) = false →
        gives c s (fun t => s.answered p 4 t ∧ (s.quietEvents → t.rb R.NW_EVT F.NW_EVT_DOM_OFF = true) ∧
          s.frameEv [.net, .freeCtr] [R.NW_EVT] t)) ∧
      (p.parOk = true → p.bad = false → s.seamTakes p (nodeDomain p.dst p.dstPort.toNat) = true → tileNode p.dst = true → p.dstPort = 0 →
        s.fwPasses p 0 p.addr.toNat (p.cmd.toNat != 2) (p.cmd.toNat != 1) →
        gives c s (fun t => s.answered p 6 t ∧ s.frame [.net, .freeCtr] [] t)) ∧
      (p.parOk = true → p.bad = false → s.seamTakes p (nodeDomain p.dst p.dstPort.toNat) = true → tileNode p.dst = true → p.dstPort = 0 →
        ¬ s.fwPasses p 0 p.addr.toNat (p.cmd.toNat != 2) (p.cmd.toNat != 1) →
        gives c s (fun t => s.answered p 7 t ∧ (s.quietEvents → t.rb R.SC_EVT F.SC_EVT_FW_DENY = true) ∧
          s.frameEv [.net, .freeCtr] fwRegs t))) ∧
    (s.arrived p p.cmd.toNat → cmdKnown p.cmd.toNat = false →
      gives (.nwRd p) s (fun t => s.answered p 8 t ∧ s.frame [.net, .freeCtr] [] t)) ∧
    (s.firstIn p = false →
      exec (.nwRd p) s = .next s ∧ exec (.nwWr p 0) s = .next s ∧ exec (.nwAtomAdd p false) s = .next s)

/-- R50, R179, R201, R376, R503–R505: register requests and the position-critical requests. -/
def Obligations.NetworkRequests : Prop :=
  ∀ (s : State) (p : Packet), s.noProbes →
    -- REG_WR, MWR: the register's write, then OK; of GL_SCRATCH
    (∀ c, (c = .nwRegWr p ∧ s.regReq p 5 true) ∨ (c = .nwMwr p ∧ s.regReq p 0x32 true) →
      (((s.unboxed p).regWrite (s.whoOf p) p.addr.toNat (w32 (p.data.headD 0).toNat)).2 = true →
        exec c s = .next (((s.unboxed p).regWrite (s.whoOf p) p.addr.toNat (w32 (p.data.headD 0).toNat)).1.answerOk p [])) ∧
      (p.addr.toNat = R.GL_SCRATCH → s.blkHeld 0 = false →
        gives c s (fun t => t.rg R.GL_SCRATCH = w32 (p.data.headD 0).toNat ∧ s.answered p 0 t ∧ t.net.inbox = s.net.inbox.erase p ∧
          s.frame [.net] [R.GL_SCRATCH] t))) ∧
    -- REG_RD, MRD
    (∀ c, (c = .nwRegRd p ∧ s.regReq p 4 false) ∨ (c = .nwMrd p ∧ s.regReq p 0x31 false) →
      exec c s = .next (((s.unboxed p).regRead (s.whoOf p) p.addr.toNat).1.answerOk p
        [BitVec.ofNat 256 ((s.unboxed p).regRead (s.whoOf p) p.addr.toNat).2.toNat]) ∧
      (p.addr.toNat = R.GL_SCRATCH →
        gives c s (fun t => s.answeredWith p [BitVec.ofNat 256 (s.rg R.GL_SCRATCH).toNat] t ∧ t.net.inbox = s.net.inbox.erase p ∧
          s.frame [.net] [] t))) ∧
    -- a misaligned or unbacked offset, a domain that is not ON
    (∀ c, (c = .nwRegRd p ∧ s.arrived p 4) ∨ (c = .nwRegWr p ∧ s.arrived p 5) → p.dstPort = 1 → regNode p.dst = false → s.mkHolds p (p.cmd.toNat == 5) = false →
      gives c s (fun t => s.answered p 8 t ∧ s.frame [.net, .freeCtr] [] t)) ∧
    (∀ c, (c = .nwRegRd p ∧ s.arrived p 4) ∨ (c = .nwRegWr p ∧ s.arrived p 5) → p.dstPort = 1 → regNode p.dst = true → p.addr.toNat < 0x6F0000 →
      s.fwPasses p 1 p.addr.toNat (p.cmd.toNat == 4) (p.cmd.toNat == 5) →
      (p.addr.toNat % 4 ≠ 0 ∨ p.be ≠ 0xF ∨ backed p.addr.toNat = false → gives c s (fun t => s.answered p 6 t ∧ s.frame [.net, .freeCtr] [] t))) ∧
    -- KICK
    (∀ q, q = p.addr.toNat % 0x1000 → s.arrived p 0x10 → tileNode p.dst = true → p.dstPort = 2 →
      s.domOn (nodeDomain p.dst p.dstPort.toNat) = true →
      (q < 1024 → s.engineNode q = p.dst → s.rb (R.SQ_Q_CFG q) F.SQ_Q_CFG_EN = true → s.rb (R.SQ_Q_CFG q) F.SQ_Q_CFG_GATED = true →
        gives (.nwKick p) s (fun t => s.answered p 0 t ∧ t.net.inbox = s.net.inbox.erase p ∧ s.frame [.net] [R.SQ_Q_KICK q] t ∧
          t.rf (R.SQ_Q_KICK q) F.SQ_Q_KICK_CREDIT =
            min 0xFFFF (s.rf (R.SQ_Q_KICK q) F.SQ_Q_KICK_CREDIT + s.rf (R.SQ_Q_KICK q) F.SQ_Q_KICK_KICK_N))) ∧
      ((1024 ≤ q ∨ s.engineNode q ≠ p.dst ∨ s.rb (R.SQ_Q_CFG q) F.SQ_Q_CFG_EN = false ∨ s.rb (R.SQ_Q_CFG q) F.SQ_Q_CFG_GATED = false) →
        gives (.nwKick p) s (fun t => s.answered p 0 t ∧ (s.quietEvents → t.rb R.SQ_EVT F.SQ_EVT_KICK_IGN = true) ∧
          s.frameEv [.net] [R.SQ_EVT] t))) ∧
    -- PEVT
    (s.arrived p 0x11 → p.dst = 6 → p.dstPort = 0 → s.domOn (nodeDomain p.dst p.dstPort.toNat) = true →
      ∀ src, src = (p.data.headD 0).toNat % 2048 → src < 1024 →
      gives (.nwPevt p) s (fun t => s.answered p 0 t ∧ t.net.inbox = s.net.inbox.erase p ∧
        (s.quietEvents → (t.rg (R.EV_MK_PEND (src / 32))).toNat.testBit (src % 32) = true) ∧
        s.frameEv [.net] [R.EV_MK_PEND (src / 32)] t)) ∧
    -- LSEND to all devices, AXS
    (p.dst = 111 ∨ p.dst = 112 → p.dstPort = 0 → s.domOn (nodeDomain p.dst p.dstPort.toNat) = true →
      (s.arrived p 0x12 → (p.data.headD 0).getLsbD 6 = true →
        gives (.nwLsend p) s (fun t => s.answered p 0 t ∧ t.net.inbox = s.net.inbox.erase p ∧
          (s.lcUp 0 = true → ∃ l, Out.lace 0 3 l ∈ t.out) ∧ s.frame [.net, .lc, .out] [] t)) ∧
      (s.arrived p 0x12 → (p.data.headD 0).getLsbD 6 = false → s.lcRoute ((p.data.headD 0).toNat % 64) = none →
        gives (.nwLsend p) s (fun t => s.answered p 11 t ∧ s.frame [.net, .freeCtr] [] t)) ∧
      (s.arrived p 0x13 →
        gives (.nwAxs p) s (fun t => s.answered p 0 t ∧ t.net.inbox = s.net.inbox.erase p ∧
          (s.lcUp 0 = true → ∃ l, Out.lace 0 1 l ∈ t.out) ∧ s.frame [.net, .lc, .out] [] t))) ∧
    -- PROBE_CLR, DB_BLK_RST
    (∀ k : Fin 16, gives (.probeClr k) s (fun t => t.rg (R.DB_PRB_PKTS k) = 0 ∧ t.rg64 (R.DB_PRB_BYTES_LO k) (R.DB_PRB_BYTES_HI k) = 0 ∧
      (∀ b < 16, t.rg (R.DB_PRB_HIST k b) = 0) ∧
      s.frameR (R.DB_PRB_PKTS k :: R.DB_PRB_BYTES_LO k :: R.DB_PRB_BYTES_HI k :: (List.range 16).map (R.DB_PRB_HIST k)) t)) ∧
    (s.blkHeld 22 = true → exec .dbBlkRst s = .next s) ∧
    (s.blkHeld 22 = false → gives .dbBlkRst s (fun t => s.blockReset .run 0x6D0000 0x6E0000 [] t ∧ t.net = { s.net with trace := [], hiLatch := [] } ∧
      s.only [.regs, .net] t)) ∧
    -- REGISTER_WRITE
    (∀ (a : BitVec 24) (v : Word), a.toNat < 0x6F0000 → a.toNat % 4 = 0 → backed a.toNat = true → inUwin a.toNat = false →
      s.domOn (blockDomain (blockOf a.toNat)) = true →
      exec (.registerWrite a v) s = .next (s.regWrite { pid := 0, core := false, rom := false } a.toNat v).1 ∧
      (a.toNat = R.GL_SCRATCH → s.blkHeld 0 = false →
        gives (.registerWrite a v) s (fun t => t.rg R.GL_SCRATCH = v ∧ s.frameR [R.GL_SCRATCH] t))) ∧
    (∀ (a : BitVec 24) (v : Word), (0x6F0000 ≤ a.toNat ∨ a.toNat % 4 ≠ 0 ∨ backed a.toNat = false) → exec (.registerWrite a v) s = .next s)

/-- R228, R230, R231, R233, R236, R240–R243: corrections are written back, uncorrectable words found by a scrubber are poisoned, a range scrub
runs a beat of four words at a time and leaves its summary, a background scrubber reads one word at a time and counts a late pass, a fill
leaves zeros. -/
def Obligations.StreamMemoryUpkeep : Prop :=
  ∀ s : State,
    -- CORRECTION_WRITEBACK
    (∀ a r, s.sm.wbq = a :: r →
      gives .correctionWriteback s (fun t => t.rawAt a = s.fixedAt a ∧ t.classAt a = .good ∧ a / 8 * 8 ∉ t.sm.wbq ∧
        s.bytesBut (a / 8 * 8) 8 t ∧ s.frame [.mem, .syn, .sm] [] t)) ∧
    (s.sm.wbq = [] → exec .correctionWriteback s = .next s) ∧
    -- SCRUB_POISON_WRITE
    (∀ a r, s.sm.poison = a :: r →
      gives .scrubPoisonWrite s (fun t => t.rawAt a = 0 ∧ t.classAt a = .poison ∧ a / 8 * 8 ∉ t.sm.poison ∧ s.bytesBut (a / 8 * 8) 8 t ∧
        (s.quietEvents → t.rb R.SM_EVT F.SM_EVT_POISONED = true) ∧
        (s.quietEvents → groupOf a = 4 → t.rb R.PL_EVT F.PL_EVT_PLEAT_ERR = true) ∧
        s.frameEv [.mem, .syn, .sm] [R.SM_EVT, R.PL_EVT] t)) ∧
    (s.sm.poison = [] → exec .scrubPoisonWrite s = .next s) ∧
    -- SCRUB_GO
    (s.sm.scrub = none → s.rf R.SM_SCR_CFG F.SM_SCR_CFG_GROUP ≠ 3 →
      gives .scrubGo s (fun t => t.sm = { s.sm with scrub := some (Scrub.mk (s.rf R.SM_SCR_CFG F.SM_SCR_CFG_GROUP)
          (s.rg64 R.SM_SCR_START_LO R.SM_SCR_START_HI / 8 * 8) (s.rg64 R.SM_SCR_END_LO R.SM_SCR_END_HI) false none []) } ∧
        t.rg R.SM_SCR_STAT = 1 ∧ t.rg R.SM_SCR_SUM_READ = 0 ∧ t.rg R.SM_SCR_SUM_CE = 0 ∧ t.rg R.SM_SCR_SUM_UE = 0 ∧
        s.frame [.sm] [R.SM_SCR_STAT, R.SM_SCR_SUM_READ, R.SM_SCR_SUM_CE, R.SM_SCR_SUM_UE, R.SM_SCR_FIRST_LO, R.SM_SCR_FIRST_HI,
          R.SM_SCR_LAST_LO, R.SM_SCR_LAST_HI] t)) ∧
    (s.sm.scrub.isSome = true ∨ s.rf R.SM_SCR_CFG F.SM_SCR_CFG_GROUP = 3 → exec .scrubGo s = .next s) ∧
    -- SCRUB_ABORT
    (∀ k, s.sm.scrub = some k →
      gives .scrubAbort s (fun t => t.sm.scrub = none ∧ t.rg R.SM_SCR_STAT = w32 (2 * b2n k.bad.isNone + 4) ∧
        t.rg64 R.SM_SCR_FIRST_LO R.SM_SCR_FIRST_HI = (k.bad.getD (0, 0)).1 % 2 ^ 64 ∧
        t.rg64 R.SM_SCR_LAST_LO R.SM_SCR_LAST_HI = (k.bad.getD (0, 0)).2 % 2 ^ 64 ∧
        (s.quietEvents → t.rb R.SM_EVT F.SM_EVT_SCR_DONE = true) ∧
        s.frameEv [.sm] [R.SM_SCR_STAT, R.SM_SCR_FIRST_LO, R.SM_SCR_FIRST_HI, R.SM_SCR_LAST_LO, R.SM_SCR_LAST_HI, R.SM_EVT] t)) ∧
    (s.sm.scrub = none → exec .scrubAbort s = .next s ∧ exec .scrubBeat s = .next s) ∧
    -- SCRUB_BEAT: four good words; the end of the range
    (∀ k, s.sm.scrub = some k →
      (∃ p, s.scrubPlace k k.next = some p ∧ (s.filling p = true ∨ k.group = 0 ∧ s.smbRangeHeld k.next 32 = true)) →
      exec .scrubBeat s = .next s) ∧
    (∀ k, s.sm.scrub = some k → k.next + 32 ≤ k.last → s.sm.fills = [] → s.sm.run = none →
      (∀ i < 4, ∃ a, s.scrubPlace k (k.next + 8 * i) = some a ∧ s.classAt a = .good) →
      gives .scrubBeat s (fun t => t.sm = { s.sm with scrub := some { k with next := k.next + 32 } } ∧
        t.rg R.SM_SCR_SUM_READ = (s.bump R.SM_SCR_SUM_READ F.SM_SCR_SUM_READ_COUNT 4).rg R.SM_SCR_SUM_READ ∧
        s.frame [.sm] [R.SM_SCR_SUM_READ] t)) ∧
    (∀ k, s.sm.scrub = some k → k.last < k.next → s.sm.fills = [] → s.sm.run = none →
      gives .scrubBeat s (fun t => t.sm.scrub = none ∧ t.rg R.SM_SCR_STAT = w32 (2 * b2n k.bad.isNone + 4 * b2n k.stop) ∧
        (s.quietEvents → t.rb R.SM_EVT F.SM_EVT_SCR_DONE = true) ∧
        s.frameEv [.sm] [R.SM_SCR_STAT, R.SM_SCR_FIRST_LO, R.SM_SCR_FIRST_HI, R.SM_SCR_LAST_LO, R.SM_SCR_LAST_HI, R.SM_EVT] t)) ∧
    -- BGS_WORD: a good word, a corrected one, an uncorrectable one
    (∀ (g : Fin 2) a, a = (if g.val = 0 then memCore else memPleat) + (s.bgsOf g).next / 8 * 8 → (s.bgsOf g).next % 8 = 0 →
      s.rb (R.SM_BGS_CFG (3 + g.val)) F.SM_BGS_CFG_EN = true → (s.bgsOf g).done = false → s.filling a = false →
      (s.classAt a = .good → (s.bgsOf g).next + 8 < 0x80000 →
        gives (.bgsWord g) s (fun t => t.bgsOf g = { s.bgsOf g with next := (s.bgsOf g).next + 8 } ∧ s.frame [.sm] [] t)) ∧
      (∀ b, s.classAt a = .corrected b →
        gives (.bgsWord g) s (fun t => a ∈ t.sm.wbq ∧
          t.rg (R.SM_CE_CNT (groupOf a)) = (s.bump (R.SM_CE_CNT (groupOf a)) F.SM_CE_CNT_COUNT 1).rg (R.SM_CE_CNT (groupOf a)) ∧
          (s.quietEvents → t.rb R.SM_EVT F.SM_EVT_CE = true) ∧ s.only [.regs, .sm, .ev, .out] t)) ∧
      (s.classAt a = .uncorrectable →
        gives (.bgsWord g) s (fun t => a ∈ t.sm.poison ∧ t.faults = s.faults ++ [{ det := 2, elems := s.elemOf a, time := s.now }] ∧
          t.rg (R.SM_UE_CNT (groupOf a)) = (s.bump (R.SM_UE_CNT (groupOf a)) F.SM_UE_CNT_COUNT 1).rg (R.SM_UE_CNT (groupOf a)) ∧
          s.only [.regs, .sm, .faults, .ev, .out] t))) ∧
    (∀ g : Fin 2, s.rb (R.SM_BGS_CFG (3 + g.val)) F.SM_BGS_CFG_EN = false → exec (.bgsWord g) s = .next s ∧ exec (.bgsLate g) s = .next s) ∧
    -- BGS_LATE
    (∀ g : Fin 2, s.rb (R.SM_BGS_CFG (3 + g.val)) F.SM_BGS_CFG_EN = true →
      (s.bgsOf g).start + 500000 * s.rf (R.SM_BGS_CFG (3 + g.val)) F.SM_BGS_CFG_PERIOD ≤ s.now →
      ((s.bgsOf g).done = true →
        gives (.bgsLate g) s (fun t => t.bgsOf g = { s.bgsOf g with done := false, start := s.now } ∧ s.frame [.sm] [] t)) ∧
      ((s.bgsOf g).done = false →
        gives (.bgsLate g) s (fun t => t.bgsOf g = { s.bgsOf g with start := s.now } ∧
          (s.quietEvents → t.rb R.SM_EVT F.SM_EVT_BGS_LATE = true) ∧ s.frameEv [.sm] [R.SM_EVT] t))) ∧
    -- MEMORY_FILL_DONE
    (∀ f r, s.sm.fills = f :: r →
      gives .memoryFillDone s (fun t => t.sm.fills = r ∧
        (∀ q ∈ f.ranges, ∀ b, q.1 ≤ b → b < q.2 → t.byteAt b = memDefault b) ∧
        (∀ b, (∀ q ∈ f.ranges, ¬ (q.1 ≤ b ∧ b < q.2)) → t.byteAt b = s.byteAt b) ∧
        (f.dom = none → s.frame [.mem, .syn, .sm] [] t) ∧
        (∀ d, f.dom = some d → d < 17 → t.domState d = 2 ∧ t.rs = { s.rs with dom := none } ∧
          (s.quietEvents → t.rb R.PW_EVT F.PW_EVT_DOM_DONE = true) ∧ s.frameEv [.mem, .syn, .sm, .rs] [R.PW_DOM_STAT d, R.PW_EVT] t))) ∧
    (s.sm.fills = [] → exec .memoryFillDone s = .next s) ∧
    -- SM_BLK_RST
    (s.blkHeld 9 = true → exec .smBlkRst s = .next s) ∧
    (∀ p, s.blkHeld 9 = false → s.sm.run = none → s.net.inbox.filter (fun p => tileNode p.dst && p.dstPort == 0 && !isResponse p.cmd.toNat) = [p] →
      p.parOk = true → p.cmd.toNat = 1 → (s.smbJudge p).2 = 0 → s.noProbes →
      gives .smBlkRst s (fun t => s.answered p 9 t ∧ t.net.inbox = s.net.inbox.erase p)) ∧
    (s.blkHeld 9 = false → s.sm.run = none → (∀ p ∈ s.net.inbox, tileNode p.dst = true → p.dstPort = 0 → isResponse p.cmd.toNat = true) →
      gives .smBlkRst s (fun t => s.blockReset .block 0x380000 0x400000 [] t ∧ s.only [.regs, .sm] t ∧
        t.sm = { s.sm with scrub := none, wbq := [], poison := [], fills := s.sm.fills ++ (if s.rb R.SM_CTRL F.SM_CTRL_FILL_ON_RST then
          [{ ranges := [(memSMB, memSMB + 0x3000000), (memSpare, memSpare + 1024 * 96)], dom := none }] else []) }))

/-- R238, R239: repairs of stream memory rows. A repair that has no spare row left, or that its kind or a running one forbids, is refused with its
status and changes nothing else; another copies the row and then serves it. -/
def Obligations.SpareRows : Prop :=
  ∀ (s : State) (bank : Fin 96) (row : Fin 4096),
    let temp := s.sm.repairs.find? (fun r => r.bank == bank.val && r.row == row.val && decide (r.kind = .temp))
    let refused := fun (st : Nat) (t : State) => t.rf R.SM_REPAIR_STAT F.SM_REPAIR_STAT_STATUS = st ∧
      (s.quietEvents → t.rb R.SM_EVT F.SM_EVT_REPAIR_FAIL = true) ∧ s.frameEv [] [R.SM_REPAIR_STAT, R.SM_EVT] t
    let started := fun (r : RepairRun) (t : State) => t.sm = { s.sm with run := some r } ∧ t.rg R.SM_REPAIR_STAT = 1 ∧
      s.frame [.sm] [R.SM_REPAIR_STAT] t
    -- SOFT
    (temp = none → s.freeSpare bank = none → gives (.repairSoft bank row) s (refused 1)) ∧
    ((temp.isSome = true ∨ (s.freeSpare bank).isSome = true) → 2 ≤ (s.repairsOf bank .soft).length → gives (.repairSoft bank row) s (refused 2)) ∧
    ((temp.isSome = true ∨ (s.freeSpare bank).isSome = true) → (s.repairsOf bank .soft).length < 2 → s.sm.run.isSome = true →
      gives (.repairSoft bank row) s (refused 5)) ∧
    (∀ i, temp = none → s.freeSpare bank = some i → (s.repairsOf bank .soft).length < 2 → s.sm.run = none →
      gives (.repairSoft bank row) s (started { bank := bank, row := row, spare := i, kind := .soft, back := false })) ∧
    (∀ r, temp = some r → (s.repairsOf bank .soft).length < 2 → s.sm.run = none →
      gives (.repairSoft bank row) s (fun t =>
        t.sm = { s.sm with repairs := s.sm.repairs.map (fun q => if q = r then { q with kind := .soft } else q) } ∧
        t.rg R.SM_REPAIR_STAT = 0 ∧ (s.quietEvents → t.rb R.SM_EVT F.SM_EVT_REPAIR_DONE = true) ∧
        s.frameEv [.sm] [R.SM_REPAIR_STAT, R.SM_SPARE_STAT bank, R.SM_SOFT_MAP bank 0, R.SM_SOFT_MAP bank 1, R.SM_EVT] t)) ∧
    -- TEMP
    (s.freeSpare bank = none → gives (.repairTemp bank row) s (refused 1)) ∧
    ((s.freeSpare bank).isSome = true → 1 ≤ (s.repairsOf bank .temp).length → gives (.repairTemp bank row) s (refused 3)) ∧
    (∀ i, s.freeSpare bank = some i → s.repairsOf bank .temp = [] → s.sm.run = none →
      gives (.repairTemp bank row) s (started { bank := bank, row := row, spare := i, kind := .temp, back := false })) ∧
    -- REPAIR_RELEASE
    (temp = none → gives (.repairRelease bank row) s (refused 4)) ∧
    (∀ r, temp = some r → s.sm.run.isSome = true → gives (.repairRelease bank row) s (refused 5)) ∧
    (∀ r, temp = some r → s.sm.run = none →
      gives (.repairRelease bank row) s (started { bank := bank, row := row, spare := r.spare, kind := .temp, back := true })) ∧
    -- REPAIR_COPY_DONE of a row of good words
    (∀ r src dst, s.sm.run = some r → r.row < 4096 →
      src = (if r.back then memSpare + 1024 * r.bank + 128 * r.spare else s.smbPlace (0x80000 * r.bank + 128 * r.row)) →
      dst = (if r.back then s.ownPlace r.bank r.row else memSpare + 1024 * r.bank + 128 * r.spare) →
      (∀ w < 16, s.classAt (src + 8 * w) = .good) →
      gives .repairCopyDone s (fun t => (∀ w < 16, t.rawAt (dst + 8 * w) = s.rawAt (src + 8 * w)) ∧ s.bytesBut dst 128 t ∧ t.sm.run = none ∧
        (r.back = false → t.smbPlace (0x80000 * r.bank + 128 * r.row) = dst) ∧
        (r.back = true → ∀ q ∈ t.sm.repairs, ¬ (q.bank = r.bank ∧ q.row = r.row ∧ q.kind = .temp)) ∧
        t.rg R.SM_REPAIR_STAT = 0 ∧ (s.quietEvents → t.rb R.SM_EVT F.SM_EVT_REPAIR_DONE = true) ∧
        s.frameEv [.mem, .syn, .sm] [R.SM_REPAIR_STAT, R.SM_SPARE_STAT r.bank, R.SM_SOFT_MAP r.bank 0, R.SM_SOFT_MAP r.bank 1, R.SM_EVT] t)) ∧
    (s.sm.run = none → exec .repairCopyDone s = .next s)

/-- R249, R252, R253, R255–R257, R259, R260, R270, R271: the fabric's monitor, clocks, block RAM, timers and capture. Bit k of the word of a
block RAM access is bit `lo + k` of the block's data; of two writes to one word in a cycle port A's stands. -/
def Obligations.FabricParts : Prop :=
  ∀ s : State,
    -- TL_CONTENTION, TL_CONTENTION_END
    (∀ (l : Fin 128) (d : BitVec 8) (z : Bool),
      (d.toNat < 2 → exec (.tlContention l d z) s = .next s) ∧
      (2 ≤ d.toNat → s.rb (R.FB_TL_CFG (l.val / 16)) F.FB_TL_CFG_EN = true → (s.tline l).rel = true → exec (.tlContention l d z) s = .next s) ∧
      (2 ≤ d.toNat → s.rb (R.FB_TL_CFG (l.val / 16)) F.FB_TL_CFG_EN = true → (s.tline l).rel = false →
        gives (.tlContention l d z) s (fun t => t.tline l = { s.tline l with rel := true } ∧ (∀ k, k ≠ l.val → t.tline k = s.tline k) ∧
          t.rg R.FB_TL_CNT = (s.bump R.FB_TL_CNT F.FB_TL_CNT_COUNT 1).rg R.FB_TL_CNT ∧ t.rf R.FB_TL_LOG F.FB_TL_LOG_LINE = l.val ∧
          (s.quietEvents → t.rb R.FB_EVT F.FB_EVT_CONTENTION = true) ∧ s.frameEv [.fb] [R.FB_TL_CNT, R.FB_TL_LOG, R.FB_EVT] t)) ∧
      (2 ≤ d.toNat → s.rb (R.FB_TL_CFG (l.val / 16)) F.FB_TL_CFG_EN = false →
        gives (.tlContention l d z) s (fun t => t.tline l = { keep := !z, rel := false } ∧ (∀ k, k ≠ l.val → t.tline k = s.tline k) ∧
          s.frame [.fb] [] t)) ∧
      (∀ x : Option Bool, gives (.tlContentionEnd l x) s (fun t => t.tline l = { keep := x.getD (s.tline l).keep, rel := false } ∧
        (∀ k, k ≠ l.val → t.tline k = s.tline k) ∧ s.frame [.fb] [] t))) ∧
    -- PLL_LOCK_LOSS, PLL_LOCK
    (∀ p : Fin 4,
      (s.rb (R.FB_PLL_STAT p) F.FB_PLL_STAT_LOCK = true →
        gives (.pllLockLoss p) s (fun t => t.rb (R.FB_PLL_STAT p) F.FB_PLL_STAT_LOCK = false ∧
          (s.quietEvents → t.rb R.FB_EVT F.FB_EVT_PLL_UNLOCK = true) ∧ s.frameEv [] [R.FB_PLL_STAT p, R.FB_EVT] t)) ∧
      (s.rb (R.FB_PLL_STAT p) F.FB_PLL_STAT_LOCK = false → exec (.pllLockLoss p) s = .next s) ∧
      (s.rb (R.FB_PLL_CFG p) F.FB_PLL_CFG_RST = false →
        gives (.pllLock p) s (fun t => t.rb (R.FB_PLL_STAT p) F.FB_PLL_STAT_LOCK = true ∧ s.frameR [R.FB_PLL_STAT p] t)) ∧
      (s.rb (R.FB_PLL_CFG p) F.FB_PLL_CFG_RST = true → exec (.pllLock p) s = .next s)) ∧
    -- CLOCK_MUX_SELECT, CLOCK_MUX_TIMEOUT
    (∀ (m sel : Nat) (live : Bool) (falls : Fin 3),
      let k := s.cmux m
      gives (.clockMuxSelect m sel live falls) s (fun t => s.frame [.fb] [] t ∧ (∀ j, j ≠ m → t.cmux j = s.cmux j) ∧
        (k.goal = none → sel = k.cur → t.cmux m = k) ∧
        (k.goal = none → sel ≠ k.cur → live = false → t.cmux m = { k with goal := some sel, low := false, fell := 0, edge := s.now }) ∧
        (k.goal = none → sel ≠ k.cur → live = true → falls.val < 2 →
          t.cmux m = { k with goal := some sel, low := true, fell := falls, edge := s.now }) ∧
        (k.goal = none → sel ≠ k.cur → live = true → falls.val = 2 → k.pend = none → t.cmux m = { ClkMux.idle with cur := sel, edge := s.now }) ∧
        (k.goal.isSome = true → k.low = false → live = false → t.cmux m = { k with pend := some sel })) ∧
      (∀ n, k.goal = some n → k.low = false → k.edge + 500 ≤ s.now → k.fell + falls.val = 2 →
        gives (.clockMuxTimeout m falls) s (fun t => (∀ j, j ≠ m → t.cmux j = s.cmux j) ∧ s.frame [.fb] [] t ∧
          (k.pend = none → t.cmux m = { ClkMux.idle with cur := n, edge := s.now }) ∧
          (∀ p, k.pend = some p → p ≠ n →
            t.cmux m = { cur := n, goal := some p, low := false, fell := 0, pend := none, edge := s.now }))) ∧
      ((k.goal = none ∨ k.low = true ∨ s.now < k.edge + 500) → exec (.clockMuxTimeout m falls) s = .next s)) ∧
    -- BRAM_PORT_ACCESS: a read and a write of one port, then two writes to the same words
    (∀ (blk : Fin 240) (port : Fin 2) (x : BramAcc),
      let acc := if port.val = 0 then Instr.bramPortAccess blk (some x) none else Instr.bramPortAccess blk none (some x)
      (∀ w ∈ x.words, s.classAt (bramPlace blk w) = .good) → s.filling (bramPlace blk 0) = false →
      (x.we = false → 1 ≤ s.fbStage → (port.val = 1 ∨ x.width ≠ 6) →
        gives acc s (fun t => (t.bport (2 * blk.val + port.val)).err = false ∧
          (∀ k < x.w, (t.bport (2 * blk.val + port.val)).dout.testBit k =
            (s.rawAt (bramPlace blk ((x.lo + k) / 64))).testBit ((x.lo + k) % 64)) ∧
          (∀ k, k ≠ 2 * blk.val + port.val → t.bport k = s.bport k) ∧ s.frame [.fb] [] t)) ∧
      (x.we = true → 2 ≤ s.fbStage → (port.val = 0 ∨ x.width ≠ 6) → s.unarmed →
        gives acc s (fun t => (∀ k < x.w, (t.rawAt (bramPlace blk ((x.lo + k) / 64))).testBit ((x.lo + k) % 64) = x.data.getLsbD k) ∧
          (∀ b < 64 * 0x400, ¬ (x.lo ≤ b ∧ b < x.lo + x.w) →
            (t.rawAt (bramPlace blk (b / 64))).testBit (b % 64) = (s.rawAt (bramPlace blk (b / 64))).testBit (b % 64)) ∧
          (∀ b, b < bramPlace blk 0 ∨ bramPlace blk 0x400 ≤ b → t.byteAt b = s.byteAt b) ∧
          (∀ k, k ≠ 2 * blk.val + port.val → t.bport k = s.bport k) ∧ s.frame [.fb, .mem, .syn, .sm] [] t))) ∧
    (∀ (blk : Fin 240) (x y : BramAcc) w, x.we = true → y.we = true → x.words = [w] → y.words = [w] → y.width ≠ 6 → 2 ≤ s.fbStage →
      s.classAt (bramPlace blk w) = .good → s.filling (bramPlace blk 0) = false → s.unarmed →
      gives (.bramPortAccess blk (some x) (some y)) s (fun t =>
        (∀ k < x.w, (t.rawAt (bramPlace blk w)).testBit ((x.lo + k) % 64) = x.data.getLsbD k) ∧
        (∀ k < 64, (∀ j < x.w, (x.lo + j) % 64 ≠ k) → (t.rawAt (bramPlace blk w)).testBit k = (s.rawAt (bramPlace blk w)).testBit k) ∧
        (t.bport (2 * blk.val + 1)).coll = true ∧ t.rg R.FB_COLL_CNT = (s.bump R.FB_COLL_CNT F.FB_COLL_CNT_COUNT 1).rg R.FB_COLL_CNT ∧
        s.bytesBut (bramPlace blk w) 8 t ∧ s.frame [.fb, .mem, .syn, .sm] [R.FB_COLL_CNT] t)) ∧
    -- TIMER_MATCH, TIMER_CAPTURE
    (∀ (k : Fin 32) (e : Word),
      (s.rb (R.FB_TMR_CFG k) F.FB_TMR_CFG_EN = false ∨ s.fbStage < 2 → exec (.timerMatch k e) s = .next s) ∧
      (∀ n, n = (Tab.get (fun _ => 0) s.fb.presc k + e.toNat) / (s.rf (R.FB_TMR_CFG k) F.FB_TMR_CFG_PRESC + 1) →
        s.rb (R.FB_TMR_CFG k) F.FB_TMR_CFG_EN = true → 2 ≤ s.fbStage →
        gives (.timerMatch k e) s (fun t => t.rg (R.FB_TMR_CNT k) = s.rg (R.FB_TMR_CNT k) + w32 n ∧
          Tab.get (fun _ => 0) t.fb.presc k =
            (Tab.get (fun _ => 0) s.fb.presc k + e.toNat) % (s.rf (R.FB_TMR_CFG k) F.FB_TMR_CFG_PRESC + 1) ∧
          t.out = s.out ++ (if (s.rg (R.FB_TMR_CMP k) - s.rg (R.FB_TMR_CNT k) - 1).toNat < n ∨
            (s.rg (R.FB_TMR_CMP k) = s.rg (R.FB_TMR_CNT k) ∧ k.val ∉ s.fb.tmrHit) then [.fabric 0 k 1] else []) ∧
          (k.val ∈ t.fb.tmrHit ↔ t.rg (R.FB_TMR_CNT k) = s.rg (R.FB_TMR_CMP k)) ∧
          s.frame [.fb, .out] [R.FB_TMR_CNT k] t))) ∧
    (∀ (k : Fin 32) (c : Bool),
      ((c = true ∨ k.val ∈ s.fb.tmrTrig) → (s.domOn 10 = false ∨ s.domOn 11 = false ∨ s.fbStage < 2) →
        exec (.timerCapture k c) s = .next { s with fb := { s.fb with tmrTrig := s.fb.tmrTrig.erase k.val } }) ∧
      ((c = true ∨ k.val ∈ s.fb.tmrTrig) → s.domOn 10 = true → s.domOn 11 = true → 2 ≤ s.fbStage → s.rb (R.FB_TMR_CFG k) F.FB_TMR_CFG_CAP_VALID = false →
        gives (.timerCapture k c) s (fun t => t.rg (R.FB_TMR_CAP k) = s.rg (R.FB_TMR_CNT k) ∧
          t.rb (R.FB_TMR_CFG k) F.FB_TMR_CFG_CAP_VALID = true ∧
          t.rf (R.FB_TMR_CFG k) F.FB_TMR_CFG_CAP_SRC = b2n (s.fb.tmrTrig.contains k.val) + 2 * b2n c ∧
          t.fb = { s.fb with tmrTrig := s.fb.tmrTrig.erase k.val } ∧ s.frame [.fb] [R.FB_TMR_CAP k, R.FB_TMR_CFG k] t)) ∧
      ((c = true ∨ k.val ∈ s.fb.tmrTrig) → s.domOn 10 = true → s.domOn 11 = true → 2 ≤ s.fbStage →
        s.rb (R.FB_TMR_CFG k) F.FB_TMR_CFG_CAP_VALID = true →
        gives (.timerCapture k c) s (fun t => t.rb (R.FB_TMR_CFG k) F.FB_TMR_CFG_CAP_OVR = true ∧ t.rg (R.FB_TMR_CAP k) = s.rg (R.FB_TMR_CAP k) ∧
          (s.quietEvents → t.rb R.FB_EVT F.FB_EVT_TMR_OVR = true) ∧ s.frameEv [.fb] [R.FB_TMR_CFG k, R.FB_EVT] t)) ∧
      (c = false → k.val ∉ s.fb.tmrTrig → exec (.timerCapture k c) s = .next s)) ∧
    -- CAP_ARM, CAP_CANCEL, FF_CAPTURE_TAKE
    gives .capArm s (fun t => t.rb R.FB_CAP_STAT F.FB_CAP_STAT_ARMED = true ∧ t.rb R.FB_CAP_STAT F.FB_CAP_STAT_TAKEN = false ∧
      t.fb = { s.fb with capTrig := s.rf R.FB_CAP_CFG F.FB_CAP_CFG_TRIG == 0 } ∧ s.frame [.fb] [R.FB_CAP_STAT] t) ∧
    gives .capCancel s (fun t => t.rb R.FB_CAP_STAT F.FB_CAP_STAT_ARMED = false ∧ t.fb = { s.fb with capTrig := false } ∧
      s.frame [.fb] [R.FB_CAP_STAT] t) ∧
    (∀ (tap : BitVec 7) (edge : BitVec 16) (plane : List Word),
      (s.rb R.FB_CAP_STAT F.FB_CAP_STAT_ARMED = true → (s.fb.capTrig = true ∨ s.rf R.FB_CAP_CFG F.FB_CAP_CFG_TRIG = 2) →
        edge.toNat = max 1 (s.rf R.FB_CAP_CFG F.FB_CAP_CFG_DELAY) →
        gives (.ffCaptureTake tap edge plane) s (fun t => { t.fb with shadow := s.fb.shadow } = { s.fb with capTrig := false, ffs := plane } ∧
          t.fb.shadow.length = plane.length ∧ (∀ i < plane.length, t.fb.shadow.getD i 0 = s.ffWith i (plane.getD i 0)) ∧
          t.rg64 R.FB_CAP_TIME_LO R.FB_CAP_TIME_HI = s.now % 2 ^ 48 + 2 ^ 48 * tap.toNat ∧
          t.rb R.FB_CAP_STAT F.FB_CAP_STAT_ARMED = false ∧ t.rb R.FB_CAP_STAT F.FB_CAP_STAT_TAKEN = true ∧
          (s.quietEvents → t.rb R.FB_EVT F.FB_EVT_CAP_DONE = true) ∧
          s.frameEv [.fb] [R.FB_CAP_TIME_LO, R.FB_CAP_TIME_HI, R.FB_CAP_STAT, R.FB_EVT] t)) ∧
      ((s.rb R.FB_CAP_STAT F.FB_CAP_STAT_ARMED = false ∨ edge.toNat ≠ max 1 (s.rf R.FB_CAP_CFG F.FB_CAP_CFG_DELAY)) →
        exec (.ffCaptureTake tap edge plane) s = .next s))

/-- R261–R263, R265–R269, R297: the fabric's connections and its staged release. -/
def Obligations.FabricConnections : Prop :=
  ∀ s : State, s.noProbes →
    -- MPORT_REQUEST, MPORT_CFG_WRITE
    (∀ (m : Fin 4) (p : Packet),
      let own := fun (l : List Outst) (h : List Held) => (l.filter (fun o => o.node == mportNode m && o.port == 0)).length +
        (h.filter (fun h => h.req.src == mportNode m && h.req.srcPort == 0)).length
      let his := fun (r : Packet) => r.cmd = p.cmd ∧ r.dst = p.dst ∧ r.addr = p.addr ∧ r.data = p.data ∧ r.src = mportNode m ∧ r.vc = 0 ∧
        r.partner.toNat = s.rf (R.FB_MPORT_CFG m) F.FB_MPORT_CFG_PARTNER ∧ r.urg.toNat = s.rf (R.FB_MPORT_CFG m) F.FB_MPORT_CFG_URG
      (s.rb (R.FB_MPORT_CFG m) F.FB_MPORT_CFG_EN = true → s.connHeld (96 + m.val) = false → (p.cmd = 1 ∨ p.cmd = 2 ∨ p.cmd = 3) →
        own s.net.outst s.net.held < 16 →
        gives (.mportRequest m p) s (fun t => s.sent p.cmd.toNat p.dst t ∧ s.frame [.net] [] t ∧
          ((∃ o ∈ t.net.outst, o.key = s.net.nextKey ∧ his o.req) ∨ (∃ h ∈ t.net.held, h.key = s.net.nextKey ∧ his h.req)))) ∧
      ((s.rb (R.FB_MPORT_CFG m) F.FB_MPORT_CFG_EN = false ∨ s.connHeld (96 + m.val) = true ∨ 16 ≤ own s.net.outst s.net.held) → exec (.mportRequest m p) s = .next s)) ∧
    (∀ (m : Fin 4) (v : Word),
      (4 ≤ F.FB_MPORT_CFG_PARTNER.get v →
        gives (.mportCfgWrite m v) s (fun t => t.rg (R.FB_MPORT_CFG m) = s.written (R.FB_MPORT_CFG m) v ∧ s.frameR [R.FB_MPORT_CFG m] t)) ∧
      (F.FB_MPORT_CFG_PARTNER.get v < 4 →
        gives (.mportCfgWrite m v) s (fun t => t.rf (R.FB_MPORT_CFG m) F.FB_MPORT_CFG_PARTNER = s.rf (R.FB_MPORT_CFG m) F.FB_MPORT_CFG_PARTNER ∧
          s.frameR [R.FB_MPORT_CFG m] t))) ∧
    -- UWIN_ANSWER, UWIN_TIMEOUT
    (∀ q off w at_ r v, s.fb.uwin = (some q, off, w, at_) :: r →
      gives (.uwinAnswer v) s (fun t => t.fb = { s.fb with uwin := r } ∧
        s.answeredWith q (if w.isSome then [] else [BitVec.ofNat 256 v.toNat]) t ∧ s.frame [.fb, .net] [] t)) ∧
    (∀ off at_ r v, s.fb.uwin = (none, off, none, at_) :: r →
      gives (.uwinAnswer v) s (fun t => t.fb = { s.fb with uwin := r } ∧ t.out = s.out ++ [.pcie false [v]] ∧ s.frame [.fb, .out] [] t)) ∧
    (∀ q off w at_ r, s.fb.uwin = (some q, off, w, at_) :: r → at_ + 4 * s.rf R.FB_UWIN_TMO F.FB_UWIN_TMO_TMO ≤ s.nclk →
      gives .uwinTimeout s (fun t => t.fb = { s.fb with uwin := r } ∧ s.answered q 6 t ∧
        (s.quietEvents → t.rb R.FB_EVT F.FB_EVT_UWIN_TMO = true) ∧ s.frameEv [.fb, .net, .freeCtr] [R.FB_EVT] t)) ∧
    (∀ v, s.fb.uwin = [] → exec (.uwinAnswer v) s = .next s ∧ exec .uwinTimeout s = .next s) ∧
    -- USER_EVENT_RISE
    (∀ n : Fin 16,
      ((s.cgr (connRegion s.cg.hdr (100 + n.val))).stage = 0 → exec (.userEventRise n) s = .next s) ∧
      ((s.cgr (connRegion s.cg.hdr (100 + n.val))).stage ≠ 0 →
        gives (.userEventRise n) s (fun t => (s.quietEvents → (t.rg R.FB_UEVT_PEND).toNat.testBit n = true) ∧ s.frameEv [] [R.FB_UEVT_PEND] t))) ∧
    -- RELEASE_STAGE1, 2, 3 of the fabric
    (s.fbStage = 0 → s.proofPassed = true → s.pllsReady = true → s.fb.cfgDone = true → s.fb.hold = false →
      gives .releaseStage1 s (fun t => t.fbStage = 1 ∧ t.fb = { s.fb with relAt := s.now } ∧ t.rf R.CG_STATUS F.CG_STATUS_STATE = 6 ∧
        (s.quietEvents → s.pllsLocked = false → t.rb R.FB_EVT F.FB_EVT_PLL_UNLOCK = true) ∧
        s.frameEv [.fb] [R.FB_REL_STAT, R.CG_STATUS, R.FB_EVT] t)) ∧
    ((s.fbStage ≠ 0 ∨ s.proofPassed = false ∨ s.fb.cfgDone = false) → exec .releaseStage1 s = .next s) ∧
    (s.fbStage = 1 → s.fb.hold = false → s.fb.relAt + 64 ≤ s.now →
      gives (.releaseStage2 none) s (fun t => t.fbStage = 2 ∧ t.fb = { s.fb with relAt := s.now } ∧ s.frame [.fb] [R.FB_REL_STAT] t)) ∧
    (s.fbStage = 2 → s.fb.hold = false → s.fb.relAt + 64 ≤ s.now →
      gives (.releaseStage3 none) s (fun t => t.fbStage = 3 ∧ t.fb = { s.fb with relAt := s.now, blk := false, ffRel := [] } ∧
        t.rb R.FB_CTRL F.FB_CTRL_BLK_RST = false ∧ (s.quietEvents → t.rb R.FB_EVT F.FB_EVT_REL_DONE = true) ∧
        s.frameEv [.fb] [R.FB_REL_STAT, R.FB_CTRL, R.FB_EVT] t)) ∧
    (s.now < s.fb.relAt + 64 → exec (.releaseStage2 none) s = .next s ∧ exec (.releaseStage3 none) s = .next s) ∧
    -- of a region
    (∀ r : Fin 15, s.fb.hold = false → (s.cgr r).at_ + 64 ≤ s.now →
      ((s.cgr r).stage = 1 →
        gives (.releaseStage2 (some r)) s (fun t => t.cgr r = { s.cgr r with stage := 2, at_ := s.now } ∧ (∀ k, k ≠ r.val → t.cgr k = s.cgr k) ∧
          s.frame [.cg] [] t)) ∧
      ((s.cgr r).stage = 2 →
        gives (.releaseStage3 (some r)) s (fun t => t.cgr r = { s.cgr r with stage := 3, at_ := s.now } ∧ (∀ k, k ≠ r.val → t.cgr k = s.cgr k) ∧
          t.rf (R.CG_REG_STAT r) F.CG_REG_STAT_STATE = 1 ∧ s.frame [.cg] [R.CG_REG_STAT r] t))) ∧
    -- FLIPFLOP_RELEASE, CFG_DONE_CHANGE
    (∀ clk : Fin 120,
      (s.fbStage = 3 →
        gives (.flipflopRelease clk) s (fun t => clk.val ∈ t.fb.ffRel ∧ (∀ c, c ≠ clk.val → (c ∈ t.fb.ffRel ↔ c ∈ s.fb.ffRel)) ∧
          { t.fb with ffRel := s.fb.ffRel } = s.fb ∧ (∀ r, t.cgr r = (s.cgr r).third clk) ∧ { t.cg with regions := s.cg.regions } = s.cg ∧
          s.frame [.cg, .fb] [] t)) ∧
      (s.fbStage ≠ 3 → exec (.flipflopRelease clk) s = .next s)) ∧
    (∀ level : Bool,
      gives (.cfgDoneChange level) s (fun t => t.fb = { s.fb with cfgDone := level && s.rb R.CG_STATUS F.CG_STATUS_DONE_OUT } ∧
        t.rb R.CG_STATUS F.CG_STATUS_DONE_IN = (level && s.rb R.CG_STATUS F.CG_STATUS_DONE_OUT) ∧
        (s.quietEvents → s.fb.cfgDone = true → level = false → 1 ≤ s.fbStage → t.rb R.FB_EVT F.FB_EVT_DONE_FELL = true) ∧
        s.frameEv [.fb] [R.CG_STATUS, R.FB_EVT] t)) ∧
    -- FB_BLK_RST
    (s.blkHeld 10 = false → s.fbStage ≠ 0 → s.fb.blk = false →
      gives .fbBlkRst s (fun t => t.fbStage = 1 ∧ t.rb R.FB_CTRL F.FB_CTRL_BLK_RST = true ∧ t.fb.blk = true ∧ t.fb.relAt = s.now ∧
        t.fb.ffRel = [] ∧ t.fb.ffs = [] ∧ t.fb.serial = [] ∧ t.fb.uwin = [] ∧
        (∀ q off w at_, s.fb.uwin = [(some q, off, w, at_)] → s.answered q 6 t) ∧ t.rb R.FB_CAP_STAT F.FB_CAP_STAT_ARMED = false ∧
        (s.enabledQs = [] → s.fb.uwin = [] → s.blockReset .block 0x400000 0x480000 [R.FB_REL_STAT, R.FB_CAP_STAT, R.FB_CTRL] t ∧
          s.only [.regs, .qs, .cg, .fb] t))) ∧
    ((s.blkHeld 10 = true ∨ s.fbStage = 0 ∨ s.fb.blk = true) → exec .fbBlkRst s = .next s)

/-- R258, R265. The serial blocks of a clock region, as user logic and the balls drive them in a cycle of the user logic (log entry 2: the cycle is
what a step does on an empty queue): an SPI queue holds 16 words each way, an I²C queue 8 bytes, a UART queue 16 characters; a frame of the SPI
moves a word both ways; a lost arbitration is reported; a break is detected; CTS holds the sending. Before stage 2 of the staged release nothing
of it moves. -/
def Obligations.SerialBlocks : Prop :=
  ∀ (s : State) (r : Nat) (e : SerEvent), r < 8 →
    let k := s.ser r
    let t := s.serialEvent r e
    let n := t.ser r
    -- the cycle
    (s.pending = [] → s.fbStage < 2 → step s = .next s) ∧
    (s.pending = [] → 2 ≤ s.fbStage → ∃ u, step s = .next u ∧ u.freeCtr = s.freeCtr + 1 ∧ s.only [.fb, .freeCtr] u ∧
      { u.fb with ffs := s.fb.ffs, serial := s.fb.serial } = s.fb ∧ ∃ q < 8, ∀ m, m ≠ q → u.ser m = s.ser m) ∧
    -- where the blocks stand still
    (s.fbStage < 2 → e.writes = true → t = s) ∧ (s.domOn (regionDom r) = false → t = s) ∧
    -- what an event does
    (2 ≤ s.fbStage → s.domOn (regionDom r) = true →
      (∀ m, m ≠ r → t.ser m = s.ser m) ∧ s.only [.fb] t ∧
      (∀ w, e = .spiPut w → n.spi.tx = (if k.spi.tx.length < 16 then k.spi.tx ++ [BitVec.ofNat 32 (w.toNat % 2 ^ k.spi.bits)] else k.spi.tx) ∧
        n.spi.rx = k.spi.rx ∧ n.uart = k.uart) ∧
      (∀ w x tx, e = .spiFrame w → k.spi.tx = x :: tx → k.spi.rx.length < 16 →
        n.spi.tx = tx ∧ n.spi.rx = k.spi.rx ++ [BitVec.ofNat 32 (w.toNat % 2 ^ k.spi.bits)]) ∧
      (∀ w, e = .spiFrame w → k.spi.tx = [] → k.spi.master = true → n.spi = k.spi) ∧
      (∀ m b md l c, e = .spiSet m b md l c → n.spi.master = m ∧ 4 ≤ n.spi.bits ∧ n.spi.bits ≤ 32 ∧ n.spi.mode ≤ 3 ∧ n.spi.cs ≤ 3 ∧ n.spi.tx = k.spi.tx) ∧
      (∀ b, e = .i2cPut b → n.i2c.tx = (if k.i2c.tx.length < 8 then k.i2c.tx ++ [b] else k.i2c.tx)) ∧
      (∀ b, e = .i2cCame b → n.i2c.rx = (if k.i2c.rx.length < 8 then k.i2c.rx ++ [b] else k.i2c.rx) ∧ n.i2c.stretch = decide (7 ≤ k.i2c.rx.length)) ∧
      (e = .i2cLost → n.i2c.lost = (k.i2c.lost || !k.i2c.target)) ∧
      (∀ c, e = .uartPut c → n.uart.tx = (if k.uart.tx.length < 16 then k.uart.tx ++ [BitVec.ofNat 9 (c.toNat % 2 ^ k.uart.bits)] else k.uart.tx)) ∧
      (∀ c, e = .uartCame c → n.uart.rx = (if k.uart.rx.length < 16 then k.uart.rx ++ [BitVec.ofNat 9 (c.toNat % 2 ^ k.uart.bits)] else k.uart.rx)) ∧
      (e = .uartSent → n.uart.tx = (if k.uart.cts then k.uart.tx.drop 1 else k.uart.tx)) ∧
      (e = .uartBreak → n.uart.brk = true) ∧
      (∀ b p st, e = .uartSet b p st → 5 ≤ n.uart.bits ∧ n.uart.bits ≤ 9 ∧ n.uart.parity ≤ 2 ∧ (n.uart.stop = 1 ∨ n.uart.stop = 2)) ∧
      (k.spi.tx.length ≤ 16 → k.spi.rx.length ≤ 16 → k.i2c.tx.length ≤ 8 → k.i2c.rx.length ≤ 8 → k.uart.tx.length ≤ 16 → k.uart.rx.length ≤ 16 →
        n.spi.tx.length ≤ 16 ∧ n.spi.rx.length ≤ 16 ∧ n.i2c.tx.length ≤ 8 ∧ n.i2c.rx.length ≤ 8 ∧ n.uart.tx.length ≤ 16 ∧ n.uart.rx.length ≤ 16))

/-- R278–R292: boot attempts, Proof and the Pleat library. Step 1 refuses a header with its code; step 2 accepts a key pair; steps 3 and 4 compare
what has come; each failure sets PROOF_ERR, counts and waits 10 ms. -/
def Obligations.BootAndLibrary : Prop :=
  ∀ s : State,
    -- BOOT_ATTEMPT from external flash, of an image that came in WAIT_SRC, held in reset
    (∀ ext, s.blkHeld 11 = false → s.rf R.CG_STATUS F.CG_STATUS_STATE = 0 → s.qvMode = true → s.rf R.CG_STATUS F.CG_STATUS_BOOT = 1 →
      0x6000 ≤ ext.length →
      (headerBad 1 (ext.take 0x1000) = none → gives (.bootAttempt ext) s (s.bootBegun (.held ext) 2 (ext.take 0x6000))) ∧
      (∀ c, headerBad 1 (ext.take 0x1000) = some c → gives (.bootAttempt ext) s (s.bootFailed c 0xFFFF))) ∧
    (∀ ext, s.blkHeld 11 = true → exec (.bootAttempt ext) s = .next s) ∧
    -- CG_HOST_GO
    (∀ b h r, b = ImgSrc.smb (4096 * s.rf R.CG_HOST_BASE F.CG_HOST_BASE_BASE) → s.rf R.CG_STATUS F.CG_STATUS_STATE = 4 → s.cg.boot = none →
      s.yields b 0 0x1000 h → s.yields b 0x1000 0x5000 r →
      (headerBad s.bootKind h = none → gives .cgHostGo s (s.bootBegun b 4 (h ++ r))) ∧
      (∀ c, headerBad s.bootKind h = some c → gives .cgHostGo s (s.bootFailed c 0xFFFF))) ∧
    (s.rf R.CG_STATUS F.CG_STATUS_STATE ≠ 4 → exec .cgHostGo s = .next s) ∧
    -- BACKOFF_END
    (∀ ext, s.rf R.CG_STATUS F.CG_STATUS_STATE = 3 → s.cg.failAt + 5000000 ≤ s.now → s.qvMode = true →
      s.rf R.CG_STATUS F.CG_STATUS_BOOT = 1 → 0x6000 ≤ ext.length → headerBad 1 (ext.take 0x1000) = none →
      gives (.backoffEnd ext) s (s.bootBegun (.held ext) 2 (ext.take 0x6000))) ∧
    (∀ ext, s.now < s.cg.failAt + 5000000 → exec (.backoffEnd ext) s = .next s) ∧
    -- SOURCE_TIMEOUT
    (∀ b, s.cg.boot = some b → b.idx = 2 → gives .sourceTimeout s (s.bootFailed 8 (frameInHand (imgUnits b.hdr) b.units))) ∧
    (s.cg.boot = none → s.cg.lib = none → exec .sourceTimeout s = .next s) ∧
    -- SIGNATURE_VERIFY_DONE and PROOF_END of a boot attempt
    (∀ b, s.cg.boot = some b → b.hdr ≠ [] → b.sig = none →
      (∀ key, s.proofSig b.hdr false = .inl key → b.units < (imgUnits b.hdr).length →
        gives (.signatureVerifyDone 0 b.units) s (fun t => t.cg = { s.cg with boot := some { b with sig := some key } } ∧
          t.rb R.SC_STAT F.SC_STAT_VERIFY_BUSY = t.verifying ∧ s.frame [.cg] [R.SC_STAT] t)) ∧
      (∀ c, s.proofSig b.hdr false = .inr c →
        gives (.signatureVerifyDone 0 b.units) s (s.bootFailed c (frameInHand (imgUnits b.hdr) b.units)))) ∧
    (∀ b crc, s.cg.boot = some b → b.sig.isSome = true → b.units = (imgUnits b.hdr).length → s.yields b.src (imgLen b.hdr - 4) 4 crc →
      (proofEndBad b.hdr b.got crc = none →
        gives (.proofEnd 0) s (fun t => t.rf R.CG_STATUS F.CG_STATUS_STATE = 5 ∧ t.cg.boot = none ∧ t.cg.hdr = b.hdr.take 0x1000 ∧
          t.cg.idx = b.idx ∧ t.cg.tries = 0 ∧
          (s.rb R.CG_START F.CG_START_LACE_GATE = false → t.rb R.CG_STATUS F.CG_STATUS_DONE_OUT = true) ∧ s.only [.regs, .cg] t)) ∧
      (∀ c, proofEndBad b.hdr b.got crc = some c →
        gives (.proofEnd 0) s (s.bootFailed c (frameInHand (imgUnits b.hdr) (imgUnits b.hdr).length)))) ∧
    (s.cg.boot = none → ∀ u, exec (.signatureVerifyDone 0 u) s = .next s ∧ exec (.proofEnd 0) s = .next s) ∧
    -- LIB_GO from Lace and from flash, LIB_ABORT
    (∀ v, F.CG_LIB_CMD_GO.bit v = true → s.cg.lib = none →
      (F.CG_LIB_CMD_SRC.bit v = true →
        gives (.libGo v) s (fun t => t.cg = { s.cg with lib := some (LibRun.mk true false (F.CG_LIB_CMD_BASE.get v) [] false (.held []) []) } ∧
          t.rg R.CG_LIB_STAT = 1 ∧ t.rb R.CG_STATUS F.CG_STATUS_LIB_BUSY = true ∧ s.frame [.cg, .lc] [R.CG_LIB_STAT, R.CG_STATUS] t)) ∧
      (∀ img, F.CG_LIB_CMD_SRC.bit v = false → F.CG_LIB_CMD_BCAST.bit v = false → s.flRead 0x1C00000 0x6000 = (s, img, true) →
        (∀ u : State, u.mem = s.mem → u.syn = s.syn → u.flRead 0x1C00000 0x6000 = (u, img, true)) →
        headerBad 4 img = none → F.CG_LIB_CMD_BASE.get v + imgPlanes img ≤ 1024 →
        gives (.libGo v) s (fun t => t.rf R.PL_LIB_CFG F.PL_LIB_CFG_PLANES = 0 ∧ t.rb R.CG_STATUS F.CG_STATUS_LIB_BUSY = true ∧
          (∃ l, t.cg.lib = some l ∧ l.hdr = img ∧ l.base = F.CG_LIB_CMD_BASE.get v ∧ l.sig = false) ∧
          s.frame [.cg] [R.CG_LIB_STAT, R.CG_STATUS, R.PL_LIB_CFG, R.SC_STAT] t)) ∧
      (∀ img, F.CG_LIB_CMD_SRC.bit v = false → F.CG_LIB_CMD_BCAST.bit v = true → s.lcUp 0 = true →
        (∀ u : State, u.mem = s.mem → u.syn = s.syn → u.flRead 0x1C00000 0x6000 = (u, img, true)) →
        gives (.libGo v) s (fun t => ∃ h, Out.lace 0 4 (h ++ [-1, 0] ++ ((img.take 512).map (fun b => (b.toNat : Int)))) ∈ t.out))) ∧
    (∀ v, F.CG_LIB_CMD_GO.bit v = false ∨ s.cg.lib.isSome = true → exec (.libGo v) s = .next s) ∧
    (s.cg.lib.isSome = true →
      gives .libAbort s (fun t => t.cg = { s.cg with lib := none } ∧ t.rf R.CG_LIB_STAT F.CG_LIB_STAT_STATUS = 2 ∧
        t.rb R.CG_LIB_STAT F.CG_LIB_STAT_BUSY = false ∧ t.rb R.CG_STATUS F.CG_STATUS_LIB_BUSY = false ∧
        t.rf R.PL_LIB_CFG F.PL_LIB_CFG_PLANES = 0 ∧ t.rb R.SC_STAT F.SC_STAT_VERIFY_BUSY = t.verifying ∧
        s.frame [.cg] [R.CG_LIB_STAT, R.CG_STATUS, R.PL_LIB_CFG, R.SC_STAT] t)) ∧
    -- PROOF_END of a staging whose content has been read
    (∀ l crc, s.cg.lib = some l → l.sig = true → l.lace = false → l.bcast = false → libUnitCount l.hdr ≤ l.got.length / 512 →
      s.yields l.src (imgLen l.hdr - 4) 4 crc →
      (proofEndBad l.hdr l.got crc = none →
        gives (.proofEnd 2) s (fun t => t.cg = { s.cg with lib := none, libHdr := l.hdr.take 0x1000 } ∧
          t.rg R.PL_LIB_CFG = F.PL_LIB_CFG_PLANES.put (F.PL_LIB_CFG_BASE.put (s.rg R.PL_LIB_CFG) l.base) (imgPlanes l.hdr) ∧
          t.rf R.CG_LIB_STAT F.CG_LIB_STAT_STATUS = 0 ∧ t.rb R.CG_STATUS F.CG_STATUS_LIB_BUSY = false ∧
          (s.quietEvents → t.rb R.CG_EVT F.CG_EVT_LIB_DONE = true) ∧
          s.frameEv [.cg] [R.CG_LIB_STAT, R.CG_STATUS, R.PL_LIB_CFG, R.CG_EVT] t)) ∧
      (∀ e, proofEndBad l.hdr l.got crc = some e →
        gives (.proofEnd 2) s (fun t => t.cg = { s.cg with lib := none } ∧ t.rf R.PL_LIB_CFG F.PL_LIB_CFG_PLANES = 0 ∧
          t.rf R.CG_LIB_STAT F.CG_LIB_STAT_STATUS = 1 ∧ t.rg R.CG_PROOF_ERR = w32 (e + 0xFFFF0000) ∧
          (s.quietEvents → t.rb R.CG_EVT F.CG_EVT_LIB_FAIL = true) ∧
          s.frameEv [.cg] [R.CG_LIB_STAT, R.CG_STATUS, R.PL_LIB_CFG, R.CG_PROOF_ERR, R.SC_STAT, R.CG_EVT] t))) ∧
    (s.cg.lib = none → exec .libAbort s = .next s)

/-- R293–R305: partial loads, the configuration scrubber, readback. A load is refused before anything changes, or Sleeves its region; a unit of its
content is written when it has come whole and lies in the fence and the region; whatever fails leaves the region TORN. -/
def Obligations.PartialLoads : Prop :=
  ∀ s : State,
    -- ICP_START
    (∀ (v : Word) (w : List Word), s.fbStage = 3 → s.fb.hold = false →
      let r := v.toNat % 16
      let img := (wordsB w).take 0x6000
      ((s.cg.part.isSome = true ∨ s.cg.repair ≠ []) →
        gives (.icpStart v w) s (fun t => t.rg R.CG_PL_STAT = w32 (4 + 16 * r + 0xFFFF0000) ∧
          t.out = s.out ++ [.fabric 5 r 4] ∧ s.frame [.out] [R.CG_PL_STAT] t)) ∧
      (s.cg.part = none → s.cg.repair = [] → (r = 15 ∨ s.regionState r = 0 ∨ imgRegion img ≠ r) →
        gives (.icpStart v w) s (fun t => t.rg R.CG_PL_STAT = w32 (5 + 16 * r + 0xFFFF0000) ∧
          t.out = s.out ++ [.fabric 5 r 5] ∧ s.frame [.out] [R.CG_PL_STAT] t)) ∧
      (s.cg.part = none → s.cg.repair = [] → r < 15 → s.regionState r ≠ 0 → imgRegion img = r → (s.regionDoms r).all s.domOn = false →
        gives (.icpStart v w) s (fun t => t.rg R.CG_PL_STAT = w32 (6 + 16 * r + 0xFFFF0000) ∧
          t.out = s.out ++ [.fabric 5 r 6] ∧ s.frame [.out] [R.CG_PL_STAT] t)) ∧
      (s.cg.part = none → s.cg.repair = [] → r < 15 → s.regionState r ≠ 0 → imgRegion img = r → (s.regionDoms r).all s.domOn = true →
        headerBad 2 img = none →
        gives (.icpStart v w) s (fun t => t.cg.part = some { region := r, host := false, desc := none, lining := liningOpt v, hdr := img, sig := false, content := [], units := 0, frame := 0xFFFF, lastAt := s.now } ∧ t.regionState r = 2 ∧ (t.cgr r).stage = 0 ∧
          t.rb R.CG_STATUS F.CG_STATUS_PL_BUSY = true ∧ t.rb R.SC_STAT F.SC_STAT_VERIFY_BUSY = true ∧
          s.only [.regs, .qs, .cg, .hi, .ev, .out, .freeCtr] t))) ∧
    (∀ v w, s.fbStage ≠ 3 → exec (.icpStart v w) s = .next s) ∧
    -- step 2, and its failure
    (∀ p u, s.cg.part = some p → p.sig = false → p.region < 15 →
      (∀ k, s.proofSig p.hdr (!p.host && !s.rb R.CG_ICP_POLICY F.CG_ICP_POLICY_SIGNED) = .inl k →
        gives (.signatureVerifyDone 1 u) s (fun t => t.cg = { s.cg with part := some { p with sig := true, lastAt := s.now } } ∧
          t.rb R.SC_STAT F.SC_STAT_VERIFY_BUSY = t.verifying ∧ s.frame [.cg] [R.SC_STAT] t)) ∧
      (∀ c, p.desc = none → s.proofSig p.hdr (!p.host && !s.rb R.CG_ICP_POLICY F.CG_ICP_POLICY_SIGNED) = .inr c →
        gives (.signatureVerifyDone 1 u) s (s.loadTorn p 2 (some c)))) ∧
    -- PARTIAL_FRAME: the words that complete one frame; outside its fence; a source that fails
    (∀ p w n o r, s.cg.part = some p → p.sig = true → p.region < 15 → (imgUnits p.hdr).drop p.units = (false, n, o) :: r →
      (∀ x ∈ r, o + 320 ≤ x.2.2) → 0x6000 ≤ o → s.unarmed →
      0x6000 + ((p.content ++ wordsB w).take (imgLen p.hdr - 0x6000)).length = o + 320 →
      let f := s.rg (if p.host then R.CG_HOST_FENCE else R.CG_ICP_FENCE)
      let c := (p.content ++ wordsB w).take (imgLen p.hdr - 0x6000)
      (F.CG_ICP_FENCE_FIRST.get f ≤ n → n ≤ F.CG_ICP_FENCE_LAST.get f → s.inRegion p.region n = true →
        gives (.partialFrame w false) s (fun t =>
          t.cg = { s.cg with part := some { p with content := c, lastAt := s.now, units := p.units + 1, frame := n } } ∧
          (∀ i < 40, t.rawAt (memCfg + 320 * n + 8 * i) = ofBytesLE (sliceB c (o - 0x6000 + 8 * i) 8)) ∧ s.bytesBut (memCfg + 320 * n) 320 t ∧
          s.frame [.cg, .mem, .syn, .sm] [] t)) ∧
      (p.desc = none → ¬ (F.CG_ICP_FENCE_FIRST.get f ≤ n ∧ n ≤ F.CG_ICP_FENCE_LAST.get f ∧ s.inRegion p.region n = true) →
        gives (.partialFrame w false) s (s.loadTorn { p with frame := n } 1 (some 11)))) ∧
    (∀ p w, s.cg.part = some p → p.sig = true → p.desc = none → p.region < 15 → gives (.partialFrame w true) s (s.loadTorn p 2 (some 8))) ∧
    -- PROOF_END of a load that has come whole, without a Lining
    (∀ p, s.cg.part = some p → p.sig = true → p.desc = none → p.lining = none → p.region < 15 → imgLen p.hdr - 0x6000 ≤ p.content.length →
      let n := imgLen p.hdr - 0x6000 - 4
      (proofEndBad p.hdr (p.content.take n) (p.content.drop n) = none →
        gives (.proofEnd 1) s (fun t => t.cg.part = none ∧ t.rg R.CG_PL_STAT = w32 (16 * p.region + 256 * b2n p.host + 0x10000 * p.frame) ∧
          t.rb (R.CG_REG_STAT p.region) F.CG_REG_STAT_NOLINING = true ∧ (t.cgr p.region).stage = 1 ∧ (t.cgr p.region).at_ = s.now ∧
          (t.cgr p.region).hdr = p.hdr.take 0x1000 ∧ (s.quietEvents → t.rb R.CG_EVT F.CG_EVT_PL_DONE = true) ∧
          s.frameEv [.cg] [R.CG_REG_LINING p.region, R.CG_REG_STAT p.region, R.CG_PL_STAT, R.CG_STATUS, R.CG_EVT] t)) ∧
      (∀ c, proofEndBad p.hdr (p.content.take n) (p.content.drop n) = some c → gives (.proofEnd 1) s (s.loadTorn p 2 (some c)))) ∧
    -- PARTIAL_STALL, PL_ABORT
    (∀ p, s.cg.part = some p → p.desc = none → p.region < 15 →
      (p.sig = true → s.rg R.CG_PL_TMO ≠ 0 → p.lastAt + 2 * (s.rg R.CG_PL_TMO).toNat < s.now →
        gives .partialStall s (s.loadTorn p 7 (some 12))) ∧
      gives .plAbort s (s.loadTorn p 3 none)) ∧
    (s.cg.part = none → exec .partialStall s = .next s ∧ exec .plAbort s = .next s ∧ ∀ w b, exec (.partialFrame w b) s = .next s) ∧
    -- CFG_SCRUB_WORD: a good word inside a pass; an upset of the static region corrected; disagreement of the copies
    (∀ vote, s.rb R.CG_SCRUB_CFG F.CG_SCRUB_CFG_EN = true → s.rb R.CG_SCRUB_STAT F.CG_SCRUB_STAT_RUNNING = true → s.cg.scrub < 1439999 →
      s.classAt (memCfg + 8 * s.cg.scrub) = .good →
      gives (.cfgScrubWord vote false false) s (fun t => t.cg = { s.cg with scrub := s.cg.scrub + 1 } ∧
        t.rg R.CG_SCRUB_FIX = (s.bump R.CG_SCRUB_FIX F.CG_SCRUB_FIX_VOTE_FIX (b2n vote)).rg R.CG_SCRUB_FIX ∧
        s.frame [.cg] [R.CG_SCRUB_FIX] t)) ∧
    (∀ b, s.rb R.CG_SCRUB_CFG F.CG_SCRUB_CFG_EN = true → s.rb R.CG_SCRUB_STAT F.CG_SCRUB_STAT_RUNNING = true → s.cg.scrub < 1439999 →
      s.classAt (memCfg + 8 * s.cg.scrub) = .corrected b → s.domOn (frameDom (s.cg.scrub / 40)) = true → s.regionOf (s.cg.scrub / 40) = 15 →
      s.cg.active = none → s.rb R.CG_SCRUB_STAT F.CG_SCRUB_STAT_EBM_OK = false →
      gives (.cfgScrubWord false false false) s (fun t => t.rawAt (memCfg + 8 * s.cg.scrub) = s.fixedAt (memCfg + 8 * s.cg.scrub) ∧
        s.bytesBut (memCfg + 8 * s.cg.scrub) 8 t ∧ (s.quietEvents → t.rb R.CG_EVT F.CG_EVT_ESS_STATIC = true) ∧
        t.faults = s.faults ++ [{ det := 2, elems := [], time := s.now }] ∧
        s.only [.regs, .cg, .mem, .syn, .sm, .faults, .ev, .out] t)) ∧
    (∀ badA : Bool, s.rb R.CG_SCRUB_CFG F.CG_SCRUB_CFG_EN = false →
      gives (.cfgScrubWord false badA (!badA)) s (fun t => t.rg R.CG_SCRUB_FIX = (s.bump R.CG_SCRUB_FIX F.CG_SCRUB_FIX_COPY_FIX 1).rg R.CG_SCRUB_FIX ∧
        (s.quietEvents → t.rb R.CG_EVT F.CG_EVT_COPY_FIX = true) ∧ s.frameEv [] [R.CG_SCRUB_FIX, R.CG_EVT] t)) ∧
    -- REGION_RELOAD_DONE without a Lining
    (∀ r l, s.cg.repair = r :: l → s.liningOf r = none →
      gives .regionReloadDone s (fun t => t.cg.repair = l ∧ (t.cgr r).stage = 1 ∧ (t.cgr r).at_ = s.now ∧ (∀ k, k ≠ r → t.cgr k = s.cgr k) ∧
        t.rb R.CG_STATUS F.CG_STATUS_PL_BUSY = (s.cg.part.isSome || !l.isEmpty) ∧ s.frame [.cg] [R.CG_STATUS] t)) ∧
    (s.cg.repair = [] → exec .regionReloadDone s = .next s) ∧
    -- SCRUB_WDT_EXPIRY
    (s.rb R.CG_SCRUB_STAT F.CG_SCRUB_STAT_RUNNING = true → s.cg.scrubAt + 500000 * s.rf R.CG_SCRUB_WDT F.CG_SCRUB_WDT_LIMIT ≤ s.now →
      s.cg.expired = 0 → s.rb R.CG_SCRUB_CFG F.CG_SCRUB_CFG_WDT_ACT = false →
      ∀ straps, gives (.scrubWdtExpiry straps) s (fun t => t.cg = { s.cg with scrub := 0, scrubAt := s.now, expired := 1 } ∧
        t.rg R.CG_SCRUB_FIX = (s.bump R.CG_SCRUB_FIX F.CG_SCRUB_FIX_WDT 1).rg R.CG_SCRUB_FIX ∧
        (s.quietEvents → t.rb R.CG_EVT F.CG_EVT_SCRUB_WDT = true) ∧ s.frameEv [.cg, .faults] [R.CG_SCRUB_FIX, R.CG_EVT] t)) ∧
    (s.rb R.CG_SCRUB_STAT F.CG_SCRUB_STAT_RUNNING = false → ∀ straps, exec (.scrubWdtExpiry straps) s = .next s) ∧
    -- EBM_CHECK
    (∀ l ok, s.fbStage = 3 → s.cg.hdr ≠ [] → s.flRead (0x2C00000 + 4096 * imgEbmOfs s.cg.hdr) (imgEbmLen s.cg.hdr) = (s, l, ok) →
      let good := ok && decide (hashBytes (Config.sha384 l) = imgEbmHash s.cg.hdr)
      gives .ebmCheck s (fun t => t.rb R.CG_SCRUB_STAT F.CG_SCRUB_STAT_EBM_OK = good ∧
        (s.quietEvents → good = false → t.rb R.CG_EVT F.CG_EVT_EBM_BAD = true) ∧ s.frameEv [] [R.CG_SCRUB_STAT, R.CG_EVT] t)) ∧
    (s.fbStage ≠ 3 → exec .ebmCheck s = .next s) ∧
    -- READBACK
    (let f := s.rf R.CG_RB_SEL F.CG_RB_SEL_FRAME
     let w := s.rf R.CG_RB_SEL F.CG_RB_SEL_WORD
     (1 ≤ s.rdp → s.rb R.SC_DBG_STAT F.SC_DBG_STAT_UNLOCKED = false →
       gives .readback s (fun t => t.rg R.CG_RB_CMD = w32 6 ∧ s.frameR [R.CG_RB_CMD] t)) ∧
     ((s.rdp = 0 ∨ s.rb R.SC_DBG_STAT F.SC_DBG_STAT_UNLOCKED = true) →
       ((36000 ≤ f ∨ 80 ≤ w) → gives .readback s (fun t => t.rg R.CG_RB_CMD = w32 10 ∧ s.frameR [R.CG_RB_CMD] t)) ∧
       (f < 36000 → w < 80 → s.rb R.CG_RB_SEL F.CG_RB_SEL_PLANE = true →
         gives .readback s (fun t => t.rg R.CG_RB_DATA = s.fb.shadow.getD (80 * f + w) 0 ∧ t.rg R.CG_RB_CMD = w32 2 ∧
           s.frameR [R.CG_RB_DATA, R.CG_RB_CMD] t)) ∧
       (f < 36000 → w < 80 → s.rb R.CG_RB_SEL F.CG_RB_SEL_PLANE = false → s.classAt (memCfg + 320 * f + 4 * w) = .good →
         gives .readback s (fun t => t.rg R.CG_RB_DATA = w32 (s.rawAt (memCfg + 320 * f + 4 * w) / 2 ^ (32 * (w % 2))) ∧
           t.rg R.CG_RB_CMD = w32 2 ∧ s.frameR [R.CG_RB_DATA, R.CG_RB_CMD] t))))

/-- R309–R317, R330–R332: the flash controller. A command that the firewall denies does nothing but note it; a refused one leaves its status; a
read fills the buffer; a page is programmed when the die is done; an erase runs in pulses until every unit of its sector reads erased. -/
def Obligations.FlashCommands : Prop :=
  ∀ (s : State) (pid : BitVec 10) (len : BitVec 11),
    let a := s.flAddr
    let n := len.toNat
    let free := s.fl.run = none ∧ s.fl.susp = none ∧ s.fl.recs = [] ∧ s.fl.die = false
    -- denied, or busy
    (∀ (c : Instr) (w : Bool), (c, w) ∈ [(Instr.flashRead len pid, false), (.flashProgram len pid, true), (.flashErase pid, true),
        (.blankCheck len pid, false), (.trimWrite pid, true), (.logAppend pid, true)] →
      (¬ s.flPasses pid w → gives c s (fun t => (s.quietEvents → t.rb R.SC_EVT F.SC_EVT_FW_DENY = true) ∧ s.frameEv [] fwRegs t)) ∧
      (s.flPasses pid w → (s.fl.run.isSome = true ∨ s.fl.recs ≠ []) → s.fl.die = false → gives c s (fun t => s.flEnded 1 t ∧ t.fl = s.fl ∧ s.frameEv [] [R.FL_STAT, R.FL_EVT] t))) ∧
    -- FLASH_READ of good or erased words
    (s.flPasses pid false → free → (s.rdp = 0 ∨ (0x3200000 ≤ a ∧ a + n ≤ 0x3FE0000)) → a % 4 = 0 → n % 4 = 0 → 4 ≤ n → n ≤ 1024 →
      a + n ≤ 0x4000000 → (∀ w, a / 8 ≤ w → 8 * w < a + n → s.classAt (flAt (8 * w)) = .good ∨ s.flErased (8 * w) = true) →
      gives (.flashRead len pid) s (fun t => s.flEnded 0 t ∧ s.frameEv [] ([R.FL_STAT, R.FL_EVT] ++ (List.range 256).map R.FL_BUF) t ∧
        ∀ k < n / 4, t.rg (R.FL_BUF k) = w32 (s.numAt (flAt (a + 4 * k)) 4))) ∧
    (s.flPasses pid false → free → 1 ≤ s.rdp → a < 0x3200000 →
      gives (.flashRead len pid) s (fun t => s.flEnded 5 t ∧ s.frameEv [] [R.FL_STAT, R.FL_EVT] t)) ∧
    (s.flPasses pid false → free → s.rdp = 0 → (a % 4 ≠ 0 ∨ n % 4 ≠ 0 ∨ n < 4 ∨ 1024 < n ∨ 0x4000000 < a + n) →
      gives (.flashRead len pid) s (fun t => s.flEnded 6 t ∧ s.frameEv [] [R.FL_STAT, R.FL_EVT] t)) ∧
    -- FLASH_PROGRAM
    (s.flPasses pid true → free → s.flNotBlank a n = none → s.flLocked a n = false → a + n ≤ 0x3FE0000 → a % 32 = 0 → n % 32 = 0 → 32 ≤ n →
      a % 256 + n ≤ 256 →
      gives (.flashProgram len pid) s (fun t => State.flBegun (.program [(a, s.flBuf n)]) t ∧ s.frame [.fl] [R.FL_STAT] t)) ∧
    (∀ u, s.flPasses pid true → free → s.flNotBlank a n = some u →
      gives (.flashProgram len pid) s (fun t => s.flEnded 2 t ∧ t.rg R.FL_ERR_ADDR = w32 u ∧
        s.frameEv [] [R.FL_STAT, R.FL_EVT, R.FL_ERR_ADDR] t)) ∧
    (s.flPasses pid true → free → s.flNotBlank a n = none → s.flLocked a n = true →
      gives (.flashProgram len pid) s (fun t => s.flEnded 3 t ∧ s.frameEv [] [R.FL_STAT, R.FL_EVT] t)) ∧
    (s.flPasses pid true → free → s.flNotBlank a n = none → s.flLocked a n = false → 0x3FE0000 < a + n →
      gives (.flashProgram len pid) s (fun t => s.flEnded 4 t ∧ s.frameEv [] [R.FL_STAT, R.FL_EVT] t)) ∧
    -- FLASH_PROGRAM_DONE
    (∀ o l r, s.fl.run = some (.program ((o, l) :: r)) → o < 0x3FE0000 → o % 32 = 0 → l.length % 32 = 0 →
      gives .flashProgramDone s (fun t => (∀ i < l.length, t.byteAt (flAt (o + i)) = l.getD i 0 ∧ t.classAt (flAt (o + i)) = .good) ∧
        s.bytesBut (flAt o) l.length t ∧
        (r ≠ [] → t.fl = { s.fl with run := some (.program r) } ∧ s.frame [.fl, .mem, .syn, .sm] [] t) ∧
        (r = [] → t.fl = { s.fl with run := none } ∧ s.flEnded 0 t ∧ s.frameEv [.fl, .mem, .syn, .sm] [R.FL_STAT, R.FL_EVT] t))) ∧
    (s.fl.run = none → s.fl.recs = [] → s.fl.die = false → exec .flashProgramDone s = .next s ∧ ∀ e, exec (.erasePulseEnd e) s = .next s) ∧
    (s.fl.run = none → s.fl.recs = [] → s.fl.die = true → ∀ c, (c = .flashProgramDone ∨ c = .erasePulseEnd true) →
      gives c s (fun t => t.fl = { s.fl with die := false } ∧ t.rb R.FL_STAT F.FL_STAT_DIE_BUSY = false ∧ s.frame [.fl] [R.FL_STAT] t)) ∧
    -- FLASH_ERASE, ERASE_PULSE_END
    (s.flPasses pid true → free → s.flLocked a 1 = false → a < 0x3FE0000 → s.sectorBlank (a / 0x10000) = false →
      gives (.flashErase pid) s (fun t => State.flBegun (.erase (a / 0x10000) 0) t ∧ t.rg R.FL_ERASE_PROGRESS = w32 (256 * (a / 0x10000)) ∧
        s.bytesBut (flAt (0x10000 * (a / 0x10000))) 0x10000 t ∧ s.frame [.fl, .mem, .syn, .freeCtr] [R.FL_STAT, R.FL_ERASE_PROGRESS] t)) ∧
    (s.flPasses pid true → free → s.flLocked a 1 = false → a < 0x3FE0000 → s.sectorBlank (a / 0x10000) = true →
      gives (.flashErase pid) s (fun t => s.flEnded 0 t ∧ s.frameEv [] [R.FL_STAT, R.FL_EVT, R.FL_ERASE_PROGRESS] t)) ∧
    (s.flPasses pid true → free → s.flLocked a 1 = true →
      gives (.flashErase pid) s (fun t => s.flEnded 3 t ∧ s.frameEv [] [R.FL_STAT, R.FL_EVT] t)) ∧
    (∀ k m, s.fl.run = some (.erase k m) → k < 1024 →
      (s.fl.lower = none →
        gives (.erasePulseEnd true) s (fun t => t.fl = { s.fl with run := none } ∧ s.flEnded 0 t ∧
          (∀ b, flAt (0x10000 * k) ≤ b → b < flAt (0x10000 * k) + 0x10000 → t.byteAt b = 0xFF) ∧ s.bytesBut (flAt (0x10000 * k)) 0x10000 t ∧
          s.frameEv [.fl, .mem, .syn, .sm] [R.FL_STAT, R.FL_EVT, R.FL_ERASE_PROGRESS] t)) ∧
      gives (.erasePulseEnd false) s (fun t => State.flBegun (.erase k (m + 1)) t ∧
        t.rg R.FL_ERASE_PROGRESS = (s.bump R.FL_ERASE_PROGRESS F.FL_ERASE_PROGRESS_PULSES 1).rg R.FL_ERASE_PROGRESS ∧
        s.bytesBut (flAt (0x10000 * k)) 0x10000 t ∧ s.frame [.fl, .mem, .syn, .freeCtr] [R.FL_STAT, R.FL_ERASE_PROGRESS] t)) ∧
    -- BLANK_CHECK
    (s.flPasses pid false → free → a % 32 = 0 → n % 32 = 0 → 32 ≤ n → n ≤ 1024 → a % 0x10000 + n ≤ 0x10000 →
      (s.flNotBlank a n = none → gives (.blankCheck len pid) s (fun t => s.flEnded 0 t ∧ s.frameEv [] [R.FL_STAT, R.FL_EVT] t)) ∧
      (∀ u, s.flNotBlank a n = some u →
        gives (.blankCheck len pid) s (fun t => s.flEnded 11 t ∧ t.rg R.FL_ERR_ADDR = w32 u ∧
          s.frameEv [] [R.FL_STAT, R.FL_EVT, R.FL_ERR_ADDR] t))) ∧
    -- TRIM_WRITE
    (∀ k, s.flPasses pid true → free → (List.range 16).find? (fun j => s.trimErased j) = some k →
      (trimOk (s.flBuf 1024) = true →
        gives (.trimWrite pid) s (fun t => ∃ kill, State.flBegun (.program ((List.range 4).map (fun p =>
            (0x3FE0000 + 0x400 * k + 256 * p, (((s.flBuf 1024).take 0x3E0).drop (256 * p)).take 256)) ++ kill)) t ∧
          (∀ e ∈ kill, e.2 = List.replicate 32 0) ∧ s.frame [.fl] [R.FL_STAT] t)) ∧
      (trimOk (s.flBuf 1024) = false → gives (.trimWrite pid) s (fun t => s.flEnded 10 t ∧ s.frameEv [] [R.FL_STAT, R.FL_EVT] t))) ∧
    (s.flPasses pid true → free → (List.range 16).find? (fun j => s.trimErased j) = none →
      gives (.trimWrite pid) s (fun t => s.flEnded 9 t ∧ s.frameEv [] [R.FL_STAT, R.FL_EVT] t)) ∧
    -- LOG_APPEND
    (∀ o rs, s.flPasses pid true → free → s.firstErased logBase 2048 = some o → s.flRecords logBase 2048 = (s, rs) →
      gives (.logAppend pid) s (fun t => State.flBegun (.program [(o, withCrc ((s.flBuf 32).take 4 ++ bytesLE 4 (lastSeq rs + 1) ++
        ((s.flBuf 32).drop 8).take 20))]) t ∧ s.frame [.fl] [R.FL_STAT] t)) ∧
    (s.flPasses pid true → free → s.firstErased logBase 2048 = none →
      gives (.logAppend pid) s (fun t => s.flEnded 9 t ∧ (s.quietEvents → t.rb R.FL_EVT F.FL_EVT_LOG_FULL = true) ∧
        s.frameEv [] [R.FL_STAT, R.FL_EVT] t)) ∧
    -- FLASH_SUSPEND, FLASH_RESUME, FL_BLK_RST
    (∀ k m, s.fl.run = some (.erase k m) → s.fl.lower = none →
      gives .flashSuspend s (fun t => t.fl = { s.fl with run := none, susp := some (k, m, false) } ∧ t.rb R.FL_STAT F.FL_STAT_SUSPENDED = true ∧
        t.rb R.FL_STAT F.FL_STAT_BUSY = true ∧ s.frame [.fl] [R.FL_STAT] t)) ∧
    (∀ k m b, s.fl.susp = some (k, m, b) → s.fl.run = none →
      gives .flashResume s (fun t => t.fl = { s.fl with run := some (.erase k m), susp := none } ∧ t.rb R.FL_STAT F.FL_STAT_SUSPENDED = false ∧
        t.rb R.FL_STAT F.FL_STAT_BUSY = true ∧ s.bytesBut (flAt (0x10000 * k)) 0x10000 t ∧
        s.frame [.fl, .mem, .syn, .freeCtr] [R.FL_STAT] t)) ∧
    (free → exec .flashSuspend s = .next s ∧ exec .flashResume s = .next s) ∧
    (s.blkHeld 12 = true → exec .flBlkRst s = .next s) ∧
    (s.blkHeld 12 = false →
      let idle := s.fl.run = none ∧ s.fl.susp = none ∧ s.fl.recs = []
      gives .flBlkRst s (fun t => t.fl = { Fl.reset with die := s.fl.die || s.fl.run.isSome || !s.fl.recs.isEmpty } ∧
        t.rb R.FL_STAT F.FL_STAT_BUSY = false ∧ t.rb R.FL_STAT F.FL_STAT_SUSPENDED = false ∧
        (idle → s.blockReset .block 0x540000 0x550000 [R.FL_STAT] t ∧ s.only [.regs, .fl] t) ∧ (¬ idle → s.flEnded 12 t) ∧
        (∀ k m, s.fl.run = some (.erase k m) → ∀ b, t.byteAt b = s.byteAt b) ∧
        (∀ o l r, s.fl.run = some (.program ((o, l) :: r)) → o < 0x3FE0000 → o % 32 = 0 → l.length % 32 = 0 →
          (∀ i < l.length, t.byteAt (flAt (o + i)) = l.getD i 0) ∧ s.bytesBut (flAt o) l.length t)))

/-- R319–R322, R325: the OTP row. A read gives a word but for the secret ones; programming pulses each bit that is to become 1, and no bit ever
returns to 0. -/
def Obligations.OtpCommands : Prop :=
  ∀ s : State,
    let k := s.rf R.OT_WSEL F.OT_WSEL_WORD
    let ended := fun (st : Nat) (t : State) => t.rf R.OT_STAT F.OT_STAT_STATUS = st ∧ t.rb R.OT_CMD F.OT_CMD_DONE = true
    -- OTP_READ
    (s.ot.run = none → (k < 64 ∨ 95 < k) →
      gives .otpRead s (fun t => ended 0 t ∧ t.rg R.OT_WDATA = s.otWord k ∧ s.frameR [R.OT_STAT, R.OT_CMD, R.OT_WDATA] t)) ∧
    (s.ot.run = none → 64 ≤ k → k ≤ 95 →
      gives .otpRead s (fun t => ended 3 t ∧ t.rg R.OT_WDATA = 0 ∧ s.frameR [R.OT_STAT, R.OT_CMD, R.OT_WDATA] t)) ∧
    (s.ot.run.isSome = true →
      gives .otpRead s (fun t => ended 1 t ∧ s.frameR [R.OT_STAT, R.OT_CMD] t) ∧
      gives .otpProg s (fun t => ended 1 t ∧ s.frameR [R.OT_STAT, R.OT_CMD] t)) ∧
    -- OTP_PROG
    (∀ bits, bits = (bitList 32 (s.rg R.OT_WDATA).toNat).filter (fun b => !wbit (s.otWord k) b) → s.ot.run = none →
      (s.otAllowed k = true → bits ≠ [] →
        gives .otpProg s (fun t => t.ot = { s.ot with run := some { left := bits.map (fun b => (k, b)), done := [], why := .prog } } ∧
          t.rb R.OT_STAT F.OT_STAT_BUSY = true ∧ t.rb R.OT_CMD F.OT_CMD_DONE = false ∧ s.frame [.ot] [R.OT_STAT, R.OT_CMD] t)) ∧
      (s.otAllowed k = true → bits = [] → gives .otpProg s (fun t => ended 0 t ∧ s.frameR [R.OT_STAT, R.OT_CMD] t)) ∧
      (s.otAllowed k = false → gives .otpProg s (fun t => ended 2 t ∧ s.frameR [R.OT_STAT, R.OT_CMD] t))) ∧
    -- OTP_PULSE_END
    (∀ r w b l ok, s.ot.run = some r → r.left = (w, b) :: l → l ≠ [] → s.rs.deferred = [] → b < 32 →
      gives (.otpPulseEnd ok) s (fun t => t.ot.run = some { r with left := l, done := r.done ++ [(w, b)] } ∧
        (ok = true → wbit (t.otWord w) b = true) ∧ (∀ v c, wbit (s.otWord v) c = true → wbit (t.otWord v) c = true) ∧
        (∀ v, v ≠ w → t.otWord v = s.otWord v) ∧ (ok = false → t.otWord w = s.otWord w) ∧ s.frame [.ot] [] t)) ∧
    (∀ r w b ok, s.ot.run = some r → r.left = [(w, b)] → r.done = [] → r.why = .prog → s.rs.deferred = [] → b < 32 → wbit (s.otWord w) b = false →
      gives (.otpPulseEnd ok) s (fun t => t.ot.run = none ∧ ended (if ok then 0 else 4) t ∧ t.rb R.OT_STAT F.OT_STAT_BUSY = false ∧
        wbit (t.otWord w) b = ok ∧ (∀ v, v ≠ w → t.otWord v = s.otWord v) ∧ s.only [.regs, .ot] t)) ∧
    (∀ ok, s.ot.run = none → exec (.otpPulseEnd ok) s = .next s)

/-- R349–R352: a proposal passes its checks in their order or leaves its result; consent comes from another partner, inside 10 s, with the tag of
the second key; eight rejections in a row lock the controller. -/
def Obligations.TwoPartyControl : Prop :=
  ∀ (s : State) (pid : BitVec 10),
    let result := fun (res : Nat) (t : State) => t.rf R.SC_TP_STAT F.SC_TP_STAT_RESULT = res ∧
      (s.quietEvents → t.rb R.SC_EVT (if res = 0 then F.SC_EVT_TP_DONE else F.SC_EVT_TP_REJECT) = true)
    let closed := fun (res : Nat) (t : State) => t.sc = { s.sc with prop := none } ∧ t.rf R.SC_TP_STAT F.SC_TP_STAT_STATE = 0 ∧ result res t ∧
      s.frameEv [.sc] [R.SC_TP_STAT, R.SC_EVT] t
    -- PROPOSE
    (∀ c, s.propJudge = some c → c < 16 →
      gives (.tpPropose pid) s (fun t => result c t ∧ t.sc = s.sc ∧
        s.frameEv [.freeCtr] ([R.SC_TP_STAT, R.SC_EVT] ++ (List.range 12).map R.SC_TP_CHAL) t ∧
        ((c = 1 ∨ c = 2) → s.rf R.SC_TP_STAT F.SC_TP_STAT_REJ < 7 →
          t.rf R.SC_TP_STAT F.SC_TP_STAT_REJ = s.rf R.SC_TP_STAT F.SC_TP_STAT_REJ + 1) ∧
        ((c = 1 ∨ c = 2) → s.rf R.SC_TP_STAT F.SC_TP_STAT_REJ = 7 → t.rf R.SC_TP_STAT F.SC_TP_STAT_STATE = 3 ∧
          (s.quietEvents → t.rb R.SC_EVT F.SC_EVT_TP_LOCK = true)))) ∧
    (s.sc.prop.isSome = true → s.propJudge = some 4) ∧
    (s.sc.prop = none → s.rf R.SC_TP_STAT F.SC_TP_STAT_STATE = 3 → s.propJudge = some 14) ∧
    (s.propJudge = none →
      gives (.tpPropose pid) s (fun t => t.sc = { s.sc with prop := some { bytes := (s.regBytes R.SC_TP_PROP 42).take 120, by_ := pid.toNat, time := s.now, exec := false } } ∧ t.rf R.SC_TP_STAT F.SC_TP_STAT_STATE = 1 ∧ t.rf R.SC_TP_STAT F.SC_TP_STAT_PROPOSER = pid.toNat ∧
        s.frame [.sc, .freeCtr] (R.SC_TP_STAT :: (List.range 12).map R.SC_TP_CHAL) t)) ∧
    -- CONSENT
    (∀ p, s.sc.prop = some p → p.exec = false → s.propLate p = false → pid.toNat ≠ p.by_ →
      (s.regBytes R.SC_TP_CONS 12 = hashBytes (Config.hmac384 (s.otBytes 84 12) (hashBytes (Config.sha384 p.bytes))) →
        gives (.tpConsent pid) s (fun t => t.sc = { s.sc with prop := some { p with exec := true } } ∧
          t.rf R.SC_TP_STAT F.SC_TP_STAT_STATE = 2 ∧ s.frame [.sc] [R.SC_TP_STAT] t)) ∧
      (s.regBytes R.SC_TP_CONS 12 ≠ hashBytes (Config.hmac384 (s.otBytes 84 12) (hashBytes (Config.sha384 p.bytes))) →
        gives (.tpConsent pid) s (fun t => t.sc = { s.sc with prop := none } ∧ result 7 t ∧ s.frameEv [.sc] [R.SC_TP_STAT, R.SC_EVT] t))) ∧
    (∀ p, s.sc.prop = some p → p.exec = false → s.propLate p = true → gives (.tpConsent pid) s (closed 8)) ∧
    (∀ p, s.sc.prop = some p → p.exec = false → s.propLate p = false → pid.toNat = p.by_ →
      gives (.tpConsent pid) s (fun t => result 6 t ∧ t.sc = s.sc ∧ s.frameEv [] [R.SC_TP_STAT, R.SC_EVT] t)) ∧
    (s.sc.prop = none →
      gives (.tpConsent pid) s (fun t => result 5 t ∧ t.sc = s.sc ∧ s.frameEv [] [R.SC_TP_STAT, R.SC_EVT] t) ∧
      gives (.tpCancel pid) s (fun t => result 5 t ∧ t.sc = s.sc ∧ s.frameEv [] [R.SC_TP_STAT, R.SC_EVT] t)) ∧
    -- CANCEL, PROPOSAL_EXPIRE
    (∀ p, s.sc.prop = some p → p.exec = false →
      (pid.toNat = p.by_ → gives (.tpCancel pid) s (closed 15)) ∧ (pid.toNat ≠ p.by_ → exec (.tpCancel pid) s = .next s) ∧
      (s.propLate p = true → gives .proposalExpire s (closed 8)) ∧ (s.propLate p = false → exec .proposalExpire s = .next s)) ∧
    -- the operations
    (∀ p, s.sc.prop = some p → p.exec = true → s.ot.run = none → s.fl.recs = [] →
      let pulsed := fun (bits : List (Nat × Nat)) (why : OtWhy) (t : State) =>
        t.ot = { s.ot with run := some { left := bits, done := [], why := why } } ∧ t.rb R.OT_STAT F.OT_STAT_BUSY = true ∧ t.sc = s.sc ∧
        s.frame [.ot] [R.OT_STAT, R.OT_CMD] t
      -- RDP_RAISE1, RDP_RAISE2
      (∀ b, propOp p.bytes = 1 → s.rdp1Free = some b → s.rdp = 0 → gives .rdpRaise1 s (pulsed [b] .raise1)) ∧
      (∀ b, propOp p.bytes = 1 → s.rdp1Free = some b → 1 ≤ s.rdp → gives .rdpRaise1 s (closed 11)) ∧
      (propOp p.bytes = 1 → s.rdp1Free = none → gives .rdpRaise1 s (closed 9)) ∧
      (propOp p.bytes = 2 → s.otWord 55 &&& 7 = 0 → gives .rdpRaise2 s (pulsed [(55, 0), (55, 1), (55, 2)] .raise2)) ∧
      -- RDP_LOWER
      (propOp p.bytes = 3 → s.rdp ≠ 1 → gives .rdpLower s (closed 11)) ∧
      (∀ r, propOp p.bytes = 3 → s.rdp = 1 → s.journalRec .lowerBegin 1 1 0 = some r →
        gives .rdpLower s (fun t => t.fl = { s.fl with recs := [r] } ∧ t.rg R.FL_RDP_STAT = 1 ∧ t.rb R.FL_STAT F.FL_STAT_BUSY = true ∧
          s.frame [.fl] [R.FL_RDP_STAT, R.FL_STAT] t)) ∧
      (propOp p.bytes = 3 → s.rdp = 1 → s.journalRec .lowerBegin 1 1 0 = none → s.rs.seq = none → s.rs.held = [] →
        gives .rdpLower s (fun t => t.rs.seq = some { reach := 1, step := 0, half := false, code := 10, detail := 0 } ∧
          t.rg R.RS_CAUSE = w32 (10 + 64))) ∧
      -- FW_COMMIT, not persistent
      (propOp p.bytes = 4 → p.bytes.drop 72 ≠ hashBytes (Config.sha384 (mapBytes s.rg)) → gives .fwCommit s (closed 12)) ∧
      (propOp p.bytes = 4 → p.bytes.drop 72 = hashBytes (Config.sha384 (mapBytes s.rg)) → propArg p.bytes ≠ 1 →
        gives .fwCommit s (fun t => (∀ i < 232, t.fwLive (mapReg i) = s.rg (mapReg i)) ∧ t.sc.prop = none ∧ result 0 t ∧
          t.rf R.SC_TP_STAT F.SC_TP_STAT_REJ = 0 ∧ s.frameEv [.sc] ([R.SC_TP_STAT, R.SC_EVT] ++ (List.range 12).map R.SC_FW_DIG) t)) ∧
      (∀ k, propOp p.bytes = 4 → p.bytes.drop 72 = hashBytes (Config.sha384 (mapBytes s.rg)) → propArg p.bytes = 1 → s.policyFree = some k →
        gives .fwCommit s (fun t => (∀ i < 232, t.fwLive (mapReg i) = s.rg (mapReg i)) ∧ t.sc.prop = some p ∧
          ∃ r, t.fl.recs = [r] ∧ r.off = policyAt k ∧ r.why = .policy ∧ r.bytes.length = 1024 ∧
            r.bytes.drop 1020 = bytesLE 4 (crc32c (r.bytes.take 1020)))) ∧
      (propOp p.bytes = 4 → p.bytes.drop 72 = hashBytes (Config.sha384 (mapBytes s.rg)) → propArg p.bytes = 1 → s.policyFree = none →
        gives .fwCommit s (closed 13)) ∧
      -- REVOKE
      (∀ k live, k = propArg p.bytes → live = (List.range 4).filter (fun j => !wbit (s.otWord 52) j && (s.otBytes (4 + 12 * j) 12).any (fun b => b != 0)) →
        propOp p.bytes = 5 →
        ((k ∉ live ∨ live.length = 1) → gives .keyRevoke s (closed 10)) ∧
        (k ∈ live → live.length ≠ 1 → gives .keyRevoke s (pulsed [(52, k)] .revoke))) ∧
      -- DEBUG_UNLOCK
      (propOp p.bytes = 6 → s.rdp = 1 →
        gives .debugUnlock s (fun t => t.sc = { s.sc with prop := none, dbgEnd := s.now + 30000000000 * propArg p.bytes } ∧
          t.rb R.SC_DBG_STAT F.SC_DBG_STAT_UNLOCKED = true ∧ result 0 t ∧ s.frameEv [.sc] [R.SC_TP_STAT, R.SC_EVT, R.SC_DBG_STAT] t)) ∧
      (propOp p.bytes = 6 → s.rdp ≠ 1 → gives .debugUnlock s (closed 11)) ∧
      -- ICP_POLICY
      (propOp p.bytes = 7 → s.policyFree = none → gives .icpPolicy s (closed 13)) ∧
      (∀ k, propOp p.bytes = 7 → s.policyFree = some k →
        gives .icpPolicy s (fun t => t.rb R.CG_ICP_POLICY F.CG_ICP_POLICY_SIGNED = (propArg p.bytes == 1) ∧ t.sc.prop = some p ∧
          ∃ r, t.fl.recs = [r] ∧ r.off = policyAt k ∧ r.why = .policy ∧ r.bytes.length = 1024))) ∧
    -- FLASH_PROGRAM_DONE of a record
    (∀ r l, s.fl.run = none → s.fl.recs = r :: l →
      (r.why = .policy →
        gives .flashProgramDone s (fun t => t.sc = { s.sc with prop := none } ∧ t.fl = { s.fl with recs := l } ∧ result 0 t ∧
          t.rf R.SC_TP_STAT F.SC_TP_STAT_REJ = 0 ∧ s.frameEv [.sc, .fl, .mem, .syn, .sm] [R.SC_TP_STAT, R.SC_EVT, R.FL_STAT] t)) ∧
      (∀ b, r.why = .lowerEnd → s.rdp1Free = some b →
        gives .flashProgramDone s (fun t => t.fl = { s.fl with recs := l } ∧ t.rg R.FL_RDP_STAT = 4 ∧
          t.ot = { s.ot with run := some { left := [b], done := [], why := .lower } } ∧
          s.frame [.ot, .fl, .mem, .syn, .sm] [R.FL_RDP_STAT, R.FL_STAT, R.OT_STAT, R.OT_CMD] t))) ∧
    -- DEBUG_UNLOCK_END
    (s.rb R.SC_DBG_STAT F.SC_DBG_STAT_UNLOCKED = true → s.sc.dbgEnd ≤ s.now →
      gives .debugUnlockEnd s (fun t => t.rg R.SC_DBG_STAT = 0 ∧ (s.quietEvents → t.rb R.SC_EVT F.SC_EVT_DBG_END = true) ∧
        s.frameEv [] [R.SC_DBG_STAT, R.SC_EVT] t)) ∧
    ((s.rb R.SC_DBG_STAT F.SC_DBG_STAT_UNLOCKED = false ∨ s.now < s.sc.dbgEnd) → exec .debugUnlockEnd s = .next s) ∧
    -- ATTEST_GO, ATTEST_DONE
    (s.rb R.SC_ATT_STAT F.SC_ATT_STAT_BUSY = true → exec (.attestGo pid) s = .next s) ∧
    (s.rb R.SC_ATT_STAT F.SC_ATT_STAT_BUSY = false →
      (s.rb R.SC_STAT F.SC_STAT_ID_BAD = true → gives (.attestGo pid) s (fun t => t.rg R.SC_ATT_STAT = 2 ∧ s.frameR [R.SC_ATT_STAT] t)) ∧
      (s.rb R.SC_STAT F.SC_STAT_ID_BAD = false →
        gives (.attestGo pid) s (fun t => t.rg R.SC_ATT_STAT = 1 ∧ t.sc = { s.sc with att := some { pid := pid.toNat, nonce := s.regBytes R.SC_ATT_NONCE 8, base := 4096 * s.rf R.SC_ATT_BASE F.SC_ATT_BASE_BASE } } ∧
          s.frame [.sc] [R.SC_ATT_STAT] t))) ∧
    (∀ a, s.sc.att = some a → a.pid = 0 → a.base + 18528 ≤ 0x3000000 →
      (∀ x, a.base ≤ x → x < a.base + 18528 → s.domOn (2 + x / 0x80000 / 12) = true) → s.smbRangeHeld a.base (512 * 37) = false → s.unarmed →
      gives .attestDone s (fun t => t.rg R.SC_ATT_STAT = 0 ∧ t.sc = { s.sc with att := none } ∧
        (s.quietEvents → t.rb R.SC_EVT F.SC_EVT_ATT_DONE = true) ∧
        (∀ b, (∀ i < 2316, b / 8 ≠ s.smbPlace (a.base + 8 * i) / 8) → t.byteAt b = s.byteAt b) ∧
        s.frameEv [.sc, .mem, .syn, .sm, .freeCtr] [R.SC_ATT_STAT, R.SC_EVT] t)) ∧
    (∀ a, s.sc.att = some a → s.smbRangeHeld a.base (512 * 37) = true → exec .attestDone s = .next s) ∧
    (s.sc.att = none → exec .attestDone s = .next s)

/-- R356, R357, R359, R366, R506, R507: the PCIe side. An access of BAR0 is one register request, one of BAR2 a read or a write; a doorbell moves
one ring's index or is ignored with DB_ERR; a surprise link-down, FLR and D3hot are a block reset of the host interface; the writes of
HI_QP_CFG. -/
def Obligations.HostAccess : Prop :=
  ∀ (s : State) (write : Bool) (v : Word) (q : Fin 1024),
    let up := s.pcieUp = true
    let x := v.toNat % 0x10000
    let cfg := R.HI_QP_CFG q
    let reset := fun (as : List Nat) (t : State) => t.hi = Hi.reset ∧ t.ev = EvUnit.reset ∧ s.only [.regs, .hi, .ev, .cg, .arr, .out] t ∧
      (∀ i, 8 ≤ i → i < 1024 → t.rf (R.HI_PT i) F.HI_PT_STATE = 0 ∧ (s.rf (R.HI_PT i) F.HI_PT_STATE = 1 → s.rf (R.HI_PT i) F.HI_PT_KIND = 0 →
        t.rf (R.HI_PT i) F.HI_PT_GEN = (s.rf (R.HI_PT i) F.HI_PT_GEN + 1) % 256)) ∧
      (∀ a, a ∉ as → ¬ (R.HI_PT 8 ≤ a ∧ a < R.HI_PT 1024) → t.rg a = if 0x580000 ≤ a ∧ a < 0x640000 then clearReg .run a (s.rg a) else s.rg a)
    let dbErr := fun (t : State) => (s.quietEvents → t.rb R.HI_EVT F.HI_EVT_DB_ERR = true) ∧ s.frameEv [] [R.HI_EVT] t
    (s.qvMode = true → ∀ rate width : Fin 4, exec (.pcieLinkUp rate width) s =
      .next (s.setRg R.HI_LINK (w32 (rate.val + 1 + 8 * 2 ^ width.val)))) ∧
    -- BAR0_ACCESS, BAR2_ACCESS
    (∀ off : BitVec 24, up → blockOf off.toNat ≠ 24 → s.hi.mmio = [] →
      gives (.bar0Access write off v) s (fun t => s.sent (if write then 5 else 4) (blockNode (blockOf off.toNat)) t ∧
        (s.noProbes → s.frame [.hi, .net] [] t))) ∧
    (∀ off : BitVec 24, up → blockOf off.toNat = 24 → s.hi.mmio = [] →
      gives (.bar0Access false off v) s (fun t => t.out = s.out ++ [.pcie true []] ∧ s.only [.hi, .out] t) ∧
      gives (.bar0Access true off v) s (fun t => (s.quietEvents → t.rb R.HI_EVT F.HI_EVT_MMIO_ERR = true) ∧
        s.frameEv [.hi] [R.HI_EVT] t)) ∧
    (∀ (a : BitVec 26) (n : Fin 4097) (data : List (Option Byte)), up → a.toNat < 0x3000000 → s.hi.mmio = [] → 1 ≤ n.val → n.val ≤ data.length →
      a.toNat % 32 + n.val ≤ 32 →
      gives (.bar2Access write a n data) s (fun t => s.sent (if write then 2 else 1) (smbNode (a.toNat / 32 * 32)) t ∧
        (s.noProbes → s.frame [.hi, .net] [] t))) ∧
    -- Doorbells
    (up → s.qpState q = 1 → x < 2 ^ s.rf cfg F.HI_QP_CFG_SQ_SIZE →
      gives (.submissionDoorbell q v) s (fun t => s.qpNow q { s.qp q with tail := x } t ∧ s.only [.hi] t)) ∧
    (up → s.qpState q ≠ 1 ∨ 2 ^ s.rf cfg F.HI_QP_CFG_SQ_SIZE ≤ x → gives (.submissionDoorbell q v) s dbErr) ∧
    (∀ head, up → s.qpState q ≠ 0 → (s.qp q).cqHead = head → head < 2 ^ s.rf cfg F.HI_QP_CFG_CQ_SIZE → x < 2 ^ s.rf cfg F.HI_QP_CFG_CQ_SIZE →
      gives (.completionDoorbell q v) s (fun t => s.only [.hi] t ∧ (t.qp q).cqHead = x ∧
        (t.qp q).unread = (s.qp q).unread - (if head ≤ x then x - head else x + 2 ^ s.rf cfg F.HI_QP_CFG_CQ_SIZE - head) ∧
        ∀ m : Nat, m ≠ q.val → t.qp m = s.qp m)) ∧
    (up → s.qpState q = 0 ∨ 2 ^ s.rf cfg F.HI_QP_CFG_CQ_SIZE ≤ x → gives (.completionDoorbell q v) s dbErr) ∧
    (up → q.val < 64 → x < 2 ^ s.rf (R.EV_RING_CFG q) F.EV_RING_CFG_SIZE → (s.ring q).head ≤ x →
      gives (.eventRingDoorbell q 8 v) s (fun t => s.only [.ev] t ∧ t.ring q = { s.ring q with head := x, unread := (s.ring q).unread - (x - (s.ring q).head) } ∧
        ∀ m : Nat, m ≠ q.val → t.ring m = s.ring m)) ∧
    (∀ off : BitVec 12, up → off ≠ 8 ∨ 64 ≤ q.val → gives (.eventRingDoorbell q off v) s dbErr) ∧
    -- Block resets
    (s.blkHeld 15 = true → exec .hiBlkRst s = .next s) ∧
    (s.blkHeld 15 = false → gives .hiBlkRst s (reset [])) ∧
    (up → gives .flr s (fun t => t.rb R.HI_EVT F.HI_EVT_FLR = true ∧ t.hi = Hi.reset ∧ (s.quietEvents → reset [R.HI_EVT] t))) ∧
    (up → gives .pcieLinkDown s (fun t => t.rg R.HI_LINK = 0 ∧ t.rb R.HI_EVT F.HI_EVT_LINK_DOWN = true ∧ t.hi = Hi.reset ∧
      (s.quietEvents → reset [R.HI_LINK, R.HI_EVT] t))) ∧
    (up → s.rb cfg F.HI_QP_CFG_EN = true → gives .d3hotEntry s (reset [])) ∧
    (up → (∀ k, k < 1024 → s.rb (R.HI_QP_CFG k) F.HI_QP_CFG_EN = false) → exec .d3hotEntry s = .next s) ∧
    (¬ up → ∀ c ∈ [Instr.bar0Access write (BitVec.ofNat 24 x) v, .submissionDoorbell q v, .completionDoorbell q v, .flr, .pcieLinkDown, .d3hotEntry],
      exec c s = .next s) ∧
    -- HI_QP_CFG
    (s.rb cfg F.HI_QP_CFG_EN = true → F.HI_QP_CFG_EN.bit v = true →
      gives (.hiQpCfgWrite q v) s (fun t => (s.quietEvents → t.rb R.HI_EVT F.HI_EVT_CFG_ERR = true) ∧ s.frameEv [] [R.HI_EVT] t)) ∧
    (s.rb cfg F.HI_QP_CFG_EN = false → F.HI_QP_CFG_EN.bit v = true → s.rb cfg F.HI_QP_CFG_BOUND = false →
      gives (.hiQpCfgWrite q v) s (fun t => (s.quietEvents → t.rb R.HI_EVT F.HI_EVT_CFG_ERR = true) ∧ s.frameEv [] [R.HI_EVT] t)) ∧
    (s.rb cfg F.HI_QP_CFG_EN = false → F.HI_QP_CFG_EN.bit v = true → s.rb cfg F.HI_QP_CFG_BOUND = true →
      gives (.hiQpCfgWrite q v) s (fun t => t.rg cfg = s.written cfg v ∧ s.qpNow q { Qp.idle with recs := (s.qp q).recs } t ∧
        s.frame [.hi] [cfg] t)) ∧
    (s.rb cfg F.HI_QP_CFG_EN = false → F.HI_QP_CFG_EN.bit v = false →
      gives (.hiQpCfgWrite q v) s (fun t => t.rg cfg = s.written cfg v ∧ s.frameR [cfg] t)) ∧
    (s.rb cfg F.HI_QP_CFG_EN = true →
      gives (.queuePairDisable q v) s (fun t => t.rb cfg F.HI_QP_CFG_EN = false ∧ s.only [.regs, .hi, .cg, .arr, .qs, .ev, .out, .freeCtr] t)) ∧
    (∀ d e, s.rb cfg F.HI_QP_CFG_EN = true → (s.qp q).infl = [d, e] → d.dseq ≠ e.dseq → d.started = true → d.op = 4 → e.started = false →
      gives (.queuePairDisable q v) s (fun t => t.rg cfg = s.written cfg (w32 (clrBit v.toNat 0)) ∧ (t.qp q).infl = [] ∧
        (t.qp q).recs = (s.qp q).recs ++ [.mk (recWords d.dseq 1 11 d.units d.units 0) (d.fld 0 8 1 == 1), .mk (recWords e.dseq 3 11 0 0 0) (e.fld 0 8 1 == 1)] ∧
        (∀ m : Nat, m ≠ q.val → t.qp m = s.qp m)))

/-- R360–R364, R367, R370: descriptors. One is fetched while fewer than 32 are in flight and fewer than 8 records wait; each operation moves its
descriptor on by a unit, or ends it with the record that Table HI-5 gives. -/
def Obligations.Descriptors : Prop :=
  ∀ (s : State) (q : Fin 1024) (dseq : Word) (d : Desc) (v : Word) (host : Bool),
    let k := s.qp q
    let cfg := R.HI_QP_CFG q
    let size := 2 ^ s.rf cfg F.HI_QP_CFG_SQ_SIZE
    let run := fun (op : Nat) => s.running q dseq op = some d
    let qu := d.fld 5 0 10
    -- DESCRIPTOR_FETCH
    (∀ words image : List Word,
      let f : Desc := { dseq := k.next, w := (List.range 8).map (fun i => words.getD i 0), image := (List.range 8).map (fun i => image.getD i 0), units := 0, started := false, trunc := false }
      let can := s.qpState q = 1 ∧ k.tail < size ∧ k.tail ≠ k.next % size ∧ k.infl.length < 32 ∧ s.recsWait q < 8
      (can → f.op ≠ 6 → f.fld 0 16 8 = s.rf (R.HI_PT (s.rf cfg F.HI_QP_CFG_PARTNER)) F.HI_PT_GEN → f.bad = false →
        gives (.descriptorFetch q words image false) s (fun t =>
          s.qpNow q { k with next := (k.next + 1) % 2 ^ 32, infl := k.infl ++ [f] } t ∧ s.only [.hi] t)) ∧
      (can → f.op ≠ 6 → (∀ e ∈ k.infl, e.dseq ≠ k.next) →
        (∀ (e : Bool) (st code : Nat), (e = true ∧ st = 2 ∧ code = 7) ∨
            (e = false ∧ f.fld 0 16 8 ≠ s.rf (R.HI_PT (s.rf cfg F.HI_QP_CFG_PARTNER)) F.HI_PT_GEN ∧ st = 3 ∧ code = 4) ∨
            (e = false ∧ f.fld 0 16 8 = s.rf (R.HI_PT (s.rf cfg F.HI_QP_CFG_PARTNER)) F.HI_PT_GEN ∧ f.bad = true ∧ st = 2 ∧ code = 5) →
          gives (.descriptorFetch q words image e) s (fun t =>
            s.qpNow q { k with next := (k.next + 1) % 2 ^ 32, recs := k.recs ++ [.mk (recWords k.next st code 0 0 0) (f.fld 0 8 1 == 1)] } t ∧
            s.frameEv [.hi] [R.HI_EVT] t))) ∧
      (s.qpState q ≠ 1 ∨ k.tail = k.next % size ∨ 32 ≤ k.infl.length ∨ 8 ≤ s.recsWait q →
        exec (.descriptorFetch q words image host) s = .next s)) ∧
    -- A descriptor that is not this operation's, or may not start yet
    (∀ (c : Instr) (op : Nat), (c, op) ∈ [(Instr.streamIn q dseq v host, 1), (.streamOut q dseq, 2), (.memCopy q dseq 0 host, 3),
        (.loadPleats q dseq, 4), (.foldAt q dseq, 5), (.markWrite q dseq, 6), (.configPartial q dseq [] host, 7), (.descQuery q dseq, 8),
        (.descBarrier q dseq, 9)] → s.running q dseq op = none → exec c s = .next s) ∧
    -- STREAM_IN
    (run 1 → s.streamBad q d = none → d.started = true → d.units + 1 < d.fld 4 0 24 → s.domOn (2 + s.qBank qu / 12) = true →
      s.qTakes qu = true → (s.qu qu).plain →
      gives (.streamIn q dseq v false) s (fun t => s.moved q { d with units := d.units + 1 } t ∧
        (t.qu qu).ents = (s.qu qu).ents ++ [Token.make v (d.fld 4 24 4) (d.fld 6 0 24 != 0 && (d.units + 1) % d.fld 6 0 24 == 0) false false none] ∧
        s.queuesBut [qu] t)) ∧
    (run 1 → ∀ c, s.streamBad q d = some c → d.units = 0 →
      gives (.streamIn q dseq v host) s (fun t => s.recorded q d 2 c 0 0 (s.streamOseq qu false) t ∧ t.qs = s.qs)) ∧
    (run 1 → s.streamBad q d = none → d.started = true → d.units < d.fld 4 0 24 → s.domOn (2 + s.qBank qu / 12) = true → s.qTakes qu = false →
      gives (.streamIn q dseq v host) s (fun t => s.moved q d t ∧ s.only [.hi] t)) ∧
    -- STREAM_OUT
    (run 2 → s.streamBad q d = none → d.started = true → d.units + 1 < d.fld 4 0 24 → s.domOn (2 + s.qBank qu / 12) = true →
      ∀ e, s.qHead qu = some e → e.fold = false → (e.last = true → d.fld 4 25 1 = 0) → d.fld 4 24 1 = 0 →
      gives (.streamOut q dseq) s (fun t => s.moved q { d with units := d.units + 1, trunc := d.trunc || e.err } t ∧
        Out.hostWrite (d.num 2 + 4 * d.units) [e.data] ∈ t.out ∧ s.queuesBut [qu] t)) ∧
    (run 2 → s.streamBad q d = none → d.started = true → d.units < d.fld 4 0 24 → s.domOn (2 + s.qBank qu / 12) = true → s.qHead qu = none →
      gives (.streamOut q dseq) s (fun t => s.moved q d t ∧ s.only [.hi] t)) ∧
    -- MEM_COPY from host memory to the stream memory, and its refusal
    (∀ data : BitVec 256, run 3 → d.num 2 % 32 = 0 → d.num 4 % 32 = 0 → d.fld 6 24 2 = 0 → d.units + 1 < d.fld 6 0 24 →
      let a := d.num 4 + 32 * d.units
      a < 0x3000000 → s.smbRangeHeld a 32 = false → (s.fwJudge (s.qpPid q) 0 a false true).2 = true → s.domOn (2 + a / 0x80000 / 12) = true →
      (∀ j < 4, s.classAt (s.smbPlace (a + 8 * j)) = .good) →
      gives (.memCopy q dseq data false) s (fun t => s.moved q { d with started := true, units := d.units + 1 } t ∧
        (s.unarmed → ∀ j < 4, t.numAt (s.smbPlace (a + 8 * j)) 8 = bitsOf data.toNat (64 * j) 64))) ∧
    (run 3 → d.num 2 % 32 ≠ 0 → gives (.memCopy q dseq 0 host) s (fun t =>
      s.recorded q d (if d.units = 0 then 2 else 1) 2 d.units d.units 0 t ∧ s.frameEv [.hi] [R.HI_EVT] t)) ∧
    (run 3 → d.num 2 % 32 = 0 → d.num 4 % 32 = 0 → d.fld 6 24 2 = 0 → d.units < d.fld 6 0 24 → s.smbRangeHeld (d.num 4 + 32 * d.units) 32 = false →
      gives (.memCopy q dseq 0 true) s (fun t => s.recorded q { d with started := true } (if d.units = 0 then 2 else 1) 7 d.units d.units 0 t ∧
        s.frameEv [.hi] [R.HI_EVT] t)) ∧
    -- LOAD_PLEATS
    (run 4 → d.started = false → s.loadDepth < 8 →
      gives (.loadPleats q dseq) s (fun t => s.moved q { d with started := true } t ∧
        t.arr = { s.arr with loadQ := s.arr.loadQ ++ [.mk (d.fld 2 0 10) (d.fld 2 16 4) d.tiles (some (q.val, d.dseq))] } ∧
        s.only [.hi, .arr] t)) ∧
    (run 4 → 8 ≤ s.loadDepth → exec (.loadPleats q dseq) s = .next s) ∧
    -- FOLD_AT, MARK_WRITE
    (run 5 → d.started = false → s.mkWaits (d.fld 2 10 3) (d.fld 2 0 10) true = false →
      let n := d.fld 2 0 10
      gives (.foldAt q dseq) s (fun t => t.rg (R.MK_ENT_POS_LO n) = d.w.getD 3 0 ∧ t.rg (R.MK_ENT_POS_HI n) = d.w.getD 4 0 ∧
        t.rg (R.MK_ENT_HYST n) = 0 ∧ t.rg (R.MK_ENT_PER_LO n) = 0 ∧ t.rg (R.MK_ENT_PER_HI n) = 0 ∧ t.rg (R.MK_ENT_ARG1 n) = 0 ∧
        t.rg (R.MK_ENT_ARG0 n) = w32 (d.fld 2 15 4 + 16 * d.fld 2 19 1 + 256 * d.fld 2 20 4))) ∧
    (run 6 → s.mkWaits (bitsOf (d.image.getD 0 0).toNat 0 3) (d.fld 2 0 10) (wbit (d.image.getD 0 0) 5) = false →
      let n := d.fld 2 0 10
      gives (.markWrite q dseq) s (fun t => t.rg (R.MK_ENT_POS_LO n) = d.image.getD 1 0 ∧ t.rg (R.MK_ENT_POS_HI n) = d.image.getD 2 0 ∧
        t.rg (R.MK_ENT_HYST n) = d.image.getD 3 0 ∧ t.rg (R.MK_ENT_ARG1 n) = d.image.getD 7 0 ∧
        (∀ e ∈ (t.qp q).infl, e.dseq ≠ d.dseq))) ∧
    (run 6 → s.mkWaits (bitsOf (d.image.getD 0 0).toNat 0 3) (d.fld 2 0 10) (wbit (d.image.getD 0 0) 5) = true →
      exec (.markWrite q dseq) s = .next s) ∧
    (run 5 → s.mkWaits (d.fld 2 10 3) (d.fld 2 0 10) true = true → exec (.foldAt q dseq) s = .next s) ∧
    -- CONFIG_PARTIAL: the start of a load, and its refusals
    (∀ hdr : List Byte, run 7 → d.started = false →
      let w := w32 (d.fld 5 0 32)
      let r := d.fld 5 0 4
      let img := hdr.take 0x6000
      (r < 15 → s.cg.part = none → s.cg.repair = [] → s.regionState r ≠ 0 → imgRegion img = r → (s.regionDoms r).all s.domOn = true →
        headerBad 2 img = none →
        gives (.configPartial q dseq hdr false) s (fun t => t.cg.part = some { region := r, host := true, desc := some (q.val, dseq.toNat), lining := liningOpt w, hdr := img, sig := false, content := [], units := 0, frame := 0xFFFF, lastAt := s.now } ∧
          t.regionState r = 2 ∧ t.rb R.CG_STATUS F.CG_STATUS_PL_BUSY = true ∧ t.rb R.SC_STAT F.SC_STAT_VERIFY_BUSY = true)) ∧
      (s.cg.part.isSome = true →
        gives (.configPartial q dseq hdr false) s (fun t => s.recorded q { d with started := true } 2 16 0 4 0 t ∧
          t.rg R.CG_PL_STAT = w32 (4 + 16 * r + 256 + 0xFFFF0000) ∧ s.frameEv [.hi] [R.CG_PL_STAT, R.HI_EVT] t)) ∧
      (d.units = 0 → gives (.configPartial q dseq hdr true) s (fun t => s.recorded q { d with started := true } 2 7 0 0 0 t ∧
        s.frameEv [.hi] [R.HI_EVT] t))) ∧
    -- QUERY
    (run 8 → d.num 2 % 4 = 0 → d.fld 4 0 24 % 4 = 0 → 1 ≤ d.fld 5 0 5 → d.fld 5 0 5 ≤ 16 →
      ∀ u l, s.queryGo (.mk (s.qpPid q) false false) (d.fld 5 0 5) (d.fld 4 0 24) = (u, l, 0) →
      gives (.descQuery q dseq) s (fun t => l.length = d.fld 5 0 5 ∧ Out.hostWrite (d.num 2) l ∈ t.out ∧
        s.recorded q d 0 0 (d.fld 5 0 5) (d.fld 5 0 5) 0 t)) ∧
    (run 8 → d.num 2 % 4 ≠ 0 ∨ d.fld 4 0 24 % 4 ≠ 0 ∨ d.fld 5 0 5 = 0 ∨ 16 < d.fld 5 0 5 → d.units = 0 →
      gives (.descQuery q dseq) s (fun t => s.recorded q d 2 2 0 0 0 t ∧ s.frameEv [.hi] [R.HI_EVT] t)) ∧
    -- BARRIER
    (run 9 → gives (.descBarrier q dseq) s (fun t => s.recorded q d 0 0 1 1 0 t ∧ s.frameEv [.hi] [R.HI_EVT] t)) ∧
    -- COMPLETION_RECORD_WRITE
    (∀ r rest, k.recs = r :: rest → k.unread < 2 ^ s.rf cfg F.HI_QP_CFG_CQ_SIZE →
      gives (.completionRecordWrite q) s (fun t =>
        let next := (k.cqTail + 1) % 2 ^ s.rf cfg F.HI_QP_CFG_CQ_SIZE
        s.qpNow q { k with recs := rest, unread := k.unread + 1, cqTail := next, phase := if next = 0 then !k.phase else k.phase } t ∧
        Out.hostWrite (s.rg64 (R.HI_QP_CQ_BASE_LO q) (R.HI_QP_CQ_BASE_HI q) + 16 * k.cqTail)
          (r.words.take 3 ++ [w32 ((r.words.getD 3 0).toNat + 2 ^ 31 * b2n k.phase)]) ∈ t.out ∧
        (r.irq = false → s.only [.hi, .out] t) ∧ s.frameEv [.hi] [] t)) ∧
    (k.recs = [] ∨ 2 ^ s.rf cfg F.HI_QP_CFG_CQ_SIZE ≤ k.unread → exec (.completionRecordWrite q) s = .next s)

/-- R369, R371, R373, R374: partners and reservations. -/
def Obligations.Partners : Prop :=
  ∀ (s : State),
    let r := s.rg R.HI_PT_REQ
    let ref := F.HI_PT_REQ_REF.get r
    let rsp := fun (st id gen : Nat) (t : State) => t.rg R.HI_PT_RSP = w32 (st + 4 + 256 * id + 2 ^ 24 * gen)
    -- JOIN takes the lowest free dynamic entry
    (∀ i, 8 ≤ i → i < 1024 → s.rf (R.HI_PT i) F.HI_PT_STATE = 0 → (∀ j, 8 ≤ j → j < i → s.rf (R.HI_PT j) F.HI_PT_STATE ≠ 0) →
      ¬ (F.HI_PT_REQ_KIND.get r = 0 ∧ s.rb (R.HI_QP_CFG ref) F.HI_QP_CFG_BOUND = true) →
      gives .ptJoin s (fun t => t.rg (R.HI_PT i) = w32 (1 + 4 * F.HI_PT_REQ_KIND.get r + 8 * ref + 2 ^ 13 * F.HI_PT_REQ_PRIO.get r +
          2 ^ 24 * s.rf (R.HI_PT i) F.HI_PT_GEN) ∧ rsp 0 i (s.rf (R.HI_PT i) F.HI_PT_GEN) t ∧
        (F.HI_PT_REQ_KIND.get r = 0 → t.rb (R.HI_QP_CFG ref) F.HI_QP_CFG_BOUND = true ∧ t.rf (R.HI_QP_CFG ref) F.HI_QP_CFG_PARTNER = i) ∧
        s.frameR [R.HI_PT i, R.HI_QP_CFG ref, R.HI_PT_RSP] t)) ∧
    ((∀ j, 8 ≤ j → j < 1024 → s.rf (R.HI_PT j) F.HI_PT_STATE ≠ 0) →
      gives .ptJoin s (fun t => rsp 1 0 0 t ∧ s.frameR [R.HI_PT_RSP] t)) ∧
    (∀ i, 8 ≤ i → i < 1024 → s.rf (R.HI_PT i) F.HI_PT_STATE = 0 → F.HI_PT_REQ_KIND.get r = 0 → s.rb (R.HI_QP_CFG ref) F.HI_QP_CFG_BOUND = true →
      gives .ptJoin s (fun t => rsp 2 0 0 t ∧ s.frameR [R.HI_PT_RSP] t)) ∧
    -- LEAVE
    (let id := F.HI_PT_REQ_ID.get r
     let e := s.rg (R.HI_PT id)
     let qr := F.HI_PT_REF.get e
     (F.HI_PT_STATE.get e = 1 →
       gives .ptLeave s (fun t => t.rf (R.HI_PT id) F.HI_PT_STATE = 0 ∧ t.rf (R.HI_PT id) F.HI_PT_GEN = (F.HI_PT_GEN.get e + 1) % 256 ∧
         rsp 0 id ((F.HI_PT_GEN.get e + 1) % 256) t ∧
         (∀ k, k < 256 → s.rb (R.HI_RSV_CFG k) F.HI_RSV_CFG_VALID = true → s.rf (R.HI_RSV_CFG k) F.HI_RSV_CFG_PARTNER = id →
           t.rg (R.HI_RSV_CFG k) = 0 ∧ t.rg (R.HI_RSV_ORDER k) = 0 ∧ t.rg (R.HI_RSV_DEBT k) = 0) ∧
         (F.HI_PT_KIND.get e = 0 → t.rb (R.HI_QP_CFG qr) F.HI_QP_CFG_EN = false ∧ t.rb (R.HI_QP_CFG qr) F.HI_QP_CFG_BOUND = false) ∧
         (s.quietEvents → t.rb R.HI_EVT F.HI_EVT_PT_LEFT = true))) ∧
     (F.HI_PT_STATE.get e ≠ 1 → gives .ptLeave s (fun t => rsp 2 0 0 t ∧ s.frameR [R.HI_PT_RSP] t))) ∧
    -- RESERVE
    (let w := s.rg R.HI_RSV_REQ
     let rate := s.rf R.HI_RSV_RATE F.HI_RSV_RATE_RATE
     let eng := s.qBank (F.HI_RSV_REQ_QUEUE.get w)
     let sum := ((s.rsvLive.filter (fun k => s.qBank (s.rf (R.HI_RSV_CFG k) F.HI_RSV_CFG_QUEUE) == eng)).map (fun k =>
       Tab.get (fun _ => 0) s.hi.rates k)).sum + rate
     let room := 100 * sum ≤ s.rf R.HI_RSV_WIN F.HI_RSV_WIN_ADMIT * 2 * 1000 * s.rf R.HI_RSV_WIN F.HI_RSV_WIN_US
     (∀ k, room → s.domOn (2 + eng / 12) = true → k < 256 → s.rb (R.HI_RSV_CFG k) F.HI_RSV_CFG_VALID = false →
       (∀ j < k, s.rb (R.HI_RSV_CFG j) F.HI_RSV_CFG_VALID = true) → s.rf (R.HI_PT (F.HI_RSV_REQ_PARTNER.get w)) F.HI_PT_STATE = 1 →
       gives .rsvReserve s (fun t => t.rg (R.HI_RSV_CFG k) = w32 (w.toNat ||| 0x800) ∧ t.rg (R.HI_RSV_ORDER k) = w32 (s.hi.order + 1) ∧
         t.rg R.HI_RSV_RSP = w32 (256 * k) ∧ t.hi.order = s.hi.order + 1 ∧ Tab.get (fun _ => 0) t.hi.rates k = rate ∧
         s.frame [.hi] [R.HI_RSV_CFG k, R.HI_RSV_ORDER k, R.HI_RSV_RSP] t)) ∧
     (¬ room → gives .rsvReserve s (fun t => t.rg R.HI_RSV_RSP = 1 ∧ s.frameR [R.HI_RSV_RSP] t))) ∧
    -- RELEASE
    (∀ k : Fin 256,
      (s.rb (R.HI_RSV_CFG k) F.HI_RSV_CFG_VALID = true →
        gives (.reservationRelease k) s (fun t => t.rg (R.HI_RSV_CFG k) = 0 ∧ t.rg (R.HI_RSV_ORDER k) = 0 ∧ t.rg (R.HI_RSV_DEBT k) = 0 ∧
          t.rg R.HI_RSV_RSP = 0 ∧ s.frame [.hi] [R.HI_RSV_CFG k, R.HI_RSV_ORDER k, R.HI_RSV_DEBT k, R.HI_RSV_RSP] t)) ∧
      (s.rb (R.HI_RSV_CFG k) F.HI_RSV_CFG_VALID = false →
        gives (.reservationRelease k) s (fun t => t.rg R.HI_RSV_RSP = 2 ∧ s.frameR [R.HI_RSV_RSP] t))) ∧
    -- The end of a window
    (∀ (a b : Nat), let prio := fun (k : Nat) => s.rf (R.HI_PT (s.rf (R.HI_RSV_CFG k) F.HI_RSV_CFG_PARTNER)) F.HI_PT_PRIO
      (prio b < prio a → s.rsvBefore a b = true ∧ s.rsvBefore b a = false) ∧
      (prio a = prio b → s.rsvBefore a b = decide ((s.rg (R.HI_RSV_ORDER a)).toNat < (s.rg (R.HI_RSV_ORDER b)).toNat))) ∧
    (∀ (want : List (Fin 256 × Nat × Nat)) (room : List (Fin 96 × Nat)),
      (s.now < s.hi.winAt + 500 * s.rf R.HI_RSV_WIN F.HI_RSV_WIN_US → exec (.reservationWindowEnd want room) s = .next s) ∧
      (s.hi.winAt + 500 * s.rf R.HI_RSV_WIN F.HI_RSV_WIN_US ≤ s.now → (∀ k, k < 256 → s.rb (R.HI_RSV_CFG k) F.HI_RSV_CFG_VALID = false) →
        gives (.reservationWindowEnd want room) s (fun t => t.hi = { s.hi with win := s.hi.win + 1, winAt := s.now } ∧ s.only [.hi] t)) ∧
      (∀ (k : Fin 256) (e : Fin 96) (u d at_ : Nat), s.hi.winAt + 500 * s.rf R.HI_RSV_WIN F.HI_RSV_WIN_US ≤ s.now →
        (∀ j, j < 256 → (s.rb (R.HI_RSV_CFG j) F.HI_RSV_CFG_VALID = true ↔ j = k.val)) → e.val = s.rsvEngine k →
        d = min (Tab.get (fun _ => 0) s.hi.rates k) u → 0 < d →
        let pt := s.rf (R.HI_RSV_CFG k) F.HI_RSV_CFG_PARTNER
        let qr := s.rf (R.HI_PT pt) F.HI_PT_REF
        let breached := fun (t : State) => (t.qp qr).recs = (s.qp qr).recs ++ [.mk (recWords 0xFFFFFFFF 1 18 d k (s.hi.win + 1)) false] ∧
          t.rf (R.HI_RSV_STAT k) F.HI_RSV_STAT_BREACHES = satN 0xFFFF (s.rf (R.HI_RSV_STAT k) F.HI_RSV_STAT_BREACHES + 1)
        s.rf (R.HI_PT pt) F.HI_PT_STATE = 1 → s.rf (R.HI_PT pt) F.HI_PT_KIND = 0 →
        -- G2: nothing could be moved, and everything
        (s.rb (R.HI_RSV_CFG k) F.HI_RSV_CFG_CLASS = true → s.rsvDebts k = [] →
          gives (.reservationWindowEnd [(k, u, at_)] [(e, 0)]) s (fun t => breached t ∧ t.rsvDebts k = [d] ∧
            t.rf (R.HI_RSV_DEBT k) F.HI_RSV_DEBT_DEBT = d % 2 ^ 24 ∧
            s.frameEv [.hi] [R.HI_RSV_STAT k, R.HI_RSV_DEBT k, R.HI_EVT] t) ∧
          (d ≤ 2000 * s.rf R.HI_RSV_WIN F.HI_RSV_WIN_US →
            gives (.reservationWindowEnd [(k, u, at_)] []) s (fun t => (∀ q, t.qp q = s.qp q) ∧ t.rsvDebts k = [] ∧ t.rg (R.HI_RSV_DEBT k) = 0 ∧
              s.frame [.hi] [R.HI_RSV_DEBT k] t))) ∧
        -- G1: units that wait no longer than LAT stay, and older ones are deferred once
        (s.rb (R.HI_RSV_CFG k) F.HI_RSV_CFG_CLASS = false → Tab.get (fun _ => []) s.hi.waits k = [] →
          (s.now ≤ min at_ s.now + 500 * s.rf (R.HI_RSV_CFG k) F.HI_RSV_CFG_LAT →
            gives (.reservationWindowEnd [(k, u, at_)] [(e, 0)]) s (fun t => (∀ q, t.qp q = s.qp q) ∧ s.only [.hi] t ∧
              Tab.get (fun _ => []) t.hi.waits k = [{ came := min at_ s.now, units := d, late := false }])) ∧
          (min at_ s.now + 500 * s.rf (R.HI_RSV_CFG k) F.HI_RSV_CFG_LAT < s.now →
            gives (.reservationWindowEnd [(k, u, at_)] [(e, 0)]) s (fun t => breached t ∧ s.frameEv [.hi] [R.HI_RSV_STAT k, R.HI_EVT] t ∧
              Tab.get (fun _ => []) t.hi.waits k = [{ came := min at_ s.now, units := d, late := true }])))))

/-- R376, R378, R381–R383: frames received from a Lace port. A port that is DOWN receives nothing; a broadcast is used and forwarded once; a
frame for another device is forwarded, or lost; a frame for this device has its type's effect. -/
def Obligations.LaceFrames : Prop :=
  ∀ (s : State) (p : Fin 2) (h : LaceHdr),
    let up := s.lcUp p = true
    let other := s.lcUp (1 - p.val) = true
    let mine := s.lcNumbered = true ∧ h.dst.toNat = s.lcDev ∧ h.dst ≠ 0xFF
    let first := h.dst = 0xFF ∧ s.lcFirst h = true
    let at_ := s.lcLocal p (laceStamp h)
    (∀ (axis : Fin 8) (st : BitVec 2) (pos vel : BitVec 64) (tag : BitVec 8) (data : Word) (pkt : Packet) (re : Option Word)
        (uid : Option (BitVec 128)) (ofs : BitVec 26) (bytes : List Byte),
      let frames : List (Instr × Nat × List Int) := [(.laceAxs p h axis st pos vel, 1, [(axis.val : Int), (st.toNat : Int), pos.toInt, vel.toInt]),
        (.lacePkt p h pkt re, 2, pktFields (re.map (fun w => w.toNat)) pkt), (.laceLsend p h tag data, 3, [(tag.toNat : Int), (data.toNat : Int)]),
        (.laceImg p h uid ofs bytes, 4, [(match uid with | some u => (u.toNat : Int) | none => -1), (ofs.toNat : Int)] ++ bytes.map (fun b => (b.toNat : Int))),
        (.laceStart p h, 5, [])]
      ∀ c typ fields, (c, typ, fields) ∈ frames →
        (¬ up → exec c s = .next s) ∧
        (up → h.dst = 0xFF → s.lcFirst h = false → exec c s = .next (s.lcGot p)) ∧
        (up → first → other → gives c s (fun t => s.laceCopy p typ h fields t ∧ (h.src.toNat, h.seq.toNat) ∈ t.lc.seen)) ∧
        (up → h.dst ≠ 0xFF → ¬ mine → other → gives c s (fun t => s.laceCopy p typ h fields t ∧ s.only [.lc, .out] t)) ∧
        (up → h.dst ≠ 0xFF → ¬ mine → ¬ other → gives c s (fun t =>
          t.rf R.LC_LOST F.LC_LOST_COUNT = satN 0xFFFFFFFF (s.rf R.LC_LOST F.LC_LOST_COUNT + 1) ∧
          (s.quietEvents → t.rb R.LC_EVT F.LC_EVT_LOST = true) ∧ s.frameEv [.lc] [R.LC_LOST, R.LC_EVT] t))) ∧
    -- AXS
    (∀ (axis : Fin 8) (st : BitVec 2) (pos vel : BitVec 64), up → first ∨ mine →
      gives (.laceAxs p h axis st pos vel) s (fun t =>
        ∀ a, a < 8 → (if s.rb (R.YK_AX_CFG a) F.YK_AX_CFG_EN = true ∧ s.rf (R.YK_AX_CFG a) F.YK_AX_CFG_SRC = 7 ∧
            s.rf (R.YK_AX_LACE a) F.YK_AX_LACE_REM_DEV = h.src.toNat ∧ s.rf (R.YK_AX_LACE a) F.YK_AX_LACE_REM_AX = axis then
          (∃ m, (t.ax a).meas = some m ∧ m.pos = pos.toInt * lsb16 ∧ m.ts = at_ ∧ m.vel = some vel.toInt) ∧
            { t.ax a with meas := (s.ax a).meas } = s.ax a
          else t.ax a = s.ax a) ∧ s.only [.yk, .lc, .out] t)) ∧
    -- LSEND
    (∀ (tag : BitVec 8) (data : Word), up → mine →
      gives (.laceLsend p h tag data) s (fun t => t.out = s.out ++ [.laceMsg h.src.toNat tag.toNat data at_] ∧ s.only [.lc, .out] t)) ∧
    (∀ (tag : BitVec 8) (data : Word), up → first →
      gives (.laceLsend p h tag data) s (fun t => Out.laceMsg h.src.toNat tag.toNat data at_ ∈ t.out ∧ s.only [.lc, .out] t)) ∧
    -- PKT: a request, one without a partner, a response
    (∀ (pkt : Packet) ent, up → mine → s.peerEntry h.src.toNat = some ent → remoteNode pkt < 120 →
      gives (.lacePkt p h pkt none) s (fun t => s.sent pkt.cmd.toNat (remoteNode pkt) t ∧
        (∃ r, t.lc.served = s.lc.served ++ [r] ∧ r.dev = h.src.toNat ∧ r.seq = h.seq.toNat ∧ r.ent = ent ∧
          r.gen = s.rf (R.HI_PT ent) F.HI_PT_GEN) ∧ (s.noProbes → s.frame [.lc, .net] [] t))) ∧
    (∀ (pkt : Packet) k, up → mine → s.peerEntry h.src.toNat = none → s.lcRoute h.src.toNat = some k →
      gives (.lacePkt p h pkt none) s (fun t => s.laceOwn k 2 h.src.toNat (128 * s.now) (pktFields (some h.seq.toNat) (pkt.reply 7 [])) t ∧
        s.only [.lc, .out] t)) ∧
    (∀ (pkt : Packet) (k : Word) r, up → mine → s.lc.reqs.find? (fun r => r.seq == k.toNat && r.dev == h.src.toNat) = some r →
      gives (.lacePkt p h pkt (some k)) s (fun t => t.lc.reqs = s.lc.reqs.erase r ∧
        (∃ e ∈ t.net.pkts, e.1 = s.net.nextId ∧ e.2.dst = r.req.src ∧ e.2.tag = r.req.tag ∧ e.2.status = pkt.status ∧ e.2.data = pkt.data) ∧
        (s.noProbes → s.frame [.lc, .net] [] t))) ∧
    -- IMG
    (∀ (uid : Option (BitVec 128)) (ofs : BitVec 26) (bytes : List Byte), up → mine →
      (match uid with | some u => u.toNat == s.uid && s.cg.boot.any (fun b => b.idx == 3) | none => s.cg.lib.any (fun l => l.lace)) = true →
      gives (.laceImg p h uid ofs bytes) s (fun t => s.only [.lc] t ∧
        t.lc.recv = if ofs = 0 then bytes else if ofs.toNat = s.lc.recv.length then s.lc.recv ++ bytes else s.lc.recv)) ∧
    -- START
    (up → first ∨ mine →
      (128 * (s.now : Int) ≤ at_ → gives (.laceStart p h) s (fun t => t.lc.start = some at_ ∧ s.only [.lc, .out] t)) ∧
      (at_ < 128 * (s.now : Int) → gives (.laceStart p h) s (fun t => t.rb R.CG_START F.CG_START_LACE_GATE = false ∧ t.lc.start = none ∧
        (s.quietEvents → t.rb R.LC_EVT F.LC_EVT_START = true ∧ t.rb R.LC_EVT F.LC_EVT_START_LATE = true) ∧
        s.frameEv [.lc] [R.CG_START, R.CG_STATUS, R.LC_EVT] t)))

/-- R375, R377, R379, R380: the ports of Lace, delay exchange, discovery, cuts. -/
def Obligations.LaceLinks : Prop :=
  ∀ (s : State) (p : Fin 2),
    let up := s.lcUp p = true
    let fails := Tab.get (fun _ => 0) s.lc.fails p
    let root := s.rb R.LC_CFG F.LC_CFG_ROOT = true
    let numbered := fun (k n : Nat) (t : State) => t.rf R.LC_STAT F.LC_STAT_DEV = k ∧ t.rf R.LC_STAT F.LC_STAT_NDEV = n ∧
      (s.quietEvents → t.rb R.LC_EVT F.LC_EVT_NUMBERED = true)
    -- Failures
    (∀ lost : BitVec 8,
      (up → fails < 3 → gives (.laceFrameCrcFail p lost) s (fun t => Tab.get (fun _ => 0) t.lc.fails p = fails + 1 ∧
        t.rf (R.LC_PORT_STAT p) F.LC_PORT_STAT_REPLAY = satN 0xFF (s.rf (R.LC_PORT_STAT p) F.LC_PORT_STAT_REPLAY + 1) ∧
        s.frame [.lc] [R.LC_PORT_STAT p] t)) ∧
      (up → 3 ≤ fails → gives (.laceFrameCrcFail p lost) s (s.laceDown p lost.toNat)) ∧
      (up → gives (.laceBlockTimeout p lost) s (s.laceDown p lost.toNat)) ∧
      (¬ up → exec (.laceFrameCrcFail p lost) s = .next s ∧ exec (.laceBlockTimeout p lost) s = .next s)) ∧
    -- LACE_PORT_UP
    (¬ up → s.domOn 14 = true → gives (.lacePortUp p) s (fun t => t.rb (R.LC_PORT_STAT p) F.LC_PORT_STAT_UP = true ∧
      (s.quietEvents → (t.rg R.LC_EVT).toNat.testBit (2 + p.val) = true) ∧
      (s.lcNumbered = false → root → s.lc.discAt = none → t.lc.discAt = some s.now) ∧
      (s.lcNumbered = true → s.lcLink p ∉ t.lc.cuts) ∧
      (s.lcNumbered = false → s.frameEv [.lc] [R.LC_PORT_STAT p, R.LC_EVT] t))) ∧
    (up ∨ s.domOn 14 = false → exec (.lacePortUp p) s = .next s) ∧
    -- DLY_EXCHANGE_TIMER, LACE_DLY
    (∀ tap : BitVec 7,
      (up → Tab.get (fun _ => 0) s.lc.dlyAt p + 500 ≤ s.now →
        gives (.dlyExchangeTimer p tap) s (fun t =>
          s.laceOwn p 6 0 (128 * (s.now : Int) + (tap.toNat : Int)) (match s.lc.dly.find? (fun k => k.1 == p.val) with
            | some (_, a, b) => [(lcStamp a : Int), (lcStamp b : Int)] | none => []) t ∧
          Tab.get (fun _ => 0) t.lc.dlyAt p = s.now ∧ s.only [.lc, .out] t)) ∧
      (¬ up ∨ s.now < Tab.get (fun _ => 0) s.lc.dlyAt p + 500 → exec (.dlyExchangeTimer p tap) s = .next s) ∧
      (∀ t3 : BitVec 55, up → gives (.laceDly p tap t3 none) s (fun t =>
        t.lc.dly.find? (fun k => k.1 == p.val) = some (p.val, (t3.toNat : Int), 128 * (s.now : Int) + tap.toNat) ∧ s.only [.lc] t)) ∧
      (∀ t1 t2 t3 : BitVec 55, up →
        let t4 : Int := 128 * (s.now : Int) + tap.toNat
        let d := fun (a b : Int) => sext 55 (trunc 55 (a - b))
        gives (.laceDly p tap t3 (some (t1, t2))) s (fun t => (∃ dly ofs : Int,
          t.rg (R.LC_PORT_DLY p) = w32 (trunc 32 dly) ∧ t.rg64 (R.LC_PORT_OFS_LO p) (R.LC_PORT_OFS_HI p) = trunc 64 ofs ∧
          (2 * dly - (d t4 t1.toNat - d t3.toNat t2.toNat)).natAbs ≤ 1 ∧ (2 * ofs - (d t2.toNat t1.toNat + d t3.toNat t4)).natAbs ≤ 1) ∧
          s.frame [.lc, .freeCtr] [R.LC_PORT_DLY p, R.LC_PORT_OFS_LO p, R.LC_PORT_OFS_HI p] t))) ∧
    -- LACE_NOTE
    (∀ (h : LaceHdr) (k : Fin 64), up → s.lcFirst h = true → 0 < s.lcN →
      gives (.laceNote p h k false) s (fun t => k.val ∈ t.lc.cuts ∧ (∀ c ∈ s.lc.cuts, c ∈ t.lc.cuts) ∧
        (∀ r ∈ t.lc.reqs, r ∈ s.lc.reqs ∧ s.lcCrosses r k = false) ∧ t.rb R.LC_STAT F.LC_STAT_TOPO = false) ∧
      gives (.laceNote p h k true) s (fun t => t.lc.cuts = s.lc.cuts.filter (· != k.val) ∧
        t.rb R.LC_STAT F.LC_STAT_TOPO = t.lc.cuts.isEmpty ∧ s.frameEv [.lc] [R.LC_STAT, R.LC_EVT] t)) ∧
    -- DISCOVER, DISCOVERY_TIMER
    (root → s.lcUp 0 = true → gives .lcDiscover s (fun t => s.laceOwn 0 7 0xFE (128 * s.now) [0, -1, ((BitVec.ofNat 128 s.uid).toNat : Int)] t ∧
      t.lc.discAt = none ∧ s.only [.lc, .out] t)) ∧
    (¬ root → exec .lcDiscover s = .next s) ∧
    (∀ at_, root → s.lcUp 0 = true → s.lc.discAt = some at_ → at_ + 500000 ≤ s.now → exec .discoveryTimer s = exec .lcDiscover s) ∧
    (s.lc.discAt = none → exec .discoveryTimer s = .next s) ∧
    -- LACE_DISC: a device appends its ID and takes the next number; a turn at a DOWN port; the 65th takes none
    (∀ (h : LaceHdr) (uids : List (BitVec 128)), up → ¬ root → (∀ u ∈ uids, u.toNat ≠ s.uid) →
      (uids.length < 64 → gives (.laceDisc p h uids none false) s (fun t => t.rf R.LC_STAT F.LC_STAT_DEV = uids.length ∧
        (s.quietEvents → t.rb R.LC_EVT F.LC_EVT_NUMBERED = true) ∧ s.frameEv [.lc] [R.LC_STAT, R.LC_EVT] t ∧
        (∃ l : List Int, Out.lace (if s.lcUp (1 - p.val) then 1 - p.val else p.val) 7 l ∈ t.out ∧
          l.drop 5 = [0, if s.lcUp (1 - p.val) then -1 else ((uids.length + 1 : Nat) : Int)] ++
            (uids ++ [BitVec.ofNat 128 s.uid]).map (fun u => (u.toNat : Int))))) ∧
      (64 ≤ uids.length → gives (.laceDisc p h uids none false) s (fun t => t.rb R.LC_STAT F.LC_STAT_EXCESS = true ∧
        t.rf R.LC_STAT F.LC_STAT_DEV = 0x3F ∧ (s.quietEvents → t.rb R.LC_EVT F.LC_EVT_EXCESS = true) ∧
        s.frameEv [.lc] [R.LC_STAT, R.LC_EVT] t))) ∧
    -- the list back at the root: RING; and the final list at a device
    (∀ (h : LaceHdr) (uids : List (BitVec 128)) k, up → root → uids.findIdx? (fun u => u.toNat == s.uid) = some k → 1 ≤ uids.length →
      uids.length ≤ 64 →
      gives (.laceDisc p h uids none false) s (fun t => numbered k uids.length t ∧ t.lc.uids = uids ∧ t.lc.cuts = [] ∧
        t.rb R.LC_STAT F.LC_STAT_TOPO = true ∧ s.frameEv [.lc] [R.LC_STAT, R.LC_EVT] t)) ∧
    (∀ (h : LaceHdr) (uids : List (BitVec 128)) (e : Fin 65) k, up → s.lcFirst h = true → uids.findIdx? (fun u => u.toNat == s.uid) = some k →
      e.val < uids.length → uids.length ≤ 64 →
      gives (.laceDisc p h uids (some e) true) s (fun t => numbered k uids.length t ∧ t.lc.uids = uids ∧ t.lc.east = e.val ∧
        t.rb R.LC_STAT F.LC_STAT_TOPO = false ∧ s.frameEv [.lc] [R.LC_STAT, R.LC_EVT] t))

/-- R382, R383: starting together, and sending an image over Lace. -/
def Obligations.LaceStartAndImages : Prop :=
  ∀ s : State,
    let root := s.rb R.LC_CFG F.LC_CFG_ROOT = true
    let start : Nat := (s.rg R.LC_START_AT_LO).toNat + 2 ^ 32 * s.rf R.LC_START_AT_HI F.LC_START_AT_HI_TIME
    let ahead := sext 48 (trunc 48 ((start : Int) - (s.now : Int)))
    (root → 10000 ≤ ahead → gives .lcStartCmd s (fun t => t.lc.start = some (128 * ((s.now : Int) + ahead)) ∧
      (∀ p, p < 2 → s.lcUp p = true → s.laceOwn p 5 0xFF (128 * ((s.now : Int) + ahead)) ([] : List Int) t) ∧ s.only [.lc, .out] t)) ∧
    (root → ahead < 10000 → gives .lcStartCmd s (fun t => (s.quietEvents → t.rb R.LC_EVT F.LC_EVT_START_REF = true) ∧
      s.frameEv [] [R.LC_EVT] t)) ∧
    (¬ root → exec .lcStartCmd s = .next s) ∧
    (∀ at_, s.lc.start = some at_ → at_ < 128 * ((s.now : Int) + 1) →
      gives .startInstant s (fun t => t.rb R.CG_START F.CG_START_LACE_GATE = false ∧ t.lc.start = none ∧
        (s.proofPassed = true → t.rb R.CG_STATUS F.CG_STATUS_DONE_OUT = true) ∧
        (s.quietEvents → t.rb R.LC_EVT F.LC_EVT_START = true) ∧ s.frameEv [.lc] [R.CG_START, R.CG_STATUS, R.LC_EVT] t)) ∧
    (∀ at_, s.lc.start = some at_ → 128 * ((s.now : Int) + 1) ≤ at_ → exec .startInstant s = .next s) ∧
    (s.lc.start = none → exec .startInstant s = .next s) ∧
    -- LC_IMG_GO
    (∀ v l, F.LC_IMG_CMD_GO.bit v = true → s.lc.send = none → s.flRead (4096 * F.LC_IMG_CMD_OFS.get v + 0x14) 4 = (s, l, true) →
      gives (.lcImgGo v) s (fun t => t.rg R.LC_IMG_STAT = 1 ∧
        t.lc = { s.lc with send := some (.mk (4096 * F.LC_IMG_CMD_OFS.get v) (ofBytesLE l) 0 (F.LC_IMG_CMD_BCAST.bit v)) } ∧
        s.frame [.lc] [R.LC_IMG_STAT] t)) ∧
    (∀ v, F.LC_IMG_CMD_GO.bit v = false ∨ s.lc.send.isSome = true → exec (.lcImgGo v) s = .next s) ∧
    -- IMG_DONE: a broadcast; no way
    (∀ k l, s.lc.send = some k → k.bcast = true → s.lcUp 0 = true ∨ s.lcUp 1 = true → k.len ≤ 0x4000000 - k.base →
      s.flRead k.base k.len = (s, l, true) →
      gives .imgDone s (fun t => t.lc.send = none ∧ t.rg R.LC_IMG_STAT = 0 ∧ (s.quietEvents → t.rb R.LC_EVT F.LC_EVT_IMG_DONE = true) ∧
        (∀ p, p < 2 → s.lcUp p = true → 0 < l.length → s.laceOwn p 4 0xFF (128 * s.now) ([-1, 0] ++ (l.take 512).map (fun b => (b.toNat : Int))) t) ∧
        s.frameEv [.lc] [R.LC_IMG_STAT, R.LC_EVT] t)) ∧
    (∀ k, s.lc.send = some k → k.bcast = true → s.lcUp 0 = false → s.lcUp 1 = false →
      gives .imgDone s (fun t => t.lc = { s.lc with send := none } ∧ t.rg R.LC_IMG_STAT = 4 ∧
        (s.quietEvents → t.rb R.LC_EVT F.LC_EVT_IMG_DONE = true) ∧ s.frameEv [.lc] [R.LC_IMG_STAT, R.LC_EVT] t)) ∧
    (s.lc.send = none → exec .imgDone s = .next s)

/-- R384–R388: event sources and rings. The write that enables a pending source writes its record at once; the moderation time sends the
message of a ring. -/
def Obligations.EventUnit : Prop :=
  ∀ s : State,
    (∀ (src : Fin 1536) (v : Word),
      let a := R.EV_SRC_CFG src
      let r := F.EV_SRC_CFG_RING.get (s.written a v)
      let en := F.EV_SRC_CFG_EN.bit (s.written a v) = true
      let size := 2 ^ s.rf (R.EV_RING_CFG r) F.EV_RING_CFG_SIZE
      (¬ en ∨ s.srcEn src = true ∨ s.srcPending src = false ∨ s.qvMode = false →
        gives (.evSrcCfgWrite src v) s (fun t => t.rg a = s.written a v ∧ s.frameR [a] t)) ∧
      (en → s.srcEn src = false → s.srcPending src = true → s.qvMode = true →
        (s.rb (R.EV_RING_CFG r) F.EV_RING_CFG_EN = true → (s.ring r).unread < size →
          gives (.evSrcCfgWrite src v) s (fun t => t.rg a = s.written a v ∧ (t.ring r).unread = (s.ring r).unread + 1 ∧
            src.val ∉ t.ev.coal ∧ t.rf (R.EV_RING_STAT r) F.EV_RING_STAT_TAIL = (s.rf (R.EV_RING_STAT r) F.EV_RING_STAT_TAIL + 1) % size ∧
            Out.hostWrite (s.rg64 (R.EV_RING_BASE_LO r) (R.EV_RING_BASE_HI r) + 16 * s.rf (R.EV_RING_STAT r) F.EV_RING_STAT_TAIL)
              [evWord0 src (s.ring r).phase (s.ev.coal.contains src.val) (s.evDataOf src), w32 s.now, (s.evDataOf src).w2, (s.evDataOf src).w3] ∈ t.out ∧
            (F.EV_SRC_CFG_AUTOCLR.bit (s.written a v) = true → t.srcPending src = false) ∧
            (F.EV_SRC_CFG_AUTOCLR.bit (s.written a v) = false → s.frameEv [] [a] t))) ∧
        (s.rb (R.EV_RING_CFG r) F.EV_RING_CFG_EN = false ∨ size ≤ (s.ring r).unread →
          gives (.evSrcCfgWrite src v) s (fun t => t.rg a = s.written a v ∧
            t.rf (R.EV_RING_STAT r) F.EV_RING_STAT_OVF = satN 0xFFFF (s.rf (R.EV_RING_STAT r) F.EV_RING_STAT_OVF + 1) ∧
            t.srcPending src = true ∧ s.frameR [a, R.EV_RING_STAT r] t)))) ∧
    (∀ ring : Fin 64,
      let us := s.rf (R.EV_RING_MOD ring) F.EV_RING_MOD_MOD_US
      (0 < (s.ring ring).unsig → us ≠ 0 → s.rb (R.EV_RING_CFG ring) F.EV_RING_CFG_IRQ_EN = true → (s.ring ring).firstAt + 500 * us ≤ s.now →
        gives (.eventModerationTimeout ring) s (fun t => (t.ring ring) = { s.ring ring with unsig := 0 } ∧
          (s.rb (R.HI_MSIX_CTL ring) F.HI_MSIX_CTL_MASK = false → t.out = s.out ++ [.msix ring] ∧ s.only [.ev, .out] t) ∧
          (s.rb (R.HI_MSIX_CTL ring) F.HI_MSIX_CTL_MASK = true →
            (t.rg (R.HI_MSIX_PBA (ring.val / 32))).toNat.testBit (ring.val % 32) = true ∧ s.frame [.ev] [R.HI_MSIX_PBA (ring.val / 32)] t))) ∧
      ((s.ring ring).unsig = 0 ∨ us = 0 ∨ s.now < (s.ring ring).firstAt + 500 * us →
        exec (.eventModerationTimeout ring) s = .next s))

/-- R389, R399, R405–R407: an instruction is fetched first, and traps where its fetch is refused; the arithmetic instructions write one register,
with the results of Table CC-5; a shift by 32 or more is ILLEGAL. -/
def Obligations.OcteyArithmetic : Prop :=
  ∀ (s : State) (rd ra rb : Reg) (imm : BitVec 16),
    (∀ (off : BitVec 26) (arg : BitVec 12) (n : Fin 16) (acc : Fin 4), ∀ c, isOct rd ra rb imm off arg n acc c →
      (s.cc.halt = true ∨ s.cc.wait = true ∨ s.cc.bus.isSome = true ∨ s.blkHeld 19 = true → exec c s = .next s) ∧
      (s.cc.halt = false → s.cc.wait = false → s.cc.bus = none → s.blkHeld 19 = false →
        (s.mpuOk s.cc.pc 2 = false → gives c s (s.trapped 7 0 s.cc.pc s.cc.pc)) ∧
        (s.mpuOk s.cc.pc 2 = true → octPlace s.cc.pc = .nowhere → gives c s (s.trapped 10 6 s.cc.pc s.cc.pc)))) ∧
    (∀ u, s.fetches u →
      let a := u.octReg ra
      let b := u.octReg rb
      let sx := imm.signExtend 32
      let zx := imm.setWidth 32
      (∀ (c : Instr) (v : Word), (c, v) ∈ [(Instr.octAdd rd ra rb, a + b), (.octSub rd ra rb, a - b), (.octAnd rd ra rb, a &&& b),
          (.octOr rd ra rb, a ||| b), (.octXor rd ra rb, a ^^^ b), (.octAndn rd ra rb, a &&& ~~~b), (.octShl rd ra rb, a <<< (b.toNat % 32)),
          (.octShr rd ra rb, a >>> (b.toNat % 32)), (.octSra rd ra rb, a.sshiftRight (b.toNat % 32)),
          (.octSlt rd ra rb, if a.toInt < b.toInt then 1 else 0), (.octSltu rd ra rb, if a.toNat < b.toNat then 1 else 0),
          (.octMin rd ra rb, if a.toInt ≤ b.toInt then a else b), (.octMax rd ra rb, if b.toInt ≤ a.toInt then a else b),
          (.octClz rd ra, w32 (clz 32 a.toNat)), (.octPopc rd ra, w32 (popc 32 a.toNat)), (.octMul rd ra rb, a * b),
          (.octMulh rd ra rb, BitVec.ofInt 32 (a.toInt * b.toInt / 2 ^ 32)),
          (.octDiv rd ra rb, if b = 0 then 0xFFFFFFFF else BitVec.ofInt 32 (a.toInt.tdiv b.toInt)),
          (.octDivu rd ra rb, if b = 0 then 0xFFFFFFFF else w32 (a.toNat / b.toNat)),
          (.octRem rd ra rb, if b = 0 then a else BitVec.ofInt 32 (a.toInt.tmod b.toInt)),
          (.octAddi rd ra imm, a + sx), (.octAndi rd ra imm, a &&& zx), (.octOri rd ra imm, a ||| zx), (.octXori rd ra imm, a ^^^ zx),
          (.octLui rd imm, zx <<< 16)] → gives c s (u.octWrote rd v)) ∧
      (imm.toNat < 32 → ∀ (c : Instr) (v : Word), (c, v) ∈ [(Instr.octShli rd ra imm, a <<< imm.toNat), (.octShri rd ra imm, a >>> imm.toNat),
          (.octSrai rd ra imm, a.sshiftRight imm.toNat)] → gives c s (u.octWrote rd v)) ∧
      (32 ≤ imm.toNat → ∀ (c : Instr) (op : Nat), (c, op) ∈ [(Instr.octShli rd ra imm, 5), (.octShri rd ra imm, 6), (.octSrai rd ra imm, 7)] →
        gives c s (u.trapped 4 0 u.cc.pc (octI op rd ra imm))))

/-- R399, R404–R407: loads, stores and SWAPW: alignment first, then the memory protection, then the place of Table CC-2. Core memory answers at
once; the ring network's places become a request; any other place is a bus error. -/
def Obligations.OcteyMemory : Prop :=
  ∀ (s u : State) (rd ra rb : Reg) (imm : BitVec 16), s.fetches u →
    let a := u.octReg ra + imm.signExtend 32
    let pc := u.cc.pc
    let noFlip := u.rb R.SM_FLIP_CFG F.SM_FLIP_CFG_ARM = false
    let good := fun (x : Nat) => u.classAt ((memCore + x) / 8 * 8) = .good
    -- Loads
    (∀ (c : Instr) (size : Nat) (sg : Bool), (c, size, sg) ∈ [(Instr.octLdw rd ra imm, 4, false), (.octLdh rd ra imm, 2, true),
        (.octLdhu rd ra imm, 2, false), (.octLdb rd ra imm, 1, true), (.octLdbu rd ra imm, 1, false)] →
      (a.toNat % size ≠ 0 → gives c s (u.trapped 6 0 pc a)) ∧
      (a.toNat % size = 0 → u.mpuOk a 0 = false → gives c s (u.trapped 8 0 pc a)) ∧
      (a.toNat % size = 0 → u.mpuOk a 0 = true →
        (∀ x, octPlace a = .core x → good x → gives c s (u.octWrote rd (loadExt size sg (u.numAt (memCore + x) size)))) ∧
        (∀ x, octPlace a = .rom x → gives c s (u.octWrote rd (loadExt size sg (ofBytesLE ((List.range size).map (fun i => Config.romByte (x + i))))))) ∧
        (∀ off, octPlace a = .dev off → size = 4 → blockOf off < 24 → gives c s (fun t => u.sent 4 (blockNode (blockOf off)) t ∧
          t.cc = { u.cc with bus := some (.mk (some rd) 4 false 0 a) } ∧ (u.noProbes → u.frame [.cc, .net] [] t))) ∧
        (∀ off, octPlace a = .dev off → size ≠ 4 ∨ 24 ≤ blockOf off → gives c s (u.trapped 10 6 pc a)) ∧
        (∀ off, octPlace a = .smb off → gives c s (fun t => u.sent 1 (smbNode off) t ∧
          t.cc = { u.cc with bus := some (.mk (some rd) size sg (off % 32) a) } ∧ (u.noProbes → u.frame [.cc, .net] [] t))) ∧
        (octPlace a = .nowhere → gives c s (u.trapped 10 6 pc a)))) ∧
    -- Stores
    (∀ (c : Instr) (size : Nat), (c, size) ∈ [(Instr.octStw rb ra imm, 4), (.octSth rb ra imm, 2), (.octStb rb ra imm, 1)] →
      (a.toNat % size ≠ 0 → gives c s (u.trapped 6 0 pc a)) ∧
      (a.toNat % size = 0 → u.mpuOk a 1 = false → gives c s (u.trapped 9 0 pc a)) ∧
      (a.toNat % size = 0 → u.mpuOk a 1 = true →
        (∀ x, octPlace a = .core x → good x → noFlip → gives c s (fun t =>
          t.numAt (memCore + x) size = (u.octReg rb).toNat % 2 ^ (8 * size) ∧ u.bytesBut (memCore + x) size t ∧
          t.cc = { u.cc with pc := pc + 4 } ∧ u.only [.cc, .mem, .syn, .sm] t)) ∧
        (∀ off, octPlace a = .dev off → size = 4 → blockOf off < 24 → gives c s (fun t => u.sent 5 (blockNode (blockOf off)) t ∧
          t.cc = { u.cc with bus := some (.mk none 4 false 0 a) } ∧ (u.noProbes → u.frame [.cc, .net] [] t))) ∧
        (∀ off, octPlace a = .smb off → gives c s (fun t => u.sent 2 (smbNode off) t ∧
          t.cc = { u.cc with bus := some (.mk none size false 0 a) } ∧ (u.noProbes → u.frame [.cc, .net] [] t))) ∧
        (∀ x, octPlace a = .rom x ∨ octPlace a = .nowhere → gives c s (u.trapped 10 6 pc a)))) ∧
    -- SWAPW
    (a.toNat % 4 ≠ 0 → gives (.octSwapw rd ra imm) s (u.trapped 6 0 pc a)) ∧
    (∀ x, a.toNat % 4 = 0 → u.mpuOk a 0 = true → u.mpuOk a 1 = true → octPlace a = .core x → good x → noFlip →
      gives (.octSwapw rd ra imm) s (fun t => t.octReg rd = w32 (u.numAt (memCore + x) 4) ∧ (∀ r, r ≠ rd → t.octReg r = u.octReg r) ∧
        t.numAt (memCore + x) 4 = (u.octReg rd).toNat ∧ u.bytesBut (memCore + x) 4 t ∧ t.cc.pc = pc + 4 ∧
        u.only [.cc, .mem, .syn, .sm] t)) ∧
    (a.toNat % 4 = 0 → u.mpuOk a 0 = true → u.mpuOk a 1 = true → octPlace a = .nowhere →
      gives (.octSwapw rd ra imm) s (u.trapped 10 6 pc a))

/-- R390–R398, R402, R403, R406, R407: branches, jumps, calls and returns of the register windows, the MAC unit, traps, control and status
registers, access to other windows. -/
def Obligations.OcteyControl : Prop :=
  ∀ (s u : State) (rd ra rb : Reg) (imm : BitVec 16), s.fetches u →
    let a := u.octReg ra
    let b := u.octReg rb
    let pc := u.cc.pc
    let depth := (u.csr 0x11).toNat
    let user := u.octPriv = false
    -- Branches and jumps
    (∀ (c : Instr) (taken : Bool), (c, taken) ∈ [(Instr.octBeq ra rb imm, decide (a = b)), (.octBne ra rb imm, decide (a ≠ b)),
        (.octBlt ra rb imm, decide (a.toInt < b.toInt)), (.octBge ra rb imm, decide (b.toInt ≤ a.toInt)),
        (.octBltu ra rb imm, decide (a.toNat < b.toNat)), (.octBgeu ra rb imm, decide (b.toNat ≤ a.toNat))] →
      gives c s (u.octWent (if taken then pc + 4 * imm.signExtend 32 else pc + 4))) ∧
    (∀ off : BitVec 26, gives (.octJmp off) s (u.octWent (pc + 4 * off.signExtend 32))) ∧
    ((a + imm.signExtend 32).toNat % 4 = 0 → gives (.octJr ra imm) s (u.octWent (a + imm.signExtend 32))) ∧
    ((a + imm.signExtend 32).toNat % 4 ≠ 0 → gives (.octJr ra imm) s (u.trapped 6 0 pc (a + imm.signExtend 32))) ∧
    -- Calls and returns
    (∀ (c : Instr) (target : Word), (∃ off : BitVec 26, c = .octCallw off ∧ target = pc + 4 * off.signExtend 32) ∨
        (c = .octCallwr ra imm ∧ target = a + imm.signExtend 32 ∧ target.toNat % 4 = 0) →
      (u.octTw = false → depth ≠ 12 → gives c s (fun t => t.cwp = (u.cwp + 1) % 12 ∧ (t.csr 0x11).toNat = (depth + 1) % 16 ∧
        t.winReg ((u.cwp + 1) % 12) 15 = pc + 4 ∧ t.cc.pc = target ∧ t.cc.g = u.cc.g ∧
        (∀ k, k ≠ 0x10 → k ≠ 0x11 → t.csr k = u.csr k) ∧
        (∀ win n, n < 16 → ¬ (win = (u.cwp + 1) % 12 ∧ n = 15) → t.winReg win n = u.winReg win n) ∧ u.only [.cc] t)) ∧
      (u.octTw = false → depth = 12 → gives c s (u.trapped 1 0 pc (u.csr 0x10)))) ∧
    (∀ off : BitVec 26, u.octTw = true → gives (.octCallw off) s (u.trapped 4 0 pc (octJ 0x29 off))) ∧
    (u.octTw = true → gives (.octCallwr ra imm) s (u.trapped 4 0 pc (octI 0x2B 0 ra imm))) ∧
    (u.octTw = false → 2 ≤ depth → gives .octRetw s (fun t => t.cwp = (u.cwp + 11) % 12 ∧ (t.csr 0x11).toNat = depth - 1 ∧
      t.cc.pc = u.winReg u.cwp 15 ∧ t.cc.g = u.cc.g ∧ t.cc.w = u.cc.w ∧ (∀ k, k ≠ 0x10 → k ≠ 0x11 → t.csr k = u.csr k) ∧ u.only [.cc] t)) ∧
    (u.octTw = false → depth < 2 → gives .octRetw s (u.trapped (if u.csr 0x12 ≠ 0 then 2 else 3) 0 pc (u.csr 0x10))) ∧
    (u.octTw = true → gives .octRetw s (u.trapped 4 0 pc (octX 0 0 0 0))) ∧
    -- The MAC unit, its accumulators those of the running task
    (∀ acc : Fin 4, u.octTw = false → u.csr 0x20 = u.csr 0x21 →
      let put := fun (v : BitVec 72) (t : State) => t.macc acc = v ∧ (∀ k, k < 4 → k ≠ acc.val → t.macc k = u.macc k) ∧
        { t.cc with macc := u.cc.macc, pc := pc } = u.cc ∧ t.cc.pc = pc + 4 ∧ u.only [.cc] t
      gives (.octMac acc ra rb) s (put (u.macc acc + BitVec.ofInt 72 (a.toInt * b.toInt))) ∧
      gives (.octMacu acc ra rb) s (put (u.macc acc + BitVec.ofNat 72 (a.toNat * b.toNat))) ∧
      gives (.octMac2 acc ra rb) s (put (u.macc acc + BitVec.ofInt 72 (sext 16 a.toNat * sext 16 b.toNat +
        sext 16 (a.toNat / 2 ^ 16) * sext 16 (b.toNat / 2 ^ 16)))) ∧
      gives (.octMacld acc ra rb) s (put (BitVec.ofInt 72 (b.toInt * 2 ^ 32 + a.toNat))) ∧
      gives (.octMacclr acc) s (put 0) ∧
      (let k := (u.csr 0x22).toNat % 64
       let v := ((u.macc acc).toInt + (if k = 0 then 0 else (2 ^ (k - 1) : Nat))) / (2 ^ k : Nat)
       gives (.octMacrd rd acc) s (u.octWrote rd (BitVec.ofInt 32 (if wbit (u.csr 0x22) 6 then satS 32 v else v))))) ∧
    (∀ acc : Fin 4, u.octTw = false → u.csr 0x21 = 0 → u.csr 0x20 ≠ 0 → (u.csr 0x20).toNat % 8 = 0 → (u.csr 0x20).toNat + 40 ≤ 0x80000 →
      (∀ i, i < 5 → u.classAt (memCore + (u.csr 0x20).toNat + 8 * i) = .good) →
      gives (.octMacclr acc) s (fun t => t.csr 0x21 = u.csr 0x20 ∧ t.macc acc = 0 ∧ t.cc.pc = pc + 4 ∧ u.only [.cc] t ∧
        ∀ k, k < 4 → k ≠ acc.val → t.macc k = BitVec.ofNat 72 (u.numAt (memCore + (u.csr 0x20).toNat) 40 / 2 ^ (72 * k)))) ∧
    (∀ acc : Fin 4, u.octTw = false → u.csr 0x20 = 0 → u.csr 0x21 ≠ 0 → gives (.octMacclr acc) s (u.trapped 11 0 pc 0)) ∧
    (∀ acc : Fin 4, u.octTw = true → gives (.octMac acc ra rb) s (u.trapped 4 0 pc (octR 0x30 0 (accReg acc) ra rb))) ∧
    -- Traps
    (u.octTw = true → u.octPriv = true → gives .octTexit s (fun t => t.csr 0 = u.csr 1 ∧ t.cc.pc = u.csr 2 ∧
      (∀ k, k ≠ 0 → t.csr k = u.csr k) ∧ t.cc.g = u.cc.g ∧ t.cc.w = u.cc.w ∧ u.only [.cc] t)) ∧
    (u.octTw = false → gives .octTexit s (u.trapped 4 0 pc (octX 1 0 0 0))) ∧
    (∀ arg : BitVec 12, gives (.octTrap arg) s (u.trapped 12 0 (pc + 4) (w32 arg.toNat))) ∧
    (u.rb R.CC_CFG F.CC_CFG_BRK_HALT = false → gives .octBrk s (u.trapped 13 0 (pc + 4) 0)) ∧
    (u.rb R.CC_CFG F.CC_CFG_BRK_HALT = true → gives .octBrk s (fun t => t.cc = { u.cc with pc := pc + 4, halt := true } ∧
      (u.quietEvents → t.rb R.CC_EVT F.CC_EVT_HALTED = true) ∧ u.frameEv [.cc] [R.CC_EVT] t)) ∧
    (u.octPriv = true → gives .octWait s (fun t => t.cc = { u.cc with pc := pc + 4, wait := true } ∧ u.only [.cc] t)) ∧
    (user → gives .octWait s (u.trapped 5 0 pc (octX 4 0 0 0))) ∧
    -- RDCR, WRCR
    (∀ arg : BitVec 12,
      let n := arg.toNat
      (u.octPriv = true → csrKnown n = true → n ≠ 0x31 → ¬ (0x40 ≤ n ∧ n ≤ 0x42) → gives (.octRdcr rd arg) s (u.octWrote rd (u.csr n))) ∧
      (n = 0x42 → gives (.octRdcr rd arg) s (u.octWrote rd (w32 u.now))) ∧
      (n = 0x40 → gives (.octRdcr rd arg) s (fun t => t.octReg rd = w32 u.octCycle ∧ t.csr 0x41 = w32 (u.octCycle / 2 ^ 32) ∧
        t.cc.pc = pc + 4 ∧ u.only [.cc] t)) ∧
      (user → ¬ (0x40 ≤ n ∧ n ≤ 0x42) → gives (.octRdcr rd arg) s (u.trapped 5 0 pc (octX 5 rd 0 n))) ∧
      (u.octPriv = true → csrKnown n = true → csrRo n = false → gives (.octWrcr arg ra) s (fun t => t.csr n = csrStore n (u.csr n) a ∧
        (∀ k, k ≠ n → t.csr k = u.csr k) ∧ { t.cc with csr := u.cc.csr, pc := pc } = u.cc ∧ t.cc.pc = pc + 4 ∧ u.only [.cc] t)) ∧
      (user ∨ csrRo n = true → gives (.octWrcr arg ra) s (u.trapped 5 0 pc (octX 6 0 ra n)))) ∧
    -- XRD, XWR
    (∀ n : Fin 16,
      let w := (u.csr 0x14).toNat
      (13 ≤ w → gives (.octXrd rd n) s (u.trapped 4 0 pc (octX 7 rd 0 n.val)) ∧ gives (.octXwr n ra) s (u.trapped 4 0 pc (octX 8 0 ra n.val))) ∧
      (w < 13 → user → gives (.octXrd rd n) s (u.trapped 5 0 pc (octX 7 rd 0 n.val)) ∧
        gives (.octXwr n ra) s (u.trapped 5 0 pc (octX 8 0 ra n.val))) ∧
      (w < 13 → u.octPriv = true → gives (.octXrd rd n) s (u.octWrote rd (u.winReg w n)) ∧
        gives (.octXwr n ra) s (fun t => t.winReg w n = a ∧ (∀ win k, k < 16 → ¬ (win = w ∧ k = n.val) → t.winReg win k = u.winReg win k) ∧
          t.cc.g = u.cc.g ∧ t.cc.csr = u.cc.csr ∧ t.cc.pc = pc + 4 ∧ u.only [.cc] t)))

/-- R397, R401, R402, R408–R414: interrupts, double traps, the CC block's halt, run and reset, the core watchdog, the mailboxes and the Starter. -/
def Obligations.ControlCore : Prop :=
  ∀ (s : State) (v : Word),
    let free := s.ot.run = none
    let began := fun (code : Nat) (t : State) => t.rg R.RS_CAUSE = w32 (code + 64 * 2) ∧ t.rs.seq = some (.mk 2 0 false code 0)
    let woke := { s with cc := { s.cc with wait := false } }
    -- INTERRUPT_TAKE, CYCLE_REACHES_TMRCMP
    (∀ k, s.cc.halt = false → s.cc.bus = none → s.blkHeld 19 = false → s.irqDue = some k →
      (s.octIe = true → s.octTw = false → gives .interruptTake s (woke.trapped (32 + k) 0 s.cc.pc (w32 k))) ∧
      (s.octIe = false ∨ s.octTw = true → exec .interruptTake s = .next woke)) ∧
    (s.cc.halt = true ∨ s.cc.bus.isSome = true ∨ s.blkHeld 19 = true ∨ s.irqDue = none → exec .interruptTake s = .next s) ∧
    (s.irqPend 0 = true → wbit (s.csr 0x30) 0 = true → s.cc.wait = true → s.cc.halt = false → s.octIe = false →
      exec .cycleReachesTmrcmp s = .next woke) ∧
    (s.irqPend 0 = false → exec .cycleReachesTmrcmp s = .next s) ∧
    -- DOUBLE_TRAP_RESET and CC_WDT_EXPIRY are Run resets
    (free → s.cc.dt = true → s.rb R.CC_CFG F.CC_CFG_DT_RST = true → s.rs.held = [] → s.rs.seq = none →
      gives .doubleTrapReset s (began 20)) ∧
    (s.cc.dt = false ∨ s.rb R.CC_CFG F.CC_CFG_DT_RST = false → exec .doubleTrapReset s = .next s) ∧
    (free → s.ccCounts = true → s.ccLeft = 0 → s.rs.held = [] → s.rs.seq = none →
      gives .ccWdtExpiry s (began 17)) ∧
    (s.ccCounts = false ∨ 0 < s.ccLeft → exec .ccWdtExpiry s = .next s) ∧
    -- CC_HALT, CC_RUN, CC_BLK_RST
    (s.cc.halt = false → gives .ccHalt s (fun t => t.cc = { s.cc with halt := true } ∧
      (s.quietEvents → t.rb R.CC_EVT F.CC_EVT_HALTED = true) ∧ s.frameEv [.cc] [R.CC_EVT] t)) ∧
    (s.cc.halt = true → exec .ccHalt s = .next s) ∧
    (s.cc.dt = false → gives .ccRun s (fun t => t.cc = { s.cc with halt := false } ∧ s.only [.cc] t)) ∧
    (s.cc.dt = true → exec .ccRun s = .next s) ∧
    (s.blkHeld 19 = true → exec .ccBlkRst s = .next s) ∧
    (s.blkHeld 19 = false → gives .ccBlkRst s (fun t => t.cc.pc = 0xFFF00000 ∧ t.cc.halt = false ∧ t.cc.dt = false ∧ t.cc.wait = false ∧ t.cc.bus = none ∧
      (∀ n, t.csr n = csrReset n) ∧ t.rf R.CC_STAT F.CC_STAT_START = 3 ∧ s.blockReset .block 0x680000 0x6A0000 [R.CC_STAT] t ∧
      s.only [.regs, .cc, .net, .freeCtr] t)) ∧
    -- The core watchdog
    (F.CC_WDT_KICK_KEY.get v = 0x5A5A → gives (.ccWdtKick v) s (fun t => t.ccLeft = s.ccLimit ∧ s.only [.cc] t)) ∧
    (F.CC_WDT_KICK_KEY.get v ≠ 0x5A5A → exec (.ccWdtKick v) s = .next s) ∧
    (s.ccCounts = true → 2 * s.ccLeft ≤ s.ccLimit → gives .ccWdtWarn s (fun t =>
      (s.quietEvents → t.rb R.CC_EVT F.CC_EVT_WDT_WARN = true) ∧ s.frameEv [] [R.CC_EVT] t)) ∧
    (s.ccCounts = false ∨ s.ccLimit < 2 * s.ccLeft → exec .ccWdtWarn s = .next s) ∧
    -- The mailboxes
    (s.rb R.CC_MBOX_STAT F.CC_MBOX_STAT_H2C_FULL = false → gives (.mboxH2cWrite v) s (fun t => t.rg R.CC_MBOX_H2C = v ∧
      t.rb R.CC_MBOX_STAT F.CC_MBOX_STAT_H2C_FULL = true ∧ s.frameR [R.CC_MBOX_H2C, R.CC_MBOX_STAT] t)) ∧
    (s.rb R.CC_MBOX_STAT F.CC_MBOX_STAT_H2C_FULL = true → gives (.mboxH2cWrite v) s (fun t =>
      t.rb R.CC_MBOX_STAT F.CC_MBOX_STAT_LOST = true ∧ s.frameR [R.CC_MBOX_STAT] t)) ∧
    (s.rb R.CC_MBOX_STAT F.CC_MBOX_STAT_C2H_FULL = false → gives (.mboxC2hWrite v) s (fun t => t.rg R.CC_MBOX_C2H = v ∧
      t.rb R.CC_MBOX_STAT F.CC_MBOX_STAT_C2H_FULL = true ∧ (s.quietEvents → t.rb R.CC_EVT F.CC_EVT_MBOX = true) ∧
      s.frameEv [] [R.CC_MBOX_C2H, R.CC_MBOX_STAT, R.CC_EVT] t)) ∧
    (s.rb R.CC_MBOX_STAT F.CC_MBOX_STAT_C2H_FULL = true → gives (.mboxC2hWrite v) s (fun t =>
      t.rb R.CC_MBOX_STAT F.CC_MBOX_STAT_LOST = true ∧ s.frameR [R.CC_MBOX_STAT] t)) ∧
    gives .mboxH2cRead s (fun t => t.out = s.out ++ [.readBack R.CC_MBOX_H2C (s.rg R.CC_MBOX_H2C)] ∧
      t.rb R.CC_MBOX_STAT F.CC_MBOX_STAT_H2C_FULL = false ∧ s.frame [.out] [R.CC_MBOX_STAT] t) ∧
    gives .mboxC2hRead s (fun t => t.out = s.out ++ [.readBack R.CC_MBOX_C2H (s.rg R.CC_MBOX_C2H)] ∧
      t.rb R.CC_MBOX_STAT F.CC_MBOX_STAT_C2H_FULL = false ∧ s.frame [.out] [R.CC_MBOX_STAT] t) ∧
    -- The Starter: a Run or Block start after CFG_GO; in HX mode it idles; a Cold or Warm start sets CFG_GO and ARRAY_GO
    (s.cc.boot = false ∨ s.blkHeld 19 = true → exec .starterStart s = .next s) ∧
    (s.cc.boot = true → s.blkHeld 19 = false → 2 ≤ s.rf R.CC_STAT F.CC_STAT_START → s.rb R.CC_BOOT F.CC_BOOT_CFG_GO = true →
      (s.qvMode = false → gives .starterStart s (fun t => t.cc = { s.cc with boot := false, wait := true } ∧ s.only [.cc] t)) ∧
      (s.qvMode = true → s.rg R.CC_RESTART ≠ 0 → gives .starterStart s (fun t =>
        t.cc = { s.cc with boot := false, pc := s.rg R.CC_RESTART } ∧ s.only [.cc] t))) ∧
    (s.cc.boot = true → s.blkHeld 19 = false → s.rf R.CC_STAT F.CC_STAT_START = 1 → s.qvMode = false → s.lowerOpen.2 = false →
      gives .starterStart s (fun t => t.rb R.CC_BOOT F.CC_BOOT_CFG_GO = true ∧ t.rb R.CC_BOOT F.CC_BOOT_ARRAY_GO = true ∧
        t.cc = { s.cc with boot := false, wait := true }))

/-- R415, R427–R434, R438: detections and recoveries. A detection is logged only while EN is 0; else it starts a test, waits, or repeats one; a
transient column comes back from its Lining, a lasting one is remapped; the end of the replay counts the recovery. -/
def Obligations.Recoveries : Prop :=
  ∀ s : State,
    let en := s.rb R.FT_CTRL F.FT_CTRL_EN = true
    let slot := fun (k : Nat) => k < 64 ∧ s.rb (R.FT_LOG_CTL k) F.FT_LOG_CTL_VALID = false ∧ ∀ j < k, s.rb (R.FT_LOG_CTL j) F.FT_LOG_CTL_VALID = true
    let state := fun (n : Nat) (t : State) => t.rf R.FT_STAT F.FT_STAT_STATE = n
    -- DETECTION
    (s.faults = [] → exec .detection s = .next s) ∧
    (∀ f rest, s.faults = f :: rest →
      (f.elems = [] → gives .detection s (fun t => t.faults = rest ∧ (s.quietEvents → t.rb R.FT_EVT F.FT_EVT_DETECT = true) ∧
        s.frameEv [.faults] [R.FT_EVT] t)) ∧
      (∀ c l k, f.elems = [(c, l)] → ¬ en → slot k →
        let g := s.elemGroup (c, l)
        gives .detection s (fun t => t.faults = rest ∧ (s.quietEvents → t.rb R.FT_EVT F.FT_EVT_DETECT = true) ∧
          t.rg (R.FT_LOG_CTL k) = w32 (7 + 16 * f.det + 256 * c + 4096 * (2 + b2n g.isSome) + 65536 * g.getD 0 + 2 ^ 21 * b2n g.isSome) ∧
          t.rg (R.FT_LOG_LOC k) = w32 l ∧ t.rg (R.FT_LOG_TIME k) = w32 f.time ∧ t.rg (R.FT_LOG_REC k) = 0 ∧
          s.frameEv [.faults] [R.FT_EVT, R.FT_LOG_CTL k, R.FT_LOG_LOC k, R.FT_LOG_TIME k, R.FT_LOG_REC k] t)) ∧
      (f.elems ≠ [] → en → s.ft.run = none →
        gives .detection s (fun t => t.faults = rest ∧ state 3 t ∧ (∃ r, t.ft.run = some r ∧ r.step = 3 ∧ r.els = f.els 0 ∧ r.t0 = f.time) ∧
          ((∃ e ∈ f.elems, s.elemFreezes f.det e = true) → t.rb R.AR_CTRL F.AR_CTRL_FROZEN = true))) ∧
      (∀ r, f.elems ≠ [] → en → s.ft.run = some r → (∀ x ∈ f.elems, ∃ e ∈ r.els, sameElem x (e.code, e.loc) = true) →
        gives .detection s (fun t => t.faults = rest ∧ t.ft = { s.ft with run := some { r with els := r.els.map (fun e => if f.elems.any (fun x => sameElem x (e.code, e.loc)) then { e with rep := e.rep + 1 } else e) } }))) ∧
    -- RECOVERY_TEST_DONE: one column, transient or lasting
    (∀ fails, s.ft.run = none → exec (.recoveryTestDone fails) s = .next s) ∧
    (∀ fails r, s.ft.run = some r → r.step ≠ 3 → exec (.recoveryTestDone fails) s = .next s) ∧
    (∀ (fails : BitVec 64) r e l k, s.ft.run = some r → r.step = 3 → r.freeze = true → r.els = [e] → e.cls = 0 → e.code = 1 →
      s.logCol (e.loc % 64) = some l → slot k →
      (fails.toNat.testBit 0 = false →
        gives (.recoveryTestDone fails) s (fun t => state 5 t ∧ t.rf (R.FT_LOG_CTL k) F.FT_LOG_CTL_CLASS = 1 ∧
          (∃ q, t.ft.run = some q ∧ q.step = 5 ∧ q.cols = r.cols ++ [(l, false)] ∧ q.cannot = r.cannot) ∧
          (s.quietEvents → t.rb R.FT_EVT F.FT_EVT_TRANSIENT = true) ∧ s.only [.regs, .ft, .ev, .out] t)) ∧
      (fails.toNat.testBit 0 = true → colMarks (s.rg R.AR_COLMAP) = [] →
        gives (.recoveryTestDone fails) s (fun t => state 5 t ∧ t.rf (R.FT_LOG_CTL k) F.FT_LOG_CTL_CLASS = 2 ∧
          (∃ q, t.ft.run = some q ∧ q.step = 5 ∧ q.cols = r.cols ++ [(l, true)] ∧ q.cannot = r.cannot) ∧
          colMarks (t.rg R.AR_COLMAP) = [e.loc % 64] ∧ t.rf R.FT_STAT F.FT_STAT_GUSSET_FREE = 1 ∧
          (s.quietEvents → t.rb R.FT_EVT F.FT_EVT_LASTING = true)))) ∧
    -- ... one SMB row: it leaves its spare row where it passes, and keeps it as SOFT where it fails and the bank has room
    (∀ (fails : BitVec 64) r e k, s.ft.run = some r → r.step = 3 → r.freeze = true → r.els = [e] → e.cls = 0 → e.code = 2 → slot k →
      let b := e.loc / 4096 % 128
      let row := e.loc % 4096
      gives (.recoveryTestDone fails) s (fun t => state 5 t ∧
        t.rf (R.FT_LOG_CTL k) F.FT_LOG_CTL_CLASS = (if fails.toNat.testBit 0 then 2 else 1) ∧
        (s.quietEvents → t.rb R.FT_EVT (if fails.toNat.testBit 0 then F.FT_EVT_LASTING else F.FT_EVT_TRANSIENT) = true) ∧
        (fails.toNat.testBit 0 = false → t.tempOf b row = none) ∧
        (∀ q, fails.toNat.testBit 0 = true → s.sm.run = none → (s.repairsOf b .soft).length < 2 → s.tempOf b row = some q →
          { q with kind := .soft } ∈ t.sm.repairs))) ∧
    -- TRANSFER_DONE
    (s.ft.run = none → exec .transferDone s = .next s) ∧
    (∀ r, s.ft.run = some r → r.step ≠ 5 → exec .transferDone s = .next s) ∧
    (∀ r, s.ft.run = some r → r.step = 5 → s.smbBusy = false → s.runGroups r = [] →
      gives .transferDone s (fun t => state 6 t ∧ t.ft = { s.ft with run := some { r with step := 6 } } ∧ s.frame [.ft] [R.FT_STAT, R.AR_CTRL] t)) ∧
    (∀ r g, s.ft.run = some r → r.step = 5 → s.runGroups r = [g] → g < 32 → r.els.find? (fun e => e.code == 4 && e.cls == 2 && e.det != 5) = none →
      (s.rb (R.FT_GRP_STAT g) F.FT_GRP_STAT_OPEN = true ∨ r.cannot = true) →
      gives .transferDone s (fun t => state 6 t ∧ t.rb (R.FT_GRP_STAT g) F.FT_GRP_STAT_FAILED = true ∧
        (s.quietEvents → t.rb R.FT_EVT F.FT_EVT_PARTIAL = true))) ∧
    -- REPLAY_DONE
    (s.ft.run = none → exec .replayDone s = .next s) ∧
    (∀ r, s.ft.run = some r → r.step ≠ 6 → exec .replayDone s = .next s) ∧
    (∀ r, s.ft.run = some r → r.step = 6 → s.ft.queue = [] → s.rs.domWait = none →
      let n := satN (2 ^ 32 - 1) (2 * (s.now - r.t0))
      gives .replayDone s (fun t => state 0 t ∧ t.ft = { s.ft with run := none } ∧ t.rg R.FT_REC_TIME = w32 n ∧
        t.rg R.FT_REC_MAX = w32 (max n (s.rg R.FT_REC_MAX).toNat) ∧
        (∀ g ∈ s.runGroups r, t.rf (R.FT_GRP_STAT g) F.FT_GRP_STAT_RECOVERIES =
          satN 0xFFFF (s.rf (R.FT_GRP_STAT g) F.FT_GRP_STAT_RECOVERIES + 1) ∧ (s.quietEvents → (t.rg R.FT_GRP_PEND).toNat.testBit g = true)) ∧
        (s.quietEvents → t.rb R.FT_EVT F.FT_EVT_RECOVERED = true ∧ (10000 < s.now - r.t0 → t.rb R.FT_EVT F.FT_EVT_OVERRUN = true)) ∧
        s.only [.regs, .ft, .ev, .out] t))

/-- R416, R420–R425, R434, R439: protection groups. A checkpoint is issued as a wavefront; its records go to the Lining, and the last completes it;
CLEAR empties a failed group; the configuration of an enabled group is locked. -/
def Obligations.Groups : Prop :=
  ∀ (s : State) (g : Fin 32),
    let c := R.FT_GRP_CFG g
    let st := R.FT_GRP_STAT g
    let every := s.rf c F.FT_GRP_CFG_INTERVAL
    let issued := fun (t : State) => t.grp g = { s.grp g with flight := some (.mk (s.grp g).num [] []), lastAt := s.now } ∧
      t.rb st F.FT_GRP_STAT_BUSY = true ∧ (∃ f, t.arr = { s.arr with foldIn := s.arr.foldIn ++ [f] } ∧ f.wave = true ∧ f.trig = 5 ∧
        f.mask = s.grpMask g ∧ f.grp = g.val) ∧ s.frame [.ft, .arr] [st] t
    -- CHECKPOINT_INTERVAL, CKPT
    (s.rb c F.FT_GRP_CFG_EN = true → (s.grp g).flight = none →
      gives (.ftCkpt g) s issued ∧
      (every ≠ 0 → (s.grp g).lastAt + 500 * every ≤ s.now → s.ft.run = none → gives (.checkpointInterval g) s issued)) ∧
    (s.rb c F.FT_GRP_CFG_EN = false → exec (.ftCkpt g) s = .next s) ∧
    (s.rb c F.FT_GRP_CFG_EN = false ∨ every = 0 ∨ s.now < (s.grp g).lastAt + 500 * every ∨ s.ft.run.isSome = true →
      exec (.checkpointInterval g) s = .next s) ∧
    -- LINING_RECORD_WRITTEN
    (∀ k i l r, (s.grp g).flight = some k → k.shadow = (i, l) :: r → s.rb c F.FT_GRP_CFG_MIRROR = false → s.sm.repairs = [] → s.smbBusy = false → s.unarmed → l.length = 640 →
      let a := s.recordAt g (peTile i) i (k.num % 2)
      let stored := fun (t : State) => (∀ j < 80, t.numAt (s.smbPlace (a + 8 * j)) 8 = ofBytesLE ((l.drop (8 * j)).take 8)) ∧
        (∀ b, (∀ j < 80, ¬ (s.smbPlace (a + 8 * j) ≤ b ∧ b < s.smbPlace (a + 8 * j) + 8)) → t.byteAt b = s.byteAt b)
      (r ≠ [] → gives (.liningRecordWritten g) s (fun t => stored t ∧ t.grp g = { s.grp g with flight := some { k with shadow := r } } ∧
        s.frame [.ft, .mem, .syn, .sm] [] t)) ∧
      (r = [] → (∀ j ∈ s.maskPes (s.grpMask g), ∃ e ∈ k.act, e.1 = j) → (s.grp g).more = 0 →
        gives (.liningRecordWritten g) s (fun t => stored t ∧ (t.grp g).flight = none ∧ (t.grp g).num = ((s.grp g).num + 1) % 4096 ∧
          (t.grp g).act = k.act ∧ t.rf st F.FT_GRP_STAT_CKPT = k.num % 4096 ∧ t.rb st F.FT_GRP_STAT_CKPT_V = true ∧
          t.rb st F.FT_GRP_STAT_OPEN = false ∧ t.rb st F.FT_GRP_STAT_BUSY = false ∧ s.frame [.ft, .mem, .syn, .sm, .qs, .out] [st] t))) ∧
    ((s.grp g).flight = none ∨ s.smbBusy = true → exec (.liningRecordWritten g) s = .next s) ∧
    (∀ k, (s.grp g).flight = some k → k.shadow = [] → exec (.liningRecordWritten g) s = .next s) ∧
    -- CLEAR
    (s.rb st F.FT_GRP_STAT_FAILED = true → gives (.grpClear g) s (fun t => t.rb st F.FT_GRP_STAT_FAILED = false ∧
      (∀ i, i < 1536 → peTile i ∈ tilesOf (s.grpMask g) → (t.pe i).n = Fifo.empty ∧ (t.pe i).e = Fifo.empty ∧ (t.pe i).so = Fifo.empty ∧
        (t.pe i).w = Fifo.empty ∧ (t.pe i).s = (s.pe i).s) ∧
      (∀ i, i < 1536 → peTile i ∉ tilesOf (s.grpMask g) → t.pe i = s.pe i) ∧
      (∀ q, (1024 ≤ q ∧ q < 1088 ∨ 1160 ≤ q ∧ q < 1544) → t.qu q = (if s.tileGroup (portTile q) = some g.val then Queue.empty else s.qu q)) ∧
      (∀ q, 1088 ≤ q → q < 1152 → t.qu q = (if s.tileGroup (portTile (q - 64)) = some g.val then Queue.empty else s.qu q)) ∧ s.frame [.arr, .qs] [st] t)) ∧
    (s.rb st F.FT_GRP_STAT_FAILED = false → exec (.grpClear g) s = .next s) ∧
    -- FT_INJECT
    (∀ v : Word, F.FT_INJECT_GO.bit v = true →
      (s.ft.run = none → F.FT_INJECT_COL.get v < 50 → gives (.ftInject v) s (fun t =>
        t.faults = s.faults ++ [.mk 7 [(1, F.FT_INJECT_COL.get v + 256 * F.FT_INJECT_ROW.get v)] s.now] ∧ s.only [.faults] t)) ∧
      (s.ft.run.isSome = true ∨ 50 ≤ F.FT_INJECT_COL.get v → gives (.ftInject v) s (fun t =>
        (s.quietEvents → t.rb R.FT_EVT F.FT_EVT_CFG_ERR = true) ∧ s.frameEv [] [R.FT_EVT] t))) ∧
    (∀ v : Word, F.FT_INJECT_GO.bit v = false → exec (.ftInject v) s = .next s) ∧
    -- FT_GRP_CFG_WRITE: the configuration and the three mask words
    (∀ (off : BitVec 24) (v : Word), off.toNat ∈ [R.FT_GRP_MASK_W0 g, R.FT_GRP_MASK_W1 g, R.FT_GRP_MASK_W2 g, c] →
      let a := off.toNat
      (s.rb c F.FT_GRP_CFG_EN = false → (s.store a v).grpClash = false →
        gives (.ftGrpCfgWrite off v) s (fun t => t.rg a = s.written a v ∧ (a ≠ c → s.frameR [a] t) ∧ s.frame [.ft] [a] t)) ∧
      (s.rb c F.FT_GRP_CFG_EN = true → a ≠ c ∨ F.FT_GRP_CFG_EN.bit v = true →
        gives (.ftGrpCfgWrite off v) s (fun t => (s.quietEvents → t.rb R.FT_EVT F.FT_EVT_CFG_ERR = true) ∧ s.frameEv [] [R.FT_EVT] t)) ∧
      ((s.store a v).grpClash = true →
        gives (.ftGrpCfgWrite off v) s (fun t => (s.quietEvents → t.rb R.FT_EVT F.FT_EVT_CFG_ERR = true) ∧ s.frameEv [] [R.FT_EVT] t)) ∧
      (s.rb c F.FT_GRP_CFG_EN = true → a = c → F.FT_GRP_CFG_EN.bit v = false → (s.store a v).grpClash = false →
        gives (.ftGrpCfgWrite off v) s (fun t => t.rg c = s.written c v ∧ s.frameR [c] t))) ∧
    -- FT_BLK_RST
    (s.blkHeld 20 = true ∨ s.ft.run.isSome = true → exec .ftBlkRst s = .next s) ∧
    (s.blkHeld 20 = false → s.ft.run = none → gives .ftBlkRst s (fun t => s.blockReset .block 0x6A0000 0x6C0000 [] t ∧ s.only [.regs] t))

/-- R440–R443, R450–R452, R456, R457: every source of a reset starts the sequence of its reach (Table RS-2), with its cause; a lasting source is
held until it ends; during an OTP pulse all but the loss of core power-good wait. -/
def Obligations.ResetSources : Prop :=
  ∀ (s : State) (straps : BitVec 4) (mv tj : BitVec 16) (v : Word),
    let key := F.RS_CTRL_KEY.get v = 0x5253
    -- the straps are sampled by a Cold and a Warm reset (R1, R453)
    let strapped := fun (t : State) => t.rs.straps = straps ∧ t.rg R.RS_STRAP = w32 straps.toNat ∧
      t.rb R.CG_STATUS F.CG_STATUS_HX = (straps.toNat % 2 == 0) ∧ t.rf R.CG_STATUS F.CG_STATUS_BOOT = straps.toNat / 2 % 4
    -- sources that do not last
    (s.resetFree →
      gives (.powerOn straps mv) s (fun t => s.resetBegun 1 0 0 t ∧ strapped t ∧ t.rs.aon = true ∧
        t.rf R.PW_VIN F.PW_VIN_MV = mv.toNat) ∧
      gives (.powerGoodLoss straps) s (fun t => s.resetBegun 3 (s.rf R.PW_STAT F.PW_STAT_PHASE_OK) 0 t ∧ strapped t) ∧
      gives (.aonDisagree straps) s (fun t => s.resetBegun 5 0 0 t ∧ strapped t) ∧
      gives (.jtagReset straps) s (fun t => s.resetBegun 12 0 1 t ∧ strapped t) ∧
      (s.rsCounts = true → s.rsLeft = 0 → gives (.systemWdtExpiry straps) s (fun t => s.resetBegun 9 0 1 t ∧ strapped t)) ∧
      (key → F.RS_CTRL_WARM.bit v = true → F.RS_CTRL_RUN.bit v = false → gives (.softwareWarm straps v) s (fun t => s.resetBegun 10 0 1 t ∧ strapped t)) ∧
      (key → F.RS_CTRL_WARM.bit v = false → F.RS_CTRL_RUN.bit v = true → gives (.softwareRun v) s (s.resetBegun 18 0 2))) ∧
    (¬ key → gives (.softwareWarm straps v) s (fun t => t.rs = { s.rs with straps := straps } ∧ s.only [.rs] t) ∧ exec (.softwareRun v) s = .next s) ∧
    (s.rsCounts = false ∨ 0 < s.rsLeft → exec (.systemWdtExpiry straps) s = .next s) ∧
    -- sources that last
    (s.resetFree →
      gives (.brownout straps mv) s (fun t => s.resetBegun 2 0 0 t ∧ strapped t ∧ t.rs.held = [2] ∧ t.rs.vin = false) ∧
      (1000 ≤ sext 16 tj.toNat → gives (.thermalTrip straps tj) s (fun t => s.resetBegun 4 0 0 t ∧ strapped t ∧ t.rs.held = [4] ∧ t.rf R.PW_TEMP F.PW_TEMP_TJ = tj.toNat)) ∧
      (s.qvMode = true → gives (.nresetLow straps) s (fun t => s.resetBegun 8 0 1 t ∧ t.rs.held = [8] ∧ strapped t)) ∧
      (s.qvMode = false → gives (.nresetLow straps) s (fun t => s.resetBegun 16 0 2 t ∧ t.rs.held = [16] ∧ t.rs.straps = straps)) ∧
      gives .perst s (fun t => s.resetBegun 19 0 2 t ∧ t.rs.held = [19])) ∧
    (sext 16 tj.toNat < 1000 → exec (.thermalTrip straps tj) s = .next s) ∧
    -- their ends
    gives (.vinRise4v5 mv) s (fun t => t.rs = { s.rs with vin := true, held := s.rs.held.filter (· != 2) } ∧ t.rf R.PW_VIN F.PW_VIN_MV = mv.toNat ∧
      s.frame [.rs] [R.RS_SEQ, R.PW_VIN] t) ∧
    (sext 16 tj.toNat < 920 → gives (.thermalTripEnd tj) s (fun t => t.rs = { s.rs with held := s.rs.held.filter (· != 4) } ∧
      t.rf R.PW_TEMP F.PW_TEMP_TJ = tj.toNat ∧ s.frame [.rs] [R.RS_SEQ, R.PW_TEMP] t)) ∧
    (920 ≤ sext 16 tj.toNat → exec (.thermalTripEnd tj) s = .next s) ∧
    gives .nresetRelease s (fun t => t.rs = { s.rs with held := (s.rs.held.filter (· != 8)).filter (· != 16) } ∧ s.frame [.rs] [R.RS_SEQ] t) ∧
    gives .perstRelease s (fun t => t.rs = { s.rs with held := s.rs.held.filter (· != 19) } ∧ s.frame [.rs] [R.RS_SEQ] t) ∧
    -- during an OTP pulse
    (∀ r, s.ot.run = some r →
      gives (.aonDisagree straps) s (fun t => t.rs = { s.rs with straps := straps, deferred := s.rs.deferred ++ [(5, 0)] } ∧ s.frame [.rs] [R.RS_SEQ] t) ∧
      gives (.jtagReset straps) s (fun t => t.rs = { s.rs with straps := straps, deferred := s.rs.deferred ++ [(12, 0)] } ∧ s.frame [.rs] [R.RS_SEQ] t)) ∧
    -- the system watchdog, RS_SAFE, phases and the thermal warning
    (F.RS_WDT_KICK_KEY.get v = 0xC3C3 → gives (.rsWdtKick v) s (fun t => t.rsLeft = s.rsLimit ∧ s.only [.rs] t)) ∧
    (F.RS_WDT_KICK_KEY.get v ≠ 0xC3C3 → exec (.rsWdtKick v) s = .next s) ∧
    (s.rsCounts = true → 2 * s.rsLeft ≤ s.rsLimit → gives .rsWdtWarn s (fun t => (s.quietEvents → t.rb R.RS_EVT F.RS_EVT_WDT_WARN = true) ∧
      s.frameEv [] [R.RS_EVT] t)) ∧
    (s.rsCounts = false ∨ s.rsLimit < 2 * s.rsLeft → exec .rsWdtWarn s = .next s) ∧
    gives (.rsSafeWrite v) s (fun t => t.rg R.RS_SAFE = s.written R.RS_SAFE v ∧ s.frameR [R.RS_SAFE] t) ∧
    (∀ p : Fin 6, gives (.phaseFail p) s (fun t => (t.rf R.PW_STAT F.PW_STAT_PHASE_OK).testBit p = false ∧
      (s.quietEvents → t.rb R.PW_EVT F.PW_EVT_PHASE_FAIL = true) ∧ s.frameEv [] [R.PW_STAT, R.PW_EVT] t)) ∧
    (let w := 8 * (s.rf R.PW_THERM F.PW_THERM_WARN : Int)
     (sext 16 (s.rf R.PW_TEMP F.PW_TEMP_TJ) < w ∧ w ≤ sext 16 tj.toNat → gives (.thermalWarn tj) s (fun t =>
       t.rf R.PW_TEMP F.PW_TEMP_TJ = tj.toNat ∧ (s.quietEvents → t.rb R.PW_EVT F.PW_EVT_THERM_WARN = true) ∧
       s.frameEv [] [R.PW_TEMP, R.PW_EVT] t)) ∧
     (w ≤ sext 16 (s.rf R.PW_TEMP F.PW_TEMP_TJ) ∨ sext 16 tj.toNat < w → gives (.thermalWarn tj) s (fun t =>
       t.rf R.PW_TEMP F.PW_TEMP_TJ = tj.toNat ∧ s.frameR [R.PW_TEMP] t)))

/-- R454–R456: the steps of a sequence are released in order, each once its condition holds and no held reach covers it; a Run sequence passes over
the steps that it does not reset. -/
def Obligations.ResetSteps : Prop :=
  ∀ (s : State) (q : RsSeq) (k : Nat), s.rs.seq = some q → q.next = some k → q.reach ≤ 2 →
    let h := s.rs.held.map codeReach
    -- a step that waits
    (s.stepReady k = false ∨ 0 ∈ h ∨ (1 ∈ h ∧ stepIn 1 k = true) → exec .resetStepRelease s = .next s) ∧
    (2 ∈ h → stepIn 2 k = true → k ≠ 3 ∨ q.reach = 2 ∨ q.half = true → exec .resetStepRelease s = .next s) ∧
    (k = 3 → q.reach < 2 → q.half = false → s.stepReady 3 = true → 0 ∉ h → 1 ∉ h → 2 ∈ h → gives .resetStepRelease s (fun t =>
      t.rs.seq = some { q with half := true } ∧ t.sm.fills = s.sm.fills ++ [{ ranges := allRanges, dom := none }])) ∧
    -- a step released: it is the next of its reach, and the last one ends the sequence
    (s.stepReady k = true → s.rs.held = [] →
      gives .resetStepRelease s (fun t => t.rs.seq = (if k = 10 then none else some { q with step := k, half := false }) ∧
        t.rf R.RS_SEQ F.RS_SEQ_STEP = k) ∧
      (k ≤ 10 ∧ q.step < k ∧ stepIn q.reach k = true ∧ (∀ j, q.step < j → j < k → stepIn q.reach j = false)) ∧
      (k = 6 → q.half = false → gives .resetStepRelease s (fun t => t.cc.pc = 0xFFF00000 ∧ t.cc.boot = true ∧ t.cc.halt = false ∧
        t.rf R.CC_STAT F.CC_STAT_START = q.reach)) ∧
      (k = 2 → q.half = false → gives .resetStepRelease s (fun t => t.rs.optRun = true ∧ t.rb R.PW_STAT F.PW_STAT_PG = true)) ∧
      (k = 10 → q.reach = 2 → q.half = false → s.quietEvents → gives .resetStepRelease s (fun t => t.rb R.RS_EVT F.RS_EVT_RUN_DONE = true))) ∧
    (s.rs.optRun = true → gives .optionLoadDone s (fun t => t.rs = { s.rs with optRun := false, optDone := true } ∧
      t.rf R.OT_STAT F.OT_STAT_RDP = s.rdpOtp ∧ (∀ r ∈ t.sm.repairs, r.kind = .factory → r.row ∈ (Config.fuseRows r.bank).map (· % 4096)) ∧
      (∀ b < 96, (t.repairsOf b .factory).length ≤ 8) ∧ (∀ r, r.kind ≠ .factory → (r ∈ t.sm.repairs ↔ r ∈ s.sm.repairs)) ∧ s.only [.regs, .rs, .sm] t)) ∧
    (s.rs.optRun = false → exec .optionLoadDone s = .next s)

/-- R444–R449, Table PW-4: power domains and clocks. A command is refused by the lowest condition of Table PW-4; OFF closes, drains, isolates and
switches off; ON ramps and comes back. -/
def Obligations.DomainsAndClocks : Prop :=
  ∀ (s : State) (v : Word),
    let d := F.PW_DOM_CMD_DOM.get v
    let go := F.PW_DOM_CMD_GO.bit v = true
    let refused := fun (c : Nat) (t : State) => t.rg R.PW_DOM_ERR = w32 (d + 256 * c) ∧
      (s.quietEvents → t.rb R.PW_EVT F.PW_EVT_DOM_REFUSED = true) ∧ s.frameEv [] [R.PW_DOM_ERR, R.PW_EVT] t
    -- DOMAIN_OFF
    (go → F.PW_DOM_CMD_OP.get v = 1 → s.rs.domWait = none →
      (s.rf R.FT_STAT F.FT_STAT_STATE = 0 → ∀ c, s.domRefusal d false = some c → gives (.domainOff v) s (refused c)) ∧
      (s.rf R.FT_STAT F.FT_STAT_STATE = 0 → s.domRefusal d false = none → d ≠ 10 → d ≠ 11 →
        gives (.domainOff v) s (fun t => t.rs = { s.rs with dom := some (d, false, s.now) } ∧ t.domState d = 3 ∧ t.domOn d = false ∧
          s.frame [.rs, .net, .sm] [R.PW_DOM_STAT d] t)) ∧
      (s.rf R.FT_STAT F.FT_STAT_STATE ≠ 0 → gives (.domainOff v) s (fun t => t.rs = { s.rs with domWait := some d } ∧ s.only [.rs] t))) ∧
    (go → F.PW_DOM_CMD_OP.get v = 1 → s.rs.domWait.isSome = true → ∃ c, s.domRefusal d false = some c ∧ gives (.domainOff v) s (refused c)) ∧
    (¬ go ∨ F.PW_DOM_CMD_OP.get v ≠ 1 → exec (.domainOff v) s = .next s) ∧
    -- DOMAIN_ON
    (go → F.PW_DOM_CMD_OP.get v = 2 →
      (∀ c, s.domRefusal d true = some c → gives (.domainOn v) s (refused c)) ∧
      (s.domRefusal d true = none → gives (.domainOn v) s (fun t => t.rs = { s.rs with dom := some (d, true, s.now) } ∧ t.domState d = 1 ∧
        s.frame [.rs, .sm] [R.PW_DOM_STAT d] t))) ∧
    (¬ go ∨ F.PW_DOM_CMD_OP.get v ≠ 2 → exec (.domainOn v) s = .next s) ∧
    -- the refusals that come first (Table PW-4)
    (∀ (x : Nat) (on : Bool), (x < 2 → s.domRefusal x on = some 1) ∧ (17 ≤ x → s.domRefusal x on = some 2) ∧
      (2 ≤ x → x < 17 → s.domState x ≠ (if on then 0 else 2) → s.domRefusal x on = some 2) ∧
      (2 ≤ x → x < 17 → s.domState x = (if on then 0 else 2) → s.rs.dom.isSome = true ∨ s.rs.domWait.isSome = true → s.domRefusal x on = some 3) ∧
      (x = 16 → s.domState x = (if on then 0 else 2) → s.rs.dom = none → s.rs.domWait = none → s.anyAxis = true → s.domRefusal x on = some 6) ∧
      (x = 14 → s.domState x = (if on then 0 else 2) → s.rs.dom = none → s.rs.domWait = none → s.domRefusal x on = (if s.rs.seq.isSome then some 8 else none))) ∧
    -- DRAIN_END, ISOLATION_END of a domain without requests and links
    (∀ x w, s.rs.dom = some (x, false, w) → x < 17 → s.domState x = 3 → s.domOpenReqs x = [] → x ≠ 12 → x ≠ 13 → x ≠ 14 → x ≠ 15 → x ≠ 10 →
      gives .drainEnd s (fun t => t.rs = { s.rs with dom := some (x, false, s.now) } ∧ t.domState x = 5 ∧ s.frame [.rs, .sm] [R.PW_DOM_STAT x] t)) ∧
    (∀ x w, s.rs.dom = some (x, false, w) → s.domState x = 3 → s.domOpenReqs x ≠ [] → s.now < w + 2000 → exec .drainEnd s = .next s) ∧
    (∀ x w, s.rs.dom = some (x, false, w) → x < 17 → s.domState x = 5 → w + 500 ≤ s.now →
      (x ≠ 10 → x ≠ 11 → gives .isolationEnd s (fun t => t.rs.dom = none ∧ t.domState x = 0 ∧
        (s.quietEvents → t.rb R.PW_EVT F.PW_EVT_DOM_DONE = true) ∧
        (12 ≤ x → x < 16 → s.frameEv [.rs, .sm] [R.PW_DOM_STAT x, R.PW_EVT] t) ∧
        (x = 16 → t.yk = { Yoke.reset with time := s.yk.time } ∧ t.mke = MkEng.reset ∧ t.cuffs = []) ∧
        (2 ≤ x → x < 10 → ∀ i, i < 1536 → peRow i / 4 = x - 2 → t.pe i = Pe.idle)))) ∧
    (∀ x w, s.rs.dom = some (x, false, w) → s.domState x ≠ 5 ∨ s.now < w + 500 → exec .isolationEnd s = .next s) ∧
    (∀ x w, s.rs.dom = some (x, true, w) → exec .drainEnd s = .next s ∧ exec .isolationEnd s = .next s) ∧
    -- RAMP_DONE
    (∀ x w, s.rs.dom = some (x, true, w) → 12 ≤ x → x < 16 →
      gives .rampDone s (fun t => t.rs = { s.rs with dom := none } ∧ t.domState x = 2 ∧ t.domOn x = true ∧
        (s.quietEvents → t.rb R.PW_EVT F.PW_EVT_DOM_DONE = true) ∧ s.frameEv [.rs] [R.PW_DOM_STAT x, R.PW_EVT] t)) ∧
    (∀ w, s.rs.dom = some (16, true, w) →
      gives .rampDone s (fun t => t.rs = { s.rs with dom := none } ∧ t.domState 16 = 2 ∧ t.yk = { Yoke.reset with time := s.yk.time } ∧ t.cuffs = [])) ∧
    -- ... of a row: its memories are filled first, and the command runs on
    (∀ x w, s.rs.dom = some (x, true, w) → 2 ≤ x → x < 10 →
      (s.sm.fills.all (fun f => f.dom != some x) = true →
        gives .rampDone s (fun t => t.rs = s.rs ∧ t.domState x = s.domState x ∧
          t.sm.fills = s.sm.fills ++ [{ ranges := rowRanges (x - 2), dom := some x }] ∧
          { t.sm with fills := s.sm.fills, wbq := s.sm.wbq, poison := s.sm.poison } = s.sm ∧
          (∀ i, i < 1536 → peRow i / 4 = x - 2 → t.pe i = Pe.idle))) ∧
      (s.sm.fills.any (fun f => f.dom == some x) = true → exec .rampDone s = .next s)) ∧
    (s.rs.dom = none → exec .rampDone s = .next s ∧ exec .drainEnd s = .next s ∧ exec .isolationEnd s = .next s) ∧
    -- Clocks
    gives .refLoss s (fun t => t.rb R.CK_STAT F.CK_STAT_HOLDOVER = true ∧ t.rb R.CK_STAT F.CK_STAT_REF_OK = false ∧
      (s.quietEvents → t.rb R.CK_EVT F.CK_EVT_REF_LOSS = true) ∧ s.frameEv [] [R.CK_STAT, R.CK_EVT] t) ∧
    (s.rb R.CK_STAT F.CK_STAT_HOLDOVER = true → gives .refRestore s (fun t => t.rb R.CK_STAT F.CK_STAT_HOLDOVER = false ∧
      t.rb R.CK_STAT F.CK_STAT_REF_OK = true ∧ (s.quietEvents → t.rb R.CK_EVT F.CK_EVT_REF_BACK = true) ∧ s.frameEv [] [R.CK_STAT, R.CK_EVT] t)) ∧
    (s.rb R.CK_STAT F.CK_STAT_HOLDOVER = false → gives .refRestore s (fun t => t.rb R.CK_STAT F.CK_STAT_REF_OK = true ∧ s.frameR [R.CK_STAT] t)) ∧
    (let n := F.CK_ACLK_N.get v
     let ok := s.rb R.AR_CTRL F.AR_CTRL_FROZEN = true ∧ 10 ≤ n ∧ (n ≤ 20 ∨ (n ≤ 25 ∧ s.rb R.CK_STAT F.CK_STAT_GRADE = true))
     (ok → gives (.aclkWrite v) s (fun t => t.rg R.CK_ACLK = s.written R.CK_ACLK v ∧ t.rb R.CK_STAT F.CK_STAT_ACLK_LOCK = false ∧
       t.rs = { s.rs with relock := true } ∧ s.frame [.rs] [R.CK_ACLK, R.CK_STAT] t)) ∧
     (¬ ok → gives (.aclkWrite v) s (fun t => (s.quietEvents → t.rb R.CK_EVT F.CK_EVT_ACLK_REFUSED = true) ∧ s.frameEv [] [R.CK_EVT] t))) ∧
    (s.rb R.CK_STAT F.CK_STAT_ACLK_LOCK = false → gives .aclkRelock s (fun t => t.rb R.CK_STAT F.CK_STAT_ACLK_LOCK = true ∧
      (s.quietEvents → t.rb R.CK_EVT F.CK_EVT_ACLK_LOCKED = true) ∧ t.rs = { s.rs with relock := false } ∧
      (s.rs.relock = true → t.rb R.AR_CTRL F.AR_CTRL_FROZEN = (s.rb R.AR_CTRL F.AR_CTRL_FREEZE || s.recFrozen)) ∧
      (s.rs.relock = false → t.rg R.AR_CTRL = s.rg R.AR_CTRL) ∧ s.frameEv [.rs] [R.CK_STAT, R.CK_EVT, R.AR_CTRL] t)) ∧
    (s.rb R.CK_STAT F.CK_STAT_ACLK_LOCK = true → exec .aclkRelock s = .next s)

/-- R462–R474: the register view of the HX bus unit. Bus reads and the write buffer; the control, configuration, modulus and commands of the
angle timer; its channels and captures; the 16 MHz tick. -/
def Obligations.HxView : Prop :=
  ∀ (s : State) (addr : BitVec 9) (v : BitVec 16) (k : Fin 64) (c : Fin 8),
    let p := s.hxParm
    let on := s.hxServes = true
    let i := addr.toNat % 256
    let x := v.toNat
    let refused := fun (t : State) => (t.hv 3).testBit 2 = true ∧ (s.quietEvents → t.rb R.HX_EVT F.HX_EVT_CFG_ERR = true) ∧
      s.frameEv [.hx] [R.HX_MAP 3, R.HX_EVT] t
    -- HX_BUS_READ
    (s.hxOnBalls = false → exec (.hxBusRead addr) s = .next s ∧ exec (.hxBusWrite addr v) s = .next s) ∧
    (s.hxOnBalls = true →
      (∀ j, hxHiOf i = some j → gives (.hxBusRead addr) s (fun t => t.out = s.out ++ [.hxBus (BitVec.ofNat 16 (s.hxSeen i))] ∧
        hxWaiting t.hx.latch j = some (s.hxSeen j % 0x10000) ∧ s.only [.hx, .out] t)) ∧
      (∀ y, i ≠ 0xF → hxHiOf i = none → hxWaiting s.hx.latch i = some y →
        gives (.hxBusRead addr) s (fun t => t.out = s.out ++ [.hxBus (BitVec.ofNat 16 y)] ∧ s.only [.out] t)) ∧
      (i ≠ 0xF → hxHiOf i = none → hxWaiting s.hx.latch i = none → i < 3 ∨ 9 ≤ i →
        gives (.hxBusRead addr) s (fun t => t.out = s.out ++ [.hxBus (BitVec.ofNat 16 (s.hxSeen i))] ∧ s.only [.out] t)) ∧
      (i = 8 → hxWaiting s.hx.latch 8 = none → gives (.hxBusRead addr) s (fun t =>
        t.out = s.out ++ [.hxBus (BitVec.ofNat 16 (s.hxSeen 8))] ∧
        t.rg R.HX_EVT = w32 (andNot (s.rg R.HX_EVT).toNat (s.hxValue 8)) ∧ s.frame [.out] [R.HX_EVT] t)) ∧
      (i = 3 → hxWaiting s.hx.latch 3 = none → gives (.hxBusRead addr) s (fun t => t.out = s.out ++ [.hxBus (BitVec.ofNat 16 (s.hxSeen 3))] ∧
        t.hv 3 = 0 ∧ s.frame [.out] [R.HX_MAP 3] t)) ∧
      (4 ≤ i → i < 8 → hxWaiting s.hx.latch i = none → gives (.hxBusRead addr) s (fun t =>
        t.out = s.out ++ [.hxBus (BitVec.ofNat 16 (s.hxSeen i))] ∧ (∀ j < 16, t.srcPending (s.hxSrc (i - 4) j) = false) ∧ s.only [.out, .regs] t)) ∧
      -- HX_BUS_WRITE
      (s.hx.held = none → s.hx.buf.length < 8 → gives (.hxBusWrite addr v) s (fun t => t.hx = { s.hx with buf := s.hx.buf ++ [(i, v)] } ∧
        s.only [.hx] t)) ∧
      (s.hx.held = none → 8 ≤ s.hx.buf.length → gives (.hxBusWrite addr v) s (fun t => t.hx = { s.hx with held := some (i, v) } ∧
        t.hxWaitLow = true ∧ s.only [.hx] t)) ∧
      (s.hx.held ≠ none → exec (.hxBusWrite addr v) s = .next s)) ∧
    -- HX_WRITE_APPLY
    (s.hx.buf = [] → exec .hxWriteApply s = .next s) ∧
    (∀ e r, on → s.hx.buf = e :: r → e.1 = 0x14 → gives .hxWriteApply s (fun t => t.hx.buf = r ++ s.hx.held.toList ∧ t.hx.held = none ∧
      hxWaiting t.hx.stage 0x14 = some e.2.toNat ∧ s.only [.hx] t)) ∧
    (∀ e r, s.hx.buf = e :: r →
      let u := { s with hx := { s.hx with buf := r ++ s.hx.held.toList, held := none } }
      (e.1 = 2 → exec .hxWriteApply s = exec (.tmrEnWrite e.2) u) ∧ (e.1 = 0x10 → exec .hxWriteApply s = exec (.tmrCfgWrite e.2) u) ∧
      (e.1 = 0x16 → exec .hxWriteApply s = exec (.hxModCommit e.2) u) ∧ (e.1 = 0xF → exec .hxWriteApply s = exec (.progDataWrite e.2) u)) ∧
    (¬ on → ∀ d ∈ [Instr.tmrEnWrite v, .tmrCfgWrite v, .hxModCommit v, .tmrLoad, .tmrClr, .cmpCommit k true v, .cmpCommit k false v,
      .capCfgWrite c v, .progDataRead], exec d s = .next s) ∧
    -- TMR_EN_WRITE
    (on → (s.hv 2).testBit 0 = x.testBit 0 → gives (.tmrEnWrite v) s (fun t => t.hv 2 = x % 4 ∧ s.frame [.hx] [R.HX_MAP 2] t)) ∧
    (on → (s.hv 2).testBit 0 = true → x.testBit 0 = false → gives (.tmrEnWrite v) s (fun t => t.hv 2 = x % 4 ∧
      t.rb (R.YK_AX_CFG p.axis) F.YK_AX_CFG_EN = false ∧ s.axesBut p.axis t)) ∧
    (on → (s.hv 2).testBit 0 = false → x.testBit 0 = true → s.rb (R.YK_AX_CFG p.axis) F.YK_AX_CFG_EN = false →
      s.axCfgBad p.axis (w32 (1 + 16 * b2n (s.hxMod != 0) + 32 * (s.hv 0x10 % 2) + 64 * (s.hv 0x10 / 2 % 4) + 0x80000000)) = false →
      gives (.tmrEnWrite v) s (fun t => t.hv 2 = x % 4 ∧ t.hx.cnt = 0 ∧
        t.rg64 (R.YK_AX_ZVAL_LO p.axis) (R.YK_AX_ZVAL_HI p.axis) = s.hv2 0x18 * 0x10000 ∧ t.hx.indexed = false ∧ t.rb (R.YK_AX_CFG p.axis) F.YK_AX_CFG_EN = true ∧
        t.rg (R.YK_AX_HYST p.axis) = 0x8000 ∧ t.rg (R.YK_AX_VTHR p.axis) = 0xFFFFFFFF ∧
        t.rf (R.YK_AX_FILT p.axis) F.YK_AX_FILT_FILT = (125 * (s.hv 0x10 / 8 % 8) + 3) / 4 ∧
        t.rf (R.YK_AX_LOSSCFG p.axis) F.YK_AX_LOSSCFG_LOSS_MULT = 0 ∧ (t.ax p.axis).st = .tracking)) ∧
    (on → (s.hv 2).testBit 0 = false → x.testBit 0 = true →
      s.axCfgBad p.axis (w32 (1 + 16 * b2n (s.hxMod != 0) + 32 * (s.hv 0x10 % 2) + 64 * (s.hv 0x10 / 2 % 4) + 0x80000000)) = true →
      gives (.tmrEnWrite v) s (fun t => t.hv 2 = x % 4 - 1 ∧ (t.hv 3).testBit 2 = true ∧ (s.quietEvents → t.rb R.HX_EVT F.HX_EVT_CFG_ERR = true) ∧
        s.frameEv [.hx] [R.HX_MAP 2, R.HX_MAP 3, R.HX_EVT] t)) ∧
    -- TMR_CFG_WRITE
    (on → (s.hv 2).testBit 0 = true ∨ x / 2 % 4 = 3 → gives (.tmrCfgWrite v) s refused) ∧
    (on → (s.hv 2).testBit 0 = false → x / 2 % 4 ≠ 3 → gives (.tmrCfgWrite v) s (fun t => t.hv 0x10 = x % 0x40 ∧ s.frame [.hx] [R.HX_MAP 0x10] t)) ∧
    -- HX_MOD_COMMIT
    (let m := x + 0x10000 * (hxWaiting s.hx.stage 0x17).getD (s.hv 0x17)
     (on → 0 < m → m < 256 → gives (.hxModCommit v) s (fun t => refused t ∧ t.hxMod = s.hxMod)) ∧
     (on → m = 0 ∨ 256 ≤ m → m < 2 ^ 32 → ((s.hv 2).testBit 0 = true → (m = 0 ↔ s.hxMod = 0)) →
       gives (.hxModCommit v) s (fun t => t.hxMod = m ∧ t.hx.cnt = s.hx.cnt % (if m = 0 then 0x100000000 else (m : Int))))) ∧
    -- LOAD, CLR
    (on → gives .tmrLoad s (fun t => t.rg64 (R.YK_AX_SWPOS_LO p.axis) (R.YK_AX_SWPOS_HI p.axis) = s.hv2 0x13 * 0x10000 ∧
      t.hx.cnt = (if (s.hv 2).testBit 0 then s.hx.cnt else s.hxWrapCount (s.hv2 0x13)) ∧ (t.ax p.axis).cSet = true ∧
      s.axesBut p.axis t ∧ s.frame [.hx, .yk] [R.YK_AX_SWPOS_LO p.axis, R.YK_AX_SWPOS_HI p.axis] t)) ∧
    (on → gives .tmrClr s (fun t => t.hx.cnt = (if (s.hv 2).testBit 0 then s.hx.cnt else 0) ∧ (t.ax p.axis).cRst = true ∧ s.axesBut p.axis t ∧
      s.only [.hx, .yk] t)) ∧
    -- CMP_COMMIT
    (on → gives (.cmpCommit k true v) s (fun t => t.hv (0x42 + 3 * k.val) = x % 0x80 ∧
      t.rg64 (R.MK_ENT_POS_LO (p.mbase + k)) (R.MK_ENT_POS_HI (p.mbase + k)) = trunc 64 (s.hxTarget (s.hv2 (0x40 + 3 * k.val)) * 0x10000) ∧
      t.rg (R.MK_ENT_HYST (p.mbase + k)) = 0x20000 ∧ t.rg (R.MK_ENT_PER_LO (p.mbase + k)) = 0 ∧ t.rg (R.MK_ENT_PER_HI (p.mbase + k)) = 0 ∧
      t.rg (R.MK_ENT_ARG1 (p.mbase + k)) = 0)) ∧
    (on → let hi := (hxWaiting s.hx.stage (0x41 + 3 * k.val)).getD (s.hv (0x41 + 3 * k.val))
      hi < 0x10000 → gives (.cmpCommit k false v) s (fun t => t.hv2 (0x40 + 3 * k.val) = x + 0x10000 * hi ∧
        t.rg64 (R.MK_ENT_POS_LO (p.mbase + k)) (R.MK_ENT_POS_HI (p.mbase + k)) = trunc 64 (s.hxTarget (x + 0x10000 * hi) * 0x10000))) ∧
    -- CAP_CFG_WRITE
    (on → gives (.capCfgWrite c v) s (fun t => t.hv (0x20 + 4 * c.val) = x % 4)) ∧
    -- HX_TICK
    (s.now = 0 ∨ (s.now - 1) * 4 / 125 ≠ s.now * 4 / 125 → gives .hxTick s (fun t =>
      t.hx = { s.hx with shown := .mk (s.hxWrapCount s.hx.cnt) (s.ax p.axis).v (s.ax p.axis).down s.hx.indexed } ∧
      (s.qvMode = false → s.only [.hx] t) ∧ s.frameEv [.hx] [R.HX_EVT] t)) ∧
    (s.now ≠ 0 → (s.now - 1) * 4 / 125 = s.now * 4 / 125 → exec .hxTick s = .next s)

/-- R476–R484: programming the HX area, its report, mixed use in QV mode, the partner queue. A stream is started with the key, received, checked
at its end, translated and written; on success a Warm reset follows. -/
def Obligations.HxProgramming : Prop :=
  ∀ (s : State) (v : BitVec 16) (w : Word),
    let h := { s.hx with unlock := false }
    let hx := fun (x : Hx) (t : State) => t.hx = x ∧ s.only [.hx] t
    let ended := fun (r : Nat) (x : Hx) => { x with prog := .done, result := r, stream := [], image := [], report := [], jtag := false }
    -- START, data, END, ABORT, REWIND in HX mode
    (s.qvMode = false → s.hx.live = false → ∀ c ∈ [Instr.progStart, .progDataWrite v, .progEnd, .progAbort, .progRewind, .progDataRead],
      exec c s = .next s) ∧
    (s.qvMode = false → s.hx.live = true →
      (s.hx.unlock = true → s.hx.prog.busy = false →
        gives .progStart s (hx { h with prog := .receiving, result := 0, stream := [], jtag := false })) ∧
      (s.hx.unlock = true → s.hx.prog.busy = true → gives .progStart s (hx { h with result := 7 })) ∧
      (s.hx.unlock = false → gives .progStart s (hx h)) ∧
      (s.hx.jtag = false → s.hx.prog = .receiving → s.hx.stream.length < 0x80000 →
        gives (.progDataWrite v) s (hx { h with stream := s.hx.stream ++ [v] })) ∧
      (s.hx.jtag = false → s.hx.prog = .receiving → 0x80000 ≤ s.hx.stream.length → gives (.progDataWrite v) s (hx (ended 2 h))) ∧
      (s.hx.jtag = true ∨ s.hx.prog ≠ .receiving → gives (.progDataWrite v) s (hx h) ∧ gives .progEnd s (hx h)) ∧
      (∀ r, s.hx.jtag = false → s.hx.prog = .receiving → s.progCheck = .inl r → gives .progEnd s (hx (ended r h))) ∧
      (∀ img, s.hx.jtag = false → s.hx.prog = .receiving → s.progCheck = .inr img →
        gives .progEnd s (fun t => t.hx = { h with prog := .translating, stream := img } ∧
          (s.quietEvents → t.rb R.HX_EVT F.HX_EVT_PROG = true) ∧ s.frameEv [.hx] [R.HX_EVT] t)) ∧
      (s.hx.jtag = false → s.hx.prog = .receiving ∨ s.hx.prog = .translating → gives .progAbort s (hx (ended 6 h))) ∧
      (s.hx.jtag = true ∨ (s.hx.prog ≠ .receiving ∧ s.hx.prog ≠ .translating) → gives .progAbort s (hx h)) ∧
      gives .progRewind s (hx { h with rptAt := 0 })) ∧
    -- in QV mode the function is absent
    (s.qvMode = true → s.hxServes = true → ∀ c ∈ [Instr.progStart, .progEnd, .progAbort], gives c s (fun t =>
      (t.hv 3).testBit 2 = true ∧ (s.quietEvents → t.rb R.HX_EVT F.HX_EVT_CFG_ERR = true) ∧ s.frameEv [.hx] [R.HX_MAP 3, R.HX_EVT] t)) ∧
    -- PROG_DATA_READ
    (∀ l, s.hxServes = true → s.hx.rptAt < 0x8000 → s.flRead (0x31F0000 + 2 * s.hx.rptAt) 2 = (s, l, true) →
      gives .progDataRead s (fun t => t.out = s.out ++ [.hxBus (BitVec.ofNat 16 (ofBytesLE l))] ∧ t.hx = { s.hx with rptAt := s.hx.rptAt + 1 } ∧
        s.only [.hx, .out] t)) ∧
    (s.hxServes = true → 0x8000 ≤ s.hx.rptAt → gives .progDataRead s (fun t =>
      t.out = s.out ++ [.hxBus (Config.hxPast s.freeCtr)] ∧ t.hx = s.hx ∧ s.only [.out, .freeCtr] t)) ∧
    -- HX_TRANSLATE_DONE
    (s.hx.prog = .translating → s.hx.live = true →
      (Config.hxFits s.hx.stream = false ∨ 2000 < Config.hxFrames s.hx.stream → gives .hxTranslateDone s (fun t => t.hx = ended 2 s.hx ∧
        t.rb R.HX_COMPAT_REPORT F.HX_COMPAT_REPORT_REFUSED = true ∧ s.frame [.hx] [R.HX_COMPAT_REPORT] t)) ∧
      (Config.hxFits s.hx.stream = true → Config.hxFrames s.hx.stream ≤ 2000 → gives .hxTranslateDone s (fun t => t.hx.prog = .writing ∧
        t.hx.image = (s.hxSeal (Config.hxImage s.hx.stream)).take 0x1F0000 ∧ t.hx.report = (Config.hxReport s.hx.stream).take 0x10000 ∧
        s.bytesBut (flAt 0x3000000) 0x200000 t ∧ (∀ b, flAt 0x3000000 ≤ b → b < flAt 0x3200000 → t.byteAt b = 0xFF)))) ∧
    (s.hx.prog ≠ .translating ∨ s.hx.live = false → exec .hxTranslateDone s = .next s) ∧
    -- HX_FLASH_WRITE_DONE
    (s.hx.prog = .writing → s.hx.live = true →
      (s.resetFree → gives (.hxFlashWriteDone true) s (s.resetBegun 10 0 1)) ∧
      (s.hx.image.length ≤ 0x1F0000 → s.hx.report.length ≤ 0x10000 →
        gives (.hxFlashWriteDone false) s (fun t => t.hx = ended 5 s.hx ∧ s.bytesBut (flAt 0x3000000) 0x200000 t))) ∧
    (∀ ok, s.hx.prog ≠ .writing ∨ s.hx.live = false → exec (.hxFlashWriteDone ok) s = .next s) ∧
    -- HX_JTAG_PROGRAM
    (∀ (words : List (BitVec 16)), s.qvMode = false → s.hx.live = true → s.hx.prog.busy = false → words.length ≤ 0x80000 →
      let u := { s with hx := { s.hx with prog := .receiving, result := 0, stream := words, jtag := true } }
      (∀ r, u.progCheck = .inl r → gives (.hxJtagProgram words) s (hx (ended r u.hx))) ∧
      (∀ img, u.progCheck = .inr img → gives (.hxJtagProgram words) s (fun t => t.hx = { u.hx with prog := .translating, stream := img } ∧
        (s.quietEvents → t.rb R.HX_EVT F.HX_EVT_PROG = true) ∧ s.frameEv [.hx] [R.HX_EVT] t))) ∧
    (∀ words, s.qvMode = true ∨ s.hx.live = false ∨ s.hx.prog.busy = true → exec (.hxJtagProgram words) s = .next s) ∧
    -- HX_MIX_CFG_WRITE
    (let a := R.HX_MIX_CFG
     let was := s.rb a F.HX_MIX_CFG_EN
     let en := F.HX_MIX_CFG_EN.bit w
     (was ≠ en → s.cg.part.isSome = true ∨ s.qvMode = false → gives (.hxMixCfgWrite w) s (fun t =>
       (s.quietEvents → t.rb R.HX_EVT F.HX_EVT_CFG_ERR = true) ∧ s.frameEv [] [R.HX_EVT] t)) ∧
     (was = en ∨ (s.cg.part = none ∧ s.qvMode = true ∧ (en = false ∨ F.HX_MIX_CFG_PATH.bit w = false)) →
       gives (.hxMixCfgWrite w) s (fun t => t.rg a = s.written a w ∧ s.frameR [a] t)) ∧
     (was = false → en = true → F.HX_MIX_CFG_PATH.bit w = true → s.cg.part = none → s.qvMode = true → ∀ u k,
       s.rsvAdmit (F.HI_RSV_REQ_LAT.put (F.HI_RSV_REQ_QUEUE.put 0 (F.HX_MIX_Q_Q_RSP.get (s.rg R.HX_MIX_Q))) (F.HX_MIX_Q_LAT.get (s.rg R.HX_MIX_Q))) 1 = (u, k) →
       (k.toNat % 4 = 0 → gives (.hxMixCfgWrite w) s (fun t => t.rb a F.HX_MIX_CFG_EN = true ∧ t.hi.order = s.hi.order + 1)) ∧
       (k.toNat % 4 ≠ 0 → gives (.hxMixCfgWrite w) s (fun t => t.rb a F.HX_MIX_CFG_EN = false ∧
         (s.quietEvents → t.rb R.HX_EVT F.HX_EVT_CFG_ERR = true))))) ∧
    -- HX_VIEW_REQUEST
    (let q := F.HX_MIX_Q_Q_REQ.get (s.rg R.HX_MIX_Q)
     let r := F.HX_MIX_Q_Q_RSP.get (s.rg R.HX_MIX_Q)
     let serves := s.qvMode = true ∧ s.hxServes = true ∧ s.rb R.HX_MIX_CFG F.HX_MIX_CFG_PATH = true ∧ s.hxBound q r = true ∧ s.qTakes r = true
     (∀ t rest, serves → s.qHead q = some t → (s.qu q).marker = false → (s.qu q).ents = t :: rest → (s.qu q).held = [] → rest.length < 32 → (s.qu q).plain → (s.qu r).plain → q ≠ r →
       gives (.hxViewRequest true) s (fun u => (u.qu q).ents = rest ∧ (u.qu r).ents = (s.qu r).ents ++ [hxAnswer 0x10000] ∧
         s.queuesBut [q, r] u) ∧
       (t.data.toNat.testBit 9 = false → t.data.toNat % 256 = 2 → hxWaiting s.hx.latch 2 = none → s.hx.buf = [] →
         hxWaiting s.hx.stage 2 = none →
         gives (.hxViewRequest false) s (fun u => (u.qu q).ents = rest ∧ (u.qu r).ents = (s.qu r).ents ++ [hxAnswer (s.hv 2)] ∧
           s.queuesBut [q, r] u)) ∧
       (let y := t.data.toNat / 0x10000
        t.data.toNat.testBit 9 = true → t.data.toNat % 256 = 0x10 →
         gives (.hxViewRequest false) s (fun u => (u.qu q).ents = rest ∧ s.queuesBut [q, r] u ∧
           (if (s.hv 2).testBit 0 = true ∨ y / 2 % 4 = 3 then (u.qu r).ents = (s.qu r).ents ++ [hxAnswer (y + 0x10000)]
            else (u.qu r).ents = (s.qu r).ents ++ [hxAnswer y] ∧ u.hv 0x10 = y % 0x40)))) ∧
     (∀ rst, s.qHead q = none ∨ s.qTakes r = false ∨ s.hxBound q r = false ∨ s.qvMode = false → exec (.hxViewRequest rst) s = .next s)) ∧
    -- HX_BLK_RST
    (s.blkHeld 21 = true → exec .hxBlkRst s = .next s) ∧
    (s.blkHeld 21 = false → s.hxParm.on = false → gives .hxBlkRst s (fun t =>
      t.hx = { Hx.idle with live := s.hx.live, result := if s.hx.prog = .receiving ∨ s.hx.prog = .translating then 6 else 0 } ∧
      s.blockReset .run 0x6C0000 0x6D0000 [] t ∧ s.only [.regs, .hx] t)) ∧
    (s.blkHeld 21 = false → s.qvMode = false → gives .hxBlkRst s (fun t => t.hx.prog = .idle ∧ t.hx.buf = [] ∧ t.hx.cnt = 0 ∧ t.hv 2 = 0 ∧ t.hv 0x10 = 0 ∧
      t.rb (R.YK_AX_CFG 0) F.YK_AX_CFG_EN = false))
end

