-- ==== Sys2Proof/Laws/Sparse.lean ====
section
/-! SUPPORT. Laws of sparse tables: a read after a write, and the canonical form. -/

namespace Sys2Proof.Machine

variable {α : Type} (d : Nat → α)

theorem Tab.get_erase_self (t : Tab α) (k : Nat) : Tab.get d (Tab.erase t k) k = d k := by
  induction t with
  | nil => rfl
  | cons e r ih =>
    obtain ⟨j, v⟩ := e
    by_cases h : j = k
    · subst h; simpa [Tab.erase] using ih
    · simpa [Tab.erase, Tab.get, h] using ih

theorem Tab.get_erase_ne (t : Tab α) {k i : Nat} (hi : i ≠ k) : Tab.get d (Tab.erase t k) i = Tab.get d t i := by
  induction t with
  | nil => rfl
  | cons e r ih =>
    obtain ⟨j, v⟩ := e
    by_cases h : j = k
    · subst h
      have hne : ¬ j = i := fun e => hi e.symm
      simpa [Tab.erase, Tab.get, hne] using ih
    · by_cases h2 : j = i
      · subst h2; simp [Tab.erase, Tab.get, h]
      · simpa [Tab.erase, Tab.get, h, h2] using ih

theorem Tab.get_ins_self (t : Tab α) (k : Nat) (v : α) (h : ∀ e ∈ t, e.1 ≠ k) : Tab.get d (Tab.ins k v t) k = v := by
  induction t with
  | nil => simp [Tab.ins, Tab.get]
  | cons e r ih =>
    obtain ⟨j, w⟩ := e
    have hj : j ≠ k := h (j, w) (List.mem_cons_self ..)
    unfold Tab.ins
    split
    · simp [Tab.get]
    · have := ih (fun e he => h e (List.mem_cons_of_mem _ he))
      simpa [Tab.get, hj] using this

theorem Tab.get_ins_ne (t : Tab α) {k i : Nat} (v : α) (hi : i ≠ k) : Tab.get d (Tab.ins k v t) i = Tab.get d t i := by
  induction t with
  | nil => simp [Tab.ins, Tab.get, Ne.symm hi]
  | cons e r ih =>
    obtain ⟨j, w⟩ := e
    unfold Tab.ins
    split
    · simp [Tab.get, Ne.symm hi]
    · simp [Tab.get, ih]

theorem Tab.erase_ne (t : Tab α) (k : Nat) : ∀ e ∈ Tab.erase t k, e.1 ≠ k := by
  intro e he
  simpa [Tab.erase] using (List.mem_filter.mp he).2

/-- A key reads what was last written to it. -/
@[simp] theorem Tab.get_put_self [DecidableEq α] (t : Tab α) (k : Nat) (v : α) : Tab.get d (Tab.put d t k v) k = v := by
  unfold Tab.put
  split
  · next h => rw [h]; exact Tab.get_erase_self d t k
  · exact Tab.get_ins_self d _ k v (Tab.erase_ne t k)

/-- A write leaves every other key alone. -/
@[simp] theorem Tab.get_put_ne [DecidableEq α] (t : Tab α) {k i : Nat} (v : α) (hi : i ≠ k) :
    Tab.get d (Tab.put d t k v) i = Tab.get d t i := by
  unfold Tab.put
  split
  · exact Tab.get_erase_ne d t hi
  · rw [Tab.get_ins_ne d _ v hi, Tab.get_erase_ne d t hi]

theorem Tab.get_put [DecidableEq α] (t : Tab α) (k i : Nat) (v : α) : Tab.get d (Tab.put d t k v) i = if i = k then v else Tab.get d t i := by
  split
  · next h => subst h; simp
  · next h => simp [h]

theorem Tab.get_map_filter [DecidableEq α] (g : Nat → α) (i : Nat) (l : Tab α) :
    Tab.get d ((l.map (fun e => (e.1, g e.1))).filter (fun e => e.2 ≠ d e.1)) i = if i ∈ l.map Prod.fst then g i else d i := by
  induction l with
  | nil => rfl
  | cons e r ih =>
    obtain ⟨k, v⟩ := e
    by_cases h : g k = d k <;> by_cases hk : k = i
    · subst hk
      simp only [List.map_cons, List.filter_cons, h, ne_eq, not_true_eq_false, decide_false, Bool.false_eq_true, if_false,
        List.mem_cons, true_or, if_true]
      rw [ih]; simp [h]
    · simp only [List.map_cons, List.filter_cons, h, ne_eq, not_true_eq_false, decide_false, Bool.false_eq_true, if_false,
        List.mem_cons, Ne.symm hk, false_or]
      exact ih
    · subst hk
      simp [List.filter_cons, h, Tab.get]
    · have : (i = k) = False := eq_false (Ne.symm hk)
      simp only [List.map_cons, List.filter_cons, h, ne_eq, not_false_eq_true, decide_true, if_true, Tab.get, if_neg hk,
        List.mem_cons, this, false_or]
      exact ih

theorem Tab.get_of_not_mem (i : Nat) : ∀ l : Tab α, i ∉ l.map Prod.fst → Tab.get d l i = d i
  | [], _ => rfl
  | (k, v) :: r, h => by
    simp only [List.map_cons, List.mem_cons, not_or] at h
    simp [Tab.get, Ne.symm h.1, Tab.get_of_not_mem i r h.2]

/-- Sending every value through a function that fixes the defaults. -/
theorem Tab.get_mapKeep [DecidableEq α] (f : Nat → α → α) (t : Tab α) (i : Nat) (h : f i (d i) = d i) :
    Tab.get d (Tab.mapKeep d f t) i = f i (Tab.get d t i) := by
  unfold Tab.mapKeep
  rw [Tab.get_map_filter d (fun k => f k (Tab.get d t k)) i t]
  split
  · rfl
  · next hn => rw [Tab.get_of_not_mem d i t hn, h]

/-! The canonical form -/

theorem Tab.rising_weaken : ∀ (t : Tab α) (a b : Nat), a ≤ b → Tab.rising (some b) t = true → Tab.rising (some a) t = true
  | [], _, _, _, _ => rfl
  | (k, _) :: r, a, b, h, hr => by
    simp only [Tab.rising, Bool.and_eq_true, decide_eq_true_eq] at hr ⊢
    exact ⟨by omega, hr.2⟩

theorem Tab.rising_filter (p : Nat × α → Bool) : ∀ (t : Tab α) (lo : Option Nat), Tab.rising lo t = true →
    Tab.rising lo (t.filter p) = true
  | [], lo, _ => by cases lo <;> rfl
  | (k, v) :: r, none, h => by
    simp only [Tab.rising] at h
    by_cases hp : p (k, v) = true
    · simpa [List.filter_cons, hp, Tab.rising] using Tab.rising_filter p r (some k) h
    · have := Tab.rising_filter p r (some k) h
      simp only [List.filter_cons, hp]
      revert this
      cases hf : List.filter p r with
      | nil => intro _; rfl
      | cons e t => obtain ⟨j, w⟩ := e; intro h2; simp [Tab.rising] at h2 ⊢; exact h2.2
  | (k, v) :: r, some lo, h => by
    simp only [Tab.rising, Bool.and_eq_true, decide_eq_true_eq] at h
    by_cases hp : p (k, v) = true
    · simpa [List.filter_cons, hp, Tab.rising, h.1] using Tab.rising_filter p r (some k) h.2
    · simp only [List.filter_cons, hp]
      exact Tab.rising_weaken _ lo k (by omega) (Tab.rising_filter p r (some k) h.2)

theorem Tab.rising_ins (k : Nat) (v : α) : ∀ (t : Tab α) (lo : Option Nat), (∀ e ∈ t, e.1 ≠ k) →
    (∀ l, lo = some l → l < k) → Tab.rising lo t = true → Tab.rising lo (Tab.ins k v t) = true
  | [], none, _, _, _ => rfl
  | [], some lo, _, hl, _ => by simpa [Tab.ins, Tab.rising] using hl lo rfl
  | (j, w) :: r, lo, hne, hl, h => by
    have hj : j ≠ k := hne (j, w) (List.mem_cons_self ..)
    have hr : Tab.rising (some j) r = true := by
      cases lo with
      | none => simpa [Tab.rising] using h
      | some l => simp only [Tab.rising, Bool.and_eq_true] at h; exact h.2
    unfold Tab.ins
    split
    · next hk =>
      cases lo with
      | none => simp [Tab.rising, hk, hr]
      | some l => simp [Tab.rising, hl l rfl, hk, hr]
    · next hk =>
      have ih := Tab.rising_ins k v r (some j) (fun e he => hne e (List.mem_cons_of_mem _ he))
        (fun l e => by cases e; omega) hr
      cases lo with
      | none => simpa [Tab.rising] using ih
      | some l =>
        simp only [Tab.rising, Bool.and_eq_true, decide_eq_true_eq] at h
        simp [Tab.rising, h.1, ih]

theorem Tab.mem_ins (k : Nat) (v : α) : ∀ (t : Tab α) (e : Nat × α), e ∈ Tab.ins k v t → e = (k, v) ∨ e ∈ t
  | [], e, h => by simpa [Tab.ins] using h
  | (j, w) :: r, e, h => by
    unfold Tab.ins at h
    split at h
    · simpa using h
    · rcases List.mem_cons.mp h with h | h
      · exact Or.inr (by simp [h])
      · rcases Tab.mem_ins k v r e h with h | h
        · exact Or.inl h
        · exact Or.inr (List.mem_cons_of_mem _ h)

theorem Tab.wf_filter [DecidableEq α] (p : Nat × α → Bool) (t : Tab α) (h : Tab.wf d t = true) : Tab.wf d (t.filter p) = true := by
  simp only [Tab.wf, Bool.and_eq_true, List.all_eq_true] at h ⊢
  exact ⟨Tab.rising_filter p t none h.1, fun e he => h.2 e (List.mem_filter.mp he).1⟩

/-- A write keeps the canonical form. -/
theorem Tab.wf_put [DecidableEq α] (t : Tab α) (k : Nat) (v : α) (h : Tab.wf d t = true) : Tab.wf d (Tab.put d t k v) = true := by
  have he : Tab.wf d (Tab.erase t k) = true := Tab.wf_filter d _ t h
  unfold Tab.put
  split
  · exact he
  · next hv =>
    simp only [Tab.wf, Bool.and_eq_true, List.all_eq_true] at he ⊢
    refine ⟨Tab.rising_ins k v _ none (Tab.erase_ne t k) (fun l e => by cases e) he.1, fun e hm => ?_⟩
    rcases Tab.mem_ins k v _ e hm with rfl | hm
    · simpa using hv
    · exact he.2 e hm

@[simp] theorem Tab.wf_nil [DecidableEq α] : Tab.wf d ([] : Tab α) = true := rfl

end Sys2Proof.Machine
end

