-- ==== Sys2Proof/Laws/State.lean ====
section
/-! SUPPORT. What each named update of the state leaves alone and what it sets: one lemma for each field and update, all true by
unfolding, so that no later proof unfolds a record update. -/

namespace Sys2Proof.Machine

/-! State.setRg -/

@[simp] theorem State.setRg_mem (s : State) (a : Nat) (v : Word) : (s.setRg a v).mem = s.mem := rfl
@[simp] theorem State.setRg_syn (s : State) (a : Nat) (v : Word) : (s.setRg a v).syn = s.syn := rfl
@[simp] theorem State.setRg_yk (s : State) (a : Nat) (v : Word) : (s.setRg a v).yk = s.yk := rfl
@[simp] theorem State.setRg_mke (s : State) (a : Nat) (v : Word) : (s.setRg a v).mke = s.mke := rfl
@[simp] theorem State.setRg_cuffs (s : State) (a : Nat) (v : Word) : (s.setRg a v).cuffs = s.cuffs := rfl
@[simp] theorem State.setRg_edgeSeq (s : State) (a : Nat) (v : Word) : (s.setRg a v).edgeSeq = s.edgeSeq := rfl
@[simp] theorem State.setRg_sp (s : State) (a : Nat) (v : Word) : (s.setRg a v).sp = s.sp := rfl
@[simp] theorem State.setRg_ev (s : State) (a : Nat) (v : Word) : (s.setRg a v).ev = s.ev := rfl
@[simp] theorem State.setRg_hx (s : State) (a : Nat) (v : Word) : (s.setRg a v).hx = s.hx := rfl
@[simp] theorem State.setRg_arr (s : State) (a : Nat) (v : Word) : (s.setRg a v).arr = s.arr := rfl
@[simp] theorem State.setRg_qs (s : State) (a : Nat) (v : Word) : (s.setRg a v).qs = s.qs := rfl
@[simp] theorem State.setRg_sm (s : State) (a : Nat) (v : Word) : (s.setRg a v).sm = s.sm := rfl
@[simp] theorem State.setRg_net (s : State) (a : Nat) (v : Word) : (s.setRg a v).net = s.net := rfl
@[simp] theorem State.setRg_ft (s : State) (a : Nat) (v : Word) : (s.setRg a v).ft = s.ft := rfl
@[simp] theorem State.setRg_en (s : State) (a : Nat) (v : Word) : (s.setRg a v).en = s.en := rfl
@[simp] theorem State.setRg_fb (s : State) (a : Nat) (v : Word) : (s.setRg a v).fb = s.fb := rfl
@[simp] theorem State.setRg_cg (s : State) (a : Nat) (v : Word) : (s.setRg a v).cg = s.cg := rfl
@[simp] theorem State.setRg_fl (s : State) (a : Nat) (v : Word) : (s.setRg a v).fl = s.fl := rfl
@[simp] theorem State.setRg_ot (s : State) (a : Nat) (v : Word) : (s.setRg a v).ot = s.ot := rfl
@[simp] theorem State.setRg_sc (s : State) (a : Nat) (v : Word) : (s.setRg a v).sc = s.sc := rfl
@[simp] theorem State.setRg_cc (s : State) (a : Nat) (v : Word) : (s.setRg a v).cc = s.cc := rfl
@[simp] theorem State.setRg_rs (s : State) (a : Nat) (v : Word) : (s.setRg a v).rs = s.rs := rfl
@[simp] theorem State.setRg_hi (s : State) (a : Nat) (v : Word) : (s.setRg a v).hi = s.hi := rfl
@[simp] theorem State.setRg_lc (s : State) (a : Nat) (v : Word) : (s.setRg a v).lc = s.lc := rfl
@[simp] theorem State.setRg_faults (s : State) (a : Nat) (v : Word) : (s.setRg a v).faults = s.faults := rfl
@[simp] theorem State.setRg_out (s : State) (a : Nat) (v : Word) : (s.setRg a v).out = s.out := rfl
@[simp] theorem State.setRg_freeCtr (s : State) (a : Nat) (v : Word) : (s.setRg a v).freeCtr = s.freeCtr := rfl
@[simp] theorem State.setRg_pending (s : State) (a : Nat) (v : Word) : (s.setRg a v).pending = s.pending := rfl

/-! State.setRf -/

@[simp] theorem State.setRf_mem (s : State) (a : Nat) (f : Fld) (x : Nat) : (s.setRf a f x).mem = s.mem := rfl
@[simp] theorem State.setRf_syn (s : State) (a : Nat) (f : Fld) (x : Nat) : (s.setRf a f x).syn = s.syn := rfl
@[simp] theorem State.setRf_yk (s : State) (a : Nat) (f : Fld) (x : Nat) : (s.setRf a f x).yk = s.yk := rfl
@[simp] theorem State.setRf_mke (s : State) (a : Nat) (f : Fld) (x : Nat) : (s.setRf a f x).mke = s.mke := rfl
@[simp] theorem State.setRf_cuffs (s : State) (a : Nat) (f : Fld) (x : Nat) : (s.setRf a f x).cuffs = s.cuffs := rfl
@[simp] theorem State.setRf_edgeSeq (s : State) (a : Nat) (f : Fld) (x : Nat) : (s.setRf a f x).edgeSeq = s.edgeSeq := rfl
@[simp] theorem State.setRf_sp (s : State) (a : Nat) (f : Fld) (x : Nat) : (s.setRf a f x).sp = s.sp := rfl
@[simp] theorem State.setRf_ev (s : State) (a : Nat) (f : Fld) (x : Nat) : (s.setRf a f x).ev = s.ev := rfl
@[simp] theorem State.setRf_hx (s : State) (a : Nat) (f : Fld) (x : Nat) : (s.setRf a f x).hx = s.hx := rfl
@[simp] theorem State.setRf_arr (s : State) (a : Nat) (f : Fld) (x : Nat) : (s.setRf a f x).arr = s.arr := rfl
@[simp] theorem State.setRf_qs (s : State) (a : Nat) (f : Fld) (x : Nat) : (s.setRf a f x).qs = s.qs := rfl
@[simp] theorem State.setRf_sm (s : State) (a : Nat) (f : Fld) (x : Nat) : (s.setRf a f x).sm = s.sm := rfl
@[simp] theorem State.setRf_net (s : State) (a : Nat) (f : Fld) (x : Nat) : (s.setRf a f x).net = s.net := rfl
@[simp] theorem State.setRf_ft (s : State) (a : Nat) (f : Fld) (x : Nat) : (s.setRf a f x).ft = s.ft := rfl
@[simp] theorem State.setRf_en (s : State) (a : Nat) (f : Fld) (x : Nat) : (s.setRf a f x).en = s.en := rfl
@[simp] theorem State.setRf_fb (s : State) (a : Nat) (f : Fld) (x : Nat) : (s.setRf a f x).fb = s.fb := rfl
@[simp] theorem State.setRf_cg (s : State) (a : Nat) (f : Fld) (x : Nat) : (s.setRf a f x).cg = s.cg := rfl
@[simp] theorem State.setRf_fl (s : State) (a : Nat) (f : Fld) (x : Nat) : (s.setRf a f x).fl = s.fl := rfl
@[simp] theorem State.setRf_ot (s : State) (a : Nat) (f : Fld) (x : Nat) : (s.setRf a f x).ot = s.ot := rfl
@[simp] theorem State.setRf_sc (s : State) (a : Nat) (f : Fld) (x : Nat) : (s.setRf a f x).sc = s.sc := rfl
@[simp] theorem State.setRf_cc (s : State) (a : Nat) (f : Fld) (x : Nat) : (s.setRf a f x).cc = s.cc := rfl
@[simp] theorem State.setRf_rs (s : State) (a : Nat) (f : Fld) (x : Nat) : (s.setRf a f x).rs = s.rs := rfl
@[simp] theorem State.setRf_hi (s : State) (a : Nat) (f : Fld) (x : Nat) : (s.setRf a f x).hi = s.hi := rfl
@[simp] theorem State.setRf_lc (s : State) (a : Nat) (f : Fld) (x : Nat) : (s.setRf a f x).lc = s.lc := rfl
@[simp] theorem State.setRf_faults (s : State) (a : Nat) (f : Fld) (x : Nat) : (s.setRf a f x).faults = s.faults := rfl
@[simp] theorem State.setRf_out (s : State) (a : Nat) (f : Fld) (x : Nat) : (s.setRf a f x).out = s.out := rfl
@[simp] theorem State.setRf_freeCtr (s : State) (a : Nat) (f : Fld) (x : Nat) : (s.setRf a f x).freeCtr = s.freeCtr := rfl
@[simp] theorem State.setRf_pending (s : State) (a : Nat) (f : Fld) (x : Nat) : (s.setRf a f x).pending = s.pending := rfl

/-! State.setRb -/

@[simp] theorem State.setRb_mem (s : State) (a : Nat) (f : Fld) (x : Bool) : (s.setRb a f x).mem = s.mem := rfl
@[simp] theorem State.setRb_syn (s : State) (a : Nat) (f : Fld) (x : Bool) : (s.setRb a f x).syn = s.syn := rfl
@[simp] theorem State.setRb_yk (s : State) (a : Nat) (f : Fld) (x : Bool) : (s.setRb a f x).yk = s.yk := rfl
@[simp] theorem State.setRb_mke (s : State) (a : Nat) (f : Fld) (x : Bool) : (s.setRb a f x).mke = s.mke := rfl
@[simp] theorem State.setRb_cuffs (s : State) (a : Nat) (f : Fld) (x : Bool) : (s.setRb a f x).cuffs = s.cuffs := rfl
@[simp] theorem State.setRb_edgeSeq (s : State) (a : Nat) (f : Fld) (x : Bool) : (s.setRb a f x).edgeSeq = s.edgeSeq := rfl
@[simp] theorem State.setRb_sp (s : State) (a : Nat) (f : Fld) (x : Bool) : (s.setRb a f x).sp = s.sp := rfl
@[simp] theorem State.setRb_ev (s : State) (a : Nat) (f : Fld) (x : Bool) : (s.setRb a f x).ev = s.ev := rfl
@[simp] theorem State.setRb_hx (s : State) (a : Nat) (f : Fld) (x : Bool) : (s.setRb a f x).hx = s.hx := rfl
@[simp] theorem State.setRb_arr (s : State) (a : Nat) (f : Fld) (x : Bool) : (s.setRb a f x).arr = s.arr := rfl
@[simp] theorem State.setRb_qs (s : State) (a : Nat) (f : Fld) (x : Bool) : (s.setRb a f x).qs = s.qs := rfl
@[simp] theorem State.setRb_sm (s : State) (a : Nat) (f : Fld) (x : Bool) : (s.setRb a f x).sm = s.sm := rfl
@[simp] theorem State.setRb_net (s : State) (a : Nat) (f : Fld) (x : Bool) : (s.setRb a f x).net = s.net := rfl
@[simp] theorem State.setRb_ft (s : State) (a : Nat) (f : Fld) (x : Bool) : (s.setRb a f x).ft = s.ft := rfl
@[simp] theorem State.setRb_en (s : State) (a : Nat) (f : Fld) (x : Bool) : (s.setRb a f x).en = s.en := rfl
@[simp] theorem State.setRb_fb (s : State) (a : Nat) (f : Fld) (x : Bool) : (s.setRb a f x).fb = s.fb := rfl
@[simp] theorem State.setRb_cg (s : State) (a : Nat) (f : Fld) (x : Bool) : (s.setRb a f x).cg = s.cg := rfl
@[simp] theorem State.setRb_fl (s : State) (a : Nat) (f : Fld) (x : Bool) : (s.setRb a f x).fl = s.fl := rfl
@[simp] theorem State.setRb_ot (s : State) (a : Nat) (f : Fld) (x : Bool) : (s.setRb a f x).ot = s.ot := rfl
@[simp] theorem State.setRb_sc (s : State) (a : Nat) (f : Fld) (x : Bool) : (s.setRb a f x).sc = s.sc := rfl
@[simp] theorem State.setRb_cc (s : State) (a : Nat) (f : Fld) (x : Bool) : (s.setRb a f x).cc = s.cc := rfl
@[simp] theorem State.setRb_rs (s : State) (a : Nat) (f : Fld) (x : Bool) : (s.setRb a f x).rs = s.rs := rfl
@[simp] theorem State.setRb_hi (s : State) (a : Nat) (f : Fld) (x : Bool) : (s.setRb a f x).hi = s.hi := rfl
@[simp] theorem State.setRb_lc (s : State) (a : Nat) (f : Fld) (x : Bool) : (s.setRb a f x).lc = s.lc := rfl
@[simp] theorem State.setRb_faults (s : State) (a : Nat) (f : Fld) (x : Bool) : (s.setRb a f x).faults = s.faults := rfl
@[simp] theorem State.setRb_out (s : State) (a : Nat) (f : Fld) (x : Bool) : (s.setRb a f x).out = s.out := rfl
@[simp] theorem State.setRb_freeCtr (s : State) (a : Nat) (f : Fld) (x : Bool) : (s.setRb a f x).freeCtr = s.freeCtr := rfl
@[simp] theorem State.setRb_pending (s : State) (a : Nat) (f : Fld) (x : Bool) : (s.setRb a f x).pending = s.pending := rfl

/-! State.bump -/

@[simp] theorem State.bump_mem (s : State) (a : Nat) (f : Fld) (k : Nat) : (s.bump a f k).mem = s.mem := rfl
@[simp] theorem State.bump_syn (s : State) (a : Nat) (f : Fld) (k : Nat) : (s.bump a f k).syn = s.syn := rfl
@[simp] theorem State.bump_yk (s : State) (a : Nat) (f : Fld) (k : Nat) : (s.bump a f k).yk = s.yk := rfl
@[simp] theorem State.bump_mke (s : State) (a : Nat) (f : Fld) (k : Nat) : (s.bump a f k).mke = s.mke := rfl
@[simp] theorem State.bump_cuffs (s : State) (a : Nat) (f : Fld) (k : Nat) : (s.bump a f k).cuffs = s.cuffs := rfl
@[simp] theorem State.bump_edgeSeq (s : State) (a : Nat) (f : Fld) (k : Nat) : (s.bump a f k).edgeSeq = s.edgeSeq := rfl
@[simp] theorem State.bump_sp (s : State) (a : Nat) (f : Fld) (k : Nat) : (s.bump a f k).sp = s.sp := rfl
@[simp] theorem State.bump_ev (s : State) (a : Nat) (f : Fld) (k : Nat) : (s.bump a f k).ev = s.ev := rfl
@[simp] theorem State.bump_hx (s : State) (a : Nat) (f : Fld) (k : Nat) : (s.bump a f k).hx = s.hx := rfl
@[simp] theorem State.bump_arr (s : State) (a : Nat) (f : Fld) (k : Nat) : (s.bump a f k).arr = s.arr := rfl
@[simp] theorem State.bump_qs (s : State) (a : Nat) (f : Fld) (k : Nat) : (s.bump a f k).qs = s.qs := rfl
@[simp] theorem State.bump_sm (s : State) (a : Nat) (f : Fld) (k : Nat) : (s.bump a f k).sm = s.sm := rfl
@[simp] theorem State.bump_net (s : State) (a : Nat) (f : Fld) (k : Nat) : (s.bump a f k).net = s.net := rfl
@[simp] theorem State.bump_ft (s : State) (a : Nat) (f : Fld) (k : Nat) : (s.bump a f k).ft = s.ft := rfl
@[simp] theorem State.bump_en (s : State) (a : Nat) (f : Fld) (k : Nat) : (s.bump a f k).en = s.en := rfl
@[simp] theorem State.bump_fb (s : State) (a : Nat) (f : Fld) (k : Nat) : (s.bump a f k).fb = s.fb := rfl
@[simp] theorem State.bump_cg (s : State) (a : Nat) (f : Fld) (k : Nat) : (s.bump a f k).cg = s.cg := rfl
@[simp] theorem State.bump_fl (s : State) (a : Nat) (f : Fld) (k : Nat) : (s.bump a f k).fl = s.fl := rfl
@[simp] theorem State.bump_ot (s : State) (a : Nat) (f : Fld) (k : Nat) : (s.bump a f k).ot = s.ot := rfl
@[simp] theorem State.bump_sc (s : State) (a : Nat) (f : Fld) (k : Nat) : (s.bump a f k).sc = s.sc := rfl
@[simp] theorem State.bump_cc (s : State) (a : Nat) (f : Fld) (k : Nat) : (s.bump a f k).cc = s.cc := rfl
@[simp] theorem State.bump_rs (s : State) (a : Nat) (f : Fld) (k : Nat) : (s.bump a f k).rs = s.rs := rfl
@[simp] theorem State.bump_hi (s : State) (a : Nat) (f : Fld) (k : Nat) : (s.bump a f k).hi = s.hi := rfl
@[simp] theorem State.bump_lc (s : State) (a : Nat) (f : Fld) (k : Nat) : (s.bump a f k).lc = s.lc := rfl
@[simp] theorem State.bump_faults (s : State) (a : Nat) (f : Fld) (k : Nat) : (s.bump a f k).faults = s.faults := rfl
@[simp] theorem State.bump_out (s : State) (a : Nat) (f : Fld) (k : Nat) : (s.bump a f k).out = s.out := rfl
@[simp] theorem State.bump_freeCtr (s : State) (a : Nat) (f : Fld) (k : Nat) : (s.bump a f k).freeCtr = s.freeCtr := rfl
@[simp] theorem State.bump_pending (s : State) (a : Nat) (f : Fld) (k : Nat) : (s.bump a f k).pending = s.pending := rfl

/-! State.setRg64 -/

@[simp] theorem State.setRg64_mem (s : State) (lo hi x : Nat) : (s.setRg64 lo hi x).mem = s.mem := rfl
@[simp] theorem State.setRg64_syn (s : State) (lo hi x : Nat) : (s.setRg64 lo hi x).syn = s.syn := rfl
@[simp] theorem State.setRg64_yk (s : State) (lo hi x : Nat) : (s.setRg64 lo hi x).yk = s.yk := rfl
@[simp] theorem State.setRg64_mke (s : State) (lo hi x : Nat) : (s.setRg64 lo hi x).mke = s.mke := rfl
@[simp] theorem State.setRg64_cuffs (s : State) (lo hi x : Nat) : (s.setRg64 lo hi x).cuffs = s.cuffs := rfl
@[simp] theorem State.setRg64_edgeSeq (s : State) (lo hi x : Nat) : (s.setRg64 lo hi x).edgeSeq = s.edgeSeq := rfl
@[simp] theorem State.setRg64_sp (s : State) (lo hi x : Nat) : (s.setRg64 lo hi x).sp = s.sp := rfl
@[simp] theorem State.setRg64_ev (s : State) (lo hi x : Nat) : (s.setRg64 lo hi x).ev = s.ev := rfl
@[simp] theorem State.setRg64_hx (s : State) (lo hi x : Nat) : (s.setRg64 lo hi x).hx = s.hx := rfl
@[simp] theorem State.setRg64_arr (s : State) (lo hi x : Nat) : (s.setRg64 lo hi x).arr = s.arr := rfl
@[simp] theorem State.setRg64_qs (s : State) (lo hi x : Nat) : (s.setRg64 lo hi x).qs = s.qs := rfl
@[simp] theorem State.setRg64_sm (s : State) (lo hi x : Nat) : (s.setRg64 lo hi x).sm = s.sm := rfl
@[simp] theorem State.setRg64_net (s : State) (lo hi x : Nat) : (s.setRg64 lo hi x).net = s.net := rfl
@[simp] theorem State.setRg64_ft (s : State) (lo hi x : Nat) : (s.setRg64 lo hi x).ft = s.ft := rfl
@[simp] theorem State.setRg64_en (s : State) (lo hi x : Nat) : (s.setRg64 lo hi x).en = s.en := rfl
@[simp] theorem State.setRg64_fb (s : State) (lo hi x : Nat) : (s.setRg64 lo hi x).fb = s.fb := rfl
@[simp] theorem State.setRg64_cg (s : State) (lo hi x : Nat) : (s.setRg64 lo hi x).cg = s.cg := rfl
@[simp] theorem State.setRg64_fl (s : State) (lo hi x : Nat) : (s.setRg64 lo hi x).fl = s.fl := rfl
@[simp] theorem State.setRg64_ot (s : State) (lo hi x : Nat) : (s.setRg64 lo hi x).ot = s.ot := rfl
@[simp] theorem State.setRg64_sc (s : State) (lo hi x : Nat) : (s.setRg64 lo hi x).sc = s.sc := rfl
@[simp] theorem State.setRg64_cc (s : State) (lo hi x : Nat) : (s.setRg64 lo hi x).cc = s.cc := rfl
@[simp] theorem State.setRg64_rs (s : State) (lo hi x : Nat) : (s.setRg64 lo hi x).rs = s.rs := rfl
@[simp] theorem State.setRg64_hi (s : State) (lo hi x : Nat) : (s.setRg64 lo hi x).hi = s.hi := rfl
@[simp] theorem State.setRg64_lc (s : State) (lo hi x : Nat) : (s.setRg64 lo hi x).lc = s.lc := rfl
@[simp] theorem State.setRg64_faults (s : State) (lo hi x : Nat) : (s.setRg64 lo hi x).faults = s.faults := rfl
@[simp] theorem State.setRg64_out (s : State) (lo hi x : Nat) : (s.setRg64 lo hi x).out = s.out := rfl
@[simp] theorem State.setRg64_freeCtr (s : State) (lo hi x : Nat) : (s.setRg64 lo hi x).freeCtr = s.freeCtr := rfl
@[simp] theorem State.setRg64_pending (s : State) (lo hi x : Nat) : (s.setRg64 lo hi x).pending = s.pending := rfl

/-! State.clearRegs -/

@[simp] theorem State.clearRegs_mem (s : State) (r : Reach) (lo hi : Nat) : (s.clearRegs r lo hi).mem = s.mem := rfl
@[simp] theorem State.clearRegs_syn (s : State) (r : Reach) (lo hi : Nat) : (s.clearRegs r lo hi).syn = s.syn := rfl
@[simp] theorem State.clearRegs_yk (s : State) (r : Reach) (lo hi : Nat) : (s.clearRegs r lo hi).yk = s.yk := rfl
@[simp] theorem State.clearRegs_mke (s : State) (r : Reach) (lo hi : Nat) : (s.clearRegs r lo hi).mke = s.mke := rfl
@[simp] theorem State.clearRegs_cuffs (s : State) (r : Reach) (lo hi : Nat) : (s.clearRegs r lo hi).cuffs = s.cuffs := rfl
@[simp] theorem State.clearRegs_edgeSeq (s : State) (r : Reach) (lo hi : Nat) : (s.clearRegs r lo hi).edgeSeq = s.edgeSeq := rfl
@[simp] theorem State.clearRegs_sp (s : State) (r : Reach) (lo hi : Nat) : (s.clearRegs r lo hi).sp = s.sp := rfl
@[simp] theorem State.clearRegs_ev (s : State) (r : Reach) (lo hi : Nat) : (s.clearRegs r lo hi).ev = s.ev := rfl
@[simp] theorem State.clearRegs_hx (s : State) (r : Reach) (lo hi : Nat) : (s.clearRegs r lo hi).hx = s.hx := rfl
@[simp] theorem State.clearRegs_arr (s : State) (r : Reach) (lo hi : Nat) : (s.clearRegs r lo hi).arr = s.arr := rfl
@[simp] theorem State.clearRegs_qs (s : State) (r : Reach) (lo hi : Nat) : (s.clearRegs r lo hi).qs = s.qs := rfl
@[simp] theorem State.clearRegs_sm (s : State) (r : Reach) (lo hi : Nat) : (s.clearRegs r lo hi).sm = s.sm := rfl
@[simp] theorem State.clearRegs_net (s : State) (r : Reach) (lo hi : Nat) : (s.clearRegs r lo hi).net = s.net := rfl
@[simp] theorem State.clearRegs_ft (s : State) (r : Reach) (lo hi : Nat) : (s.clearRegs r lo hi).ft = s.ft := rfl
@[simp] theorem State.clearRegs_en (s : State) (r : Reach) (lo hi : Nat) : (s.clearRegs r lo hi).en = s.en := rfl
@[simp] theorem State.clearRegs_fb (s : State) (r : Reach) (lo hi : Nat) : (s.clearRegs r lo hi).fb = s.fb := rfl
@[simp] theorem State.clearRegs_cg (s : State) (r : Reach) (lo hi : Nat) : (s.clearRegs r lo hi).cg = s.cg := rfl
@[simp] theorem State.clearRegs_fl (s : State) (r : Reach) (lo hi : Nat) : (s.clearRegs r lo hi).fl = s.fl := rfl
@[simp] theorem State.clearRegs_ot (s : State) (r : Reach) (lo hi : Nat) : (s.clearRegs r lo hi).ot = s.ot := rfl
@[simp] theorem State.clearRegs_sc (s : State) (r : Reach) (lo hi : Nat) : (s.clearRegs r lo hi).sc = s.sc := rfl
@[simp] theorem State.clearRegs_cc (s : State) (r : Reach) (lo hi : Nat) : (s.clearRegs r lo hi).cc = s.cc := rfl
@[simp] theorem State.clearRegs_rs (s : State) (r : Reach) (lo hi : Nat) : (s.clearRegs r lo hi).rs = s.rs := rfl
@[simp] theorem State.clearRegs_hi (s : State) (r : Reach) (lo hi : Nat) : (s.clearRegs r lo hi).hi = s.hi := rfl
@[simp] theorem State.clearRegs_lc (s : State) (r : Reach) (lo hi : Nat) : (s.clearRegs r lo hi).lc = s.lc := rfl
@[simp] theorem State.clearRegs_faults (s : State) (r : Reach) (lo hi : Nat) : (s.clearRegs r lo hi).faults = s.faults := rfl
@[simp] theorem State.clearRegs_out (s : State) (r : Reach) (lo hi : Nat) : (s.clearRegs r lo hi).out = s.out := rfl
@[simp] theorem State.clearRegs_freeCtr (s : State) (r : Reach) (lo hi : Nat) : (s.clearRegs r lo hi).freeCtr = s.freeCtr := rfl
@[simp] theorem State.clearRegs_pending (s : State) (r : Reach) (lo hi : Nat) : (s.clearRegs r lo hi).pending = s.pending := rfl

/-! State.emit -/

@[simp] theorem State.emit_regs (s : State) (o : Out) : (s.emit o).regs = s.regs := rfl
@[simp] theorem State.emit_mem (s : State) (o : Out) : (s.emit o).mem = s.mem := rfl
@[simp] theorem State.emit_syn (s : State) (o : Out) : (s.emit o).syn = s.syn := rfl
@[simp] theorem State.emit_yk (s : State) (o : Out) : (s.emit o).yk = s.yk := rfl
@[simp] theorem State.emit_mke (s : State) (o : Out) : (s.emit o).mke = s.mke := rfl
@[simp] theorem State.emit_cuffs (s : State) (o : Out) : (s.emit o).cuffs = s.cuffs := rfl
@[simp] theorem State.emit_edgeSeq (s : State) (o : Out) : (s.emit o).edgeSeq = s.edgeSeq := rfl
@[simp] theorem State.emit_sp (s : State) (o : Out) : (s.emit o).sp = s.sp := rfl
@[simp] theorem State.emit_ev (s : State) (o : Out) : (s.emit o).ev = s.ev := rfl
@[simp] theorem State.emit_hx (s : State) (o : Out) : (s.emit o).hx = s.hx := rfl
@[simp] theorem State.emit_arr (s : State) (o : Out) : (s.emit o).arr = s.arr := rfl
@[simp] theorem State.emit_qs (s : State) (o : Out) : (s.emit o).qs = s.qs := rfl
@[simp] theorem State.emit_sm (s : State) (o : Out) : (s.emit o).sm = s.sm := rfl
@[simp] theorem State.emit_net (s : State) (o : Out) : (s.emit o).net = s.net := rfl
@[simp] theorem State.emit_ft (s : State) (o : Out) : (s.emit o).ft = s.ft := rfl
@[simp] theorem State.emit_en (s : State) (o : Out) : (s.emit o).en = s.en := rfl
@[simp] theorem State.emit_fb (s : State) (o : Out) : (s.emit o).fb = s.fb := rfl
@[simp] theorem State.emit_cg (s : State) (o : Out) : (s.emit o).cg = s.cg := rfl
@[simp] theorem State.emit_fl (s : State) (o : Out) : (s.emit o).fl = s.fl := rfl
@[simp] theorem State.emit_ot (s : State) (o : Out) : (s.emit o).ot = s.ot := rfl
@[simp] theorem State.emit_sc (s : State) (o : Out) : (s.emit o).sc = s.sc := rfl
@[simp] theorem State.emit_cc (s : State) (o : Out) : (s.emit o).cc = s.cc := rfl
@[simp] theorem State.emit_rs (s : State) (o : Out) : (s.emit o).rs = s.rs := rfl
@[simp] theorem State.emit_hi (s : State) (o : Out) : (s.emit o).hi = s.hi := rfl
@[simp] theorem State.emit_lc (s : State) (o : Out) : (s.emit o).lc = s.lc := rfl
@[simp] theorem State.emit_faults (s : State) (o : Out) : (s.emit o).faults = s.faults := rfl
@[simp] theorem State.emit_freeCtr (s : State) (o : Out) : (s.emit o).freeCtr = s.freeCtr := rfl
@[simp] theorem State.emit_pending (s : State) (o : Out) : (s.emit o).pending = s.pending := rfl

/-! State.tick -/

@[simp] theorem State.tick_regs (s : State) : (s.tick).regs = s.regs := rfl
@[simp] theorem State.tick_mem (s : State) : (s.tick).mem = s.mem := rfl
@[simp] theorem State.tick_syn (s : State) : (s.tick).syn = s.syn := rfl
@[simp] theorem State.tick_yk (s : State) : (s.tick).yk = s.yk := rfl
@[simp] theorem State.tick_mke (s : State) : (s.tick).mke = s.mke := rfl
@[simp] theorem State.tick_cuffs (s : State) : (s.tick).cuffs = s.cuffs := rfl
@[simp] theorem State.tick_edgeSeq (s : State) : (s.tick).edgeSeq = s.edgeSeq := rfl
@[simp] theorem State.tick_sp (s : State) : (s.tick).sp = s.sp := rfl
@[simp] theorem State.tick_ev (s : State) : (s.tick).ev = s.ev := rfl
@[simp] theorem State.tick_hx (s : State) : (s.tick).hx = s.hx := rfl
@[simp] theorem State.tick_arr (s : State) : (s.tick).arr = s.arr := rfl
@[simp] theorem State.tick_qs (s : State) : (s.tick).qs = s.qs := rfl
@[simp] theorem State.tick_sm (s : State) : (s.tick).sm = s.sm := rfl
@[simp] theorem State.tick_net (s : State) : (s.tick).net = s.net := rfl
@[simp] theorem State.tick_ft (s : State) : (s.tick).ft = s.ft := rfl
@[simp] theorem State.tick_en (s : State) : (s.tick).en = s.en := rfl
@[simp] theorem State.tick_fb (s : State) : (s.tick).fb = s.fb := rfl
@[simp] theorem State.tick_cg (s : State) : (s.tick).cg = s.cg := rfl
@[simp] theorem State.tick_fl (s : State) : (s.tick).fl = s.fl := rfl
@[simp] theorem State.tick_ot (s : State) : (s.tick).ot = s.ot := rfl
@[simp] theorem State.tick_sc (s : State) : (s.tick).sc = s.sc := rfl
@[simp] theorem State.tick_cc (s : State) : (s.tick).cc = s.cc := rfl
@[simp] theorem State.tick_rs (s : State) : (s.tick).rs = s.rs := rfl
@[simp] theorem State.tick_hi (s : State) : (s.tick).hi = s.hi := rfl
@[simp] theorem State.tick_lc (s : State) : (s.tick).lc = s.lc := rfl
@[simp] theorem State.tick_faults (s : State) : (s.tick).faults = s.faults := rfl
@[simp] theorem State.tick_out (s : State) : (s.tick).out = s.out := rfl
@[simp] theorem State.tick_pending (s : State) : (s.tick).pending = s.pending := rfl

/-! State.setByte -/

@[simp] theorem State.setByte_regs (s : State) (a : Nat) (v : Byte) : (s.setByte a v).regs = s.regs := rfl
@[simp] theorem State.setByte_syn (s : State) (a : Nat) (v : Byte) : (s.setByte a v).syn = s.syn := rfl
@[simp] theorem State.setByte_yk (s : State) (a : Nat) (v : Byte) : (s.setByte a v).yk = s.yk := rfl
@[simp] theorem State.setByte_mke (s : State) (a : Nat) (v : Byte) : (s.setByte a v).mke = s.mke := rfl
@[simp] theorem State.setByte_cuffs (s : State) (a : Nat) (v : Byte) : (s.setByte a v).cuffs = s.cuffs := rfl
@[simp] theorem State.setByte_edgeSeq (s : State) (a : Nat) (v : Byte) : (s.setByte a v).edgeSeq = s.edgeSeq := rfl
@[simp] theorem State.setByte_sp (s : State) (a : Nat) (v : Byte) : (s.setByte a v).sp = s.sp := rfl
@[simp] theorem State.setByte_ev (s : State) (a : Nat) (v : Byte) : (s.setByte a v).ev = s.ev := rfl
@[simp] theorem State.setByte_hx (s : State) (a : Nat) (v : Byte) : (s.setByte a v).hx = s.hx := rfl
@[simp] theorem State.setByte_arr (s : State) (a : Nat) (v : Byte) : (s.setByte a v).arr = s.arr := rfl
@[simp] theorem State.setByte_qs (s : State) (a : Nat) (v : Byte) : (s.setByte a v).qs = s.qs := rfl
@[simp] theorem State.setByte_sm (s : State) (a : Nat) (v : Byte) : (s.setByte a v).sm = s.sm := rfl
@[simp] theorem State.setByte_net (s : State) (a : Nat) (v : Byte) : (s.setByte a v).net = s.net := rfl
@[simp] theorem State.setByte_ft (s : State) (a : Nat) (v : Byte) : (s.setByte a v).ft = s.ft := rfl
@[simp] theorem State.setByte_en (s : State) (a : Nat) (v : Byte) : (s.setByte a v).en = s.en := rfl
@[simp] theorem State.setByte_fb (s : State) (a : Nat) (v : Byte) : (s.setByte a v).fb = s.fb := rfl
@[simp] theorem State.setByte_cg (s : State) (a : Nat) (v : Byte) : (s.setByte a v).cg = s.cg := rfl
@[simp] theorem State.setByte_fl (s : State) (a : Nat) (v : Byte) : (s.setByte a v).fl = s.fl := rfl
@[simp] theorem State.setByte_ot (s : State) (a : Nat) (v : Byte) : (s.setByte a v).ot = s.ot := rfl
@[simp] theorem State.setByte_sc (s : State) (a : Nat) (v : Byte) : (s.setByte a v).sc = s.sc := rfl
@[simp] theorem State.setByte_cc (s : State) (a : Nat) (v : Byte) : (s.setByte a v).cc = s.cc := rfl
@[simp] theorem State.setByte_rs (s : State) (a : Nat) (v : Byte) : (s.setByte a v).rs = s.rs := rfl
@[simp] theorem State.setByte_hi (s : State) (a : Nat) (v : Byte) : (s.setByte a v).hi = s.hi := rfl
@[simp] theorem State.setByte_lc (s : State) (a : Nat) (v : Byte) : (s.setByte a v).lc = s.lc := rfl
@[simp] theorem State.setByte_faults (s : State) (a : Nat) (v : Byte) : (s.setByte a v).faults = s.faults := rfl
@[simp] theorem State.setByte_out (s : State) (a : Nat) (v : Byte) : (s.setByte a v).out = s.out := rfl
@[simp] theorem State.setByte_freeCtr (s : State) (a : Nat) (v : Byte) : (s.setByte a v).freeCtr = s.freeCtr := rfl
@[simp] theorem State.setByte_pending (s : State) (a : Nat) (v : Byte) : (s.setByte a v).pending = s.pending := rfl

/-! State.setAx -/

@[simp] theorem State.setAx_regs (s : State) (n : Nat) (x : Axis) : (s.setAx n x).regs = s.regs := rfl
@[simp] theorem State.setAx_mem (s : State) (n : Nat) (x : Axis) : (s.setAx n x).mem = s.mem := rfl
@[simp] theorem State.setAx_syn (s : State) (n : Nat) (x : Axis) : (s.setAx n x).syn = s.syn := rfl
@[simp] theorem State.setAx_mke (s : State) (n : Nat) (x : Axis) : (s.setAx n x).mke = s.mke := rfl
@[simp] theorem State.setAx_cuffs (s : State) (n : Nat) (x : Axis) : (s.setAx n x).cuffs = s.cuffs := rfl
@[simp] theorem State.setAx_edgeSeq (s : State) (n : Nat) (x : Axis) : (s.setAx n x).edgeSeq = s.edgeSeq := rfl
@[simp] theorem State.setAx_sp (s : State) (n : Nat) (x : Axis) : (s.setAx n x).sp = s.sp := rfl
@[simp] theorem State.setAx_ev (s : State) (n : Nat) (x : Axis) : (s.setAx n x).ev = s.ev := rfl
@[simp] theorem State.setAx_hx (s : State) (n : Nat) (x : Axis) : (s.setAx n x).hx = s.hx := rfl
@[simp] theorem State.setAx_arr (s : State) (n : Nat) (x : Axis) : (s.setAx n x).arr = s.arr := rfl
@[simp] theorem State.setAx_qs (s : State) (n : Nat) (x : Axis) : (s.setAx n x).qs = s.qs := rfl
@[simp] theorem State.setAx_sm (s : State) (n : Nat) (x : Axis) : (s.setAx n x).sm = s.sm := rfl
@[simp] theorem State.setAx_net (s : State) (n : Nat) (x : Axis) : (s.setAx n x).net = s.net := rfl
@[simp] theorem State.setAx_ft (s : State) (n : Nat) (x : Axis) : (s.setAx n x).ft = s.ft := rfl
@[simp] theorem State.setAx_en (s : State) (n : Nat) (x : Axis) : (s.setAx n x).en = s.en := rfl
@[simp] theorem State.setAx_fb (s : State) (n : Nat) (x : Axis) : (s.setAx n x).fb = s.fb := rfl
@[simp] theorem State.setAx_cg (s : State) (n : Nat) (x : Axis) : (s.setAx n x).cg = s.cg := rfl
@[simp] theorem State.setAx_fl (s : State) (n : Nat) (x : Axis) : (s.setAx n x).fl = s.fl := rfl
@[simp] theorem State.setAx_ot (s : State) (n : Nat) (x : Axis) : (s.setAx n x).ot = s.ot := rfl
@[simp] theorem State.setAx_sc (s : State) (n : Nat) (x : Axis) : (s.setAx n x).sc = s.sc := rfl
@[simp] theorem State.setAx_cc (s : State) (n : Nat) (x : Axis) : (s.setAx n x).cc = s.cc := rfl
@[simp] theorem State.setAx_rs (s : State) (n : Nat) (x : Axis) : (s.setAx n x).rs = s.rs := rfl
@[simp] theorem State.setAx_hi (s : State) (n : Nat) (x : Axis) : (s.setAx n x).hi = s.hi := rfl
@[simp] theorem State.setAx_lc (s : State) (n : Nat) (x : Axis) : (s.setAx n x).lc = s.lc := rfl
@[simp] theorem State.setAx_faults (s : State) (n : Nat) (x : Axis) : (s.setAx n x).faults = s.faults := rfl
@[simp] theorem State.setAx_out (s : State) (n : Nat) (x : Axis) : (s.setAx n x).out = s.out := rfl
@[simp] theorem State.setAx_freeCtr (s : State) (n : Nat) (x : Axis) : (s.setAx n x).freeCtr = s.freeCtr := rfl
@[simp] theorem State.setAx_pending (s : State) (n : Nat) (x : Axis) : (s.setAx n x).pending = s.pending := rfl

/-! State.setMark -/

@[simp] theorem State.setMark_regs (s : State) (n : Nat) (x : Mark) : (s.setMark n x).regs = s.regs := rfl
@[simp] theorem State.setMark_mem (s : State) (n : Nat) (x : Mark) : (s.setMark n x).mem = s.mem := rfl
@[simp] theorem State.setMark_syn (s : State) (n : Nat) (x : Mark) : (s.setMark n x).syn = s.syn := rfl
@[simp] theorem State.setMark_yk (s : State) (n : Nat) (x : Mark) : (s.setMark n x).yk = s.yk := rfl
@[simp] theorem State.setMark_cuffs (s : State) (n : Nat) (x : Mark) : (s.setMark n x).cuffs = s.cuffs := rfl
@[simp] theorem State.setMark_edgeSeq (s : State) (n : Nat) (x : Mark) : (s.setMark n x).edgeSeq = s.edgeSeq := rfl
@[simp] theorem State.setMark_sp (s : State) (n : Nat) (x : Mark) : (s.setMark n x).sp = s.sp := rfl
@[simp] theorem State.setMark_ev (s : State) (n : Nat) (x : Mark) : (s.setMark n x).ev = s.ev := rfl
@[simp] theorem State.setMark_hx (s : State) (n : Nat) (x : Mark) : (s.setMark n x).hx = s.hx := rfl
@[simp] theorem State.setMark_arr (s : State) (n : Nat) (x : Mark) : (s.setMark n x).arr = s.arr := rfl
@[simp] theorem State.setMark_qs (s : State) (n : Nat) (x : Mark) : (s.setMark n x).qs = s.qs := rfl
@[simp] theorem State.setMark_sm (s : State) (n : Nat) (x : Mark) : (s.setMark n x).sm = s.sm := rfl
@[simp] theorem State.setMark_net (s : State) (n : Nat) (x : Mark) : (s.setMark n x).net = s.net := rfl
@[simp] theorem State.setMark_ft (s : State) (n : Nat) (x : Mark) : (s.setMark n x).ft = s.ft := rfl
@[simp] theorem State.setMark_en (s : State) (n : Nat) (x : Mark) : (s.setMark n x).en = s.en := rfl
@[simp] theorem State.setMark_fb (s : State) (n : Nat) (x : Mark) : (s.setMark n x).fb = s.fb := rfl
@[simp] theorem State.setMark_cg (s : State) (n : Nat) (x : Mark) : (s.setMark n x).cg = s.cg := rfl
@[simp] theorem State.setMark_fl (s : State) (n : Nat) (x : Mark) : (s.setMark n x).fl = s.fl := rfl
@[simp] theorem State.setMark_ot (s : State) (n : Nat) (x : Mark) : (s.setMark n x).ot = s.ot := rfl
@[simp] theorem State.setMark_sc (s : State) (n : Nat) (x : Mark) : (s.setMark n x).sc = s.sc := rfl
@[simp] theorem State.setMark_cc (s : State) (n : Nat) (x : Mark) : (s.setMark n x).cc = s.cc := rfl
@[simp] theorem State.setMark_rs (s : State) (n : Nat) (x : Mark) : (s.setMark n x).rs = s.rs := rfl
@[simp] theorem State.setMark_hi (s : State) (n : Nat) (x : Mark) : (s.setMark n x).hi = s.hi := rfl
@[simp] theorem State.setMark_lc (s : State) (n : Nat) (x : Mark) : (s.setMark n x).lc = s.lc := rfl
@[simp] theorem State.setMark_faults (s : State) (n : Nat) (x : Mark) : (s.setMark n x).faults = s.faults := rfl
@[simp] theorem State.setMark_out (s : State) (n : Nat) (x : Mark) : (s.setMark n x).out = s.out := rfl
@[simp] theorem State.setMark_freeCtr (s : State) (n : Nat) (x : Mark) : (s.setMark n x).freeCtr = s.freeCtr := rfl
@[simp] theorem State.setMark_pending (s : State) (n : Nat) (x : Mark) : (s.setMark n x).pending = s.pending := rfl

/-! State.setMkAx -/

@[simp] theorem State.setMkAx_regs (s : State) (a : Nat) (x : MkAxis) : (s.setMkAx a x).regs = s.regs := rfl
@[simp] theorem State.setMkAx_mem (s : State) (a : Nat) (x : MkAxis) : (s.setMkAx a x).mem = s.mem := rfl
@[simp] theorem State.setMkAx_syn (s : State) (a : Nat) (x : MkAxis) : (s.setMkAx a x).syn = s.syn := rfl
@[simp] theorem State.setMkAx_yk (s : State) (a : Nat) (x : MkAxis) : (s.setMkAx a x).yk = s.yk := rfl
@[simp] theorem State.setMkAx_cuffs (s : State) (a : Nat) (x : MkAxis) : (s.setMkAx a x).cuffs = s.cuffs := rfl
@[simp] theorem State.setMkAx_edgeSeq (s : State) (a : Nat) (x : MkAxis) : (s.setMkAx a x).edgeSeq = s.edgeSeq := rfl
@[simp] theorem State.setMkAx_sp (s : State) (a : Nat) (x : MkAxis) : (s.setMkAx a x).sp = s.sp := rfl
@[simp] theorem State.setMkAx_ev (s : State) (a : Nat) (x : MkAxis) : (s.setMkAx a x).ev = s.ev := rfl
@[simp] theorem State.setMkAx_hx (s : State) (a : Nat) (x : MkAxis) : (s.setMkAx a x).hx = s.hx := rfl
@[simp] theorem State.setMkAx_arr (s : State) (a : Nat) (x : MkAxis) : (s.setMkAx a x).arr = s.arr := rfl
@[simp] theorem State.setMkAx_qs (s : State) (a : Nat) (x : MkAxis) : (s.setMkAx a x).qs = s.qs := rfl
@[simp] theorem State.setMkAx_sm (s : State) (a : Nat) (x : MkAxis) : (s.setMkAx a x).sm = s.sm := rfl
@[simp] theorem State.setMkAx_net (s : State) (a : Nat) (x : MkAxis) : (s.setMkAx a x).net = s.net := rfl
@[simp] theorem State.setMkAx_ft (s : State) (a : Nat) (x : MkAxis) : (s.setMkAx a x).ft = s.ft := rfl
@[simp] theorem State.setMkAx_en (s : State) (a : Nat) (x : MkAxis) : (s.setMkAx a x).en = s.en := rfl
@[simp] theorem State.setMkAx_fb (s : State) (a : Nat) (x : MkAxis) : (s.setMkAx a x).fb = s.fb := rfl
@[simp] theorem State.setMkAx_cg (s : State) (a : Nat) (x : MkAxis) : (s.setMkAx a x).cg = s.cg := rfl
@[simp] theorem State.setMkAx_fl (s : State) (a : Nat) (x : MkAxis) : (s.setMkAx a x).fl = s.fl := rfl
@[simp] theorem State.setMkAx_ot (s : State) (a : Nat) (x : MkAxis) : (s.setMkAx a x).ot = s.ot := rfl
@[simp] theorem State.setMkAx_sc (s : State) (a : Nat) (x : MkAxis) : (s.setMkAx a x).sc = s.sc := rfl
@[simp] theorem State.setMkAx_cc (s : State) (a : Nat) (x : MkAxis) : (s.setMkAx a x).cc = s.cc := rfl
@[simp] theorem State.setMkAx_rs (s : State) (a : Nat) (x : MkAxis) : (s.setMkAx a x).rs = s.rs := rfl
@[simp] theorem State.setMkAx_hi (s : State) (a : Nat) (x : MkAxis) : (s.setMkAx a x).hi = s.hi := rfl
@[simp] theorem State.setMkAx_lc (s : State) (a : Nat) (x : MkAxis) : (s.setMkAx a x).lc = s.lc := rfl
@[simp] theorem State.setMkAx_faults (s : State) (a : Nat) (x : MkAxis) : (s.setMkAx a x).faults = s.faults := rfl
@[simp] theorem State.setMkAx_out (s : State) (a : Nat) (x : MkAxis) : (s.setMkAx a x).out = s.out := rfl
@[simp] theorem State.setMkAx_freeCtr (s : State) (a : Nat) (x : MkAxis) : (s.setMkAx a x).freeCtr = s.freeCtr := rfl
@[simp] theorem State.setMkAx_pending (s : State) (a : Nat) (x : MkAxis) : (s.setMkAx a x).pending = s.pending := rfl

/-! State.setCuff -/

@[simp] theorem State.setCuff_regs (s : State) (n : Nat) (x : Cuff) : (s.setCuff n x).regs = s.regs := rfl
@[simp] theorem State.setCuff_mem (s : State) (n : Nat) (x : Cuff) : (s.setCuff n x).mem = s.mem := rfl
@[simp] theorem State.setCuff_syn (s : State) (n : Nat) (x : Cuff) : (s.setCuff n x).syn = s.syn := rfl
@[simp] theorem State.setCuff_yk (s : State) (n : Nat) (x : Cuff) : (s.setCuff n x).yk = s.yk := rfl
@[simp] theorem State.setCuff_mke (s : State) (n : Nat) (x : Cuff) : (s.setCuff n x).mke = s.mke := rfl
@[simp] theorem State.setCuff_edgeSeq (s : State) (n : Nat) (x : Cuff) : (s.setCuff n x).edgeSeq = s.edgeSeq := rfl
@[simp] theorem State.setCuff_sp (s : State) (n : Nat) (x : Cuff) : (s.setCuff n x).sp = s.sp := rfl
@[simp] theorem State.setCuff_ev (s : State) (n : Nat) (x : Cuff) : (s.setCuff n x).ev = s.ev := rfl
@[simp] theorem State.setCuff_hx (s : State) (n : Nat) (x : Cuff) : (s.setCuff n x).hx = s.hx := rfl
@[simp] theorem State.setCuff_arr (s : State) (n : Nat) (x : Cuff) : (s.setCuff n x).arr = s.arr := rfl
@[simp] theorem State.setCuff_qs (s : State) (n : Nat) (x : Cuff) : (s.setCuff n x).qs = s.qs := rfl
@[simp] theorem State.setCuff_sm (s : State) (n : Nat) (x : Cuff) : (s.setCuff n x).sm = s.sm := rfl
@[simp] theorem State.setCuff_net (s : State) (n : Nat) (x : Cuff) : (s.setCuff n x).net = s.net := rfl
@[simp] theorem State.setCuff_ft (s : State) (n : Nat) (x : Cuff) : (s.setCuff n x).ft = s.ft := rfl
@[simp] theorem State.setCuff_en (s : State) (n : Nat) (x : Cuff) : (s.setCuff n x).en = s.en := rfl
@[simp] theorem State.setCuff_fb (s : State) (n : Nat) (x : Cuff) : (s.setCuff n x).fb = s.fb := rfl
@[simp] theorem State.setCuff_cg (s : State) (n : Nat) (x : Cuff) : (s.setCuff n x).cg = s.cg := rfl
@[simp] theorem State.setCuff_fl (s : State) (n : Nat) (x : Cuff) : (s.setCuff n x).fl = s.fl := rfl
@[simp] theorem State.setCuff_ot (s : State) (n : Nat) (x : Cuff) : (s.setCuff n x).ot = s.ot := rfl
@[simp] theorem State.setCuff_sc (s : State) (n : Nat) (x : Cuff) : (s.setCuff n x).sc = s.sc := rfl
@[simp] theorem State.setCuff_cc (s : State) (n : Nat) (x : Cuff) : (s.setCuff n x).cc = s.cc := rfl
@[simp] theorem State.setCuff_rs (s : State) (n : Nat) (x : Cuff) : (s.setCuff n x).rs = s.rs := rfl
@[simp] theorem State.setCuff_hi (s : State) (n : Nat) (x : Cuff) : (s.setCuff n x).hi = s.hi := rfl
@[simp] theorem State.setCuff_lc (s : State) (n : Nat) (x : Cuff) : (s.setCuff n x).lc = s.lc := rfl
@[simp] theorem State.setCuff_faults (s : State) (n : Nat) (x : Cuff) : (s.setCuff n x).faults = s.faults := rfl
@[simp] theorem State.setCuff_out (s : State) (n : Nat) (x : Cuff) : (s.setCuff n x).out = s.out := rfl
@[simp] theorem State.setCuff_freeCtr (s : State) (n : Nat) (x : Cuff) : (s.setCuff n x).freeCtr = s.freeCtr := rfl
@[simp] theorem State.setCuff_pending (s : State) (n : Nat) (x : Cuff) : (s.setCuff n x).pending = s.pending := rfl

/-! State.setSpr -/

@[simp] theorem State.setSpr_regs (s : State) (p : Nat) (x : SensorPort) : (s.setSpr p x).regs = s.regs := rfl
@[simp] theorem State.setSpr_mem (s : State) (p : Nat) (x : SensorPort) : (s.setSpr p x).mem = s.mem := rfl
@[simp] theorem State.setSpr_syn (s : State) (p : Nat) (x : SensorPort) : (s.setSpr p x).syn = s.syn := rfl
@[simp] theorem State.setSpr_yk (s : State) (p : Nat) (x : SensorPort) : (s.setSpr p x).yk = s.yk := rfl
@[simp] theorem State.setSpr_mke (s : State) (p : Nat) (x : SensorPort) : (s.setSpr p x).mke = s.mke := rfl
@[simp] theorem State.setSpr_cuffs (s : State) (p : Nat) (x : SensorPort) : (s.setSpr p x).cuffs = s.cuffs := rfl
@[simp] theorem State.setSpr_edgeSeq (s : State) (p : Nat) (x : SensorPort) : (s.setSpr p x).edgeSeq = s.edgeSeq := rfl
@[simp] theorem State.setSpr_ev (s : State) (p : Nat) (x : SensorPort) : (s.setSpr p x).ev = s.ev := rfl
@[simp] theorem State.setSpr_hx (s : State) (p : Nat) (x : SensorPort) : (s.setSpr p x).hx = s.hx := rfl
@[simp] theorem State.setSpr_arr (s : State) (p : Nat) (x : SensorPort) : (s.setSpr p x).arr = s.arr := rfl
@[simp] theorem State.setSpr_qs (s : State) (p : Nat) (x : SensorPort) : (s.setSpr p x).qs = s.qs := rfl
@[simp] theorem State.setSpr_sm (s : State) (p : Nat) (x : SensorPort) : (s.setSpr p x).sm = s.sm := rfl
@[simp] theorem State.setSpr_net (s : State) (p : Nat) (x : SensorPort) : (s.setSpr p x).net = s.net := rfl
@[simp] theorem State.setSpr_ft (s : State) (p : Nat) (x : SensorPort) : (s.setSpr p x).ft = s.ft := rfl
@[simp] theorem State.setSpr_en (s : State) (p : Nat) (x : SensorPort) : (s.setSpr p x).en = s.en := rfl
@[simp] theorem State.setSpr_fb (s : State) (p : Nat) (x : SensorPort) : (s.setSpr p x).fb = s.fb := rfl
@[simp] theorem State.setSpr_cg (s : State) (p : Nat) (x : SensorPort) : (s.setSpr p x).cg = s.cg := rfl
@[simp] theorem State.setSpr_fl (s : State) (p : Nat) (x : SensorPort) : (s.setSpr p x).fl = s.fl := rfl
@[simp] theorem State.setSpr_ot (s : State) (p : Nat) (x : SensorPort) : (s.setSpr p x).ot = s.ot := rfl
@[simp] theorem State.setSpr_sc (s : State) (p : Nat) (x : SensorPort) : (s.setSpr p x).sc = s.sc := rfl
@[simp] theorem State.setSpr_cc (s : State) (p : Nat) (x : SensorPort) : (s.setSpr p x).cc = s.cc := rfl
@[simp] theorem State.setSpr_rs (s : State) (p : Nat) (x : SensorPort) : (s.setSpr p x).rs = s.rs := rfl
@[simp] theorem State.setSpr_hi (s : State) (p : Nat) (x : SensorPort) : (s.setSpr p x).hi = s.hi := rfl
@[simp] theorem State.setSpr_lc (s : State) (p : Nat) (x : SensorPort) : (s.setSpr p x).lc = s.lc := rfl
@[simp] theorem State.setSpr_faults (s : State) (p : Nat) (x : SensorPort) : (s.setSpr p x).faults = s.faults := rfl
@[simp] theorem State.setSpr_out (s : State) (p : Nat) (x : SensorPort) : (s.setSpr p x).out = s.out := rfl
@[simp] theorem State.setSpr_freeCtr (s : State) (p : Nat) (x : SensorPort) : (s.setSpr p x).freeCtr = s.freeCtr := rfl
@[simp] theorem State.setSpr_pending (s : State) (p : Nat) (x : SensorPort) : (s.setSpr p x).pending = s.pending := rfl

/-! State.setRing -/

@[simp] theorem State.setRing_regs (s : State) (r : Nat) (x : EvRing) : (s.setRing r x).regs = s.regs := rfl
@[simp] theorem State.setRing_mem (s : State) (r : Nat) (x : EvRing) : (s.setRing r x).mem = s.mem := rfl
@[simp] theorem State.setRing_syn (s : State) (r : Nat) (x : EvRing) : (s.setRing r x).syn = s.syn := rfl
@[simp] theorem State.setRing_yk (s : State) (r : Nat) (x : EvRing) : (s.setRing r x).yk = s.yk := rfl
@[simp] theorem State.setRing_mke (s : State) (r : Nat) (x : EvRing) : (s.setRing r x).mke = s.mke := rfl
@[simp] theorem State.setRing_cuffs (s : State) (r : Nat) (x : EvRing) : (s.setRing r x).cuffs = s.cuffs := rfl
@[simp] theorem State.setRing_edgeSeq (s : State) (r : Nat) (x : EvRing) : (s.setRing r x).edgeSeq = s.edgeSeq := rfl
@[simp] theorem State.setRing_sp (s : State) (r : Nat) (x : EvRing) : (s.setRing r x).sp = s.sp := rfl
@[simp] theorem State.setRing_hx (s : State) (r : Nat) (x : EvRing) : (s.setRing r x).hx = s.hx := rfl
@[simp] theorem State.setRing_arr (s : State) (r : Nat) (x : EvRing) : (s.setRing r x).arr = s.arr := rfl
@[simp] theorem State.setRing_qs (s : State) (r : Nat) (x : EvRing) : (s.setRing r x).qs = s.qs := rfl
@[simp] theorem State.setRing_sm (s : State) (r : Nat) (x : EvRing) : (s.setRing r x).sm = s.sm := rfl
@[simp] theorem State.setRing_net (s : State) (r : Nat) (x : EvRing) : (s.setRing r x).net = s.net := rfl
@[simp] theorem State.setRing_ft (s : State) (r : Nat) (x : EvRing) : (s.setRing r x).ft = s.ft := rfl
@[simp] theorem State.setRing_en (s : State) (r : Nat) (x : EvRing) : (s.setRing r x).en = s.en := rfl
@[simp] theorem State.setRing_fb (s : State) (r : Nat) (x : EvRing) : (s.setRing r x).fb = s.fb := rfl
@[simp] theorem State.setRing_cg (s : State) (r : Nat) (x : EvRing) : (s.setRing r x).cg = s.cg := rfl
@[simp] theorem State.setRing_fl (s : State) (r : Nat) (x : EvRing) : (s.setRing r x).fl = s.fl := rfl
@[simp] theorem State.setRing_ot (s : State) (r : Nat) (x : EvRing) : (s.setRing r x).ot = s.ot := rfl
@[simp] theorem State.setRing_sc (s : State) (r : Nat) (x : EvRing) : (s.setRing r x).sc = s.sc := rfl
@[simp] theorem State.setRing_cc (s : State) (r : Nat) (x : EvRing) : (s.setRing r x).cc = s.cc := rfl
@[simp] theorem State.setRing_rs (s : State) (r : Nat) (x : EvRing) : (s.setRing r x).rs = s.rs := rfl
@[simp] theorem State.setRing_hi (s : State) (r : Nat) (x : EvRing) : (s.setRing r x).hi = s.hi := rfl
@[simp] theorem State.setRing_lc (s : State) (r : Nat) (x : EvRing) : (s.setRing r x).lc = s.lc := rfl
@[simp] theorem State.setRing_faults (s : State) (r : Nat) (x : EvRing) : (s.setRing r x).faults = s.faults := rfl
@[simp] theorem State.setRing_out (s : State) (r : Nat) (x : EvRing) : (s.setRing r x).out = s.out := rfl
@[simp] theorem State.setRing_freeCtr (s : State) (r : Nat) (x : EvRing) : (s.setRing r x).freeCtr = s.freeCtr := rfl
@[simp] theorem State.setRing_pending (s : State) (r : Nat) (x : EvRing) : (s.setRing r x).pending = s.pending := rfl

/-! State.setCgr -/

@[simp] theorem State.setCgr_regs (s : State) (r : Nat) (x : Region) : (s.setCgr r x).regs = s.regs := rfl
@[simp] theorem State.setCgr_mem (s : State) (r : Nat) (x : Region) : (s.setCgr r x).mem = s.mem := rfl
@[simp] theorem State.setCgr_syn (s : State) (r : Nat) (x : Region) : (s.setCgr r x).syn = s.syn := rfl
@[simp] theorem State.setCgr_yk (s : State) (r : Nat) (x : Region) : (s.setCgr r x).yk = s.yk := rfl
@[simp] theorem State.setCgr_mke (s : State) (r : Nat) (x : Region) : (s.setCgr r x).mke = s.mke := rfl
@[simp] theorem State.setCgr_cuffs (s : State) (r : Nat) (x : Region) : (s.setCgr r x).cuffs = s.cuffs := rfl
@[simp] theorem State.setCgr_edgeSeq (s : State) (r : Nat) (x : Region) : (s.setCgr r x).edgeSeq = s.edgeSeq := rfl
@[simp] theorem State.setCgr_sp (s : State) (r : Nat) (x : Region) : (s.setCgr r x).sp = s.sp := rfl
@[simp] theorem State.setCgr_ev (s : State) (r : Nat) (x : Region) : (s.setCgr r x).ev = s.ev := rfl
@[simp] theorem State.setCgr_hx (s : State) (r : Nat) (x : Region) : (s.setCgr r x).hx = s.hx := rfl
@[simp] theorem State.setCgr_arr (s : State) (r : Nat) (x : Region) : (s.setCgr r x).arr = s.arr := rfl
@[simp] theorem State.setCgr_qs (s : State) (r : Nat) (x : Region) : (s.setCgr r x).qs = s.qs := rfl
@[simp] theorem State.setCgr_sm (s : State) (r : Nat) (x : Region) : (s.setCgr r x).sm = s.sm := rfl
@[simp] theorem State.setCgr_net (s : State) (r : Nat) (x : Region) : (s.setCgr r x).net = s.net := rfl
@[simp] theorem State.setCgr_ft (s : State) (r : Nat) (x : Region) : (s.setCgr r x).ft = s.ft := rfl
@[simp] theorem State.setCgr_en (s : State) (r : Nat) (x : Region) : (s.setCgr r x).en = s.en := rfl
@[simp] theorem State.setCgr_fb (s : State) (r : Nat) (x : Region) : (s.setCgr r x).fb = s.fb := rfl
@[simp] theorem State.setCgr_fl (s : State) (r : Nat) (x : Region) : (s.setCgr r x).fl = s.fl := rfl
@[simp] theorem State.setCgr_ot (s : State) (r : Nat) (x : Region) : (s.setCgr r x).ot = s.ot := rfl
@[simp] theorem State.setCgr_sc (s : State) (r : Nat) (x : Region) : (s.setCgr r x).sc = s.sc := rfl
@[simp] theorem State.setCgr_cc (s : State) (r : Nat) (x : Region) : (s.setCgr r x).cc = s.cc := rfl
@[simp] theorem State.setCgr_rs (s : State) (r : Nat) (x : Region) : (s.setCgr r x).rs = s.rs := rfl
@[simp] theorem State.setCgr_hi (s : State) (r : Nat) (x : Region) : (s.setCgr r x).hi = s.hi := rfl
@[simp] theorem State.setCgr_lc (s : State) (r : Nat) (x : Region) : (s.setCgr r x).lc = s.lc := rfl
@[simp] theorem State.setCgr_faults (s : State) (r : Nat) (x : Region) : (s.setCgr r x).faults = s.faults := rfl
@[simp] theorem State.setCgr_out (s : State) (r : Nat) (x : Region) : (s.setCgr r x).out = s.out := rfl
@[simp] theorem State.setCgr_freeCtr (s : State) (r : Nat) (x : Region) : (s.setCgr r x).freeCtr = s.freeCtr := rfl
@[simp] theorem State.setCgr_pending (s : State) (r : Nat) (x : Region) : (s.setCgr r x).pending = s.pending := rfl

/-! State.withPending -/

@[simp] theorem State.withPending_regs (s : State) (q : List Instr) : (s.withPending q).regs = s.regs := rfl
@[simp] theorem State.withPending_mem (s : State) (q : List Instr) : (s.withPending q).mem = s.mem := rfl
@[simp] theorem State.withPending_syn (s : State) (q : List Instr) : (s.withPending q).syn = s.syn := rfl
@[simp] theorem State.withPending_yk (s : State) (q : List Instr) : (s.withPending q).yk = s.yk := rfl
@[simp] theorem State.withPending_mke (s : State) (q : List Instr) : (s.withPending q).mke = s.mke := rfl
@[simp] theorem State.withPending_cuffs (s : State) (q : List Instr) : (s.withPending q).cuffs = s.cuffs := rfl
@[simp] theorem State.withPending_edgeSeq (s : State) (q : List Instr) : (s.withPending q).edgeSeq = s.edgeSeq := rfl
@[simp] theorem State.withPending_sp (s : State) (q : List Instr) : (s.withPending q).sp = s.sp := rfl
@[simp] theorem State.withPending_ev (s : State) (q : List Instr) : (s.withPending q).ev = s.ev := rfl
@[simp] theorem State.withPending_hx (s : State) (q : List Instr) : (s.withPending q).hx = s.hx := rfl
@[simp] theorem State.withPending_arr (s : State) (q : List Instr) : (s.withPending q).arr = s.arr := rfl
@[simp] theorem State.withPending_qs (s : State) (q : List Instr) : (s.withPending q).qs = s.qs := rfl
@[simp] theorem State.withPending_sm (s : State) (q : List Instr) : (s.withPending q).sm = s.sm := rfl
@[simp] theorem State.withPending_net (s : State) (q : List Instr) : (s.withPending q).net = s.net := rfl
@[simp] theorem State.withPending_ft (s : State) (q : List Instr) : (s.withPending q).ft = s.ft := rfl
@[simp] theorem State.withPending_en (s : State) (q : List Instr) : (s.withPending q).en = s.en := rfl
@[simp] theorem State.withPending_fb (s : State) (q : List Instr) : (s.withPending q).fb = s.fb := rfl
@[simp] theorem State.withPending_cg (s : State) (q : List Instr) : (s.withPending q).cg = s.cg := rfl
@[simp] theorem State.withPending_fl (s : State) (q : List Instr) : (s.withPending q).fl = s.fl := rfl
@[simp] theorem State.withPending_ot (s : State) (q : List Instr) : (s.withPending q).ot = s.ot := rfl
@[simp] theorem State.withPending_sc (s : State) (q : List Instr) : (s.withPending q).sc = s.sc := rfl
@[simp] theorem State.withPending_cc (s : State) (q : List Instr) : (s.withPending q).cc = s.cc := rfl
@[simp] theorem State.withPending_rs (s : State) (q : List Instr) : (s.withPending q).rs = s.rs := rfl
@[simp] theorem State.withPending_hi (s : State) (q : List Instr) : (s.withPending q).hi = s.hi := rfl
@[simp] theorem State.withPending_lc (s : State) (q : List Instr) : (s.withPending q).lc = s.lc := rfl
@[simp] theorem State.withPending_faults (s : State) (q : List Instr) : (s.withPending q).faults = s.faults := rfl
@[simp] theorem State.withPending_out (s : State) (q : List Instr) : (s.withPending q).out = s.out := rfl
@[simp] theorem State.withPending_freeCtr (s : State) (q : List Instr) : (s.withPending q).freeCtr = s.freeCtr := rfl

/-! State.setQu -/

@[simp] theorem State.setQu_regs (s : State) (q : Nat) (x : Queue) : (s.setQu q x).regs = s.regs := rfl
@[simp] theorem State.setQu_mem (s : State) (q : Nat) (x : Queue) : (s.setQu q x).mem = s.mem := rfl
@[simp] theorem State.setQu_syn (s : State) (q : Nat) (x : Queue) : (s.setQu q x).syn = s.syn := rfl
@[simp] theorem State.setQu_yk (s : State) (q : Nat) (x : Queue) : (s.setQu q x).yk = s.yk := rfl
@[simp] theorem State.setQu_mke (s : State) (q : Nat) (x : Queue) : (s.setQu q x).mke = s.mke := rfl
@[simp] theorem State.setQu_cuffs (s : State) (q : Nat) (x : Queue) : (s.setQu q x).cuffs = s.cuffs := rfl
@[simp] theorem State.setQu_edgeSeq (s : State) (q : Nat) (x : Queue) : (s.setQu q x).edgeSeq = s.edgeSeq := rfl
@[simp] theorem State.setQu_sp (s : State) (q : Nat) (x : Queue) : (s.setQu q x).sp = s.sp := rfl
@[simp] theorem State.setQu_ev (s : State) (q : Nat) (x : Queue) : (s.setQu q x).ev = s.ev := rfl
@[simp] theorem State.setQu_hx (s : State) (q : Nat) (x : Queue) : (s.setQu q x).hx = s.hx := rfl
@[simp] theorem State.setQu_arr (s : State) (q : Nat) (x : Queue) : (s.setQu q x).arr = s.arr := rfl
@[simp] theorem State.setQu_sm (s : State) (q : Nat) (x : Queue) : (s.setQu q x).sm = s.sm := rfl
@[simp] theorem State.setQu_net (s : State) (q : Nat) (x : Queue) : (s.setQu q x).net = s.net := rfl
@[simp] theorem State.setQu_ft (s : State) (q : Nat) (x : Queue) : (s.setQu q x).ft = s.ft := rfl
@[simp] theorem State.setQu_en (s : State) (q : Nat) (x : Queue) : (s.setQu q x).en = s.en := rfl
@[simp] theorem State.setQu_fb (s : State) (q : Nat) (x : Queue) : (s.setQu q x).fb = s.fb := rfl
@[simp] theorem State.setQu_cg (s : State) (q : Nat) (x : Queue) : (s.setQu q x).cg = s.cg := rfl
@[simp] theorem State.setQu_fl (s : State) (q : Nat) (x : Queue) : (s.setQu q x).fl = s.fl := rfl
@[simp] theorem State.setQu_ot (s : State) (q : Nat) (x : Queue) : (s.setQu q x).ot = s.ot := rfl
@[simp] theorem State.setQu_sc (s : State) (q : Nat) (x : Queue) : (s.setQu q x).sc = s.sc := rfl
@[simp] theorem State.setQu_cc (s : State) (q : Nat) (x : Queue) : (s.setQu q x).cc = s.cc := rfl
@[simp] theorem State.setQu_rs (s : State) (q : Nat) (x : Queue) : (s.setQu q x).rs = s.rs := rfl
@[simp] theorem State.setQu_hi (s : State) (q : Nat) (x : Queue) : (s.setQu q x).hi = s.hi := rfl
@[simp] theorem State.setQu_lc (s : State) (q : Nat) (x : Queue) : (s.setQu q x).lc = s.lc := rfl
@[simp] theorem State.setQu_faults (s : State) (q : Nat) (x : Queue) : (s.setQu q x).faults = s.faults := rfl
@[simp] theorem State.setQu_out (s : State) (q : Nat) (x : Queue) : (s.setQu q x).out = s.out := rfl
@[simp] theorem State.setQu_freeCtr (s : State) (q : Nat) (x : Queue) : (s.setQu q x).freeCtr = s.freeCtr := rfl
@[simp] theorem State.setQu_pending (s : State) (q : Nat) (x : Queue) : (s.setQu q x).pending = s.pending := rfl

/-! State.setPe -/

@[simp] theorem State.setPe_regs (s : State) (i : Nat) (x : Pe) : (s.setPe i x).regs = s.regs := rfl
@[simp] theorem State.setPe_mem (s : State) (i : Nat) (x : Pe) : (s.setPe i x).mem = s.mem := rfl
@[simp] theorem State.setPe_syn (s : State) (i : Nat) (x : Pe) : (s.setPe i x).syn = s.syn := rfl
@[simp] theorem State.setPe_yk (s : State) (i : Nat) (x : Pe) : (s.setPe i x).yk = s.yk := rfl
@[simp] theorem State.setPe_mke (s : State) (i : Nat) (x : Pe) : (s.setPe i x).mke = s.mke := rfl
@[simp] theorem State.setPe_cuffs (s : State) (i : Nat) (x : Pe) : (s.setPe i x).cuffs = s.cuffs := rfl
@[simp] theorem State.setPe_edgeSeq (s : State) (i : Nat) (x : Pe) : (s.setPe i x).edgeSeq = s.edgeSeq := rfl
@[simp] theorem State.setPe_sp (s : State) (i : Nat) (x : Pe) : (s.setPe i x).sp = s.sp := rfl
@[simp] theorem State.setPe_ev (s : State) (i : Nat) (x : Pe) : (s.setPe i x).ev = s.ev := rfl
@[simp] theorem State.setPe_hx (s : State) (i : Nat) (x : Pe) : (s.setPe i x).hx = s.hx := rfl
@[simp] theorem State.setPe_qs (s : State) (i : Nat) (x : Pe) : (s.setPe i x).qs = s.qs := rfl
@[simp] theorem State.setPe_sm (s : State) (i : Nat) (x : Pe) : (s.setPe i x).sm = s.sm := rfl
@[simp] theorem State.setPe_net (s : State) (i : Nat) (x : Pe) : (s.setPe i x).net = s.net := rfl
@[simp] theorem State.setPe_ft (s : State) (i : Nat) (x : Pe) : (s.setPe i x).ft = s.ft := rfl
@[simp] theorem State.setPe_en (s : State) (i : Nat) (x : Pe) : (s.setPe i x).en = s.en := rfl
@[simp] theorem State.setPe_fb (s : State) (i : Nat) (x : Pe) : (s.setPe i x).fb = s.fb := rfl
@[simp] theorem State.setPe_cg (s : State) (i : Nat) (x : Pe) : (s.setPe i x).cg = s.cg := rfl
@[simp] theorem State.setPe_fl (s : State) (i : Nat) (x : Pe) : (s.setPe i x).fl = s.fl := rfl
@[simp] theorem State.setPe_ot (s : State) (i : Nat) (x : Pe) : (s.setPe i x).ot = s.ot := rfl
@[simp] theorem State.setPe_sc (s : State) (i : Nat) (x : Pe) : (s.setPe i x).sc = s.sc := rfl
@[simp] theorem State.setPe_cc (s : State) (i : Nat) (x : Pe) : (s.setPe i x).cc = s.cc := rfl
@[simp] theorem State.setPe_rs (s : State) (i : Nat) (x : Pe) : (s.setPe i x).rs = s.rs := rfl
@[simp] theorem State.setPe_hi (s : State) (i : Nat) (x : Pe) : (s.setPe i x).hi = s.hi := rfl
@[simp] theorem State.setPe_lc (s : State) (i : Nat) (x : Pe) : (s.setPe i x).lc = s.lc := rfl
@[simp] theorem State.setPe_faults (s : State) (i : Nat) (x : Pe) : (s.setPe i x).faults = s.faults := rfl
@[simp] theorem State.setPe_out (s : State) (i : Nat) (x : Pe) : (s.setPe i x).out = s.out := rfl
@[simp] theorem State.setPe_freeCtr (s : State) (i : Nat) (x : Pe) : (s.setPe i x).freeCtr = s.freeCtr := rfl
@[simp] theorem State.setPe_pending (s : State) (i : Nat) (x : Pe) : (s.setPe i x).pending = s.pending := rfl

/-! State.setPriv -/

@[simp] theorem State.setPriv_regs (s : State) (i p : Nat) (x : Priv) : (s.setPriv i p x).regs = s.regs := rfl
@[simp] theorem State.setPriv_mem (s : State) (i p : Nat) (x : Priv) : (s.setPriv i p x).mem = s.mem := rfl
@[simp] theorem State.setPriv_syn (s : State) (i p : Nat) (x : Priv) : (s.setPriv i p x).syn = s.syn := rfl
@[simp] theorem State.setPriv_yk (s : State) (i p : Nat) (x : Priv) : (s.setPriv i p x).yk = s.yk := rfl
@[simp] theorem State.setPriv_mke (s : State) (i p : Nat) (x : Priv) : (s.setPriv i p x).mke = s.mke := rfl
@[simp] theorem State.setPriv_cuffs (s : State) (i p : Nat) (x : Priv) : (s.setPriv i p x).cuffs = s.cuffs := rfl
@[simp] theorem State.setPriv_edgeSeq (s : State) (i p : Nat) (x : Priv) : (s.setPriv i p x).edgeSeq = s.edgeSeq := rfl
@[simp] theorem State.setPriv_sp (s : State) (i p : Nat) (x : Priv) : (s.setPriv i p x).sp = s.sp := rfl
@[simp] theorem State.setPriv_ev (s : State) (i p : Nat) (x : Priv) : (s.setPriv i p x).ev = s.ev := rfl
@[simp] theorem State.setPriv_hx (s : State) (i p : Nat) (x : Priv) : (s.setPriv i p x).hx = s.hx := rfl
@[simp] theorem State.setPriv_qs (s : State) (i p : Nat) (x : Priv) : (s.setPriv i p x).qs = s.qs := rfl
@[simp] theorem State.setPriv_sm (s : State) (i p : Nat) (x : Priv) : (s.setPriv i p x).sm = s.sm := rfl
@[simp] theorem State.setPriv_net (s : State) (i p : Nat) (x : Priv) : (s.setPriv i p x).net = s.net := rfl
@[simp] theorem State.setPriv_ft (s : State) (i p : Nat) (x : Priv) : (s.setPriv i p x).ft = s.ft := rfl
@[simp] theorem State.setPriv_en (s : State) (i p : Nat) (x : Priv) : (s.setPriv i p x).en = s.en := rfl
@[simp] theorem State.setPriv_fb (s : State) (i p : Nat) (x : Priv) : (s.setPriv i p x).fb = s.fb := rfl
@[simp] theorem State.setPriv_cg (s : State) (i p : Nat) (x : Priv) : (s.setPriv i p x).cg = s.cg := rfl
@[simp] theorem State.setPriv_fl (s : State) (i p : Nat) (x : Priv) : (s.setPriv i p x).fl = s.fl := rfl
@[simp] theorem State.setPriv_ot (s : State) (i p : Nat) (x : Priv) : (s.setPriv i p x).ot = s.ot := rfl
@[simp] theorem State.setPriv_sc (s : State) (i p : Nat) (x : Priv) : (s.setPriv i p x).sc = s.sc := rfl
@[simp] theorem State.setPriv_cc (s : State) (i p : Nat) (x : Priv) : (s.setPriv i p x).cc = s.cc := rfl
@[simp] theorem State.setPriv_rs (s : State) (i p : Nat) (x : Priv) : (s.setPriv i p x).rs = s.rs := rfl
@[simp] theorem State.setPriv_hi (s : State) (i p : Nat) (x : Priv) : (s.setPriv i p x).hi = s.hi := rfl
@[simp] theorem State.setPriv_lc (s : State) (i p : Nat) (x : Priv) : (s.setPriv i p x).lc = s.lc := rfl
@[simp] theorem State.setPriv_faults (s : State) (i p : Nat) (x : Priv) : (s.setPriv i p x).faults = s.faults := rfl
@[simp] theorem State.setPriv_out (s : State) (i p : Nat) (x : Priv) : (s.setPriv i p x).out = s.out := rfl
@[simp] theorem State.setPriv_freeCtr (s : State) (i p : Nat) (x : Priv) : (s.setPriv i p x).freeCtr = s.freeCtr := rfl
@[simp] theorem State.setPriv_pending (s : State) (i p : Nat) (x : Priv) : (s.setPriv i p x).pending = s.pending := rfl

/-! State.setCsr -/

@[simp] theorem State.setCsr_regs (s : State) (n : Nat) (v : Word) : (s.setCsr n v).regs = s.regs := rfl
@[simp] theorem State.setCsr_mem (s : State) (n : Nat) (v : Word) : (s.setCsr n v).mem = s.mem := rfl
@[simp] theorem State.setCsr_syn (s : State) (n : Nat) (v : Word) : (s.setCsr n v).syn = s.syn := rfl
@[simp] theorem State.setCsr_yk (s : State) (n : Nat) (v : Word) : (s.setCsr n v).yk = s.yk := rfl
@[simp] theorem State.setCsr_mke (s : State) (n : Nat) (v : Word) : (s.setCsr n v).mke = s.mke := rfl
@[simp] theorem State.setCsr_cuffs (s : State) (n : Nat) (v : Word) : (s.setCsr n v).cuffs = s.cuffs := rfl
@[simp] theorem State.setCsr_edgeSeq (s : State) (n : Nat) (v : Word) : (s.setCsr n v).edgeSeq = s.edgeSeq := rfl
@[simp] theorem State.setCsr_sp (s : State) (n : Nat) (v : Word) : (s.setCsr n v).sp = s.sp := rfl
@[simp] theorem State.setCsr_ev (s : State) (n : Nat) (v : Word) : (s.setCsr n v).ev = s.ev := rfl
@[simp] theorem State.setCsr_hx (s : State) (n : Nat) (v : Word) : (s.setCsr n v).hx = s.hx := rfl
@[simp] theorem State.setCsr_arr (s : State) (n : Nat) (v : Word) : (s.setCsr n v).arr = s.arr := rfl
@[simp] theorem State.setCsr_qs (s : State) (n : Nat) (v : Word) : (s.setCsr n v).qs = s.qs := rfl
@[simp] theorem State.setCsr_sm (s : State) (n : Nat) (v : Word) : (s.setCsr n v).sm = s.sm := rfl
@[simp] theorem State.setCsr_net (s : State) (n : Nat) (v : Word) : (s.setCsr n v).net = s.net := rfl
@[simp] theorem State.setCsr_ft (s : State) (n : Nat) (v : Word) : (s.setCsr n v).ft = s.ft := rfl
@[simp] theorem State.setCsr_en (s : State) (n : Nat) (v : Word) : (s.setCsr n v).en = s.en := rfl
@[simp] theorem State.setCsr_fb (s : State) (n : Nat) (v : Word) : (s.setCsr n v).fb = s.fb := rfl
@[simp] theorem State.setCsr_cg (s : State) (n : Nat) (v : Word) : (s.setCsr n v).cg = s.cg := rfl
@[simp] theorem State.setCsr_fl (s : State) (n : Nat) (v : Word) : (s.setCsr n v).fl = s.fl := rfl
@[simp] theorem State.setCsr_ot (s : State) (n : Nat) (v : Word) : (s.setCsr n v).ot = s.ot := rfl
@[simp] theorem State.setCsr_sc (s : State) (n : Nat) (v : Word) : (s.setCsr n v).sc = s.sc := rfl
@[simp] theorem State.setCsr_rs (s : State) (n : Nat) (v : Word) : (s.setCsr n v).rs = s.rs := rfl
@[simp] theorem State.setCsr_hi (s : State) (n : Nat) (v : Word) : (s.setCsr n v).hi = s.hi := rfl
@[simp] theorem State.setCsr_lc (s : State) (n : Nat) (v : Word) : (s.setCsr n v).lc = s.lc := rfl
@[simp] theorem State.setCsr_faults (s : State) (n : Nat) (v : Word) : (s.setCsr n v).faults = s.faults := rfl
@[simp] theorem State.setCsr_out (s : State) (n : Nat) (v : Word) : (s.setCsr n v).out = s.out := rfl
@[simp] theorem State.setCsr_freeCtr (s : State) (n : Nat) (v : Word) : (s.setCsr n v).freeCtr = s.freeCtr := rfl
@[simp] theorem State.setCsr_pending (s : State) (n : Nat) (v : Word) : (s.setCsr n v).pending = s.pending := rfl

/-! State.setPc -/

@[simp] theorem State.setPc_regs (s : State) (v : Word) : (s.setPc v).regs = s.regs := rfl
@[simp] theorem State.setPc_mem (s : State) (v : Word) : (s.setPc v).mem = s.mem := rfl
@[simp] theorem State.setPc_syn (s : State) (v : Word) : (s.setPc v).syn = s.syn := rfl
@[simp] theorem State.setPc_yk (s : State) (v : Word) : (s.setPc v).yk = s.yk := rfl
@[simp] theorem State.setPc_mke (s : State) (v : Word) : (s.setPc v).mke = s.mke := rfl
@[simp] theorem State.setPc_cuffs (s : State) (v : Word) : (s.setPc v).cuffs = s.cuffs := rfl
@[simp] theorem State.setPc_edgeSeq (s : State) (v : Word) : (s.setPc v).edgeSeq = s.edgeSeq := rfl
@[simp] theorem State.setPc_sp (s : State) (v : Word) : (s.setPc v).sp = s.sp := rfl
@[simp] theorem State.setPc_ev (s : State) (v : Word) : (s.setPc v).ev = s.ev := rfl
@[simp] theorem State.setPc_hx (s : State) (v : Word) : (s.setPc v).hx = s.hx := rfl
@[simp] theorem State.setPc_arr (s : State) (v : Word) : (s.setPc v).arr = s.arr := rfl
@[simp] theorem State.setPc_qs (s : State) (v : Word) : (s.setPc v).qs = s.qs := rfl
@[simp] theorem State.setPc_sm (s : State) (v : Word) : (s.setPc v).sm = s.sm := rfl
@[simp] theorem State.setPc_net (s : State) (v : Word) : (s.setPc v).net = s.net := rfl
@[simp] theorem State.setPc_ft (s : State) (v : Word) : (s.setPc v).ft = s.ft := rfl
@[simp] theorem State.setPc_en (s : State) (v : Word) : (s.setPc v).en = s.en := rfl
@[simp] theorem State.setPc_fb (s : State) (v : Word) : (s.setPc v).fb = s.fb := rfl
@[simp] theorem State.setPc_cg (s : State) (v : Word) : (s.setPc v).cg = s.cg := rfl
@[simp] theorem State.setPc_fl (s : State) (v : Word) : (s.setPc v).fl = s.fl := rfl
@[simp] theorem State.setPc_ot (s : State) (v : Word) : (s.setPc v).ot = s.ot := rfl
@[simp] theorem State.setPc_sc (s : State) (v : Word) : (s.setPc v).sc = s.sc := rfl
@[simp] theorem State.setPc_rs (s : State) (v : Word) : (s.setPc v).rs = s.rs := rfl
@[simp] theorem State.setPc_hi (s : State) (v : Word) : (s.setPc v).hi = s.hi := rfl
@[simp] theorem State.setPc_lc (s : State) (v : Word) : (s.setPc v).lc = s.lc := rfl
@[simp] theorem State.setPc_faults (s : State) (v : Word) : (s.setPc v).faults = s.faults := rfl
@[simp] theorem State.setPc_out (s : State) (v : Word) : (s.setPc v).out = s.out := rfl
@[simp] theorem State.setPc_freeCtr (s : State) (v : Word) : (s.setPc v).freeCtr = s.freeCtr := rfl
@[simp] theorem State.setPc_pending (s : State) (v : Word) : (s.setPc v).pending = s.pending := rfl

/-! State.setMacc -/

@[simp] theorem State.setMacc_regs (s : State) (k : Nat) (v : BitVec 72) : (s.setMacc k v).regs = s.regs := rfl
@[simp] theorem State.setMacc_mem (s : State) (k : Nat) (v : BitVec 72) : (s.setMacc k v).mem = s.mem := rfl
@[simp] theorem State.setMacc_syn (s : State) (k : Nat) (v : BitVec 72) : (s.setMacc k v).syn = s.syn := rfl
@[simp] theorem State.setMacc_yk (s : State) (k : Nat) (v : BitVec 72) : (s.setMacc k v).yk = s.yk := rfl
@[simp] theorem State.setMacc_mke (s : State) (k : Nat) (v : BitVec 72) : (s.setMacc k v).mke = s.mke := rfl
@[simp] theorem State.setMacc_cuffs (s : State) (k : Nat) (v : BitVec 72) : (s.setMacc k v).cuffs = s.cuffs := rfl
@[simp] theorem State.setMacc_edgeSeq (s : State) (k : Nat) (v : BitVec 72) : (s.setMacc k v).edgeSeq = s.edgeSeq := rfl
@[simp] theorem State.setMacc_sp (s : State) (k : Nat) (v : BitVec 72) : (s.setMacc k v).sp = s.sp := rfl
@[simp] theorem State.setMacc_ev (s : State) (k : Nat) (v : BitVec 72) : (s.setMacc k v).ev = s.ev := rfl
@[simp] theorem State.setMacc_hx (s : State) (k : Nat) (v : BitVec 72) : (s.setMacc k v).hx = s.hx := rfl
@[simp] theorem State.setMacc_arr (s : State) (k : Nat) (v : BitVec 72) : (s.setMacc k v).arr = s.arr := rfl
@[simp] theorem State.setMacc_qs (s : State) (k : Nat) (v : BitVec 72) : (s.setMacc k v).qs = s.qs := rfl
@[simp] theorem State.setMacc_sm (s : State) (k : Nat) (v : BitVec 72) : (s.setMacc k v).sm = s.sm := rfl
@[simp] theorem State.setMacc_net (s : State) (k : Nat) (v : BitVec 72) : (s.setMacc k v).net = s.net := rfl
@[simp] theorem State.setMacc_ft (s : State) (k : Nat) (v : BitVec 72) : (s.setMacc k v).ft = s.ft := rfl
@[simp] theorem State.setMacc_en (s : State) (k : Nat) (v : BitVec 72) : (s.setMacc k v).en = s.en := rfl
@[simp] theorem State.setMacc_fb (s : State) (k : Nat) (v : BitVec 72) : (s.setMacc k v).fb = s.fb := rfl
@[simp] theorem State.setMacc_cg (s : State) (k : Nat) (v : BitVec 72) : (s.setMacc k v).cg = s.cg := rfl
@[simp] theorem State.setMacc_fl (s : State) (k : Nat) (v : BitVec 72) : (s.setMacc k v).fl = s.fl := rfl
@[simp] theorem State.setMacc_ot (s : State) (k : Nat) (v : BitVec 72) : (s.setMacc k v).ot = s.ot := rfl
@[simp] theorem State.setMacc_sc (s : State) (k : Nat) (v : BitVec 72) : (s.setMacc k v).sc = s.sc := rfl
@[simp] theorem State.setMacc_rs (s : State) (k : Nat) (v : BitVec 72) : (s.setMacc k v).rs = s.rs := rfl
@[simp] theorem State.setMacc_hi (s : State) (k : Nat) (v : BitVec 72) : (s.setMacc k v).hi = s.hi := rfl
@[simp] theorem State.setMacc_lc (s : State) (k : Nat) (v : BitVec 72) : (s.setMacc k v).lc = s.lc := rfl
@[simp] theorem State.setMacc_faults (s : State) (k : Nat) (v : BitVec 72) : (s.setMacc k v).faults = s.faults := rfl
@[simp] theorem State.setMacc_out (s : State) (k : Nat) (v : BitVec 72) : (s.setMacc k v).out = s.out := rfl
@[simp] theorem State.setMacc_freeCtr (s : State) (k : Nat) (v : BitVec 72) : (s.setMacc k v).freeCtr = s.freeCtr := rfl
@[simp] theorem State.setMacc_pending (s : State) (k : Nat) (v : BitVec 72) : (s.setMacc k v).pending = s.pending := rfl

/-! State.setNq -/

@[simp] theorem State.setNq_regs (s : State) (k : QKey) (l : List NetUnit) : (s.setNq k l).regs = s.regs := rfl
@[simp] theorem State.setNq_mem (s : State) (k : QKey) (l : List NetUnit) : (s.setNq k l).mem = s.mem := rfl
@[simp] theorem State.setNq_syn (s : State) (k : QKey) (l : List NetUnit) : (s.setNq k l).syn = s.syn := rfl
@[simp] theorem State.setNq_yk (s : State) (k : QKey) (l : List NetUnit) : (s.setNq k l).yk = s.yk := rfl
@[simp] theorem State.setNq_mke (s : State) (k : QKey) (l : List NetUnit) : (s.setNq k l).mke = s.mke := rfl
@[simp] theorem State.setNq_cuffs (s : State) (k : QKey) (l : List NetUnit) : (s.setNq k l).cuffs = s.cuffs := rfl
@[simp] theorem State.setNq_edgeSeq (s : State) (k : QKey) (l : List NetUnit) : (s.setNq k l).edgeSeq = s.edgeSeq := rfl
@[simp] theorem State.setNq_sp (s : State) (k : QKey) (l : List NetUnit) : (s.setNq k l).sp = s.sp := rfl
@[simp] theorem State.setNq_ev (s : State) (k : QKey) (l : List NetUnit) : (s.setNq k l).ev = s.ev := rfl
@[simp] theorem State.setNq_hx (s : State) (k : QKey) (l : List NetUnit) : (s.setNq k l).hx = s.hx := rfl
@[simp] theorem State.setNq_arr (s : State) (k : QKey) (l : List NetUnit) : (s.setNq k l).arr = s.arr := rfl
@[simp] theorem State.setNq_qs (s : State) (k : QKey) (l : List NetUnit) : (s.setNq k l).qs = s.qs := rfl
@[simp] theorem State.setNq_sm (s : State) (k : QKey) (l : List NetUnit) : (s.setNq k l).sm = s.sm := rfl
@[simp] theorem State.setNq_ft (s : State) (k : QKey) (l : List NetUnit) : (s.setNq k l).ft = s.ft := rfl
@[simp] theorem State.setNq_en (s : State) (k : QKey) (l : List NetUnit) : (s.setNq k l).en = s.en := rfl
@[simp] theorem State.setNq_fb (s : State) (k : QKey) (l : List NetUnit) : (s.setNq k l).fb = s.fb := rfl
@[simp] theorem State.setNq_cg (s : State) (k : QKey) (l : List NetUnit) : (s.setNq k l).cg = s.cg := rfl
@[simp] theorem State.setNq_fl (s : State) (k : QKey) (l : List NetUnit) : (s.setNq k l).fl = s.fl := rfl
@[simp] theorem State.setNq_ot (s : State) (k : QKey) (l : List NetUnit) : (s.setNq k l).ot = s.ot := rfl
@[simp] theorem State.setNq_sc (s : State) (k : QKey) (l : List NetUnit) : (s.setNq k l).sc = s.sc := rfl
@[simp] theorem State.setNq_cc (s : State) (k : QKey) (l : List NetUnit) : (s.setNq k l).cc = s.cc := rfl
@[simp] theorem State.setNq_rs (s : State) (k : QKey) (l : List NetUnit) : (s.setNq k l).rs = s.rs := rfl
@[simp] theorem State.setNq_hi (s : State) (k : QKey) (l : List NetUnit) : (s.setNq k l).hi = s.hi := rfl
@[simp] theorem State.setNq_lc (s : State) (k : QKey) (l : List NetUnit) : (s.setNq k l).lc = s.lc := rfl
@[simp] theorem State.setNq_faults (s : State) (k : QKey) (l : List NetUnit) : (s.setNq k l).faults = s.faults := rfl
@[simp] theorem State.setNq_out (s : State) (k : QKey) (l : List NetUnit) : (s.setNq k l).out = s.out := rfl
@[simp] theorem State.setNq_freeCtr (s : State) (k : QKey) (l : List NetUnit) : (s.setNq k l).freeCtr = s.freeCtr := rfl
@[simp] theorem State.setNq_pending (s : State) (k : QKey) (l : List NetUnit) : (s.setNq k l).pending = s.pending := rfl

/-! State.setWaiting -/

@[simp] theorem State.setWaiting_regs (s : State) (k : QKey) (l : List NetUnit) : (s.setWaiting k l).regs = s.regs := rfl
@[simp] theorem State.setWaiting_mem (s : State) (k : QKey) (l : List NetUnit) : (s.setWaiting k l).mem = s.mem := rfl
@[simp] theorem State.setWaiting_syn (s : State) (k : QKey) (l : List NetUnit) : (s.setWaiting k l).syn = s.syn := rfl
@[simp] theorem State.setWaiting_yk (s : State) (k : QKey) (l : List NetUnit) : (s.setWaiting k l).yk = s.yk := rfl
@[simp] theorem State.setWaiting_mke (s : State) (k : QKey) (l : List NetUnit) : (s.setWaiting k l).mke = s.mke := rfl
@[simp] theorem State.setWaiting_cuffs (s : State) (k : QKey) (l : List NetUnit) : (s.setWaiting k l).cuffs = s.cuffs := rfl
@[simp] theorem State.setWaiting_edgeSeq (s : State) (k : QKey) (l : List NetUnit) : (s.setWaiting k l).edgeSeq = s.edgeSeq := rfl
@[simp] theorem State.setWaiting_sp (s : State) (k : QKey) (l : List NetUnit) : (s.setWaiting k l).sp = s.sp := rfl
@[simp] theorem State.setWaiting_ev (s : State) (k : QKey) (l : List NetUnit) : (s.setWaiting k l).ev = s.ev := rfl
@[simp] theorem State.setWaiting_hx (s : State) (k : QKey) (l : List NetUnit) : (s.setWaiting k l).hx = s.hx := rfl
@[simp] theorem State.setWaiting_arr (s : State) (k : QKey) (l : List NetUnit) : (s.setWaiting k l).arr = s.arr := rfl
@[simp] theorem State.setWaiting_qs (s : State) (k : QKey) (l : List NetUnit) : (s.setWaiting k l).qs = s.qs := rfl
@[simp] theorem State.setWaiting_sm (s : State) (k : QKey) (l : List NetUnit) : (s.setWaiting k l).sm = s.sm := rfl
@[simp] theorem State.setWaiting_ft (s : State) (k : QKey) (l : List NetUnit) : (s.setWaiting k l).ft = s.ft := rfl
@[simp] theorem State.setWaiting_en (s : State) (k : QKey) (l : List NetUnit) : (s.setWaiting k l).en = s.en := rfl
@[simp] theorem State.setWaiting_fb (s : State) (k : QKey) (l : List NetUnit) : (s.setWaiting k l).fb = s.fb := rfl
@[simp] theorem State.setWaiting_cg (s : State) (k : QKey) (l : List NetUnit) : (s.setWaiting k l).cg = s.cg := rfl
@[simp] theorem State.setWaiting_fl (s : State) (k : QKey) (l : List NetUnit) : (s.setWaiting k l).fl = s.fl := rfl
@[simp] theorem State.setWaiting_ot (s : State) (k : QKey) (l : List NetUnit) : (s.setWaiting k l).ot = s.ot := rfl
@[simp] theorem State.setWaiting_sc (s : State) (k : QKey) (l : List NetUnit) : (s.setWaiting k l).sc = s.sc := rfl
@[simp] theorem State.setWaiting_cc (s : State) (k : QKey) (l : List NetUnit) : (s.setWaiting k l).cc = s.cc := rfl
@[simp] theorem State.setWaiting_rs (s : State) (k : QKey) (l : List NetUnit) : (s.setWaiting k l).rs = s.rs := rfl
@[simp] theorem State.setWaiting_hi (s : State) (k : QKey) (l : List NetUnit) : (s.setWaiting k l).hi = s.hi := rfl
@[simp] theorem State.setWaiting_lc (s : State) (k : QKey) (l : List NetUnit) : (s.setWaiting k l).lc = s.lc := rfl
@[simp] theorem State.setWaiting_faults (s : State) (k : QKey) (l : List NetUnit) : (s.setWaiting k l).faults = s.faults := rfl
@[simp] theorem State.setWaiting_out (s : State) (k : QKey) (l : List NetUnit) : (s.setWaiting k l).out = s.out := rfl
@[simp] theorem State.setWaiting_freeCtr (s : State) (k : QKey) (l : List NetUnit) : (s.setWaiting k l).freeCtr = s.freeCtr := rfl
@[simp] theorem State.setWaiting_pending (s : State) (k : QKey) (l : List NetUnit) : (s.setWaiting k l).pending = s.pending := rfl

/-! State.strapAt -/

@[simp] theorem State.strapAt_regs (s : State) (x : BitVec 4) : (s.strapAt x).regs = s.regs := rfl
@[simp] theorem State.strapAt_mem (s : State) (x : BitVec 4) : (s.strapAt x).mem = s.mem := rfl
@[simp] theorem State.strapAt_syn (s : State) (x : BitVec 4) : (s.strapAt x).syn = s.syn := rfl
@[simp] theorem State.strapAt_yk (s : State) (x : BitVec 4) : (s.strapAt x).yk = s.yk := rfl
@[simp] theorem State.strapAt_mke (s : State) (x : BitVec 4) : (s.strapAt x).mke = s.mke := rfl
@[simp] theorem State.strapAt_cuffs (s : State) (x : BitVec 4) : (s.strapAt x).cuffs = s.cuffs := rfl
@[simp] theorem State.strapAt_edgeSeq (s : State) (x : BitVec 4) : (s.strapAt x).edgeSeq = s.edgeSeq := rfl
@[simp] theorem State.strapAt_sp (s : State) (x : BitVec 4) : (s.strapAt x).sp = s.sp := rfl
@[simp] theorem State.strapAt_ev (s : State) (x : BitVec 4) : (s.strapAt x).ev = s.ev := rfl
@[simp] theorem State.strapAt_hx (s : State) (x : BitVec 4) : (s.strapAt x).hx = s.hx := rfl
@[simp] theorem State.strapAt_arr (s : State) (x : BitVec 4) : (s.strapAt x).arr = s.arr := rfl
@[simp] theorem State.strapAt_qs (s : State) (x : BitVec 4) : (s.strapAt x).qs = s.qs := rfl
@[simp] theorem State.strapAt_sm (s : State) (x : BitVec 4) : (s.strapAt x).sm = s.sm := rfl
@[simp] theorem State.strapAt_net (s : State) (x : BitVec 4) : (s.strapAt x).net = s.net := rfl
@[simp] theorem State.strapAt_ft (s : State) (x : BitVec 4) : (s.strapAt x).ft = s.ft := rfl
@[simp] theorem State.strapAt_en (s : State) (x : BitVec 4) : (s.strapAt x).en = s.en := rfl
@[simp] theorem State.strapAt_fb (s : State) (x : BitVec 4) : (s.strapAt x).fb = s.fb := rfl
@[simp] theorem State.strapAt_cg (s : State) (x : BitVec 4) : (s.strapAt x).cg = s.cg := rfl
@[simp] theorem State.strapAt_fl (s : State) (x : BitVec 4) : (s.strapAt x).fl = s.fl := rfl
@[simp] theorem State.strapAt_ot (s : State) (x : BitVec 4) : (s.strapAt x).ot = s.ot := rfl
@[simp] theorem State.strapAt_sc (s : State) (x : BitVec 4) : (s.strapAt x).sc = s.sc := rfl
@[simp] theorem State.strapAt_cc (s : State) (x : BitVec 4) : (s.strapAt x).cc = s.cc := rfl
@[simp] theorem State.strapAt_hi (s : State) (x : BitVec 4) : (s.strapAt x).hi = s.hi := rfl
@[simp] theorem State.strapAt_lc (s : State) (x : BitVec 4) : (s.strapAt x).lc = s.lc := rfl
@[simp] theorem State.strapAt_faults (s : State) (x : BitVec 4) : (s.strapAt x).faults = s.faults := rfl
@[simp] theorem State.strapAt_out (s : State) (x : BitVec 4) : (s.strapAt x).out = s.out := rfl
@[simp] theorem State.strapAt_freeCtr (s : State) (x : BitVec 4) : (s.strapAt x).freeCtr = s.freeCtr := rfl
@[simp] theorem State.strapAt_pending (s : State) (x : BitVec 4) : (s.strapAt x).pending = s.pending := rfl

/-! What an update sets -/

@[simp] theorem State.rg_setRg_self (s : State) (a : Nat) (v : Word) : (s.setRg a v).rg a = v := by
  simp [State.rg, State.setRg]
@[simp] theorem State.rg_setRg_ne (s : State) {a b : Nat} (v : Word) (h : b ≠ a) : (s.setRg a v).rg b = s.rg b := by
  simp [State.rg, State.setRg, h]
theorem State.rg_setRg (s : State) (a b : Nat) (v : Word) : (s.setRg a v).rg b = if b = a then v else s.rg b := by
  simp [State.rg, State.setRg, Tab.get_put]
@[simp] theorem State.emit_out (s : State) (o : Out) : (s.emit o).out = s.out ++ [o] := rfl
@[simp] theorem State.tick_freeCtr (s : State) : s.tick.freeCtr = s.freeCtr + 1 := rfl
@[simp] theorem State.withPending_pending (s : State) (q : List Instr) : (s.withPending q).pending = q := rfl
@[simp] theorem State.ax_setAx_self (s : State) (n : Nat) (x : Axis) : (s.setAx n x).ax n = x := by simp [State.ax, State.setAx]
@[simp] theorem State.ax_setAx_ne (s : State) {n m : Nat} (x : Axis) (h : m ≠ n) : (s.setAx n x).ax m = s.ax m := by
  simp [State.ax, State.setAx, h]
@[simp] theorem State.mark_setMark_self (s : State) (n : Nat) (x : Mark) : (s.setMark n x).mark n = x := by
  simp [State.mark, State.setMark]
@[simp] theorem State.mark_setMark_ne (s : State) {n m : Nat} (x : Mark) (h : m ≠ n) : (s.setMark n x).mark m = s.mark m := by
  simp [State.mark, State.setMark, h]
@[simp] theorem State.cuff_setCuff_self (s : State) (n : Nat) (x : Cuff) : (s.setCuff n x).cuff n = x := by
  simp [State.cuff, State.setCuff]
@[simp] theorem State.cuff_setCuff_ne (s : State) {n m : Nat} (x : Cuff) (h : m ≠ n) : (s.setCuff n x).cuff m = s.cuff m := by
  simp [State.cuff, State.setCuff, h]

@[simp] theorem State.qu_setQu_self (s : State) (q : Nat) (x : Queue) : (s.setQu q x).qu q = x := by simp [State.qu, State.setQu]
@[simp] theorem State.qu_setQu_ne (s : State) {q r : Nat} (x : Queue) (h : r ≠ q) : (s.setQu q x).qu r = s.qu r := by
  simp [State.qu, State.setQu, h]
@[simp] theorem State.csr_setCsr_self (s : State) (n : Nat) (v : Word) : (s.setCsr n v).csr n = v := by simp [State.csr, State.setCsr]
@[simp] theorem State.csr_setCsr_ne (s : State) {n m : Nat} (v : Word) (h : m ≠ n) : (s.setCsr n v).csr m = s.csr m := by
  simp [State.csr, State.setCsr, h]
@[simp] theorem State.setPc_pc (s : State) (v : Word) : (s.setPc v).cc.pc = v := rfl
@[simp] theorem State.macc_setMacc_self (s : State) (k : Nat) (v : BitVec 72) : (s.setMacc k v).macc k = v := by
  simp [State.macc, State.setMacc]
@[simp] theorem State.strapAt_straps (s : State) (x : BitVec 4) : (s.strapAt x).rs.straps = x := rfl

/-- A read of registers depends on the registers alone. -/
theorem State.rg_of_regs {s t : State} (h : t.regs = s.regs) (a : Nat) : t.rg a = s.rg a := by simp [State.rg, h]
theorem State.byteAt_of_mem {s t : State} (h : t.mem = s.mem) (a : Nat) : t.byteAt a = s.byteAt a := by simp [State.byteAt, h]
theorem State.synAt_of_syn {s t : State} (h : t.syn = s.syn) (a : Nat) : t.synAt a = s.synAt a := by simp [State.synAt, h]

theorem testBit_andNot (x m i : Nat) : (andNot x m).testBit i = (x.testBit i && !m.testBit i) := by
  unfold andNot
  induction i generalizing x m with
  | zero =>
    have h1 : (x &&& m) ≤ x := Nat.and_le_left
    have h2 : (x &&& m) % 2 = (x % 2) &&& (m % 2) := Nat.and_mod_two_pow (n := 1)
    have e : (x - (x &&& m)) % 2 = 1 ↔ (x % 2 = 1 ∧ ¬ m % 2 = 1) := by
      rcases Nat.mod_two_eq_zero_or_one x with hx | hx <;> rcases Nat.mod_two_eq_zero_or_one m with hm | hm <;>
        rw [hx, hm] at h2 <;> simp only [Nat.and_self, Nat.zero_and, Nat.and_zero] at h2 <;> omega
    simp only [Nat.testBit_zero, e, Bool.decide_and, decide_not]
  | succ i ih =>
    rw [Nat.testBit_succ, Nat.testBit_succ, Nat.testBit_succ, ← ih]
    congr 1
    have h1 : (x &&& m) ≤ x := Nat.and_le_left
    have h2 : (x &&& m) % 2 = (x % 2) &&& (m % 2) := Nat.and_mod_two_pow (n := 1)
    have h3 : (x &&& m) / 2 = (x / 2) &&& (m / 2) := Nat.and_div_two
    rcases Nat.mod_two_eq_zero_or_one x with hx | hx <;> rcases Nat.mod_two_eq_zero_or_one m with hm | hm <;>
      simp only [hx, hm] at h2 <;> simp at h2 <;> omega

theorem andNot_or (x m : Nat) : andNot x m ||| (x &&& m) = x := by
  apply Nat.eq_of_testBit_eq
  intro i
  simp only [Nat.testBit_or, testBit_andNot, Nat.testBit_and]
  cases x.testBit i <;> cases m.testBit i <;> rfl
/-- A reset leaves a register that stands at its reset value. -/
theorem clearReg_reset (r : Reach) (a : Nat) : clearReg r a (regReset a) = regReset a := by
  unfold clearReg
  split
  · simp only [andNot_or, w32, BitVec.ofNat_toNat, BitVec.setWidth_eq]
  · rfl
/-- A reset of a range returns the fields of its reach there, and nothing elsewhere (R6). -/
theorem State.rg_clearRegs (s : State) (r : Reach) (lo hi a : Nat) :
    (s.clearRegs r lo hi).rg a = if lo ≤ a ∧ a < hi then clearReg r a (s.rg a) else s.rg a :=
  Tab.get_mapKeep regReset (fun a v => if lo ≤ a ∧ a < hi then clearReg r a v else v) s.regs a
    (by split <;> simp [clearReg_reset])

end Sys2Proof.Machine
end

