-- ==== Sys2Proof/Laws/Events.lean ====
section
/-! SUPPORT. The shape of what the event unit does: which parts of the state a raised event can change. -/

namespace Sys2Proof.Machine

/-- A state that differs from another in registers, event unit and what left the part alone. -/
def State.EvShape (s t : State) : Prop := ∃ r e o, t = { s with regs := r, ev := e, out := o }

theorem State.EvShape.refl (s : State) : s.EvShape s := ⟨s.regs, s.ev, s.out, rfl⟩

theorem State.EvShape.trans {s t u : State} (h : s.EvShape t) (k : t.EvShape u) : s.EvShape u := by
  obtain ⟨r, e, o, rfl⟩ := h
  obtain ⟨r2, e2, o2, rfl⟩ := k
  exact ⟨r2, e2, o2, rfl⟩

theorem State.setRg_evShape (s : State) (a : Nat) (v : Word) : s.EvShape (s.setRg a v) := ⟨_, s.ev, s.out, rfl⟩
theorem State.emit_evShape (s : State) (o : Out) : s.EvShape (s.emit o) := ⟨s.regs, s.ev, _, rfl⟩
theorem State.setRing_evShape (s : State) (r : Nat) (x : EvRing) : s.EvShape (s.setRing r x) := ⟨s.regs, _, s.out, rfl⟩

theorem State.sendMsix_evShape (s : State) (v : Nat) : s.EvShape (s.sendMsix v) := by
  unfold State.sendMsix
  split
  · exact s.setRg_evShape _ _
  · exact s.emit_evShape _

theorem State.ringWrite_evShape (s : State) (r src : Nat) (coal : Bool) (d : EvData) : s.EvShape (s.ringWrite r src coal d) := by
  unfold State.ringWrite
  dsimp only
  split
  · exact (((s.emit_evShape _).trans (State.setRg_evShape _ _ _)).trans (State.setRing_evShape _ _ _)).trans
      (State.sendMsix_evShape _ _)
  · exact ((s.emit_evShape _).trans (State.setRg_evShape _ _ _)).trans (State.setRing_evShape _ _ _)

theorem State.tryRecord_evShape (s : State) (src : Nat) (d : EvData) : s.EvShape (s.tryRecord src d).1 := by
  unfold State.tryRecord
  dsimp only
  split
  · exact (s.ringWrite_evShape _ _ _ _).trans ⟨_, _, _, rfl⟩
  · exact s.setRg_evShape _ _

theorem State.addCoal_evShape (s : State) (src : Nat) : s.EvShape (s.addCoal src) := by
  unfold State.addCoal
  split
  · exact .refl s
  · exact ⟨s.regs, _, s.out, rfl⟩

theorem State.record_evShape (s : State) (src : Nat) (d : EvData) : s.EvShape (s.record src d) := by
  unfold State.record
  split
  · have h := s.tryRecord_evShape src d
    dsimp only
    split
    · split
      · exact h.trans (State.setRg_evShape _ _ _)
      · exact h
    · exact h
  · exact .refl s

theorem State.each_evShape (f : Nat → State → State) (hf : ∀ i t, State.EvShape t (f i t)) (l : List Nat) (s : State) :
    s.EvShape (s.each l f) := by
  unfold State.each
  induction l generalizing s with
  | nil => exact .refl s
  | cons i l ih => exact (hf i s).trans (ih (f i s))

/-- Raising events writes registers, the event unit and what leaves the part, and nothing else. -/
theorem State.raise_evShape (s : State) (a m : Nat) : s.EvShape (s.raise a m) := by
  unfold State.raise
  dsimp only
  split
  · exact s.setRg_evShape _ _
  · refine (s.setRg_evShape _ _).trans (State.each_evShape _ (fun i t => ?_) _ _)
    split
    · exact t.addCoal_evShape _
    · exact t.record_evShape _ _

theorem State.raiseF_evShape (s : State) (a : Nat) (f : Fld) : s.EvShape (s.raiseF a f) := s.raise_evShape _ _

theorem State.raiseWith_evShape (s : State) (a i : Nat) (d : EvData) : s.EvShape (s.raiseWith a i d) := by
  unfold State.raiseWith
  dsimp only
  split
  · exact s.setRg_evShape _ _
  · split
    · exact (s.setRg_evShape _ _).trans (State.addCoal_evShape _ _)
    · exact (s.setRg_evShape _ _).trans (State.record_evShape _ _ _)

end Sys2Proof.Machine
end

