-- ==== Sys2Proof/Laws/Frames.lean ====
section
/-! SUPPORT. Laws of frames: what the shared operations change, in the words of Safety, and how frames combine. -/

namespace Sys2Proof.Machine

theorem State.agrees_refl (s : State) (p : Part) : s.agrees s p := by cases p <;> simp [State.agrees]

theorem State.agrees_trans {s t u : State} {p : Part} (h : s.agrees t p) (k : t.agrees u p) : s.agrees u p := by
  cases p
  case regs | mem | syn => exact fun a => (k a).trans (h a)
  all_goals exact Eq.trans k h

theorem State.frame_refl (s : State) (ps : List Part) (as : List Nat) : s.frame ps as s :=
  ⟨fun p _ => s.agrees_refl p, fun _ _ => rfl⟩

theorem State.frame_mono {s t : State} {ps qs : List Part} {as bs : List Nat} (h : s.frame ps as t) (hp : ∀ p ∈ ps, p ∈ qs)
    (ha : ∀ a ∈ as, a ∈ bs) : s.frame qs bs t := by
  refine ⟨fun p hn => h.1 p fun hm => hn ?_, fun a hn => h.2 a fun hm => hn (ha a hm)⟩
  rcases List.mem_cons.mp hm with rfl | hm
  · exact List.mem_cons_self ..
  · exact List.mem_cons_of_mem _ (hp p hm)

theorem State.frame_trans {s t u : State} {ps : List Part} {as : List Nat} (h : s.frame ps as t) (k : t.frame ps as u) :
    s.frame ps as u :=
  ⟨fun p hp => State.agrees_trans (h.1 p hp) (k.1 p hp), fun a ha => (k.2 a ha).trans (h.2 a ha)⟩

theorem State.frameEv_refl (s : State) (ps : List Part) (as : List Nat) : s.frameEv ps as s :=
  ⟨fun p _ => s.agrees_refl p, fun _ _ _ => rfl⟩

theorem State.frameEv_mono {s t : State} {ps qs : List Part} {as bs : List Nat} (h : s.frameEv ps as t) (hp : ∀ p ∈ ps, p ∈ qs)
    (ha : ∀ a ∈ as, a ∈ bs) : s.frameEv qs bs t := by
  refine ⟨fun p hn => h.1 p fun hm => hn ?_, fun a hn => h.2 a fun hm => hn (ha a hm)⟩
  simp only [List.mem_cons] at hm ⊢
  rcases hm with h | h | h | h
  · exact Or.inl h
  · exact Or.inr (Or.inl h)
  · exact Or.inr (Or.inr (Or.inl h))
  · exact Or.inr (Or.inr (Or.inr (hp p h)))

theorem State.frameEv_trans {s t u : State} {ps : List Part} {as : List Nat} (h : s.frameEv ps as t) (k : t.frameEv ps as u) :
    s.frameEv ps as u :=
  ⟨fun p hp => State.agrees_trans (h.1 p hp) (k.1 p hp), fun a ha he => (k.2 a ha he).trans (h.2 a ha he)⟩

theorem State.frame_ev {s t : State} {ps : List Part} {as : List Nat} (h : s.frame ps as t) : s.frameEv ps as t := by
  refine ⟨fun p hp => h.1 p fun hm => hp ?_, fun a ha _ => h.2 a ha⟩
  simp only [List.mem_cons] at hm ⊢
  rcases hm with h | h
  · exact Or.inl h
  · exact Or.inr (Or.inr (Or.inr h))

/-! Single operations -/

theorem State.setRg_frame (s : State) (a : Nat) (v : Word) {ps : List Part} {as : List Nat} (h : a ∈ as) : s.frame ps as (s.setRg a v) := by
  refine ⟨fun p hp => ?_, fun b hb => State.rg_setRg_ne s v (fun e => hb (e ▸ h))⟩
  cases p <;> first | exact absurd (List.mem_cons_self ..) hp | simp [State.agrees, State.byteAt, State.synAt, State.setRg]

theorem State.setRf_frame (s : State) (a : Nat) (f : Fld) (x : Nat) {ps : List Part} {as : List Nat} (h : a ∈ as) :
    s.frame ps as (s.setRf a f x) := s.setRg_frame a _ h

theorem State.setRb_frame (s : State) (a : Nat) (f : Fld) (x : Bool) {ps : List Part} {as : List Nat} (h : a ∈ as) :
    s.frame ps as (s.setRb a f x) := s.setRg_frame a _ h

theorem State.bump_frame (s : State) (a : Nat) (f : Fld) (k : Nat) {ps : List Part} {as : List Nat} (h : a ∈ as) :
    s.frame ps as (s.bump a f k) := s.setRg_frame a _ h

theorem State.store_frame (s : State) (a : Nat) (v : Word) {ps : List Part} {as : List Nat} (h : a ∈ as) : s.frame ps as (s.store a v) := by
  unfold State.store
  split
  · exact s.setRg_frame a _ h
  · exact s.frame_refl ps as

theorem State.setRg64_frame (s : State) (lo hi x : Nat) {ps : List Part} {as : List Nat} (h : lo ∈ as) (k : hi ∈ as) :
    s.frame ps as (s.setRg64 lo hi x) := State.frame_trans (s.setRg_frame lo _ h) (State.setRg_frame _ hi _ k)

/-- A state that differs in one part alone. -/
theorem State.part_frame {s t : State} (q : Part) {ps : List Part} {as : List Nat} (hq : q ∈ ps) (hr : t.regs = s.regs)
    (h : ∀ p, p ≠ q → s.agrees t p) : s.frame ps as t :=
  ⟨fun p hp => h p (fun e => hp (e ▸ List.mem_cons_of_mem _ hq)), fun a _ => State.rg_of_regs hr a⟩

theorem State.emit_frame (s : State) (o : Out) {ps : List Part} {as : List Nat} (h : Part.out ∈ ps) : s.frame ps as (s.emit o) :=
  State.part_frame .out h rfl fun p hp => by cases p <;> first | exact absurd rfl hp | exact fun _ => rfl | rfl

theorem State.tick_frame (s : State) {ps : List Part} {as : List Nat} (h : Part.freeCtr ∈ ps) : s.frame ps as s.tick :=
  State.part_frame .freeCtr h rfl fun p hp => by cases p <;> first | exact absurd rfl hp | exact fun _ => rfl | rfl

theorem State.setByte_frame (s : State) (a : Nat) (v : Byte) {ps : List Part} {as : List Nat} (h : Part.mem ∈ ps) :
    s.frame ps as (s.setByte a v) :=
  State.part_frame .mem h rfl fun p hp => by cases p <;> first | exact absurd rfl hp | exact fun _ => rfl | rfl

theorem State.setAx_frame (s : State) (n : Nat) (x : Axis) {ps : List Part} {as : List Nat} (h : Part.yk ∈ ps) :
    s.frame ps as (s.setAx n x) :=
  State.part_frame .yk h rfl fun p hp => by cases p <;> first | exact absurd rfl hp | exact fun _ => rfl | rfl

theorem State.setMark_frame (s : State) (n : Nat) (x : Mark) {ps : List Part} {as : List Nat} (h : Part.mke ∈ ps) :
    s.frame ps as (s.setMark n x) :=
  State.part_frame .mke h rfl fun p hp => by cases p <;> first | exact absurd rfl hp | exact fun _ => rfl | rfl

theorem State.setMkAx_frame (s : State) (n : Nat) (x : MkAxis) {ps : List Part} {as : List Nat} (h : Part.mke ∈ ps) :
    s.frame ps as (s.setMkAx n x) :=
  State.part_frame .mke h rfl fun p hp => by cases p <;> first | exact absurd rfl hp | exact fun _ => rfl | rfl

theorem State.setCuff_frame (s : State) (n : Nat) (x : Cuff) {ps : List Part} {as : List Nat} (h : Part.cuffs ∈ ps) :
    s.frame ps as (s.setCuff n x) :=
  State.part_frame .cuffs h rfl fun p hp => by cases p <;> first | exact absurd rfl hp | exact fun _ => rfl | rfl

theorem State.setSpr_frame (s : State) (n : Nat) (x : SensorPort) {ps : List Part} {as : List Nat} (h : Part.sp ∈ ps) :
    s.frame ps as (s.setSpr n x) :=
  State.part_frame .sp h rfl fun p hp => by cases p <;> first | exact absurd rfl hp | exact fun _ => rfl | rfl

theorem State.setRing_frame (s : State) (n : Nat) (x : EvRing) {ps : List Part} {as : List Nat} (h : Part.ev ∈ ps) :
    s.frame ps as (s.setRing n x) :=
  State.part_frame .ev h rfl fun p hp => by cases p <;> first | exact absurd rfl hp | exact fun _ => rfl | rfl

theorem State.setCgr_frame (s : State) (n : Nat) (x : Region) {ps : List Part} {as : List Nat} (h : Part.cg ∈ ps) :
    s.frame ps as (s.setCgr n x) :=
  State.part_frame .cg h rfl fun p hp => by cases p <;> first | exact absurd rfl hp | exact fun _ => rfl | rfl

/-- A fold over indices keeps a frame that each of its steps keeps. -/
theorem State.each_frame (l : List Nat) (f : Nat → State → State) {ps : List Part} {as : List Nat} (hf : ∀ i (t : State), t.frame ps as (f i t))
    (s : State) : s.frame ps as (s.each l f) := by
  unfold State.each
  induction l generalizing s with
  | nil => exact s.frame_refl ps as
  | cons i l ih => exact State.frame_trans (hf i s) (ih (f i s))

theorem State.each_frameEv (l : List Nat) (f : Nat → State → State) {ps : List Part} {as : List Nat}
    (hf : ∀ i (t : State), t.frameEv ps as (f i t)) (s : State) : s.frameEv ps as (s.each l f) := by
  unfold State.each
  induction l generalizing s with
  | nil => exact s.frameEv_refl ps as
  | cons i l ih => exact State.frameEv_trans (hf i s) (ih (f i s))

/-! Reads of the tables of records -/

theorem State.axesBut_setAx (s : State) (n : Nat) (x : Axis) : s.axesBut n (s.setAx n x) :=
  ⟨fun _ h => s.ax_setAx_ne x h, rfl⟩

@[simp] theorem State.mkAx_setMkAx_self (s : State) (n : Nat) (x : MkAxis) : (s.setMkAx n x).mkAx n = x := by
  simp [State.mkAx, State.setMkAx]
@[simp] theorem State.mkAx_setMkAx_ne (s : State) {n m : Nat} (x : MkAxis) (h : m ≠ n) : (s.setMkAx n x).mkAx m = s.mkAx m := by
  simp [State.mkAx, State.setMkAx, h]
@[simp] theorem State.mkAx_setMark (s : State) (n m : Nat) (x : Mark) : (s.setMark n x).mkAx m = s.mkAx m := rfl
@[simp] theorem State.mark_setMkAx (s : State) (n m : Nat) (x : MkAxis) : (s.setMkAx n x).mark m = s.mark m := rfl

@[simp] theorem State.spr_setSpr_self (s : State) (n : Nat) (x : SensorPort) : (s.setSpr n x).spr n = x := by
  simp [State.spr, State.setSpr]
@[simp] theorem State.spr_setSpr_ne (s : State) {n m : Nat} (x : SensorPort) (h : m ≠ n) : (s.setSpr n x).spr m = s.spr m := by
  simp [State.spr, State.setSpr, h]
@[simp] theorem State.ring_setRing_self (s : State) (n : Nat) (x : EvRing) : (s.setRing n x).ring n = x := by
  simp [State.ring, State.setRing]
@[simp] theorem State.ring_setRing_ne (s : State) {n m : Nat} (x : EvRing) (h : m ≠ n) : (s.setRing n x).ring m = s.ring m := by
  simp [State.ring, State.setRing, h]
@[simp] theorem State.cgr_setCgr_self (s : State) (n : Nat) (x : Region) : (s.setCgr n x).cgr n = x := by
  simp [State.cgr, State.setCgr]
@[simp] theorem State.cgr_setCgr_ne (s : State) {n m : Nat} (x : Region) (h : m ≠ n) : (s.setCgr n x).cgr m = s.cgr m := by
  simp [State.cgr, State.setCgr, h]

/-! Events -/

/-- The register of each source of a pending register is that register. -/
theorem srcReg_evtRegs : ∀ e ∈ evtRegs, ∀ i < e.2.2, (srcReg (e.2.1 + i)).map Prod.fst = some e.1 := by decide

theorem srcReg_mk (src : Nat) (h : src < 1024) : ∃ m, srcReg src = some (R.EV_MK_PEND (src / 32), m) := ⟨1 <<< (src % 32), by simp [srcReg, h]⟩

theorem evPath_ev {a : Nat} (h : 0x600000 ≤ a) (k : a < 0x640000) : evPath a := Or.inl ⟨h, k⟩

theorem State.setRg_frameEv (s : State) (a : Nat) (v : Word) {ps : List Part} {as : List Nat} (h : a ∈ as ∨ evPath a) :
    s.frameEv ps as (s.setRg a v) := by
  refine ⟨fun p hp => ?_, fun b hb he => State.rg_setRg_ne s v (fun e => ?_)⟩
  · exact (s.setRg_frame (ps := .ev :: .out :: ps) a v (List.mem_singleton.mpr rfl)).1 p hp
  · subst e; exact h.elim hb he

theorem State.emit_frameEv (s : State) (o : Out) {ps : List Part} {as : List Nat} : s.frameEv ps as (s.emit o) :=
  ⟨fun p hp => (s.emit_frame (as := []) _ (List.mem_cons_of_mem _ (List.mem_cons_self ..) : Part.out ∈ .ev :: .out :: ps)).1 p hp,
    fun _ _ _ => rfl⟩

theorem State.setEv_frameEv (s : State) (x : EvUnit) {ps : List Part} {as : List Nat} : s.frameEv ps as { s with ev := x } :=
  ⟨fun p hp => by
    cases p <;> first
      | exact absurd (List.mem_cons_of_mem _ (List.mem_cons_self ..)) hp
      | exact fun _ => rfl
      | rfl, fun _ _ _ => rfl⟩

theorem State.sendMsix_frameEv (s : State) (v : Nat) (hv : v < 64) {ps : List Part} {as : List Nat} : s.frameEv ps as (s.sendMsix v) := by
  unfold State.sendMsix
  split
  · exact s.setRg_frameEv _ _ (Or.inr (Or.inr (by simp only [R.HI_MSIX_PBA]; omega)))
  · exact s.emit_frameEv _

theorem State.ringWrite_frameEv (s : State) (r src : Nat) (coal : Bool) (d : EvData) (hr : r < 64) {ps : List Part} {as : List Nat} :
    s.frameEv ps as (s.ringWrite r src coal d) := by
  have hp : evPath (R.EV_RING_STAT r) := by refine evPath_ev ?_ ?_ <;> simp only [R.EV_RING_STAT] <;> omega
  unfold State.ringWrite
  dsimp only
  split
  · exact State.frameEv_trans (State.frameEv_trans (State.frameEv_trans (s.emit_frameEv _) (State.setRg_frameEv _ _ _ (Or.inr hp)))
      (State.setEv_frameEv _ _)) (State.sendMsix_frameEv _ _ hr)
  · exact State.frameEv_trans (State.frameEv_trans (s.emit_frameEv _) (State.setRg_frameEv _ _ _ (Or.inr hp))) (State.setEv_frameEv _ _)

theorem State.tryRecord_frameEv (s : State) (src : Nat) (d : EvData) {ps : List Part} {as : List Nat} :
    s.frameEv ps as (s.tryRecord src d).1 := by
  have hr : s.rf (R.EV_SRC_CFG src) F.EV_SRC_CFG_RING < 64 := Nat.mod_lt _ (by decide)
  unfold State.tryRecord
  dsimp only
  split
  · exact State.frameEv_trans (s.ringWrite_frameEv _ _ _ _ hr) (State.setEv_frameEv _ _)
  · refine s.setRg_frameEv _ _ (Or.inr (evPath_ev ?_ ?_)) <;> simp only [R.EV_RING_STAT] <;> omega

theorem State.addCoal_frameEv (s : State) (src : Nat) {ps : List Part} {as : List Nat} : s.frameEv ps as (s.addCoal src) := by
  unfold State.addCoal
  split
  · exact s.frameEv_refl ps as
  · exact s.setEv_frameEv _

/-- A record of a source changes, beside the event's way, the register that holds the source's flag. -/
theorem State.record_frameEv (s : State) (src : Nat) (d : EvData) {ps : List Part} {as : List Nat}
    (h : ∀ a m, srcReg src = some (a, m) → a ∈ as ∨ evPath a) : s.frameEv ps as (s.record src d) := by
  unfold State.record
  split
  · have k := s.tryRecord_frameEv src d (ps := ps) (as := as)
    dsimp only
    split
    · split
      · next a m e => exact State.frameEv_trans k (State.setRg_frameEv _ _ _ (h a m e))
      · exact k
    · exact k
  · exact s.frameEv_refl ps as

theorem evtBase_src {a b w : Nat} (h4 : a % 4 = 0) (h : evtBase a = some (b, w)) :
    ∀ i < w, ∀ a' m, srcReg (b + i) = some (a', m) → a' = a ∨ evPath a' := by
  intro i hi a' m hs
  unfold evtBase at h
  split at h
  · next hr =>
    right
    simp only [Option.some.injEq, Prod.mk.injEq] at h
    simp only [R.EV_MK_PEND] at hr h
    obtain ⟨m', hm⟩ := srcReg_mk (b + i) (by omega)
    rw [hm] at hs
    simp only [Option.some.injEq, Prod.mk.injEq] at hs
    refine evPath_ev ?_ ?_ <;> rw [← hs.1] <;> simp only [R.EV_MK_PEND] <;> omega
  · left
    obtain ⟨e, he⟩ := Option.map_eq_some_iff.mp h
    have hm := List.mem_of_find?_eq_some he.1
    have ha := List.find?_some he.1
    have := srcReg_evtRegs e hm i (by rw [he.2]; exact hi)
    rw [he.2] at this
    simp only [hs, Option.map_some, Option.some.injEq] at this
    rw [this]
    simpa using ha

/-- Raising events changes, beside the event's way, the pending register. -/
theorem State.raise_frameEv (s : State) (a m : Nat) {ps : List Part} {as : List Nat} (h : a ∈ as ∨ evPath a)
    (h4 : a % 4 = 0) : s.frameEv ps as (s.raise a m) := by
  unfold State.raise
  dsimp only
  split
  · exact s.setRg_frameEv _ _ h
  · next b w hb =>
    refine State.frameEv_trans (s.setRg_frameEv a (w32 ((s.rg a).toNat ||| m)) h) ?_
    generalize s.setRg a _ = t
    have key : ∀ l : List Nat, (∀ i ∈ l, i < w) → ∀ t : State, t.frameEv ps as (t.each l (fun i t =>
        if (s.rg a).toNat.testBit i then t.addCoal (b + i)
        else t.record (b + i) { late := false, hold := false, detail := 0, w2 := w32 ((s.rg a).toNat ||| m), w3 := 0 })) := by
      intro l
      unfold State.each
      induction l with
      | nil => exact fun _ t => t.frameEv_refl ps as
      | cons i l ih =>
        intro hl t
        refine State.frameEv_trans ?_ (ih (fun j hj => hl j (List.mem_cons_of_mem _ hj)) _)
        dsimp only
        split
        · exact t.addCoal_frameEv _
        · refine t.record_frameEv _ _ fun a' m' he => ?_
          rcases evtBase_src h4 hb i (hl i (List.mem_cons_self ..)) a' m' he with rfl | he
          · exact h
          · exact Or.inr he
    exact key _ (fun i hi => List.mem_range.mp (List.mem_filter.mp hi).1) t

theorem State.raiseF_frameEv (s : State) (a : Nat) (f : Fld) {ps : List Part} {as : List Nat} (h : a ∈ as ∨ evPath a)
    (h4 : a % 4 = 0) : s.frameEv ps as (s.raiseF a f) := s.raise_frameEv a _ h h4

theorem State.raiseWith_frameEv (s : State) (a i : Nat) (d : EvData) {ps : List Part} {as : List Nat} (h : a ∈ as ∨ evPath a)
    (h4 : a % 4 = 0) (hi : ∀ b w, evtBase a = some (b, w) → i < w) : s.frameEv ps as (s.raiseWith a i d) := by
  unfold State.raiseWith
  dsimp only
  split
  · exact s.setRg_frameEv _ _ h
  · next b w hb =>
    split
    · exact State.frameEv_trans (s.setRg_frameEv _ _ h) (State.addCoal_frameEv _ _)
    · refine State.frameEv_trans (s.setRg_frameEv _ _ h) (State.record_frameEv _ _ _ fun a' m' he => ?_)
      rcases evtBase_src h4 hb i (hi b w hb) a' m' he with rfl | he
      · exact h
      · exact Or.inr he

end Sys2Proof.Machine
end

