-- ==== Sys2Proof/Laws/Lasting.lean ====
section
/-! SUPPORT. What no command takes away: the relation State.lasts between the state before and a state on the way, and the rules
by which it passes through folds, choices and record updates. One lemma `<operation>_lasts` for each operation stands in the Lasts files. -/

namespace Sys2Proof.Machine

set_option linter.unusedVariables false
set_option linter.unusedSimpArgs false

/-- What lasts from `s` to `t`: the queue of waiting commands is as it was, an OTP bit that was 1 is 1, memory keeps its canonical form. -/
structure State.lasts (s t : State) : Prop where
  pend : t.pending = s.pending
  otp : ∀ k b, wbit (s.otWord k) b = true → wbit (t.otWord k) b = true
  mem : Memory.wf s.mem = true → Memory.wf t.mem = true

/-- The same of an outcome: it is a next state, and that holds of it. -/
def State.lastsOut (s : State) (o : Host.Outcome State Fault Refusal) : Prop := ∃ t, o = .next t ∧ s.lasts t

/-- The same of the first of a pair. -/
def State.lastsP {γ : Type} (s : State) (p : State × γ) : Prop := s.lasts p.1

/-- The same of a firing of a PE, where there is one. -/
def State.lastsFire (s : State) (o : Option Fire) : Prop := ∀ f, o = some f → s.lasts f.s

theorem State.lasts_refl (s : State) : s.lasts s := ⟨rfl, fun _ _ h => h, fun h => h⟩

theorem State.lastsOut_next {s t : State} (h : s.lasts t) : s.lastsOut (.next t) := ⟨t, rfl, h⟩

theorem State.lastsP_of {γ : Type} {s : State} {p : State × γ} (h : s.lasts p.1) : s.lastsP p := h

theorem State.lastsFire_none (s : State) : s.lastsFire none := fun _ h => by cases h

theorem State.lastsFire_some {s : State} {f : Fire} (h : s.lasts f.s) : s.lastsFire (some f) := fun _ e => by cases e; exact h

/-- A record update that leaves memory, the queue and the OTP words alone. -/
theorem State.lasts_mk {s u : State} {regs syn yk mke cuffs edgeSeq sp ev hx arr qs sm net ft en fb cg fl ot sc cc rs hi lc faults out freeCtr}
    (h : s.lasts u) (ho : ot.words = u.ot.words) :
    s.lasts (State.mk regs u.mem syn yk mke cuffs edgeSeq sp ev hx arr qs sm net ft en fb cg fl ot sc cc rs hi lc faults out freeCtr u.pending) :=
  ⟨h.pend, fun k b hb => by simpa [State.otWord, ho] using h.otp k b hb, h.mem⟩

theorem State.lasts_ite {s a b : State} {p : Prop} [Decidable p] (ha : p → s.lasts a) (hb : ¬p → s.lasts b) :
    s.lasts (if p then a else b) := by
  split
  · exact ha ‹_›
  · exact hb ‹_›

theorem State.lasts_iteP {γ : Type} {s : State} {a b : State × γ} {p : Prop} [Decidable p] (ha : p → s.lasts a.1) (hb : ¬p → s.lasts b.1) :
    s.lasts (if p then a else b).1 := by
  split
  · exact ha ‹_›
  · exact hb ‹_›

theorem State.lasts_foldl {β : Type} {s u : State} (f : State → β → State) (l : List β) (h : s.lasts u)
    (hf : ∀ t x, s.lasts t → s.lasts (f t x)) : s.lasts (l.foldl f u) := by
  induction l generalizing u with
  | nil => exact h
  | cons a l ih => exact ih (hf _ _ h)

theorem State.lasts_foldlP {β γ : Type} {s : State} {p : State × γ} (f : State × γ → β → State × γ) (l : List β) (h : s.lasts p.1)
    (hf : ∀ t x, s.lasts t.1 → s.lasts (f t x).1) : s.lasts (l.foldl f p).1 := by
  induction l generalizing p with
  | nil => exact h
  | cons a l ih => exact ih (hf _ _ h)

theorem State.lasts_fst {γ : Type} {s t : State} {p : State × γ} {x : γ} (e : p = (t, x)) (h : s.lasts p.1) : s.lasts t := by
  rw [e] at h; exact h

theorem State.each_lasts {q0 : State} (s : State) (l : List Nat) (f : Nat → State → State) (hq : q0.lasts s)
    (hf : ∀ i t, q0.lasts t → q0.lasts (f i t)) : q0.lasts (s.each l f) := State.lasts_foldl _ _ hq (fun t x ht => hf x t ht)

theorem State.after_lasts {q0 s : State} {o : Host.Outcome State Fault Refusal} (h : q0.lastsOut o) : q0.lasts (s.after o) := by
  obtain ⟨t, rfl, ht⟩ := h; exact ht

theorem State.setByte_lasts {q0 : State} (s : State) (a : Nat) (v : Byte) (hq : q0.lasts s) : q0.lasts (s.setByte a v) :=
  ⟨hq.pend, hq.otp, fun hw => Tab.wf_put memDefault _ _ _ (hq.mem hw)⟩

theorem State.setBytes_lasts {q0 : State} (s : State) (a : Nat) (l : List Byte) (hq : q0.lasts s) : q0.lasts (s.setBytes a l) := by
  induction l generalizing s a with
  | nil => exact hq
  | cons b l ih => exact ih _ _ (State.setByte_lasts _ _ _ hq)

/-- Moving entries keeps the canonical form. -/
theorem Tab.wf_moved {α : Type} [DecidableEq α] (d : Nat → α) (t : Tab α) (src dst n : Nat) (h : Tab.wf d t = true) :
    Tab.wf d (Tab.moved d t src dst n) = true := by
  unfold Tab.moved
  have hf : ∀ (l u : Tab α), Tab.wf d u = true → Tab.wf d (l.foldl (fun u e => Tab.put d u (e.1 - src + dst) e.2) u) = true := by
    intro l
    induction l with
    | nil => intro u hu; exact hu
    | cons e r ih => intro u hu; exact ih _ (Tab.wf_put d u _ _ hu)
  exact hf _ _ (Tab.wf_filter d _ t h)

/-- Setting a bit of a word clears none. -/
theorem wbit_setBit (v : Word) (i b : Nat) (h : wbit v i = true) : wbit (w32 (setBit v.toNat b)) i = true := by
  simp only [wbit, w32, setBit, BitVec.toNat_ofNat, Nat.testBit_mod_two_pow, Nat.testBit_or] at h ⊢
  have : i < 32 := Nat.lt_of_not_le (fun hc => by
    rw [Nat.testBit_lt_two_pow (Nat.lt_of_lt_of_le v.isLt (Nat.pow_le_pow_right (by decide) hc))] at h
    cases h)
  simp [h, this]

end Sys2Proof.Machine
end

