-- ==== Sys2Proof/Laws/LastsShared.lean ====
section
/-! SUPPORT. What no command takes away (State.lasts), operation by operation: operations that every block shares, events, and the axes, marks, Cuffs, codewords and the Lace and Octey bases. -/

set_option linter.unusedVariables false
set_option linter.unusedSimpArgs false

namespace Sys2Proof.Machine

theorem State.setRg_lasts {q0 : State} (s : State) (a : Nat) (v : Word) (hq : q0.lasts s) :
    q0.lasts (State.setRg s a v) :=
  State.lasts_mk hq rfl

theorem State.setRf_lasts {q0 : State} (s : State) (a : Nat) (f : Fld) (x : Nat) (hq : q0.lasts s) :
    q0.lasts (State.setRf s a f x) := by
  unfold State.setRf
  try dsimp only
  repeat' first
    | with_reducible first | assumption | apply State.setRg_lasts

theorem State.setRb_lasts {q0 : State} (s : State) (a : Nat) (f : Fld) (x : Bool) (hq : q0.lasts s) :
    q0.lasts (State.setRb s a f x) := by
  unfold State.setRb
  try dsimp only
  repeat' first
    | with_reducible first | assumption | apply State.setRf_lasts

theorem State.bump_lasts {q0 : State} (s : State) (a : Nat) (f : Fld) (k : Nat) (hq : q0.lasts s) :
    q0.lasts (State.bump s a f k) := by
  unfold State.bump
  try dsimp only
  repeat' first
    | with_reducible first | assumption | apply State.setRf_lasts

theorem State.setRg64_lasts {q0 : State} (s : State) (lo hi : Nat) (x : Nat) (hq : q0.lasts s) :
    q0.lasts (State.setRg64 s lo hi x) := by
  unfold State.setRg64
  try dsimp only
  repeat' first
    | with_reducible first | assumption | apply State.setRg_lasts

theorem State.store_lasts {q0 : State} (s : State) (a : Nat) (v : Word) (hq : q0.lasts s) :
    q0.lasts (State.store s a v) := by
  unfold State.store
  try dsimp only
  repeat' first
    | with_reducible first | assumption | apply State.setRg_lasts | refine State.lasts_fst (by assumption) ?_
    | split

theorem State.readClear_lasts {q0 : State} (s : State) (a : Nat) (hq : q0.lasts s) :
    q0.lasts (State.readClear s a) := by
  unfold State.readClear
  try dsimp only
  repeat' first
    | with_reducible first
      | assumption | apply State.setRg_lasts | apply State.after_lasts | refine State.lasts_fst (by assumption) ?_
    | split

theorem State.clearRegs_lasts {q0 : State} (s : State) (rch : Reach) (lo hi : Nat) (hq : q0.lasts s) :
    q0.lasts (State.clearRegs s rch lo hi) :=
  State.lasts_mk hq rfl

theorem State.emit_lasts {q0 : State} (s : State) (o : Out) (hq : q0.lasts s) :
    q0.lasts (State.emit s o) :=
  State.lasts_mk hq rfl

theorem State.tick_lasts {q0 : State} (s : State) (hq : q0.lasts s) :
    q0.lasts (State.tick s) :=
  State.lasts_mk hq rfl

theorem State.setNum_lasts {q0 : State} (s : State) (a n x : Nat) (hq : q0.lasts s) :
    q0.lasts (State.setNum s a n x) := by
  unfold State.setNum
  try dsimp only
  repeat' first
    | with_reducible first | assumption | apply State.setBytes_lasts

theorem State.setAx_lasts {q0 : State} (s : State) (n : Nat) (x : Axis) (hq : q0.lasts s) :
    q0.lasts (State.setAx s n x) :=
  State.lasts_mk hq rfl

theorem State.setMark_lasts {q0 : State} (s : State) (n : Nat) (x : Mark) (hq : q0.lasts s) :
    q0.lasts (State.setMark s n x) :=
  State.lasts_mk hq rfl

theorem State.setMkAx_lasts {q0 : State} (s : State) (a : Nat) (x : MkAxis) (hq : q0.lasts s) :
    q0.lasts (State.setMkAx s a x) :=
  State.lasts_mk hq rfl

theorem State.setCuff_lasts {q0 : State} (s : State) (n : Nat) (x : Cuff) (hq : q0.lasts s) :
    q0.lasts (State.setCuff s n x) :=
  State.lasts_mk hq rfl

theorem State.setSpr_lasts {q0 : State} (s : State) (p : Nat) (x : SensorPort) (hq : q0.lasts s) :
    q0.lasts (State.setSpr s p x) :=
  State.lasts_mk hq rfl

theorem State.setRing_lasts {q0 : State} (s : State) (r : Nat) (x : EvRing) (hq : q0.lasts s) :
    q0.lasts (State.setRing s r x) :=
  State.lasts_mk hq rfl

theorem State.setCgr_lasts {q0 : State} (s : State) (r : Nat) (x : Region) (hq : q0.lasts s) :
    q0.lasts (State.setCgr s r x) :=
  State.lasts_mk hq rfl

theorem State.blkRst_lasts {q0 : State} (s : State) (b : Nat) (t : State) (hq : q0.lasts s) (ht : q0.lasts t) : q0.lasts (s.blkRst b t) := by
  unfold State.blkRst
  split
  · exact hq
  · exact ht

theorem State.sendMsix_lasts {q0 : State} (s : State) (v : Nat) (hq : q0.lasts s) :
    q0.lasts (State.sendMsix s v) := by
  unfold State.sendMsix
  try dsimp only
  repeat' first
    | with_reducible first | assumption | apply State.setRg_lasts | apply State.emit_lasts
    | split

theorem State.ringWrite_lasts {q0 : State} (s : State) (r src : Nat) (coal : Bool) (d : EvData) (hq : q0.lasts s) :
    q0.lasts (State.ringWrite s r src coal d) := by
  unfold State.ringWrite
  try dsimp only
  repeat' first
    | with_reducible first
      | assumption | apply State.emit_lasts | apply State.setRf_lasts | apply State.setRing_lasts | apply State.sendMsix_lasts
    | split | with_reducible refine State.lasts_mk ?_ rfl

theorem State.tryRecord_lasts {q0 : State} (s : State) (src : Nat) (d : EvData) (hq : q0.lasts s) :
    q0.lasts (State.tryRecord s src d).1 := by
  unfold State.tryRecord
  try dsimp only
  repeat' first
    | with_reducible first | assumption | apply State.ringWrite_lasts | apply State.bump_lasts
    | split | with_reducible refine State.lasts_mk ?_ rfl

theorem State.addCoal_lasts {q0 : State} (s : State) (src : Nat) (hq : q0.lasts s) :
    q0.lasts (State.addCoal s src) := by
  unfold State.addCoal
  try dsimp only
  repeat' first
    | with_reducible first | assumption
    | split | with_reducible refine State.lasts_mk ?_ rfl

theorem State.record_lasts {q0 : State} (s : State) (src : Nat) (d : EvData) (hq : q0.lasts s) :
    q0.lasts (State.record s src d) := by
  unfold State.record
  try dsimp only
  repeat' first
    | with_reducible first
      | assumption | apply State.tryRecord_lasts | apply State.setRg_lasts | refine State.lasts_fst (by assumption) ?_
    | split

theorem State.raise_lasts {q0 : State} (s : State) (a m : Nat) (hq : q0.lasts s) :
    q0.lasts (State.raise s a m) := by
  unfold State.raise
  try dsimp only
  repeat' first
    | with_reducible first
      | assumption | apply State.setRg_lasts | apply State.addCoal_lasts | apply State.record_lasts
      | refine State.each_lasts _ _ _ ?_ (fun i t ht => ?_) | refine State.lasts_fst (by assumption) ?_
    | split

theorem State.raiseF_lasts {q0 : State} (s : State) (a : Nat) (f : Fld) (hq : q0.lasts s) :
    q0.lasts (State.raiseF s a f) := by
  unfold State.raiseF
  try dsimp only
  repeat' first
    | with_reducible first | assumption | apply State.raise_lasts

theorem State.raiseWith_lasts {q0 : State} (s : State) (a i : Nat) (d : EvData) (hq : q0.lasts s) :
    q0.lasts (State.raiseWith s a i d) := by
  unfold State.raiseWith
  try dsimp only
  repeat' first
    | with_reducible first
      | assumption | apply State.setRg_lasts | apply State.addCoal_lasts | apply State.record_lasts | refine State.lasts_fst (by assumption) ?_
    | split

theorem State.raiseThr_lasts {q0 : State} (s : State) (q : Nat) (hq : q0.lasts s) :
    q0.lasts (State.raiseThr s q) := by
  unfold State.raiseThr
  try dsimp only
  repeat' first
    | with_reducible first
      | assumption | apply State.setRg_lasts | apply State.addCoal_lasts | apply State.record_lasts
    | split

theorem execEvSrcCfgWrite_lasts {q0 : State} (src : Fin 1536) (v : Word) (s : State) (hq : q0.lasts s) :
    q0.lastsOut (execEvSrcCfgWrite src v s) := by
  unfold execEvSrcCfgWrite
  try dsimp only
  repeat' first
    | with_reducible first
      | assumption | apply State.lastsOut_next | apply State.store_lasts | apply State.record_lasts
    | split

theorem execEventModerationTimeout_lasts {q0 : State} (ring : Fin 64) (s : State) (hq : q0.lasts s) :
    q0.lastsOut (execEventModerationTimeout ring s) := by
  unfold execEventModerationTimeout
  try dsimp only
  repeat' first
    | with_reducible first
      | assumption | apply State.lastsOut_next | apply State.setRing_lasts | apply State.sendMsix_lasts
    | split | with_reducible refine State.lasts_mk ?_ rfl

theorem State.setQp_lasts {q0 : State} (s : State) (q : Nat) (x : Qp) (hq : q0.lasts s) :
    q0.lasts (State.setQp s q x) :=
  State.lasts_mk hq rfl

theorem State.setDesc_lasts {q0 : State} (s : State) (q : Nat) (d : Desc) (hq : q0.lasts s) :
    q0.lasts (State.setDesc s q d) := by
  unfold State.setDesc
  try dsimp only
  repeat' first
    | with_reducible first | assumption | apply State.setQp_lasts
    | split | with_reducible refine State.lasts_mk ?_ rfl

theorem State.addRec_lasts {q0 : State} (s : State) (q : Nat) (words : List Word) (irq : Bool) (hq : q0.lasts s) :
    q0.lasts (State.addRec s q words irq) := by
  unfold State.addRec
  try dsimp only
  repeat' first
    | with_reducible first | assumption | apply State.setQp_lasts | apply State.raiseF_lasts
    | split | with_reducible refine State.lasts_mk ?_ rfl

theorem State.descEnd_lasts {q0 : State} (s : State) (q dseq status code units ckpt oseq : Nat) (hq : q0.lasts s) :
    q0.lasts (State.descEnd s q dseq status code units ckpt oseq) := by
  unfold State.descEnd
  try dsimp only
  repeat' first
    | with_reducible first
      | assumption | apply State.setQp_lasts | apply State.addRec_lasts | refine State.lasts_fst (by assumption) ?_
    | split | with_reducible refine State.lasts_mk ?_ rfl

theorem State.hiMarkGone_lasts {q0 : State} (s : State) (n : Nat) (hq : q0.lasts s) :
    q0.lasts (State.hiMarkGone s n) := by
  unfold State.hiMarkGone
  try dsimp only
  repeat' first
    | with_reducible first
      | assumption | apply State.descEnd_lasts | refine State.lasts_foldl _ _ ?_ (fun t x ht => ?_)
      | refine State.lasts_foldlP _ _ ?_ (fun t x ht => ?_)

theorem State.hiMarksGone_lasts {q0 : State} (s : State) (hq : q0.lasts s) :
    q0.lasts (State.hiMarksGone s) := by
  unfold State.hiMarksGone
  try dsimp only
  repeat' first
    | with_reducible first
      | assumption | apply State.descEnd_lasts | refine State.lasts_foldl _ _ ?_ (fun t x ht => ?_)
      | refine State.lasts_foldlP _ _ ?_ (fun t x ht => ?_)

theorem State.hiFoldIn_lasts {q0 : State} (s : State) (n : Nat) (arm : Bool) (fold : Option (Nat × Nat)) (hq : q0.lasts s) :
    q0.lasts (State.hiFoldIn s n arm fold) := by
  unfold State.hiFoldIn
  try dsimp only
  repeat' first
    | with_reducible first | assumption | apply State.descEnd_lasts | refine State.lasts_fst (by assumption) ?_
    | split | with_reducible refine State.lasts_mk ?_ rfl

theorem State.hiCommit_lasts {q0 : State} (s : State) (n : Nat) (hq : q0.lasts s) :
    q0.lasts (State.hiCommit s n) :=
  State.lasts_mk hq rfl

theorem State.hiFoldDone_lasts {q0 : State} (s : State) (d : Option (Nat × Nat × Nat)) (seq : Nat) (hq : q0.lasts s) :
    q0.lasts (State.hiFoldDone s d seq) := by
  unfold State.hiFoldDone
  try dsimp only
  repeat' first
    | with_reducible first | assumption | apply State.descEnd_lasts | refine State.lasts_fst (by assumption) ?_
    | split

theorem State.hiFoldRefused_lasts {q0 : State} (s : State) (d : Option (Nat × Nat × Nat)) (code : Nat) (hq : q0.lasts s) :
    q0.lasts (State.hiFoldRefused s d code) := by
  unfold State.hiFoldRefused
  try dsimp only
  repeat' first
    | with_reducible first | assumption | apply State.descEnd_lasts | refine State.lasts_fst (by assumption) ?_
    | split

theorem State.hiTile_lasts {q0 : State} (s : State) (src : Option (Nat × Nat)) (hq : q0.lasts s) :
    q0.lasts (State.hiTile s src) := by
  unfold State.hiTile
  try dsimp only
  repeat' first
    | with_reducible first | assumption | apply State.setDesc_lasts | refine State.lasts_fst (by assumption) ?_
    | split | with_reducible refine State.lasts_mk ?_ rfl

theorem State.hiLoaded_lasts {q0 : State} (s : State) (src : Option (Nat × Nat)) (st : Nat) (hq : q0.lasts s) :
    q0.lasts (State.hiLoaded s src st) := by
  unfold State.hiLoaded
  try dsimp only
  repeat' first
    | with_reducible first | assumption | apply State.descEnd_lasts | refine State.lasts_fst (by assumption) ?_
    | split

theorem State.mmioGo_lasts {q0 : State} (s : State) (held : List Nat) (l : List Mmio) (h : q0.lasts s) : q0.lasts (State.mmioGo s held l).1 := by
  induction l generalizing s held with
  | nil =>
    unfold State.mmioGo
    try dsimp only
    repeat' first
      | with_reducible first
        | assumption | apply State.lastsOut_next | refine State.each_lasts _ _ _ ?_ (fun i t ht => ?_) | apply State.after_lasts
        | refine State.lasts_foldl _ _ ?_ (fun t x ht => ?_) | refine State.lasts_foldlP _ _ ?_ (fun t x ht => ?_)
        | refine State.lasts_ite (fun _ => ?_) (fun _ => ?_) | refine State.lasts_iteP (fun _ => ?_) (fun _ => ?_)
        | refine State.lasts_fst (by assumption) ?_
      | intro _ | split | with_reducible refine State.lasts_mk ?_ rfl
  | cons e r ih =>
    unfold State.mmioGo
    try dsimp only
    repeat' first
      | with_reducible first
        | assumption | apply State.lastsOut_next | apply ih | apply State.emit_lasts | apply State.raiseF_lasts
        | refine State.each_lasts _ _ _ ?_ (fun i t ht => ?_) | apply State.after_lasts | refine State.lasts_foldl _ _ ?_ (fun t x ht => ?_)
        | refine State.lasts_foldlP _ _ ?_ (fun t x ht => ?_) | refine State.lasts_ite (fun _ => ?_) (fun _ => ?_)
        | refine State.lasts_iteP (fun _ => ?_) (fun _ => ?_) | refine State.lasts_fst (by assumption) ?_
      | intro _ | split | with_reducible refine State.lasts_mk ?_ rfl

theorem State.mmioFlush_lasts {q0 : State} (s : State) (hq : q0.lasts s) :
    q0.lasts (State.mmioFlush s) := by
  unfold State.mmioFlush
  try dsimp only
  repeat' first
    | with_reducible first | assumption | apply State.mmioGo_lasts | refine State.lasts_fst (by assumption) ?_
    | split | with_reducible refine State.lasts_mk ?_ rfl

theorem State.hiResponse_lasts {q0 : State} (s : State) (key status : Nat) (data : List (BitVec 256)) (hq : q0.lasts s) :
    q0.lasts (State.hiResponse s key status data) := by
  unfold State.hiResponse
  try dsimp only
  repeat' first
    | with_reducible first | assumption | apply State.mmioFlush_lasts
    | split | with_reducible refine State.lasts_mk ?_ rfl

theorem State.setHv_lasts {q0 : State} (s : State) (i x : Nat) (hq : q0.lasts s) :
    q0.lasts (State.setHv s i x) := by
  unfold State.setHv
  try dsimp only
  repeat' first
    | with_reducible first | assumption | apply State.setRg_lasts

theorem State.hxFollow_lasts {q0 : State} (s : State) (m : HxMove) (hq : q0.lasts s) :
    q0.lasts (State.hxFollow s m) := by
  unfold State.hxFollow
  try dsimp only
  repeat' first
    | with_reducible first | assumption | apply State.raise_lasts | refine State.lasts_fst (by assumption) ?_
    | split | with_reducible refine State.lasts_mk ?_ rfl

theorem State.hxCapture_lasts {q0 : State} (s : State) (k : Nat) (inst : Int) (hq : q0.lasts s) :
    q0.lasts (State.hxCapture s k inst) := by
  unfold State.hxCapture
  try dsimp only
  repeat' first
    | with_reducible first
      | assumption | apply State.tick_lasts | apply State.setHv_lasts | apply State.setRf_lasts | apply State.raise_lasts
    | split

theorem State.setUio_lasts {q0 : State} (s : State) (n : Nat) (x : UserIo) (hq : q0.lasts s) :
    q0.lasts (State.setUio s n x) :=
  State.lasts_mk hq rfl

theorem State.uioDrive_lasts {q0 : State} (s : State) (n : Nat) (lvl oe : Bool) (hq : q0.lasts s) :
    q0.lasts (State.uioDrive s n lvl oe) := by
  unfold State.uioDrive
  try dsimp only
  repeat' first
    | with_reducible first | assumption | apply State.setUio_lasts | refine State.lasts_fst (by assumption) ?_
    | split | with_reducible refine State.lasts_mk ?_ rfl

theorem State.axRefuse_lasts {q0 : State} (s : State) (n : Nat) (hq : q0.lasts s) :
    q0.lasts (State.axRefuse s n) := by
  unfold State.axRefuse
  try dsimp only
  repeat' first
    | with_reducible first | assumption | apply State.setRg_lasts

theorem State.axRewrap_lasts {q0 : State} (s : State) (n : Nat) (hq : q0.lasts s) :
    q0.lasts (State.axRewrap s n) := by
  unfold State.axRewrap
  try dsimp only
  repeat' first
    | with_reducible first | assumption | apply State.setAx_lasts
    | split

theorem execAxCfgWrite_lasts {q0 : State} (n : Fin 8) (v : Word) (s : State) (hq : q0.lasts s) :
    q0.lastsOut (execAxCfgWrite n v s) := by
  unfold execAxCfgWrite
  try dsimp only
  repeat' first
    | with_reducible first
      | assumption | apply State.lastsOut_next | apply State.axRefuse_lasts | apply State.store_lasts | apply State.setAx_lasts
      | apply State.axRewrap_lasts
    | split | with_reducible refine State.lasts_mk ?_ rfl

theorem execAxFiltWrite_lasts {q0 : State} (n : Fin 8) (v : Word) (s : State) (hq : q0.lasts s) :
    q0.lastsOut (execAxFiltWrite n v s) := by
  unfold execAxFiltWrite
  try dsimp only
  repeat' first
    | with_reducible first
      | assumption | apply State.lastsOut_next | apply State.axRefuse_lasts | apply State.store_lasts
    | split

theorem execAxSsiWrite_lasts {q0 : State} (n : Fin 8) (v : Word) (s : State) (hq : q0.lasts s) :
    q0.lastsOut (execAxSsiWrite n v s) := by
  unfold execAxSsiWrite
  try dsimp only
  repeat' first
    | with_reducible first
      | assumption | apply State.lastsOut_next | apply State.axRefuse_lasts | apply State.store_lasts
    | split

theorem execModLoWrite_lasts {q0 : State} (n : Fin 8) (v : Word) (s : State) (hq : q0.lasts s) :
    q0.lastsOut (execModLoWrite n v s) := by
  unfold execModLoWrite
  try dsimp only
  repeat' first
    | with_reducible first | assumption | apply State.lastsOut_next | apply State.setAx_lasts
    | with_reducible refine State.lasts_mk ?_ rfl

theorem execModHiWrite_lasts {q0 : State} (n : Fin 8) (v : Word) (s : State) (hq : q0.lasts s) :
    q0.lastsOut (execModHiWrite n v s) := by
  unfold execModHiWrite
  try dsimp only
  repeat' first
    | with_reducible first
      | assumption | apply State.lastsOut_next | apply State.setAx_lasts | apply State.axRefuse_lasts | apply State.setRg_lasts
      | apply State.axRewrap_lasts
    | split | with_reducible refine State.lasts_mk ?_ rfl

theorem execInputEdge_lasts {q0 : State} (cuff : Fin 200) (level : Bool) (r : BitVec 8) (s : State) (hq : q0.lasts s) :
    q0.lastsOut (execInputEdge cuff level r s) := by
  unfold execInputEdge
  try dsimp only
  repeat' first
    | with_reducible first
      | assumption | apply State.lastsOut_next | apply State.setUio_lasts | apply State.setCuff_lasts | apply State.setAx_lasts
      | refine State.each_lasts _ _ _ ?_ (fun i t ht => ?_) | refine State.lasts_foldl _ _ ?_ (fun t x ht => ?_)
      | refine State.lasts_foldlP _ _ ?_ (fun t x ht => ?_)
    | split | with_reducible refine State.lasts_mk ?_ rfl

theorem execEdgeDeliver_lasts {q0 : State} (n : Fin 8) (s : State) (hq : q0.lasts s) :
    q0.lastsOut (execEdgeDeliver n s) := by
  unfold execEdgeDeliver
  try dsimp only
  repeat' first
    | with_reducible first
      | assumption | apply State.lastsOut_next | apply State.setAx_lasts | refine State.lasts_fst (by assumption) ?_
    | split | with_reducible refine State.lasts_mk ?_ rfl

theorem execSsiFrameStart_lasts {q0 : State} (n : Fin 8) (s : State) (hq : q0.lasts s) :
    q0.lastsOut (execSsiFrameStart n s) := by
  unfold execSsiFrameStart
  try dsimp only
  repeat' first
    | with_reducible first
      | assumption | apply State.lastsOut_next | apply State.setAx_lasts | refine State.lasts_fst (by assumption) ?_
    | split | with_reducible refine State.lasts_mk ?_ rfl

theorem State.enterHoldover_lasts {q0 : State} (s : State) (n t cause : Nat) (hq : q0.lasts s) :
    q0.lasts (State.enterHoldover s n t cause) := by
  unfold State.enterHoldover
  try dsimp only
  repeat' first
    | with_reducible first | assumption | apply step_lasts | apply State.setAx_lasts | apply State.raise_lasts
    | split | with_reducible refine State.lasts_mk ?_ rfl

theorem execSsiFrameEnd_lasts {q0 : State} (n : Fin 8) (bits : BitVec 46) (s : State) (hq : q0.lasts s) :
    q0.lastsOut (execSsiFrameEnd n bits s) := by
  unfold execSsiFrameEnd
  try dsimp only
  repeat' first
    | with_reducible first
      | assumption | apply State.lastsOut_next | apply State.setAx_lasts | apply State.bump_lasts | apply State.enterHoldover_lasts
      | refine State.lasts_fst (by assumption) ?_
    | split | with_reducible refine State.lasts_mk ?_ rfl

theorem State.inErr_lasts {q0 : State} (s : State) (n : Nat) (hq : q0.lasts s) :
    q0.lasts (State.inErr s n) := by
  unfold State.inErr
  try dsimp only
  repeat' first
    | with_reducible first | assumption | apply State.bump_lasts | apply State.raise_lasts

theorem execSincosSample_lasts {q0 : State} (n : Fin 8) (s : State) (hq : q0.lasts s) :
    q0.lastsOut (execSincosSample n s) := by
  unfold execSincosSample
  try dsimp only
  repeat' first
    | with_reducible first
      | assumption | apply State.lastsOut_next | apply State.setAx_lasts | apply State.inErr_lasts | refine State.lasts_fst (by assumption) ?_
    | split | with_reducible refine State.lasts_mk ?_ rfl

theorem execMainsSample_lasts {q0 : State} (n : Fin 8) (s : State) (hq : q0.lasts s) :
    q0.lastsOut (execMainsSample n s) := by
  unfold execMainsSample
  try dsimp only
  repeat' first
    | with_reducible first | assumption | apply State.lastsOut_next | apply State.setAx_lasts
    | split | with_reducible refine State.lasts_mk ?_ rfl

theorem State.axisUpdate_lasts {q0 : State} (s : State) (t n : Nat) (hq : q0.lasts s) :
    q0.lasts (State.axisUpdate s t n) := by
  unfold State.axisUpdate
  try dsimp only
  repeat' first
    | with_reducible first
      | assumption | apply State.setAx_lasts | apply State.inErr_lasts | apply State.raise_lasts | apply State.hxFollow_lasts
      | refine State.lasts_fst (by assumption) ?_
    | split

theorem State.capPositions_lasts {q0 : State} (s : State) (k mask : Nat) (inst : Int) (hq : q0.lasts s) :
    q0.lasts (State.capPositions s k mask inst) := by
  unfold State.capPositions
  try dsimp only
  repeat' first
    | with_reducible first
      | assumption | apply State.setRg_lasts | refine State.each_lasts _ _ _ ?_ (fun i t ht => ?_)
    | split

theorem State.capSettle_lasts {q0 : State} (s : State) (hq : q0.lasts s) :
    q0.lasts (State.capSettle s) := by
  unfold State.capSettle
  try dsimp only
  repeat' first
    | with_reducible first
      | assumption | apply State.capPositions_lasts | refine State.lasts_foldl _ _ ?_ (fun t x ht => ?_)
      | refine State.lasts_foldlP _ _ ?_ (fun t x ht => ?_)
    | with_reducible refine State.lasts_mk ?_ rfl

theorem execObserverUpdate_lasts {q0 : State} (s : State) (hq : q0.lasts s) :
    q0.lastsOut (execObserverUpdate s) := by
  unfold execObserverUpdate
  try dsimp only
  repeat' first
    | with_reducible first
      | assumption | apply State.lastsOut_next | apply State.axisUpdate_lasts | apply State.capSettle_lasts
      | refine State.each_lasts _ _ _ ?_ (fun i t ht => ?_)
    | split | with_reducible refine State.lasts_mk ?_ rfl

theorem State.rebroadcast_lasts {q0 : State} (s : State) (hq : q0.lasts s) :
    q0.lasts (State.rebroadcast s) := by
  unfold State.rebroadcast
  try dsimp only
  repeat' first
    | with_reducible first | assumption | refine State.lasts_fst (by assumption) ?_
    | split | with_reducible refine State.lasts_mk ?_ rfl

theorem execLossDetect_lasts {q0 : State} (n : Fin 8) (s : State) (hq : q0.lasts s) :
    q0.lastsOut (execLossDetect n s) := by
  unfold execLossDetect
  try dsimp only
  repeat' first
    | with_reducible first
      | assumption | apply State.lastsOut_next | apply State.enterHoldover_lasts | apply State.rebroadcast_lasts
    | split

theorem execHoldTimeout_lasts {q0 : State} (n : Fin 8) (s : State) (hq : q0.lasts s) :
    q0.lastsOut (execHoldTimeout n s) := by
  unfold execHoldTimeout
  try dsimp only
  repeat' first
    | with_reducible first
      | assumption | apply State.lastsOut_next | apply State.setAx_lasts | apply State.raise_lasts | apply State.rebroadcast_lasts
    | split | with_reducible refine State.lasts_mk ?_ rfl

theorem execAxSet_lasts {q0 : State} (n : Fin 8) (s : State) (hq : q0.lasts s) :
    q0.lastsOut (execAxSet n s) := by
  unfold execAxSet
  try dsimp only
  repeat' first
    | with_reducible first | assumption | apply State.lastsOut_next | apply State.setAx_lasts
    | with_reducible refine State.lasts_mk ?_ rfl

theorem execAxSetv_lasts {q0 : State} (n : Fin 8) (s : State) (hq : q0.lasts s) :
    q0.lastsOut (execAxSetv n s) := by
  unfold execAxSetv
  try dsimp only
  repeat' first
    | with_reducible first | assumption | apply State.lastsOut_next | apply State.setAx_lasts
    | with_reducible refine State.lasts_mk ?_ rfl

theorem execAxResume_lasts {q0 : State} (n : Fin 8) (s : State) (hq : q0.lasts s) :
    q0.lastsOut (execAxResume n s) := by
  unfold execAxResume
  try dsimp only
  repeat' first
    | with_reducible first | assumption | apply State.lastsOut_next | apply State.setAx_lasts
    | with_reducible refine State.lasts_mk ?_ rfl

theorem execAxRst_lasts {q0 : State} (n : Fin 8) (s : State) (hq : q0.lasts s) :
    q0.lastsOut (execAxRst n s) := by
  unfold execAxRst
  try dsimp only
  repeat' first
    | with_reducible first | assumption | apply State.lastsOut_next | apply State.setAx_lasts
    | with_reducible refine State.lasts_mk ?_ rfl

theorem State.latchAxis_lasts {q0 : State} (s : State) (n : Nat) (hq : q0.lasts s) :
    q0.lasts (State.latchAxis s n) := by
  unfold State.latchAxis
  try dsimp only
  repeat' first
    | with_reducible first | assumption | apply State.setRg64_lasts | apply State.setRg_lasts

theorem execPosLoRead_lasts {q0 : State} (n : Fin 8) (s : State) (hq : q0.lasts s) :
    q0.lastsOut (execPosLoRead n s) := by
  unfold execPosLoRead
  try dsimp only
  repeat' first
    | with_reducible first
      | assumption | apply State.lastsOut_next | apply State.latchAxis_lasts | apply State.emit_lasts
    | split | with_reducible refine State.lasts_mk ?_ rfl

theorem execSnapAll_lasts {q0 : State} (s : State) (hq : q0.lasts s) :
    q0.lastsOut (execSnapAll s) := by
  unfold execSnapAll
  try dsimp only
  repeat' first
    | with_reducible first
      | assumption | apply State.lastsOut_next | apply State.latchAxis_lasts | refine State.each_lasts _ _ _ ?_ (fun i t ht => ?_)
    | with_reducible refine State.lasts_mk ?_ rfl

theorem execYkBlkRst_lasts {q0 : State} (s : State) (hq : q0.lasts s) :
    q0.lastsOut (execYkBlkRst s) := by
  unfold execYkBlkRst
  try dsimp only
  repeat' first
    | with_reducible first
      | assumption | apply State.lastsOut_next | apply State.clearRegs_lasts | apply State.blkRst_lasts
    | with_reducible refine State.lasts_mk ?_ rfl

theorem State.unlist_lasts {q0 : State} (s : State) (n : Nat) (keep : Option Nat) (hq : q0.lasts s) :
    q0.lasts (State.unlist s n keep) := by
  unfold State.unlist
  try dsimp only
  repeat' first
    | with_reducible first
      | assumption | apply State.setMkAx_lasts | refine State.each_lasts _ _ _ ?_ (fun i t ht => ?_)
    | split | with_reducible refine State.lasts_mk ?_ rfl

theorem State.enqueue_lasts {q0 : State} (s : State) (a n : Nat) (hq : q0.lasts s) :
    q0.lasts (State.enqueue s a n) := by
  unfold State.enqueue
  try dsimp only
  repeat' first
    | with_reducible first | assumption | apply State.setMkAx_lasts
    | split | with_reducible refine State.lasts_mk ?_ rfl

theorem State.applyEntry_lasts {q0 : State} (s0 : State) (n : Nat) (x : MkNew) (hq : q0.lasts s0) :
    q0.lasts (State.applyEntry s0 n x) := by
  unfold State.applyEntry
  try dsimp only
  repeat' first
    | with_reducible first
      | assumption | apply State.hiMarkGone_lasts | apply State.hiFoldIn_lasts | apply State.unlist_lasts | apply State.setMark_lasts
      | apply State.enqueue_lasts
    | split | with_reducible refine State.lasts_mk ?_ rfl

theorem State.holdEntry_lasts {q0 : State} (s0 : State) (n : Nat) (x : MkNew) (hq : q0.lasts s0) :
    q0.lasts (State.holdEntry s0 n x) := by
  unfold State.holdEntry
  try dsimp only
  repeat' first
    | with_reducible first
      | assumption | apply State.hiMarkGone_lasts | apply State.hiFoldIn_lasts | apply State.unlist_lasts | apply State.setMark_lasts
      | refine State.lasts_fst (by assumption) ?_
    | split | with_reducible refine State.lasts_mk ?_ rfl

theorem State.effectEntry_lasts {q0 : State} (s : State) (n : Nat) (x : MkNew) (hq : q0.lasts s) :
    q0.lasts (State.effectEntry s n x) := by
  unfold State.effectEntry
  try dsimp only
  repeat' first
    | with_reducible first | assumption | apply State.holdEntry_lasts | apply State.applyEntry_lasts
    | split

theorem State.writeCtl_lasts {q0 : State} (s : State) (n : Nat) (v : Word) (fold : Option (Nat × Nat)) (hq : q0.lasts s) :
    q0.lasts (State.writeCtl s n v fold).1 := by
  unfold State.writeCtl
  try dsimp only
  repeat' first
    | with_reducible first
      | assumption | apply State.setRg_lasts | apply State.raiseF_lasts | refine State.lasts_fst (by assumption) ?_
    | split | with_reducible refine State.lasts_mk ?_ rfl

theorem State.disarmNext_lasts {q0 : State} (s : State) (hq : q0.lasts s) :
    q0.lasts (State.disarmNext s) :=
  State.lasts_mk hq rfl

theorem State.mkReg_lasts {q0 : State} (s : State) (a : Nat) (v : Word) (hq : q0.lasts s) :
    q0.lasts (State.mkReg s a v) := by
  unfold State.mkReg
  try dsimp only
  repeat' first
    | with_reducible first
      | assumption | apply State.disarmNext_lasts | apply State.writeCtl_lasts | apply State.store_lasts
      | refine State.lasts_fst (by assumption) ?_
    | split

theorem State.mkWrite_lasts {q0 : State} (s : State) (a : Nat) (v : Word) (hq : q0.lasts s) :
    q0.lasts (State.mkWrite s a v) := by
  unfold State.mkWrite
  try dsimp only
  repeat' first
    | with_reducible first | assumption | apply State.mkReg_lasts
    | split | with_reducible refine State.lasts_mk ?_ rfl

theorem State.mkDrainL_lasts {q0 : State} (l : List (Nat × Word)) (s : State) (hq : q0.lasts s) : q0.lasts (State.mkDrainL l s) := by
  induction l generalizing s with
  | nil => exact State.lasts_mk hq rfl
  | cons e r ih =>
    unfold State.mkDrainL
    try dsimp only
    repeat' first
      | with_reducible first
        | assumption | apply State.lastsOut_next | apply ih | apply State.mkReg_lasts | refine State.each_lasts _ _ _ ?_ (fun i t ht => ?_)
        | apply State.after_lasts | refine State.lasts_foldl _ _ ?_ (fun t x ht => ?_) | refine State.lasts_foldlP _ _ ?_ (fun t x ht => ?_)
        | refine State.lasts_ite (fun _ => ?_) (fun _ => ?_) | refine State.lasts_iteP (fun _ => ?_) (fun _ => ?_)
        | refine State.lasts_fst (by assumption) ?_
      | intro _ | split | with_reducible refine State.lasts_mk ?_ rfl

theorem State.mkDrain_lasts {q0 : State} (s : State) (hq : q0.lasts s) : q0.lasts (s.mkDrain) := by
  unfold State.mkDrain
  try dsimp only
  repeat' first
    | with_reducible first
      | assumption | apply State.lastsOut_next | apply State.mkDrainL_lasts | refine State.each_lasts _ _ _ ?_ (fun i t ht => ?_)
      | apply State.after_lasts | refine State.lasts_foldl _ _ ?_ (fun t x ht => ?_) | refine State.lasts_foldlP _ _ ?_ (fun t x ht => ?_)
      | refine State.lasts_ite (fun _ => ?_) (fun _ => ?_) | refine State.lasts_iteP (fun _ => ?_) (fun _ => ?_)
      | refine State.lasts_fst (by assumption) ?_
    | intro _ | split | with_reducible refine State.lasts_mk ?_ rfl

theorem execMarkCtlWrite_lasts {q0 : State} (n : Fin 1024) (v : Word) (s : State) (hq : q0.lasts s) :
    q0.lastsOut (execMarkCtlWrite n v s) := by
  unfold execMarkCtlWrite
  try dsimp only
  repeat' first
    | with_reducible first | assumption | apply State.lastsOut_next | apply State.mkWrite_lasts

theorem State.skipMark_lasts {q0 : State} (s : State) (a n : Nat) (hq : q0.lasts s) :
    q0.lasts (State.skipMark s a n) := by
  unfold State.skipMark
  try dsimp only
  repeat' first
    | with_reducible first | assumption | apply State.setMark_lasts | apply State.raise_lasts
    | with_reducible refine State.lasts_mk ?_ rfl

theorem State.enterWin_lasts {q0 : State} (s : State) (a n : Nat) (up : Bool) (p : Int) (hq : q0.lasts s) :
    q0.lasts (State.enterWin s a n up p) := by
  unfold State.enterWin
  try dsimp only
  repeat' first
    | with_reducible first | assumption | apply State.setMkAx_lasts | refine State.lasts_fst (by assumption) ?_
    | split | with_reducible refine State.lasts_mk ?_ rfl

theorem execMarkInsertDone_lasts {q0 : State} (a : Fin 8) (s : State) (hq : q0.lasts s) :
    q0.lastsOut (execMarkInsertDone a s) := by
  unfold execMarkInsertDone
  try dsimp only
  repeat' first
    | with_reducible first
      | assumption | apply State.lastsOut_next | apply State.setMkAx_lasts | apply State.setMark_lasts | apply State.skipMark_lasts
      | apply State.enterWin_lasts | apply State.enqueue_lasts | apply State.mkDrain_lasts | refine State.lasts_fst (by assumption) ?_
    | split | with_reducible refine State.lasts_mk ?_ rfl

theorem State.crossMark_lasts {q0 : State} (s : State) (a : Nat) (y x : BusAxis) (t n : Nat) (hq : q0.lasts s) :
    q0.lasts (State.crossMark s a y x t n) := by
  unfold State.crossMark
  try dsimp only
  repeat' first
    | with_reducible first
      | assumption | apply step_lasts | apply State.setMark_lasts | apply State.skipMark_lasts | refine State.lasts_fst (by assumption) ?_
    | split | with_reducible refine State.lasts_mk ?_ rfl

theorem State.afterCommit_lasts {q0 : State} (s : State) (a n : Nat) (up : Bool) (hq : q0.lasts s) :
    q0.lasts (State.afterCommit s a n up) := by
  unfold State.afterCommit
  try dsimp only
  repeat' first
    | with_reducible first
      | assumption | apply State.setMark_lasts | apply State.setMkAx_lasts | apply State.enqueue_lasts
    | split | with_reducible refine State.lasts_mk ?_ rfl

theorem State.commitMark_lasts {q0 : State} (s : State) (a : Nat) (x : BusAxis) (c0 : Nat) (c : Cand) (hq : q0.lasts s) :
    q0.lasts (State.commitMark s a x c0 c) := by
  unfold State.commitMark
  try dsimp only
  repeat' first
    | with_reducible first
      | assumption | apply State.hiCommit_lasts | apply State.setMark_lasts | apply State.afterCommit_lasts | apply State.after_lasts
    | split | with_reducible refine State.lasts_mk ?_ rfl

theorem State.engineAxis_lasts {q0 : State} (s : State) (a : Nat) (hq : q0.lasts s) :
    q0.lasts (State.engineAxis s a) := by
  unfold State.engineAxis
  try dsimp only
  repeat' first
    | with_reducible first
      | assumption | apply State.crossMark_lasts | apply State.setMkAx_lasts | apply State.commitMark_lasts
      | refine State.each_lasts _ _ _ ?_ (fun i t ht => ?_) | refine State.lasts_fst (by assumption) ?_
    | split | with_reducible refine State.lasts_mk ?_ rfl

theorem State.disarmMarks_lasts {q0 : State} (s : State) (hq : q0.lasts s) :
    q0.lasts (State.disarmMarks s) := by
  unfold State.disarmMarks
  try dsimp only
  repeat' first
    | with_reducible first
      | assumption | apply State.hiMarksGone_lasts | apply State.hiFoldIn_lasts | apply State.setMark_lasts
      | refine State.each_lasts _ _ _ ?_ (fun i t ht => ?_) | refine State.lasts_fst (by assumption) ?_
    | split | with_reducible refine State.lasts_mk ?_ rfl

theorem State.mkEffects_lasts {q0 : State} (s : State) (hq : q0.lasts s) :
    q0.lasts (State.mkEffects s) := by
  unfold State.mkEffects
  try dsimp only
  repeat' first
    | with_reducible first
      | assumption | apply State.effectEntry_lasts | apply State.disarmMarks_lasts | apply State.mkDrain_lasts
      | refine State.lasts_foldl _ _ ?_ (fun t x ht => ?_) | refine State.lasts_foldlP _ _ ?_ (fun t x ht => ?_)
      | refine State.lasts_fst (by assumption) ?_
    | split | with_reducible refine State.lasts_mk ?_ rfl

theorem execMarkEngineCycle_lasts {q0 : State} (s : State) (hq : q0.lasts s) :
    q0.lastsOut (execMarkEngineCycle s) := by
  unfold execMarkEngineCycle
  try dsimp only
  repeat' first
    | with_reducible first
      | assumption | apply State.lastsOut_next | apply State.engineAxis_lasts | apply State.mkEffects_lasts
      | refine State.each_lasts _ _ _ ?_ (fun i t ht => ?_)
    | split

theorem execDisarmAll_lasts {q0 : State} (s : State) (hq : q0.lasts s) :
    q0.lastsOut (execDisarmAll s) := by
  unfold execDisarmAll
  try dsimp only
  repeat' first
    | with_reducible first | assumption | apply State.lastsOut_next | apply State.mkWrite_lasts

theorem execMkBlkRst_lasts {q0 : State} (s : State) (hq : q0.lasts s) :
    q0.lastsOut (execMkBlkRst s) := by
  unfold execMkBlkRst
  try dsimp only
  repeat' first
    | with_reducible first
      | assumption | apply State.lastsOut_next | apply State.hiMarksGone_lasts | apply State.clearRegs_lasts | apply State.blkRst_lasts
    | with_reducible refine State.lasts_mk ?_ rfl

theorem State.transition_lasts {q0 : State} (s : State) (n : Nat) (want : Int) (level : Bool) (hq : q0.lasts s) :
    q0.lasts (State.transition s n want level) := by
  unfold State.transition
  try dsimp only
  repeat' first
    | with_reducible first
      | assumption | apply State.setCuff_lasts | apply State.bump_lasts | apply State.raiseF_lasts | refine State.lasts_fst (by assumption) ?_
    | split | with_reducible refine State.lasts_mk ?_ rfl

theorem State.cuffDue_lasts {q0 : State} (s : State) (n : Nat) (hq : q0.lasts s) :
    q0.lasts (State.cuffDue s n) := by
  unfold State.cuffDue
  try dsimp only
  repeat' first
    | with_reducible first
      | assumption | apply State.setCuff_lasts | apply State.transition_lasts | refine State.lasts_fst (by assumption) ?_
    | split | with_reducible refine State.lasts_mk ?_ rfl

theorem execCuffTransition_lasts {q0 : State} (n : Fin 200) (lvl oe : Bool) (tap : BitVec 7) (s0 : State) (hq : q0.lasts s0) :
    q0.lastsOut (execCuffTransition n lvl oe tap s0) := by
  unfold execCuffTransition
  try dsimp only
  repeat' first
    | with_reducible first
      | assumption | apply State.lastsOut_next | apply State.setCuff_lasts | apply State.transition_lasts | apply State.uioDrive_lasts
      | apply State.cuffDue_lasts | refine State.lasts_fst (by assumption) ?_
    | split | with_reducible refine State.lasts_mk ?_ rfl

theorem State.dropEdges_lasts {q0 : State} (s : State) (n : Nat) (count : Bool) (hq : q0.lasts s) :
    q0.lasts (State.dropEdges s n count) := by
  unfold State.dropEdges
  try dsimp only
  repeat' first
    | with_reducible first | assumption | apply State.setCuff_lasts | apply State.bump_lasts
    | split | with_reducible refine State.lasts_mk ?_ rfl

theorem execCfCfgWrite_lasts {q0 : State} (n : Fin 128) (v : Word) (s : State) (hq : q0.lasts s) :
    q0.lastsOut (execCfCfgWrite n v s) := by
  unfold execCfCfgWrite
  try dsimp only
  repeat' first
    | with_reducible first
      | assumption | apply State.lastsOut_next | apply State.store_lasts | apply State.setCuff_lasts | apply State.dropEdges_lasts
      | apply State.transition_lasts
    | split | with_reducible refine State.lasts_mk ?_ rfl

theorem State.capture_lasts {q0 : State} (s : State) (k src kind mask : Nat) (inst : Int) (hq : q0.lasts s) :
    q0.lasts (State.capture s k src kind mask inst) := by
  unfold State.capture
  try dsimp only
  repeat' first
    | with_reducible first
      | assumption | apply State.setRb_lasts | apply State.raiseF_lasts | apply State.setRg_lasts | apply State.capPositions_lasts
      | apply State.hxCapture_lasts
    | split | with_reducible refine State.lasts_mk ?_ rfl

theorem execCuffInputCapture_lasts {q0 : State} (n : Fin 128) (s : State) (hq : q0.lasts s) :
    q0.lastsOut (execCuffInputCapture n s) := by
  unfold execCuffInputCapture
  try dsimp only
  repeat' first
    | with_reducible first
      | assumption | apply State.lastsOut_next | apply State.setCuff_lasts | apply State.capture_lasts
      | refine State.lasts_fst (by assumption) ?_
    | split | with_reducible refine State.lasts_mk ?_ rfl

theorem execCfBlkRst_lasts {q0 : State} (s : State) (hq : q0.lasts s) :
    q0.lastsOut (execCfBlkRst s) := by
  unfold execCfBlkRst
  try dsimp only
  repeat' first
    | with_reducible first
      | assumption | apply State.lastsOut_next | apply State.clearRegs_lasts | apply State.blkRst_lasts | apply State.setCuff_lasts
      | apply State.transition_lasts | refine State.each_lasts _ _ _ ?_ (fun i t ht => ?_)
    | split | with_reducible refine State.lasts_mk ?_ rfl

theorem State.setSyn_lasts {q0 : State} (s : State) (a v : Nat) (hq : q0.lasts s) :
    q0.lasts (State.setSyn s a v) :=
  State.lasts_mk hq rfl

theorem State.storeWord_lasts {q0 : State} (s : State) (a d : Nat) (hq : q0.lasts s) :
    q0.lasts (State.storeWord s a d) := by
  unfold State.storeWord
  try dsimp only
  repeat' first
    | with_reducible first | assumption | apply State.setNum_lasts | apply State.setSyn_lasts
    | with_reducible refine State.lasts_mk ?_ rfl

theorem State.storePoison_lasts {q0 : State} (s : State) (a : Nat) (hq : q0.lasts s) :
    q0.lasts (State.storePoison s a) := by
  unfold State.storePoison
  try dsimp only
  repeat' first
    | with_reducible first | assumption | apply State.storeWord_lasts | apply State.setSyn_lasts

theorem State.invert_lasts {q0 : State} (s : State) (a dm cm : Nat) (hq : q0.lasts s) :
    q0.lasts (State.invert s a dm cm) := by
  unfold State.invert
  try dsimp only
  repeat' first
    | with_reducible first | assumption | apply State.setNum_lasts | apply State.setSyn_lasts

theorem State.flip_lasts {q0 : State} (s : State) (a : Nat) (hq : q0.lasts s) :
    q0.lasts (State.flip s a) := by
  unfold State.flip
  try dsimp only
  repeat' first
    | with_reducible first
      | assumption | apply State.setRb_lasts | apply State.invert_lasts | refine State.lasts_foldl _ _ ?_ (fun t x ht => ?_)
      | refine State.lasts_foldlP _ _ ?_ (fun t x ht => ?_) | refine State.lasts_fst (by assumption) ?_
    | split

theorem State.logEcc_lasts {q0 : State} (s : State) (a kind source syn bit : Nat) (hq : q0.lasts s) :
    q0.lasts (State.logEcc s a kind source syn bit) := by
  unfold State.logEcc
  try dsimp only
  repeat' first
    | with_reducible first
      | assumption | apply State.bump_lasts | apply State.raiseF_lasts | apply State.setRg_lasts | refine State.lasts_fst (by assumption) ?_
    | split

theorem State.report_lasts {q0 : State} (s : State) (det : Nat) (elems : List (Nat × Nat)) (hq : q0.lasts s) :
    q0.lasts (State.report s det elems) :=
  State.lasts_mk hq rfl

theorem State.readWord_lasts {q0 : State} (s : State) (a source : Nat) (hq : q0.lasts s) :
    q0.lasts (State.readWord s a source).1 := by
  unfold State.readWord
  try dsimp only
  repeat' first
    | with_reducible first
      | assumption | apply State.logEcc_lasts | apply State.report_lasts | refine State.lasts_fst (by assumption) ?_
    | split | with_reducible refine State.lasts_mk ?_ rfl

theorem State.writeWord_lasts {q0 : State} (s : State) (a source d en : Nat) (hq : q0.lasts s) :
    q0.lasts (State.writeWord s a source d en).1 := by
  unfold State.writeWord
  try dsimp only
  repeat' first
    | with_reducible first
      | assumption | apply State.storeWord_lasts | apply State.readWord_lasts | refine State.lasts_foldl _ _ ?_ (fun t x ht => ?_)
      | refine State.lasts_foldlP _ _ ?_ (fun t x ht => ?_) | refine State.lasts_fst (by assumption) ?_
    | split

theorem State.writeGo_lasts {q0 : State} (s : State) (source : Nat) (l : List (Nat × Nat × Nat)) (h : q0.lasts s) : q0.lasts (State.writeGo s source l).1 := by
  induction l generalizing s with
  | nil => exact h
  | cons e r ih => exact ih _ (State.writeWord_lasts _ _ _ _ _ h)

theorem State.writeWords_lasts {q0 : State} (s : State) (source : Nat) (l : List (Nat × Nat × Nat)) (h : q0.lasts s) :
    q0.lasts (s.writeWords source l).1 := by
  unfold State.writeWords
  try dsimp only
  repeat' first
    | with_reducible first
      | assumption | apply State.lastsOut_next | apply State.flip_lasts | apply State.writeGo_lasts
      | refine State.each_lasts _ _ _ ?_ (fun i t ht => ?_) | apply State.after_lasts | refine State.lasts_foldl _ _ ?_ (fun t x ht => ?_)
      | refine State.lasts_foldlP _ _ ?_ (fun t x ht => ?_) | refine State.lasts_ite (fun _ => ?_) (fun _ => ?_)
      | refine State.lasts_iteP (fun _ => ?_) (fun _ => ?_) | refine State.lasts_fst (by assumption) ?_
    | intro _ | split | with_reducible refine State.lasts_mk ?_ rfl

theorem State.readWords_lasts {q0 : State} (s : State) (source : Nat) (l : List Nat) (h : q0.lasts s) : q0.lasts (State.readWords s source l).1 := by
  induction l generalizing s with
  | nil =>
    unfold State.readWords
    try dsimp only
    repeat' first
      | with_reducible first
        | assumption | apply State.lastsOut_next | refine State.each_lasts _ _ _ ?_ (fun i t ht => ?_) | apply State.after_lasts
        | refine State.lasts_foldl _ _ ?_ (fun t x ht => ?_) | refine State.lasts_foldlP _ _ ?_ (fun t x ht => ?_)
        | refine State.lasts_ite (fun _ => ?_) (fun _ => ?_) | refine State.lasts_iteP (fun _ => ?_) (fun _ => ?_)
        | refine State.lasts_fst (by assumption) ?_
      | intro _ | split | with_reducible refine State.lasts_mk ?_ rfl
  | cons e r ih =>
    unfold State.readWords
    try dsimp only
    repeat' first
      | with_reducible first
        | assumption | apply State.lastsOut_next | apply ih | apply State.readWord_lasts | refine State.each_lasts _ _ _ ?_ (fun i t ht => ?_)
        | apply State.after_lasts | refine State.lasts_foldl _ _ ?_ (fun t x ht => ?_) | refine State.lasts_foldlP _ _ ?_ (fun t x ht => ?_)
        | refine State.lasts_ite (fun _ => ?_) (fun _ => ?_) | refine State.lasts_iteP (fun _ => ?_) (fun _ => ?_)
        | refine State.lasts_fst (by assumption) ?_
      | intro _ | split | with_reducible refine State.lasts_mk ?_ rfl

theorem State.clearMem_lasts {q0 : State} (s : State) (lo hi : Nat) (hq : q0.lasts s) : q0.lasts (s.clearMem lo hi) :=
  ⟨hq.pend, hq.otp, fun hw => Tab.wf_filter memDefault _ _ (hq.mem hw)⟩

theorem State.setExit_lasts {q0 : State} (s : State) (e : Nat) (x : ExitCnt) (hq : q0.lasts s) :
    q0.lasts (State.setExit s e x) :=
  State.lasts_mk hq rfl

theorem State.setGrp_lasts {q0 : State} (s : State) (g : Nat) (x : Grp) (hq : q0.lasts s) :
    q0.lasts (State.setGrp s g x) :=
  State.lasts_mk hq rfl

theorem State.exitPass_lasts {q0 : State} (s : State) (e : Nat) (hq : q0.lasts s) :
    q0.lasts (State.exitPass s e).1 := by
  unfold State.exitPass
  try dsimp only
  repeat' first
    | with_reducible first | assumption | apply State.setExit_lasts
    | split | with_reducible refine State.lasts_mk ?_ rfl

theorem State.exitMark_lasts {q0 : State} (s : State) (e : Nat) (hq : q0.lasts s) :
    q0.lasts (State.exitMark s e) := by
  unfold State.exitMark
  try dsimp only
  repeat' first
    | with_reducible first | assumption | apply State.setExit_lasts
    | with_reducible refine State.lasts_mk ?_ rfl

theorem State.openGroup_lasts {q0 : State} (s : State) (g : Nat) (hq : q0.lasts s) :
    q0.lasts (State.openGroup s g) := by
  unfold State.openGroup
  try dsimp only
  repeat' first
    | with_reducible first | assumption | apply State.setRb_lasts | apply State.raiseF_lasts
    | split

theorem State.crossGroups_lasts {q0 : State} (s : State) (t1 t2 : Nat) (hq : q0.lasts s) :
    q0.lasts (State.crossGroups s t1 t2) := by
  unfold State.crossGroups
  try dsimp only
  repeat' first
    | with_reducible first | assumption | apply State.openGroup_lasts | refine State.lasts_fst (by assumption) ?_
    | split

theorem State.lcEmit_lasts {q0 : State} (s : State) (p typ src dst hops seq : Nat) (time : Int) (fields : List Int) (hq : q0.lasts s) :
    q0.lasts (State.lcEmit s p typ src dst hops seq time fields) := by
  unfold State.lcEmit
  try dsimp only
  repeat' first
    | with_reducible first | assumption | apply State.emit_lasts

theorem State.lcSendOn_lasts {q0 : State} (s : State) (p typ dst : Nat) (time : Int) (fields : List Int) (hq : q0.lasts s) :
    q0.lasts (State.lcSendOn s p typ dst time fields) := by
  unfold State.lcSendOn
  try dsimp only
  repeat' first
    | with_reducible first | assumption | apply State.lcEmit_lasts
    | split

theorem State.lcSeqNext_lasts {q0 : State} (s : State) (hq : q0.lasts s) :
    q0.lasts (State.lcSeqNext s) :=
  State.lasts_mk hq rfl

theorem State.lcBroadcast_lasts {q0 : State} (s : State) (typ : Nat) (time : Int) (fields : List Int) (hq : q0.lasts s) :
    q0.lasts (State.lcBroadcast s typ time fields) := by
  unfold State.lcBroadcast
  try dsimp only
  repeat' first
    | with_reducible first | assumption | apply State.lcSendOn_lasts | apply State.lcSeqNext_lasts

theorem State.lcLose_lasts {q0 : State} (s : State) (n : Nat) (hq : q0.lasts s) :
    q0.lasts (State.lcLose s n) := by
  unfold State.lcLose
  try dsimp only
  repeat' first
    | with_reducible first | assumption | apply State.bump_lasts | apply State.raiseF_lasts
    | split

theorem State.lcSendTo_lasts {q0 : State} (s : State) (typ d : Nat) (time : Int) (fields : List Int) (hq : q0.lasts s) :
    q0.lasts (State.lcSendTo s typ d time fields).1 := by
  unfold State.lcSendTo
  try dsimp only
  repeat' first
    | with_reducible first
      | assumption | apply State.lcSendOn_lasts | apply State.lcSeqNext_lasts | refine State.lasts_fst (by assumption) ?_
    | split

theorem State.lcAnswer_lasts {q0 : State} (s : State) (dev seq : Nat) (p : Packet) (hq : q0.lasts s) :
    q0.lasts (State.lcAnswer s dev seq p) := by
  unfold State.lcAnswer
  try dsimp only
  repeat' first
    | with_reducible first
      | assumption | apply State.lcSendTo_lasts | apply State.lcLose_lasts | refine State.lasts_fst (by assumption) ?_
    | split

theorem State.lcResponse_lasts {q0 : State} (s : State) (key status : Nat) (p : Packet) (hq : q0.lasts s) :
    q0.lasts (State.lcResponse s key status p) := by
  unfold State.lcResponse
  try dsimp only
  repeat' first
    | with_reducible first | assumption | apply State.lcAnswer_lasts | refine State.lasts_fst (by assumption) ?_
    | split | with_reducible refine State.lasts_mk ?_ rfl

theorem State.setCsr_lasts {q0 : State} (s : State) (n : Nat) (v : Word) (hq : q0.lasts s) :
    q0.lasts (State.setCsr s n v) :=
  State.lasts_mk hq rfl

theorem State.setWinReg_lasts {q0 : State} (s : State) (win n : Nat) (v : Word) (hq : q0.lasts s) :
    q0.lasts (State.setWinReg s win n v) :=
  State.lasts_mk hq rfl

theorem State.setOct_lasts {q0 : State} (s : State) (r : Reg) (v : Word) (hq : q0.lasts s) :
    q0.lasts (State.setOct s r v) := by
  unfold State.setOct
  try dsimp only
  repeat' first
    | with_reducible first | assumption | apply State.setWinReg_lasts
    | split | with_reducible refine State.lasts_mk ?_ rfl

theorem State.setPc_lasts {q0 : State} (s : State) (v : Word) (hq : q0.lasts s) :
    q0.lasts (State.setPc s v) :=
  State.lasts_mk hq rfl

theorem State.octNext_lasts {q0 : State} (s : State) (hq : q0.lasts s) :
    q0.lasts (State.octNext s) := by
  unfold State.octNext
  try dsimp only
  repeat' first
    | with_reducible first | assumption | apply State.setPc_lasts

theorem State.octHalt_lasts {q0 : State} (s : State) (hq : q0.lasts s) :
    q0.lasts (State.octHalt s) := by
  unfold State.octHalt
  try dsimp only
  repeat' first
    | with_reducible first | assumption | apply State.raiseF_lasts
    | with_reducible refine State.lasts_mk ?_ rfl

theorem State.octTrap_lasts {q0 : State} (s : State) (cause status : Nat) (tpc tval : Word) (hq : q0.lasts s) :
    q0.lasts (State.octTrap s cause status tpc tval) := by
  unfold State.octTrap
  try dsimp only
  repeat' first
    | with_reducible first
      | assumption | apply State.setRg_lasts | apply State.raiseF_lasts | apply State.setCsr_lasts | apply State.setPc_lasts
    | split | with_reducible refine State.lasts_mk ?_ rfl

theorem State.octFault_lasts {q0 : State} (s : State) (cause : Nat) (tval : Word) (hq : q0.lasts s) :
    q0.lasts (State.octFault s cause tval) := by
  unfold State.octFault
  try dsimp only
  repeat' first
    | with_reducible first | assumption | apply State.octTrap_lasts

theorem State.octBusErr_lasts {q0 : State} (s : State) (status : Nat) (addr : Word) (hq : q0.lasts s) :
    q0.lasts (State.octBusErr s status addr) := by
  unfold State.octBusErr
  try dsimp only
  repeat' first
    | with_reducible first | assumption | apply State.octTrap_lasts

theorem State.coreResponse_lasts {q0 : State} (s : State) (status : Nat) (data : List (BitVec 256)) (hq : q0.lasts s) :
    q0.lasts (State.coreResponse s status data) := by
  unfold State.coreResponse
  try dsimp only
  repeat' first
    | with_reducible first
      | assumption | apply State.octBusErr_lasts | apply State.setOct_lasts | apply State.octNext_lasts
      | refine State.lasts_fst (by assumption) ?_
    | split | with_reducible refine State.lasts_mk ?_ rfl

end Sys2Proof.Machine
end

