-- ==== Sys2Proof/Laws/LastsNetwork.lean ====
section
/-! SUPPORT. What no command takes away (State.lasts), operation by operation: the network, stream memory and queues. -/

set_option linter.unusedVariables false
set_option linter.unusedSimpArgs false

namespace Sys2Proof.Machine

theorem State.setQu_lasts {q0 : State} (s : State) (q : Nat) (x : Queue) (hq : q0.lasts s) :
    q0.lasts (State.setQu s q x) :=
  State.lasts_mk hq rfl

theorem State.putEntry_lasts {q0 : State} (s : State) (q i : Nat) (d status : Nat) (hq : q0.lasts s) :
    q0.lasts (State.putEntry s q i d status) := by
  unfold State.putEntry
  try dsimp only
  repeat' first
    | with_reducible first | assumption | apply State.setQu_lasts | refine State.lasts_fst (by assumption) ?_
    | split | with_reducible refine State.lasts_mk ?_ rfl

theorem State.queueResponse_lasts {q0 : State} (s : State) (key status : Nat) (data : List (BitVec 256)) (hq : q0.lasts s) :
    q0.lasts (State.queueResponse s key status data) := by
  unfold State.queueResponse
  try dsimp only
  repeat' first
    | with_reducible first
      | assumption | apply State.setQu_lasts | apply State.putEntry_lasts | refine State.lasts_fst (by assumption) ?_
    | split | with_reducible refine State.lasts_mk ?_ rfl

theorem State.writeLost_lasts {q0 : State} (s : State) (hq : q0.lasts s) :
    q0.lasts (State.writeLost s) := by
  unfold State.writeLost
  try dsimp only
  repeat' first
    | with_reducible first | assumption | apply State.bump_lasts | apply State.raiseF_lasts

theorem State.nwLog_lasts {q0 : State} (s : State) (node point kind cmd : Nat) (hq : q0.lasts s) :
    q0.lasts (State.nwLog s node point kind cmd) := by
  unfold State.nwLog
  try dsimp only
  repeat' first
    | with_reducible first | assumption | apply State.setRg_lasts | apply State.cmd_lasts

theorem State.tracePort_lasts {q0 : State} (s : State) (hq : q0.lasts s) :
    q0.lasts (State.tracePort s) := by
  unfold State.tracePort
  try dsimp only
  repeat' first
    | with_reducible first
      | assumption | apply State.emit_lasts | refine State.lasts_foldl _ _ ?_ (fun t x ht => ?_)
      | refine State.lasts_foldlP _ _ ?_ (fun t x ht => ?_)
    | split | with_reducible refine State.lasts_mk ?_ rfl

theorem State.traceRecord_lasts {q0 : State} (s : State) (rec : List Byte) (hq : q0.lasts s) :
    q0.lasts (State.traceRecord s rec) := by
  unfold State.traceRecord
  try dsimp only
  repeat' first
    | with_reducible first
      | assumption | apply State.tracePort_lasts | apply State.bump_lasts | apply State.raiseF_lasts
    | split | with_reducible refine State.lasts_mk ?_ rfl

theorem State.probeBytes_lasts {q0 : State} (s : State) (k n : Nat) (hq : q0.lasts s) :
    q0.lasts (State.probeBytes s k n) := by
  unfold State.probeBytes
  try dsimp only
  repeat' first
    | with_reducible first | assumption | apply State.setRg64_lasts

theorem State.probeAt_lasts {q0 : State} (s : State) (k node point : Nat) (p : Packet) (hq : q0.lasts s) :
    q0.lasts (State.probeAt s k node point p) := by
  unfold State.probeAt
  try dsimp only
  repeat' first
    | with_reducible first
      | assumption | apply State.bump_lasts | apply State.probeBytes_lasts | apply State.traceRecord_lasts
    | split

theorem State.probes_lasts {q0 : State} (s : State) (node point : Nat) (p : Packet) (hq : q0.lasts s) :
    q0.lasts (State.probes s node point p) := by
  unfold State.probes
  try dsimp only
  repeat' first
    | with_reducible first
      | assumption | apply State.probeAt_lasts | refine State.each_lasts _ _ _ ?_ (fun i t ht => ?_)

theorem State.setNq_lasts {q0 : State} (s : State) (k : QKey) (l : List NetUnit) (hq : q0.lasts s) :
    q0.lasts (State.setNq s k l) := by
  unfold State.setNq
  try dsimp only
  repeat' first
    | with_reducible first | assumption
    | split | with_reducible refine State.lasts_mk ?_ rfl

theorem State.setPkt_lasts {q0 : State} (s : State) (id : Nat) (p : Packet) (hq : q0.lasts s) :
    q0.lasts (State.setPkt s id p) :=
  State.lasts_mk hq rfl

theorem State.dropPkt_lasts {q0 : State} (s : State) (id : Nat) (hq : q0.lasts s) :
    q0.lasts (State.dropPkt s id) :=
  State.lasts_mk hq rfl

theorem State.setWaiting_lasts {q0 : State} (s : State) (k : QKey) (l : List NetUnit) (hq : q0.lasts s) :
    q0.lasts (State.setWaiting s k l) := by
  unfold State.setWaiting
  try dsimp only
  repeat' first
    | with_reducible first | assumption
    | split | with_reducible refine State.lasts_mk ?_ rfl

theorem State.stamp_lasts {q0 : State} (s : State) (k : QKey) (id : Nat) (hq : q0.lasts s) :
    q0.lasts (State.stamp s k id) := by
  unfold State.stamp
  try dsimp only
  repeat' first
    | with_reducible first
      | assumption | apply State.hop_lasts | apply State.setPkt_lasts | apply State.probes_lasts | refine State.lasts_fst (by assumption) ?_
    | split | with_reducible refine State.lasts_mk ?_ rfl

theorem State.nwRefill_lasts {q0 : State} (s : State) (k : QKey) (n : Nat) (h : q0.lasts s) : q0.lasts (s.nwRefill k n) := by
  induction n generalizing s with
  | zero => exact h
  | succ n ih =>
    unfold State.nwRefill
    try dsimp only
    repeat' first
      | with_reducible first
        | assumption | apply State.lastsOut_next | apply ih | apply State.stamp_lasts | apply State.setNq_lasts | apply State.setWaiting_lasts
        | refine State.each_lasts _ _ _ ?_ (fun i t ht => ?_) | apply State.after_lasts | refine State.lasts_foldl _ _ ?_ (fun t x ht => ?_)
        | refine State.lasts_foldlP _ _ ?_ (fun t x ht => ?_) | refine State.lasts_ite (fun _ => ?_) (fun _ => ?_)
        | refine State.lasts_iteP (fun _ => ?_) (fun _ => ?_) | refine State.lasts_fst (by assumption) ?_
      | intro _ | split | with_reducible refine State.lasts_mk ?_ rfl

theorem State.injectAt_lasts {q0 : State} (s : State) (node inp : Nat) (p0 : Packet) (hq : q0.lasts s) :
    q0.lasts (State.injectAt s node inp p0) := by
  unfold State.injectAt
  try dsimp only
  repeat' first
    | with_reducible first | assumption | apply State.setWaiting_lasts | apply State.nwRefill_lasts
    | with_reducible refine State.lasts_mk ?_ rfl

theorem State.inject_lasts {q0 : State} (s : State) (p : Packet) (hq : q0.lasts s) :
    q0.lasts (State.inject s p) := by
  unfold State.inject
  try dsimp only
  repeat' first
    | with_reducible first | assumption | apply State.injectAt_lasts

theorem State.answerErr_lasts {q0 : State} (s : State) (node inp : Nat) (p : Packet) (status : Nat) (hq : q0.lasts s) :
    q0.lasts (State.answerErr s node inp p status) := by
  unfold State.answerErr
  try dsimp only
  repeat' first
    | with_reducible first | assumption | apply State.injectAt_lasts
    | with_reducible refine State.lasts_mk ?_ rfl

theorem State.issue_lasts {q0 : State} (s : State) (h : Held) (tag : Nat) (hq : q0.lasts s) :
    q0.lasts (State.issue s h tag) := by
  unfold State.issue
  try dsimp only
  repeat' first
    | with_reducible first | assumption | apply State.inject_lasts
    | with_reducible refine State.lasts_mk ?_ rfl

theorem State.issueHeld_lasts {q0 : State} (s : State) (hq : q0.lasts s) :
    q0.lasts (State.issueHeld s) := by
  unfold State.issueHeld
  try dsimp only
  repeat' first
    | with_reducible first
      | assumption | apply State.issue_lasts | refine State.lasts_foldl _ _ ?_ (fun t x ht => ?_)
      | refine State.lasts_foldlP _ _ ?_ (fun t x ht => ?_) | refine State.lasts_fst (by assumption) ?_
    | split | with_reducible refine State.lasts_mk ?_ rfl

theorem State.requestAs_lasts {q0 : State} (s : State) (h : Held) (old : Option Nat) (hq : q0.lasts s) :
    q0.lasts (State.requestAs s h old) := by
  unfold State.requestAs
  try dsimp only
  repeat' first
    | with_reducible first
      | assumption | apply State.issueHeld_lasts | apply State.issue_lasts | refine State.lasts_fst (by assumption) ?_
    | split | with_reducible refine State.lasts_mk ?_ rfl

theorem State.request_lasts {q0 : State} (s : State) (p : Packet) (hq : q0.lasts s) :
    q0.lasts (State.request s p) := by
  unfold State.request
  try dsimp only
  repeat' first
    | with_reducible first | assumption | apply State.requestAs_lasts
    | with_reducible refine State.lasts_mk ?_ rfl

theorem State.hdrPar_lasts {q0 : State} (s : State) (p : Packet) (hq : q0.lasts s) :
    q0.lasts (State.hdrPar s p) := by
  unfold State.hdrPar
  try dsimp only
  repeat' first
    | with_reducible first
      | assumption | apply State.raiseF_lasts | apply State.nwLog_lasts | apply State.cmd_lasts | apply State.report_lasts

theorem State.reqDone_lasts {q0 : State} (s : State) (o : Outst) (st : Nat) (p : Packet) (hq : q0.lasts s) :
    q0.lasts (State.reqDone s o st p) := by
  unfold State.reqDone
  try dsimp only
  repeat' first
    | with_reducible first
      | assumption | apply State.coreResponse_lasts | apply State.hiResponse_lasts | apply State.lcResponse_lasts
      | apply State.queueResponse_lasts | apply State.emit_lasts
    | split

theorem State.unboxed_lasts {q0 : State} (s : State) (p : Packet) (hq : q0.lasts s) :
    q0.lasts (State.unboxed s p) :=
  State.lasts_mk hq rfl

theorem State.takeResponse_lasts {q0 : State} (s : State) (p : Packet) (hq : q0.lasts s) :
    q0.lasts (State.takeResponse s p) := by
  unfold State.takeResponse
  try dsimp only
  repeat' first
    | with_reducible first
      | assumption | apply State.unboxed_lasts | apply State.raiseF_lasts | apply State.hdrPar_lasts | apply State.requestAs_lasts
      | apply State.reqDone_lasts | apply State.issueHeld_lasts | refine State.lasts_fst (by assumption) ?_
    | split | with_reducible refine State.lasts_mk ?_ rfl

theorem execNwRdata_lasts {q0 : State} (p : Packet) (s : State) (hq : q0.lasts s) :
    q0.lastsOut (execNwRdata p s) := by
  unfold execNwRdata
  try dsimp only
  repeat' first
    | with_reducible first
      | assumption | apply State.lastsOut_next | apply State.cmd_lasts | apply State.takeResponse_lasts
    | split

theorem execNwAck_lasts {q0 : State} (p : Packet) (s : State) (hq : q0.lasts s) :
    q0.lastsOut (execNwAck p s) := by
  unfold execNwAck
  try dsimp only
  repeat' first
    | with_reducible first
      | assumption | apply State.lastsOut_next | apply State.cmd_lasts | apply State.takeResponse_lasts
    | split

theorem execNwMrsp_lasts {q0 : State} (p : Packet) (s : State) (hq : q0.lasts s) :
    q0.lastsOut (execNwMrsp p s) := by
  unfold execNwMrsp
  try dsimp only
  repeat' first
    | with_reducible first
      | assumption | apply State.lastsOut_next | apply State.cmd_lasts | apply State.takeResponse_lasts
    | split

theorem execResponseTimeout_lasts {q0 : State} (s : State) (hq : q0.lasts s) :
    q0.lastsOut (execResponseTimeout s) := by
  unfold execResponseTimeout
  try dsimp only
  repeat' first
    | with_reducible first
      | assumption | apply State.lastsOut_next | apply State.raiseF_lasts | apply State.nwLog_lasts | apply State.cmd_lasts
      | apply State.report_lasts | apply State.reqDone_lasts | apply State.issueHeld_lasts | refine State.lasts_fst (by assumption) ?_
    | split | with_reducible refine State.lasts_mk ?_ rfl

theorem State.unroutable_lasts {q0 : State} (s : State) (node id : Nat) (p : Packet) (status : Nat) (hq : q0.lasts s) :
    q0.lasts (State.unroutable s node id p status) := by
  unfold State.unroutable
  try dsimp only
  repeat' first
    | with_reducible first
      | assumption | apply State.dropPkt_lasts | apply State.raiseF_lasts | apply State.nwLog_lasts | apply State.cmd_lasts
      | apply State.answerErr_lasts
    | split

theorem State.deliver_lasts {q0 : State} (s : State) (id : Nat) (p : Packet) (bad : Bool) (hq : q0.lasts s) :
    q0.lasts (State.deliver s id p bad) := by
  unfold State.deliver
  try dsimp only
  repeat' first
    | with_reducible first | assumption | apply State.dropPkt_lasts
    | split | with_reducible refine State.lasts_mk ?_ rfl

theorem State.moveUnit_lasts {q0 : State} (s : State) (node out : Nat) (c : NetCand) (hq : q0.lasts s) : q0.lasts (s.moveUnit node out c) := by
  unfold State.moveUnit
  extract_lets s1 last hs hs1 hs2 src s2 s3 u s4 t4 bad src4 t5
  have h1 : q0.lasts s1 := State.nwRefill_lasts _ _ _ (State.setNq_lasts _ _ _ hq)
  have h3 : q0.lasts s3 := by
    have h2 : q0.lasts s2 := State.lasts_mk h1 rfl
    unfold s3
    split
    · exact State.setPkt_lasts _ _ _ h2
    · exact h2
  have h4 : q0.lasts s4 := State.setNq_lasts _ _ _ h3
  have ht4 : q0.lasts t4 := by
    unfold t4
    split
    · exact State.probes_lasts _ _ _ _ h3
    · exact h3
  have h5 : q0.lasts t5 := by
    unfold t5
    split
    · exact State.lasts_mk ht4 rfl
    · exact ht4
  clear_value s4 t4 t5
  split
  · split
    · exact State.probes_lasts _ _ _ _ h4
    · exact h4
  · split
    · exact State.deliver_lasts _ _ _ _ h5
    · exact h5

theorem State.recordCut_lasts {q0 : State} (s : State) (at_ node link : Nat) (hq : q0.lasts s) :
    q0.lasts (State.recordCut s at_ node link) := by
  unfold State.recordCut
  try dsimp only
  repeat' first
    | with_reducible first | assumption | apply State.setRf_lasts | apply State.setRb_lasts
    | split | with_reducible refine State.lasts_mk ?_ rfl

theorem State.sendNote_lasts {q0 : State} (s : State) (at_ node link : Nat) (hq : q0.lasts s) :
    q0.lasts (State.sendNote s at_ node link) := by
  unfold State.sendNote
  try dsimp only
  repeat' first
    | with_reducible first | assumption | apply State.injectAt_lasts
    | split

theorem State.cutPackets_lasts {q0 : State} (s : State) (down inp : Nat) (hq : q0.lasts s) :
    q0.lasts (State.cutPackets s down inp) := by
  unfold State.cutPackets
  try dsimp only
  repeat' first
    | with_reducible first
      | assumption | apply State.setPkt_lasts | apply State.setNq_lasts | apply State.raiseF_lasts | apply State.nwLog_lasts
      | apply State.cmd_lasts | refine State.lasts_foldl _ _ ?_ (fun t x ht => ?_) | refine State.lasts_foldlP _ _ ?_ (fun t x ht => ?_)
      | refine State.lasts_fst (by assumption) ?_
    | split | with_reducible refine State.lasts_mk ?_ rfl

theorem State.linkDown_lasts {q0 : State} (s : State) (node link : Nat) (hq : q0.lasts s) :
    q0.lasts (State.linkDown s node link) := by
  unfold State.linkDown
  try dsimp only
  repeat' first
    | with_reducible first
      | assumption | apply State.setRf_lasts | apply State.recordCut_lasts | apply State.cutPackets_lasts | apply State.raiseF_lasts
      | apply State.sendNote_lasts
    | split | with_reducible refine State.lasts_mk ?_ rfl

theorem State.linkFails_lasts {q0 : State} (s : State) (node link : Nat) (hq : q0.lasts s) :
    q0.lasts (State.linkFails s node link) := by
  unfold State.linkFails
  try dsimp only
  repeat' first
    | with_reducible first
      | assumption | apply State.linkDown_lasts | apply State.raise_lasts | apply State.nwLog_lasts | apply State.report_lasts

theorem State.setCrcRun_lasts {q0 : State} (s : State) (node link n : Nat) (hq : q0.lasts s) :
    q0.lasts (State.setCrcRun s node link n) := by
  unfold State.setCrcRun
  try dsimp only
  repeat' first
    | with_reducible first | assumption
    | split | with_reducible refine State.lasts_mk ?_ rfl

theorem State.setReplay_lasts {q0 : State} (s : State) (node link : Nat) (k : Option QKey) (hq : q0.lasts s) :
    q0.lasts (State.setReplay s node link k) := by
  unfold State.setReplay
  try dsimp only
  repeat' first
    | with_reducible first | assumption | refine State.lasts_fst (by assumption) ?_
    | split | with_reducible refine State.lasts_mk ?_ rfl

theorem State.crcFail_lasts {q0 : State} (s : State) (node link : Nat) (hq : q0.lasts s) :
    q0.lasts (State.crcFail s node link) := by
  unfold State.crcFail
  try dsimp only
  repeat' first
    | with_reducible first
      | assumption | apply State.bump_lasts | apply State.nwLog_lasts | apply State.setCrcRun_lasts | apply State.report_lasts
      | apply State.linkFails_lasts
    | split

theorem execLinkIdleTimeout_lasts {q0 : State} (node : Fin 120) (link : Fin 4) (s : State) (hq : q0.lasts s) :
    q0.lastsOut (execLinkIdleTimeout node link s) := by
  unfold execLinkIdleTimeout
  try dsimp only
  repeat' first
    | with_reducible first | assumption | apply State.lastsOut_next | apply State.linkFails_lasts
    | split

theorem State.sendFails_lasts {q0 : State} (s : State) (node out : Nat) (hq : q0.lasts s) :
    q0.lasts (State.sendFails s node out) := by
  unfold State.sendFails
  try dsimp only
  repeat' first
    | with_reducible first
      | assumption | apply State.setReplay_lasts | apply State.crcFail_lasts | refine State.lasts_fst (by assumption) ?_
    | split

theorem execLinkCrcFail_lasts {q0 : State} (node : Fin 120) (link : Fin 4) (s : State) (hq : q0.lasts s) :
    q0.lastsOut (execLinkCrcFail node link s) := by
  unfold execLinkCrcFail
  try dsimp only
  repeat' first
    | with_reducible first | assumption | apply State.lastsOut_next | apply State.sendFails_lasts
    | split

theorem State.traceWrite_lasts {q0 : State} (s : State) (a : Nat) (rec : List Byte) (hq : q0.lasts s) :
    q0.lasts (State.traceWrite s a rec) := by
  unfold State.traceWrite
  try dsimp only
  repeat' first
    | with_reducible first
      | assumption | apply State.request_lasts | refine State.lasts_foldl _ _ ?_ (fun t x ht => ?_)
      | refine State.lasts_foldlP _ _ ?_ (fun t x ht => ?_) | refine State.lasts_fst (by assumption) ?_
    | split | with_reducible refine State.lasts_mk ?_ rfl

theorem State.traceNext_lasts {q0 : State} (s : State) (hq : q0.lasts s) :
    q0.lasts (State.traceNext s) := by
  unfold State.traceNext
  try dsimp only
  repeat' first
    | with_reducible first
      | assumption | apply State.setRg_lasts | apply State.traceWrite_lasts | apply State.raiseF_lasts
      | refine State.lasts_fst (by assumption) ?_
    | split | with_reducible refine State.lasts_mk ?_ rfl

theorem State.traceTurn_lasts {q0 : State} (s : State) (hq : q0.lasts s) :
    q0.lasts (State.traceTurn s) := by
  unfold State.traceTurn
  try dsimp only
  repeat' first
    | with_reducible first
      | assumption | apply State.traceNext_lasts | refine State.lasts_foldl _ _ ?_ (fun t x ht => ?_)
      | refine State.lasts_foldlP _ _ ?_ (fun t x ht => ?_)
    | split

theorem State.hop_lasts {q0 : State} (s : State) (node out : Nat) (hit : Option (Fin 256)) (hq : q0.lasts s) :
    q0.lasts (State.hop s node out hit) := by
  unfold State.hop
  try dsimp only
  repeat' first
    | with_reducible first
      | assumption | apply State.setRf_lasts | apply State.sendFails_lasts | apply State.upset_lasts | apply State.setCrcRun_lasts
      | apply State.setReplay_lasts | apply State.moveUnit_lasts | refine State.lasts_fst (by assumption) ?_
    | split | with_reducible refine State.lasts_mk ?_ rfl

theorem execPacketHop_lasts {q0 : State} (node : Fin 120) (out : Fin 20) (hit : Option (Fin 256)) (s : State) (hq : q0.lasts s) :
    q0.lastsOut (execPacketHop node out hit s) := by
  unfold execPacketHop
  try dsimp only
  repeat' first
    | with_reducible first
      | assumption | apply State.lastsOut_next | apply State.traceTurn_lasts | apply State.unroutable_lasts | apply State.hop_lasts
      | refine State.lasts_fst (by assumption) ?_
    | split

theorem execNwMnote_lasts {q0 : State} (p : Packet) (s : State) (hq : q0.lasts s) :
    q0.lastsOut (execNwMnote p s) := by
  unfold execNwMnote
  try dsimp only
  repeat' first
    | with_reducible first
      | assumption | apply State.lastsOut_next | apply State.unboxed_lasts | apply State.cmd_lasts | apply State.recordCut_lasts
      | apply State.raiseF_lasts | apply State.sendNote_lasts
    | split

theorem State.loseNode_lasts {q0 : State} (s : State) (node : Nat) (hq : q0.lasts s) :
    q0.lasts (State.loseNode s node) := by
  unfold State.loseNode
  try dsimp only
  repeat' first
    | with_reducible first
      | assumption | apply State.setRb_lasts | apply State.linkDown_lasts | apply State.dropPkt_lasts | apply State.raise_lasts
      | refine State.each_lasts _ _ _ ?_ (fun i t ht => ?_) | refine State.lasts_foldl _ _ ?_ (fun t x ht => ?_)
      | refine State.lasts_foldlP _ _ ?_ (fun t x ht => ?_)
    | split

theorem execNodeLostSet_lasts {q0 : State} (node : Fin 120) (s : State) (hq : q0.lasts s) :
    q0.lastsOut (execNodeLostSet node s) := by
  unfold execNodeLostSet
  try dsimp only
  repeat' first
    | with_reducible first | assumption | apply State.lastsOut_next | apply State.loseNode_lasts

theorem execProbeClr_lasts {q0 : State} (k : Fin 16) (s : State) (hq : q0.lasts s) :
    q0.lastsOut (execProbeClr k s) := by
  unfold execProbeClr
  try dsimp only
  repeat' first
    | with_reducible first
      | assumption | apply State.lastsOut_next | apply State.setRg_lasts | refine State.each_lasts _ _ _ ?_ (fun i t ht => ?_)

theorem execDbBlkRst_lasts {q0 : State} (s : State) (hq : q0.lasts s) :
    q0.lastsOut (execDbBlkRst s) := by
  unfold execDbBlkRst
  try dsimp only
  repeat' first
    | with_reducible first
      | assumption | apply State.lastsOut_next | apply State.clearRegs_lasts | apply State.blkRst_lasts
    | with_reducible refine State.lasts_mk ?_ rfl

theorem State.netRunReset_lasts {q0 : State} (s : State) (hq : q0.lasts s) :
    q0.lasts (State.netRunReset s) :=
  State.lasts_mk hq rfl

theorem State.setPe_lasts {q0 : State} (s : State) (i : Nat) (x : Pe) (hq : q0.lasts s) :
    q0.lasts (State.setPe s i x) :=
  State.lasts_mk hq rfl

theorem State.setPriv_lasts {q0 : State} (s : State) (i p : Nat) (x : Priv) (hq : q0.lasts s) :
    q0.lasts (State.setPriv s i p x) :=
  State.lasts_mk hq rfl

theorem State.fwDeny_lasts {q0 : State} (s : State) (pid kind addr : Nat) (write : Bool) (hq : q0.lasts s) :
    q0.lasts (State.fwDeny s pid kind addr write) := by
  unfold State.fwDeny
  try dsimp only
  repeat' first
    | with_reducible first | assumption | apply State.setRg_lasts | apply State.raiseF_lasts

theorem State.fwJudge_lasts {q0 : State} (s : State) (pid kind addr : Nat) (rd wr : Bool) (hq : q0.lasts s) :
    q0.lasts (State.fwJudge s pid kind addr rd wr).1 := by
  unfold State.fwJudge
  try dsimp only
  repeat' first
    | with_reducible first | assumption | apply State.fwDeny_lasts | refine State.lasts_fst (by assumption) ?_
    | split

theorem execCorrectionWriteback_lasts {q0 : State} (s : State) (hq : q0.lasts s) :
    q0.lastsOut (execCorrectionWriteback s) := by
  unfold execCorrectionWriteback
  try dsimp only
  repeat' first
    | with_reducible first
      | assumption | apply State.lastsOut_next | apply State.storeWord_lasts | refine State.lasts_fst (by assumption) ?_
    | split

theorem execScrubPoisonWrite_lasts {q0 : State} (s : State) (hq : q0.lasts s) :
    q0.lastsOut (execScrubPoisonWrite s) := by
  unfold execScrubPoisonWrite
  try dsimp only
  repeat' first
    | with_reducible first
      | assumption | apply State.lastsOut_next | apply State.storePoison_lasts | apply State.raiseF_lasts
      | refine State.lasts_fst (by assumption) ?_
    | split

theorem State.scrubWord_lasts {q0 : State} (s : State) (a source : Nat) (hq : q0.lasts s) :
    q0.lasts (State.scrubWord s a source).1 := by
  unfold State.scrubWord
  try dsimp only
  repeat' first
    | with_reducible first
      | assumption | apply State.logEcc_lasts | apply State.report_lasts | refine State.lasts_fst (by assumption) ?_
    | split | with_reducible refine State.lasts_mk ?_ rfl

theorem State.scrubLeave_lasts {q0 : State} (s : State) (d : Nat) (hq : q0.lasts s) :
    q0.lasts (State.scrubLeave s d) := by
  unfold State.scrubLeave
  try dsimp only
  repeat' first
    | with_reducible first | assumption | refine State.lasts_fst (by assumption) ?_
    | split | with_reducible refine State.lasts_mk ?_ rfl

theorem State.scrubCount_lasts {q0 : State} (s : State) (k : Scrub) (a flag : Nat) (hq : q0.lasts s) :
    q0.lasts (State.scrubCount s k a flag).1 := by
  unfold State.scrubCount
  try dsimp only
  repeat' first
    | with_reducible first | assumption | apply State.bump_lasts | refine State.lasts_fst (by assumption) ?_
    | split | with_reducible refine State.lasts_mk ?_ rfl

theorem State.scrubGo_lasts {q0 : State} (n : Nat) (s : State) (k : Scrub) (h : q0.lasts s) : q0.lasts (State.scrubGo n s k).1 := by
  induction n generalizing s k with
  | zero =>
    unfold State.scrubGo
    try dsimp only
    repeat' first
      | with_reducible first
        | assumption | apply State.lastsOut_next | refine State.each_lasts _ _ _ ?_ (fun i t ht => ?_) | apply State.after_lasts
        | refine State.lasts_foldl _ _ ?_ (fun t x ht => ?_) | refine State.lasts_foldlP _ _ ?_ (fun t x ht => ?_)
        | refine State.lasts_ite (fun _ => ?_) (fun _ => ?_) | refine State.lasts_iteP (fun _ => ?_) (fun _ => ?_)
        | refine State.lasts_fst (by assumption) ?_
      | intro _ | split | with_reducible refine State.lasts_mk ?_ rfl
  | succ n ih =>
    unfold State.scrubGo
    try dsimp only
    repeat' first
      | with_reducible first
        | assumption | apply State.lastsOut_next | apply ih | apply State.scrubWord_lasts | apply State.scrubCount_lasts
        | refine State.each_lasts _ _ _ ?_ (fun i t ht => ?_) | apply State.after_lasts | refine State.lasts_foldl _ _ ?_ (fun t x ht => ?_)
        | refine State.lasts_foldlP _ _ ?_ (fun t x ht => ?_) | refine State.lasts_ite (fun _ => ?_) (fun _ => ?_)
        | refine State.lasts_iteP (fun _ => ?_) (fun _ => ?_) | refine State.lasts_fst (by assumption) ?_
      | intro _ | split | with_reducible refine State.lasts_mk ?_ rfl

theorem State.scrubEnd_lasts {q0 : State} (s : State) (k : Scrub) (hq : q0.lasts s) :
    q0.lasts (State.scrubEnd s k) := by
  unfold State.scrubEnd
  try dsimp only
  repeat' first
    | with_reducible first
      | assumption | apply State.setRg64_lasts | apply State.setRg_lasts | apply State.raiseF_lasts | refine State.lasts_fst (by assumption) ?_
    | split | with_reducible refine State.lasts_mk ?_ rfl

theorem execScrubGo_lasts {q0 : State} (s : State) (hq : q0.lasts s) :
    q0.lastsOut (execScrubGo s) := by
  unfold execScrubGo
  try dsimp only
  repeat' first
    | with_reducible first
      | assumption | apply State.lastsOut_next | apply State.setRg_lasts | refine State.lasts_foldl _ _ ?_ (fun t x ht => ?_)
      | refine State.lasts_foldlP _ _ ?_ (fun t x ht => ?_)
    | split | with_reducible refine State.lasts_mk ?_ rfl

theorem execScrubAbort_lasts {q0 : State} (s : State) (hq : q0.lasts s) :
    q0.lastsOut (execScrubAbort s) := by
  unfold execScrubAbort
  try dsimp only
  repeat' first
    | with_reducible first
      | assumption | apply State.lastsOut_next | apply State.scrubEnd_lasts | refine State.lasts_fst (by assumption) ?_
    | split | with_reducible refine State.lasts_mk ?_ rfl

theorem execScrubBeat_lasts {q0 : State} (s : State) (hq : q0.lasts s) :
    q0.lastsOut (execScrubBeat s) := by
  unfold execScrubBeat
  try dsimp only
  repeat' first
    | with_reducible first
      | assumption | apply State.lastsOut_next | apply State.scrubGo_lasts | apply State.scrubEnd_lasts
      | refine State.lasts_fst (by assumption) ?_
    | split | with_reducible refine State.lasts_mk ?_ rfl

theorem State.setBgs_lasts {q0 : State} (s : State) (g : Nat) (b : Bgs) (hq : q0.lasts s) :
    q0.lasts (State.setBgs s g b) :=
  State.lasts_mk hq rfl

theorem execBgsWord_lasts {q0 : State} (g : Fin 2) (s : State) (hq : q0.lasts s) :
    q0.lastsOut (execBgsWord g s) := by
  unfold execBgsWord
  try dsimp only
  repeat' first
    | with_reducible first
      | assumption | apply State.lastsOut_next | apply State.scrubWord_lasts | apply State.setBgs_lasts
      | refine State.lasts_fst (by assumption) ?_
    | split | with_reducible refine State.lasts_mk ?_ rfl

theorem execBgsLate_lasts {q0 : State} (g : Fin 2) (s : State) (hq : q0.lasts s) :
    q0.lastsOut (execBgsLate g s) := by
  unfold execBgsLate
  try dsimp only
  repeat' first
    | with_reducible first
      | assumption | apply State.lastsOut_next | apply State.setBgs_lasts | apply State.raiseF_lasts
    | split | with_reducible refine State.lasts_mk ?_ rfl

theorem State.spareView_lasts {q0 : State} (s : State) (bank : Nat) (hq : q0.lasts s) :
    q0.lasts (State.spareView s bank) := by
  unfold State.spareView
  try dsimp only
  repeat' first
    | with_reducible first
      | assumption | apply State.setRg_lasts | refine State.each_lasts _ _ _ ?_ (fun i t ht => ?_) | refine State.lasts_fst (by assumption) ?_
    | split

theorem State.factorySpares_lasts {q0 : State} (s : State) (hq : q0.lasts s) :
    q0.lasts (State.factorySpares s) := by
  unfold State.factorySpares
  try dsimp only
  repeat' first
    | with_reducible first
      | assumption | apply State.spareView_lasts | refine State.each_lasts _ _ _ ?_ (fun i t ht => ?_)
      | refine State.lasts_fst (by assumption) ?_
    | with_reducible refine State.lasts_mk ?_ rfl

theorem State.repairRefuse_lasts {q0 : State} (s : State) (st : Nat) (hq : q0.lasts s) :
    q0.lasts (State.repairRefuse s st) := by
  unfold State.repairRefuse
  try dsimp only
  repeat' first
    | with_reducible first | assumption | apply State.setRf_lasts | apply State.raiseF_lasts

theorem State.repairStart_lasts {q0 : State} (s : State) (r : RepairRun) (hq : q0.lasts s) :
    q0.lasts (State.repairStart s r) := by
  unfold State.repairStart
  try dsimp only
  repeat' first
    | with_reducible first | assumption | apply State.setRg_lasts
    | with_reducible refine State.lasts_mk ?_ rfl

theorem State.tempSoft_lasts {q0 : State} (s : State) (r : Repair) (hq : q0.lasts s) :
    q0.lasts (State.tempSoft s r) := by
  unfold State.tempSoft
  try dsimp only
  repeat' first
    | with_reducible first
      | assumption | apply State.setRg_lasts | apply State.spareView_lasts | apply State.raiseF_lasts
    | split | with_reducible refine State.lasts_mk ?_ rfl

theorem execRepairSoft_lasts {q0 : State} (bank : Fin 96) (row : Fin 4096) (s : State) (hq : q0.lasts s) :
    q0.lastsOut (execRepairSoft bank row s) := by
  unfold execRepairSoft
  try dsimp only
  repeat' first
    | with_reducible first
      | assumption | apply State.lastsOut_next | apply State.repairRefuse_lasts | apply State.tempSoft_lasts | apply State.repairStart_lasts
      | refine State.lasts_fst (by assumption) ?_
    | split

theorem execRepairTemp_lasts {q0 : State} (bank : Fin 96) (row : Fin 4096) (s : State) (hq : q0.lasts s) :
    q0.lastsOut (execRepairTemp bank row s) := by
  unfold execRepairTemp
  try dsimp only
  repeat' first
    | with_reducible first
      | assumption | apply State.lastsOut_next | apply State.repairRefuse_lasts | apply State.repairStart_lasts
      | refine State.lasts_fst (by assumption) ?_
    | split

theorem execRepairRelease_lasts {q0 : State} (bank : Fin 96) (row : Fin 4096) (s : State) (hq : q0.lasts s) :
    q0.lastsOut (execRepairRelease bank row s) := by
  unfold execRepairRelease
  try dsimp only
  repeat' first
    | with_reducible first
      | assumption | apply State.lastsOut_next | apply State.repairRefuse_lasts | apply State.repairStart_lasts
      | refine State.lasts_fst (by assumption) ?_
    | split

theorem State.copyRow_lasts {q0 : State} (s : State) (src dst : Nat) (hq : q0.lasts s) :
    q0.lasts (State.copyRow s src dst).1 := by
  unfold State.copyRow
  try dsimp only
  repeat' first
    | with_reducible first
      | assumption | apply State.storeWord_lasts | apply State.logEcc_lasts | apply State.storePoison_lasts
      | refine State.lasts_foldl _ _ ?_ (fun t x ht => ?_) | refine State.lasts_foldlP _ _ ?_ (fun t x ht => ?_)
      | refine State.lasts_fst (by assumption) ?_
    | split

theorem State.repairDone_lasts {q0 : State} (s : State) (hq : q0.lasts s) :
    q0.lasts (State.repairDone s) := by
  unfold State.repairDone
  try dsimp only
  repeat' first
    | with_reducible first
      | assumption | apply State.copyRow_lasts | apply State.raiseF_lasts | apply State.setRg_lasts | apply State.spareView_lasts
      | refine State.lasts_fst (by assumption) ?_
    | split | with_reducible refine State.lasts_mk ?_ rfl

theorem execRepairCopyDone_lasts {q0 : State} (s : State) (hq : q0.lasts s) :
    q0.lastsOut (execRepairCopyDone s) := by
  unfold execRepairCopyDone
  try dsimp only
  repeat' first
    | with_reducible first | assumption | apply State.lastsOut_next | apply State.repairDone_lasts

theorem State.startFill_lasts {q0 : State} (s : State) (f : Fill) (hq : q0.lasts s) :
    q0.lasts (State.startFill s f) :=
  State.lasts_mk hq rfl

theorem State.fillDone_lasts {q0 : State} (s : State) (hq : q0.lasts s) :
    q0.lasts (State.fillDone s) := by
  unfold State.fillDone
  try dsimp only
  repeat' first
    | with_reducible first
      | assumption | apply State.clearMem_lasts | apply State.setRf_lasts | apply State.raiseF_lasts
      | refine State.lasts_foldl _ _ ?_ (fun t x ht => ?_) | refine State.lasts_foldlP _ _ ?_ (fun t x ht => ?_)
      | refine State.lasts_fst (by assumption) ?_
    | split | with_reducible refine State.lasts_mk ?_ rfl

theorem execMemoryFillDone_lasts {q0 : State} (s : State) (hq : q0.lasts s) :
    q0.lastsOut (execMemoryFillDone s) := by
  unfold execMemoryFillDone
  try dsimp only
  repeat' first
    | with_reducible first | assumption | apply State.lastsOut_next | apply State.fillDone_lasts

theorem State.smbSettle_lasts {q0 : State} (s : State) (hq : q0.lasts s) :
    q0.lasts (State.smbSettle s) := by
  unfold State.smbSettle
  try dsimp only
  repeat' first
    | with_reducible first
      | assumption | apply State.fillDone_lasts | apply State.repairDone_lasts | refine State.lasts_foldl _ _ ?_ (fun t x ht => ?_)
      | refine State.lasts_foldlP _ _ ?_ (fun t x ht => ?_)
    | split

theorem State.answer_lasts {q0 : State} (s : State) (p : Packet) (status : Nat) (hq : q0.lasts s) :
    q0.lasts (State.answer s p status) := by
  unfold State.answer
  try dsimp only
  repeat' first
    | with_reducible first | assumption | apply State.answerErr_lasts

theorem State.smbJudge_lasts {q0 : State} (s : State) (p : Packet) (hq : q0.lasts s) :
    q0.lasts (State.smbJudge s p).1 := by
  unfold State.smbJudge
  try dsimp only
  repeat' first
    | with_reducible first
      | assumption | apply State.cmd_lasts | apply State.fwJudge_lasts | refine State.lasts_fst (by assumption) ?_
    | split

theorem State.smbCut_lasts {q0 : State} (s : State) (p : Packet) (hq : q0.lasts s) :
    q0.lasts (State.smbCut s p) := by
  unfold State.smbCut
  try dsimp only
  repeat' first
    | with_reducible first
      | assumption | apply State.unboxed_lasts | apply State.hdrPar_lasts | apply State.answer_lasts | apply State.smbJudge_lasts
      | apply State.cmd_lasts | apply State.tick_lasts | apply State.writeWords_lasts | apply State.readWord_lasts
      | refine State.lasts_fst (by assumption) ?_
    | split

theorem State.smBlkRst_lasts {q0 : State} (s : State) (hq : q0.lasts s) :
    q0.lasts (State.smBlkRst s) := by
  unfold State.smBlkRst
  try dsimp only
  repeat' first
    | with_reducible first
      | assumption | apply State.repairDone_lasts | apply State.cmd_lasts | apply State.smbCut_lasts | apply State.clearRegs_lasts
      | apply State.startFill_lasts | refine State.lasts_foldl _ _ ?_ (fun t x ht => ?_) | refine State.lasts_foldlP _ _ ?_ (fun t x ht => ?_)
    | split | with_reducible refine State.lasts_mk ?_ rfl

theorem execSmBlkRst_lasts {q0 : State} (s : State) (hq : q0.lasts s) :
    q0.lastsOut (execSmBlkRst s) := by
  unfold execSmBlkRst
  try dsimp only
  repeat' first
    | with_reducible first
      | assumption | apply State.lastsOut_next | apply State.blkRst_lasts | apply State.smBlkRst_lasts

theorem State.qThr_lasts {q0 : State} (s : State) (q before after : Nat) (hq : q0.lasts s) :
    q0.lasts (State.qThr s q before after) := by
  unfold State.qThr
  try dsimp only
  repeat' first
    | with_reducible first | assumption | apply State.raiseThr_lasts | apply State.after_lasts
    | split

theorem State.settleQ_lasts {q0 : State} (s : State) (q : Nat) (k : Queue) (before : Nat) (hq : q0.lasts s) :
    q0.lasts (State.settleQ s q k before) := by
  unfold State.settleQ
  try dsimp only
  repeat' first
    | with_reducible first | assumption | apply State.setQu_lasts | apply State.qThr_lasts

theorem State.writeSlot_lasts {q0 : State} (s : State) (q ptr : Nat) (t : Token) (lost : Bool) (hq : q0.lasts s) :
    q0.lasts (State.writeSlot s q ptr t lost) := by
  unfold State.writeSlot
  try dsimp only
  repeat' first
    | with_reducible first
      | assumption | apply State.writeLost_lasts | apply State.storeWord_lasts | apply State.flip_lasts | apply State.request_lasts
    | split | with_reducible refine State.lasts_mk ?_ rfl

theorem State.readSlot_lasts {q0 : State} (s : State) (q : Nat) (hq : q0.lasts s) :
    q0.lasts (State.readSlot s q) := by
  unfold State.readSlot
  try dsimp only
  repeat' first
    | with_reducible first
      | assumption | apply State.readWord_lasts | apply State.putEntry_lasts | apply State.setQu_lasts | apply State.request_lasts
      | refine State.lasts_fst (by assumption) ?_
    | split | with_reducible refine State.lasts_mk ?_ rfl

theorem State.qPushL_lasts {q0 : State} (s : State) (q : Nat) (t : Token) (lost : Bool) (hq : q0.lasts s) :
    q0.lasts (State.qPushL s q t lost) := by
  unfold State.qPushL
  try dsimp only
  repeat' first
    | with_reducible first
      | assumption | apply State.settleQ_lasts | apply State.setQu_lasts | apply State.writeSlot_lasts
    | split | with_reducible refine State.lasts_mk ?_ rfl

theorem State.qPush_lasts {q0 : State} (s : State) (q : Nat) (t : Token) (hq : q0.lasts s) :
    q0.lasts (State.qPush s q t) := by
  unfold State.qPush
  try dsimp only
  repeat' first
    | with_reducible first | assumption | apply State.qPushL_lasts

theorem State.creditOff_lasts {q0 : State} (s : State) (q : Nat) (done : Bool) (hq : q0.lasts s) :
    q0.lasts (State.creditOff s q done) := by
  unfold State.creditOff
  try dsimp only
  repeat' first
    | with_reducible first | assumption | apply State.setRf_lasts
    | split

theorem State.qDrop_lasts {q0 : State} (s : State) (q : Nat) (hq : q0.lasts s) :
    q0.lasts (State.qDrop s q) := by
  unfold State.qDrop
  try dsimp only
  repeat' first
    | with_reducible first
      | assumption | apply State.setQu_lasts | apply State.settleQ_lasts | apply State.readSlot_lasts | apply State.creditOff_lasts
      | refine State.lasts_fst (by assumption) ?_
    | split | with_reducible refine State.lasts_mk ?_ rfl

theorem State.qAwait_lasts {q0 : State} (s : State) (q : Nat) (hq : q0.lasts s) :
    q0.lasts (State.qAwait s q) := by
  unfold State.qAwait
  try dsimp only
  repeat' first
    | with_reducible first | assumption | apply State.setQu_lasts
    | split | with_reducible refine State.lasts_mk ?_ rfl

theorem State.qSkip_lasts {q0 : State} (s : State) (q : Nat) (t : Token) (hq : q0.lasts s) :
    q0.lasts (State.qSkip s q t) := by
  unfold State.qSkip
  try dsimp only
  repeat' first
    | with_reducible first | assumption | apply State.settleQ_lasts | apply State.creditOff_lasts
    | split | with_reducible refine State.lasts_mk ?_ rfl

theorem State.endStreams_lasts {q0 : State} (s : State) (q code : Nat) (hq : q0.lasts s) :
    q0.lasts (State.endStreams s q code) := by
  unfold State.endStreams
  try dsimp only
  repeat' first
    | with_reducible first
      | assumption | apply State.descEnd_lasts | apply State.tick_lasts | refine State.lasts_foldl _ _ ?_ (fun t x ht => ?_)
      | refine State.lasts_foldlP _ _ ?_ (fun t x ht => ?_)

theorem State.flushQ_lasts {q0 : State} (s : State) (q : Nat) (hq : q0.lasts s) :
    q0.lasts (State.flushQ s q) := by
  unfold State.flushQ
  try dsimp only
  repeat' first
    | with_reducible first
      | assumption | apply State.endStreams_lasts | apply State.setQu_lasts | apply State.setRf_lasts
    | split | with_reducible refine State.lasts_mk ?_ rfl

theorem execSqFlush_lasts {q0 : State} (q : Fin 1160) (s : State) (hq : q0.lasts s) :
    q0.lastsOut (execSqFlush q s) := by
  unfold execSqFlush
  try dsimp only
  repeat' first
    | with_reducible first | assumption | apply State.lastsOut_next | apply State.flushQ_lasts

theorem execFlushForced_lasts {q0 : State} (q : Fin 1160) (s : State) (hq : q0.lasts s) :
    q0.lastsOut (execFlushForced q s) := by
  unfold execFlushForced
  try dsimp only
  repeat' first
    | with_reducible first
      | assumption | apply State.lastsOut_next | apply State.setQu_lasts | apply State.raiseF_lasts
    | split | with_reducible refine State.lasts_mk ?_ rfl

theorem State.emptyQ_lasts {q0 : State} (s : State) (q : Nat) (hq : q0.lasts s) :
    q0.lasts (State.emptyQ s q) := by
  unfold State.emptyQ
  try dsimp only
  repeat' first
    | with_reducible first
      | assumption | apply State.setQu_lasts | apply State.setRf_lasts | apply State.setRg_lasts
    | split

theorem State.emptyQs_lasts {q0 : State} (s : State) (lo hi : Nat) (hq : q0.lasts s) :
    q0.lasts (State.emptyQs s lo hi) := by
  unfold State.emptyQs
  try dsimp only
  repeat' first
    | with_reducible first
      | assumption | apply State.setRf_lasts | apply State.setRg_lasts | refine State.lasts_foldl _ _ ?_ (fun t x ht => ?_)
      | refine State.lasts_foldlP _ _ ?_ (fun t x ht => ?_)
    | split | with_reducible refine State.lasts_mk ?_ rfl

theorem State.sqRefuse_lasts {q0 : State} (s : State) (q code : Nat) (hq : q0.lasts s) :
    q0.lasts (State.sqRefuse s q code) := by
  unfold State.sqRefuse
  try dsimp only
  repeat' first
    | with_reducible first | assumption | apply State.setRg_lasts | apply State.raiseF_lasts

theorem State.writeQCfg_lasts {q0 : State} (s : State) (q : Nat) (v : Word) (hq : q0.lasts s) :
    q0.lasts (State.writeQCfg s q v) := by
  unfold State.writeQCfg
  try dsimp only
  repeat' first
    | with_reducible first
      | assumption | apply State.sqRefuse_lasts | apply State.flushQ_lasts | apply State.setQu_lasts | apply State.store_lasts
      | refine State.lasts_fst (by assumption) ?_
    | split | with_reducible refine State.lasts_mk ?_ rfl

theorem State.writeQReg_lasts {q0 : State} (s : State) (q a : Nat) (v : Word) (hq : q0.lasts s) :
    q0.lasts (State.writeQReg s q a v) := by
  unfold State.writeQReg
  try dsimp only
  repeat' first
    | with_reducible first | assumption | apply State.sqRefuse_lasts | apply State.store_lasts
    | split

theorem State.writeSp_lasts {q0 : State} (s : State) (p a : Nat) (v : Word) (hq : q0.lasts s) :
    q0.lasts (State.writeSp s p a v) := by
  unfold State.writeSp
  try dsimp only
  repeat' first
    | with_reducible first | assumption | apply State.sqRefuse_lasts | apply State.store_lasts
    | split

theorem State.sqConfigWrite_lasts {q0 : State} (s : State) (a : Nat) (v : Word) (hq : q0.lasts s) :
    q0.lasts (State.sqConfigWrite s a v) := by
  unfold State.sqConfigWrite
  try dsimp only
  repeat' first
    | with_reducible first
      | assumption | apply State.writeQCfg_lasts | apply State.writeQReg_lasts | apply State.writeSp_lasts
    | split

theorem execSqConfigWrite_lasts {q0 : State} (off : BitVec 24) (v : Word) (s : State) (hq : q0.lasts s) :
    q0.lastsOut (execSqConfigWrite off v s) := by
  unfold execSqConfigWrite
  try dsimp only
  repeat' first
    | with_reducible first | assumption | apply State.lastsOut_next | apply State.sqConfigWrite_lasts

theorem State.kick_lasts {q0 : State} (s : State) (q : Nat) (hq : q0.lasts s) :
    q0.lasts (State.kick s q) := by
  unfold State.kick
  try dsimp only
  repeat' first
    | with_reducible first | assumption | apply State.setRf_lasts | apply State.raiseF_lasts
    | split

end Sys2Proof.Machine
end

