-- ==== Sys2Proof/Laws/LastsArray.lean ====
section
/-! SUPPORT. What no command takes away (State.lasts), operation by operation: the Array, folds and ports. -/

set_option linter.unusedVariables false
set_option linter.unusedSimpArgs false

namespace Sys2Proof.Machine

theorem State.arErr_lasts {q0 : State} (s : State) (i kind : Nat) (hq : q0.lasts s) :
    q0.lasts (State.arErr s i kind) := by
  unfold State.arErr
  try dsimp only
  repeat' first
    | with_reducible first | assumption | apply State.setRg_lasts

theorem State.lmRead_lasts {q0 : State} (s : State) (i w : Nat) (hq : q0.lasts s) :
    q0.lasts (State.lmRead s i w).1 := by
  unfold State.lmRead
  try dsimp only
  repeat' first
    | with_reducible first
      | assumption | apply State.readWord_lasts | apply State.arErr_lasts | apply State.raiseF_lasts | refine State.lasts_fst (by assumption) ?_
    | split

theorem State.lmWrite_lasts {q0 : State} (s : State) (i w : Nat) (v : Word) (hq : q0.lasts s) :
    q0.lasts (State.lmWrite s i w v) := by
  unfold State.lmWrite
  try dsimp only
  repeat' first
    | with_reducible first
      | assumption | apply State.writeWords_lasts | apply State.arErr_lasts | apply State.raiseF_lasts
      | refine State.lasts_fst (by assumption) ?_
    | split

theorem State.parityFail_lasts {q0 : State} (s : State) (i : Nat) (t : Token) (hq : q0.lasts s) :
    q0.lasts (State.parityFail s i t) := by
  unfold State.parityFail
  try dsimp only
  repeat' first
    | with_reducible first
      | assumption | apply State.bump_lasts | apply State.raiseF_lasts | apply State.arErr_lasts | apply State.report_lasts
      | refine State.lasts_fst (by assumption) ?_
    | split

theorem State.parCheck_lasts {q0 : State} (s : State) (i : Nat) (t : Token) (hq : q0.lasts s) :
    q0.lasts (State.parCheck s i t).1 := by
  unfold State.parCheck
  try dsimp only
  repeat' first
    | with_reducible first | assumption | apply State.parityFail_lasts
    | split | with_reducible refine State.lasts_mk ?_ rfl

theorem State.pushFifo_lasts {q0 : State} (s : State) (i side : Nat) (t : Token) (hq : q0.lasts s) :
    q0.lasts (State.pushFifo s i side t) := by
  unfold State.pushFifo
  try dsimp only
  repeat' first
    | with_reducible first
      | assumption | apply State.parCheck_lasts | apply State.setPe_lasts | refine State.lasts_fst (by assumption) ?_
    | split

theorem State.popFifo_lasts {q0 : State} (s : State) (i side : Nat) (hq : q0.lasts s) :
    q0.lasts (State.popFifo s i side) := by
  unfold State.popFifo
  try dsimp only
  repeat' first
    | with_reducible first | assumption | apply State.setPe_lasts

theorem State.intoPe_lasts {q0 u : State} (s : State) (q : Nat) (t : Token) (hq : q0.lasts s) (e : s.intoPe q t = some u) : q0.lasts u := by
  unfold State.intoPe at e
  generalize s.inFifo q = x at e
  obtain ⟨i, side, code⟩ := x
  dsimp only at e
  split at e
  · cases e
  · split at e
    · cases e
    · split at e
      · cases e
        try dsimp only
        repeat' first
          | with_reducible first
            | assumption | apply State.lastsOut_next | apply State.pushFifo_lasts | refine State.each_lasts _ _ _ ?_ (fun i t ht => ?_)
            | apply State.after_lasts | refine State.lasts_foldl _ _ ?_ (fun t x ht => ?_) | refine State.lasts_foldlP _ _ ?_ (fun t x ht => ?_)
            | refine State.lasts_ite (fun _ => ?_) (fun _ => ?_) | refine State.lasts_iteP (fun _ => ?_) (fun _ => ?_)
            | refine State.lasts_fst (by assumption) ?_
          | intro _ | split | with_reducible refine State.lasts_mk ?_ rfl
      · cases e

theorem State.giveIn_lasts {q0 : State} (s : State) (q : Nat) (t : Token) (hq : q0.lasts s) : q0.lasts (s.giveIn q t) := by
  unfold State.giveIn
  split
  · next u e =>
    split at e
    · exact State.qSkip_lasts _ _ _ (State.intoPe_lasts _ _ _ hq e)
    · cases e
  · exact State.qPush_lasts _ _ _ hq

theorem State.qGive_lasts {q0 : State} (s : State) (q : Nat) (t : Token) (lost : Bool) (hq : q0.lasts s) :
    q0.lasts (State.qGive s q t lost) := by
  unfold State.qGive
  try dsimp only
  repeat' first
    | with_reducible first
      | assumption | apply State.qSkip_lasts | apply State.emit_lasts | apply State.giveIn_lasts | apply State.qPushL_lasts
      | apply State.qPush_lasts | refine State.lasts_fst (by assumption) ?_
    | split

theorem State.sendTo_lasts {q0 : State} (s : State) (i : Nat) (d : Dst) (t t2 : Token) (hq : q0.lasts s) :
    q0.lasts (State.sendTo s i d t t2) := by
  unfold State.sendTo
  try dsimp only
  repeat' first
    | with_reducible first
      | assumption | apply State.pushFifo_lasts | apply State.crossGroups_lasts | apply State.exitPass_lasts | apply State.parCheck_lasts
      | apply State.qGive_lasts | apply State.setRg_lasts | refine State.lasts_fst (by assumption) ?_
    | split

theorem Eff.plain_lasts {q0 : State} (s : State) (pv : Priv) (out : List (Word × Bool)) (hq : q0.lasts s) : q0.lasts (Eff.plain s pv out).s := hq

theorem State.pickDst_lasts {q0 : State} (s : State) (n k : Nat) (hq : q0.lasts s) :
    q0.lasts (State.pickDst s n k).1 := by
  unfold State.pickDst
  try dsimp only
  repeat' first
    | with_reducible first | assumption | apply State.tick_lasts
    | split

theorem effRoute_lasts {q0 : State} (s : State) (c : Ctx) (hq : q0.lasts s) : q0.lasts (effRoute s c).s := by
  unfold effRoute
  repeat' first
    | with_reducible first
      | assumption | apply State.lastsOut_next | apply Eff.plain_lasts | apply State.pickDst_lasts
      | refine State.each_lasts _ _ _ ?_ (fun i t ht => ?_) | apply State.after_lasts | refine State.lasts_foldl _ _ ?_ (fun t x ht => ?_)
      | refine State.lasts_foldlP _ _ ?_ (fun t x ht => ?_) | refine State.lasts_fst (by assumption) ?_
    | dsimp only | split | with_reducible refine State.lasts_mk ?_ rfl

theorem effSplit_lasts {q0 : State} (s : State) (c : Ctx) (hq : q0.lasts s) : q0.lasts (effSplit s c).s := by
  unfold effSplit
  repeat' first
    | with_reducible first
      | assumption | apply State.lastsOut_next | apply Eff.plain_lasts | refine State.each_lasts _ _ _ ?_ (fun i t ht => ?_)
      | apply State.after_lasts | refine State.lasts_foldl _ _ ?_ (fun t x ht => ?_) | refine State.lasts_foldlP _ _ ?_ (fun t x ht => ?_)
      | refine State.lasts_fst (by assumption) ?_
    | dsimp only | split | with_reducible refine State.lasts_mk ?_ rfl

theorem effDrop_lasts {q0 : State} (s : State) (c : Ctx) (hq : q0.lasts s) : q0.lasts (effDrop s c).s := by
  unfold effDrop
  repeat' first
    | with_reducible first
      | assumption | apply State.lastsOut_next | apply Eff.plain_lasts | refine State.each_lasts _ _ _ ?_ (fun i t ht => ?_)
      | apply State.after_lasts | refine State.lasts_foldl _ _ ?_ (fun t x ht => ?_) | refine State.lasts_foldlP _ _ ?_ (fun t x ht => ?_)
      | refine State.lasts_fst (by assumption) ?_
    | dsimp only | split | with_reducible refine State.lasts_mk ?_ rfl

theorem effGate_lasts {q0 : State} (s : State) (c : Ctx) (hq : q0.lasts s) : q0.lasts (effGate s c).s := by
  unfold effGate
  repeat' first
    | with_reducible first
      | assumption | apply State.lastsOut_next | apply Eff.plain_lasts | refine State.each_lasts _ _ _ ?_ (fun i t ht => ?_)
      | apply State.after_lasts | refine State.lasts_foldl _ _ ?_ (fun t x ht => ?_) | refine State.lasts_foldlP _ _ ?_ (fun t x ht => ?_)
      | refine State.lasts_fst (by assumption) ?_
    | dsimp only | split | with_reducible refine State.lasts_mk ?_ rfl

theorem effFoldgen_lasts {q0 : State} (s : State) (c : Ctx) (hq : q0.lasts s) : q0.lasts (effFoldgen s c).s := by
  unfold effFoldgen
  repeat' first
    | with_reducible first
      | assumption | apply State.lastsOut_next | apply Eff.plain_lasts | apply State.setPe_lasts
      | refine State.each_lasts _ _ _ ?_ (fun i t ht => ?_) | apply State.after_lasts | refine State.lasts_foldl _ _ ?_ (fun t x ht => ?_)
      | refine State.lasts_foldlP _ _ ?_ (fun t x ht => ?_) | refine State.lasts_fst (by assumption) ?_
    | dsimp only | split | with_reducible refine State.lasts_mk ?_ rfl

theorem effDup_lasts {q0 : State} (s : State) (c : Ctx) (hq : q0.lasts s) : q0.lasts (effDup s c).s := by
  unfold effDup
  repeat' first
    | with_reducible first
      | assumption | apply State.lastsOut_next | apply Eff.plain_lasts | refine State.each_lasts _ _ _ ?_ (fun i t ht => ?_)
      | apply State.after_lasts | refine State.lasts_foldl _ _ ?_ (fun t x ht => ?_) | refine State.lasts_foldlP _ _ ?_ (fun t x ht => ?_)
      | refine State.lasts_fst (by assumption) ?_
    | dsimp only | split | with_reducible refine State.lasts_mk ?_ rfl

theorem effect_lasts {q0 : State} (s : State) (c : Ctx) (hq : q0.lasts s) : q0.lasts (effect s c).s := by
  unfold effect
  repeat' first
    | with_reducible first
      | assumption | apply State.lastsOut_next | apply Eff.plain_lasts | apply effRoute_lasts | apply effSplit_lasts | apply effDrop_lasts
      | apply effGate_lasts | apply effFoldgen_lasts | apply effDup_lasts | apply State.lmRead_lasts | apply State.lmWrite_lasts
      | refine State.each_lasts _ _ _ ?_ (fun i t ht => ?_) | apply State.after_lasts | refine State.lasts_foldl _ _ ?_ (fun t x ht => ?_)
      | refine State.lasts_foldlP _ _ ?_ (fun t x ht => ?_) | refine State.lasts_fst (by assumption) ?_
    | dsimp only | split | with_reducible refine State.lasts_mk ?_ rfl

theorem State.fetchOp_lasts {q0 : State} (s : State) (i : Nat) (q : Pleat) (src ptr : Nat) (hq : q0.lasts s) :
    q0.lasts (State.fetchOp s i q src ptr).1 := by
  unfold State.fetchOp
  try dsimp only
  repeat' first
    | with_reducible first | assumption | apply State.lmRead_lasts | refine State.lasts_fst (by assumption) ?_
    | split

theorem State.planPlain_lasts {q0 : State} (s : State) (i p : Nat) (q : Pleat) (pv : Priv) (hq : q0.lasts s) :
    q0.lastsFire (s.planPlain i p q pv) := by
  unfold State.planPlain
  extract_lets rdA rdB ha hb
  clear_value ha hb
  split
  · extract_lets last ptr1 ptr2
    clear_value last ptr1 ptr2
    split
    next e1 =>
    have h1 := State.lasts_fst (s := q0) e1 (by
          try dsimp only
          repeat' first
            | with_reducible first
              | assumption | apply State.lastsOut_next | apply State.lmRead_lasts | refine State.each_lasts _ _ _ ?_ (fun i t ht => ?_)
              | apply State.after_lasts | refine State.lasts_foldl _ _ ?_ (fun t x ht => ?_)
              | refine State.lasts_foldlP _ _ ?_ (fun t x ht => ?_) | refine State.lasts_ite (fun _ => ?_) (fun _ => ?_)
              | refine State.lasts_iteP (fun _ => ?_) (fun _ => ?_) | refine State.lasts_fst (by assumption) ?_
            | intro _ | split | with_reducible refine State.lasts_mk ?_ rfl)
    split
    next e2 =>
    have h2 := State.lasts_fst (s := q0) e2 (by
          try dsimp only
          repeat' first
            | with_reducible first
              | assumption | apply State.lastsOut_next | apply State.lmRead_lasts | refine State.each_lasts _ _ _ ?_ (fun i t ht => ?_)
              | apply State.after_lasts | refine State.lasts_foldl _ _ ?_ (fun t x ht => ?_)
              | refine State.lasts_foldlP _ _ ?_ (fun t x ht => ?_) | refine State.lasts_ite (fun _ => ?_) (fun _ => ?_)
              | refine State.lasts_iteP (fun _ => ?_) (fun _ => ?_) | refine State.lasts_fst (by assumption) ?_
            | intro _ | split | with_reducible refine State.lasts_mk ?_ rfl)
    clear e1 e2
    repeat' first
      | with_reducible first
        | assumption | apply State.lastsOut_next | apply State.lastsFire_some | apply State.setPriv_lasts | apply effect_lasts
        | apply State.popFifo_lasts | apply State.arErr_lasts | apply State.raiseF_lasts | apply State.bump_lasts
        | refine State.each_lasts _ _ _ ?_ (fun i t ht => ?_) | apply State.after_lasts | refine State.lasts_foldl _ _ ?_ (fun t x ht => ?_)
        | refine State.lasts_foldlP _ _ ?_ (fun t x ht => ?_) | refine State.lasts_fst (by assumption) ?_
      | dsimp only | split | with_reducible refine State.lasts_mk ?_ rfl
  · exact State.lastsFire_none _

theorem State.planMerge_lasts {q0 : State} (s : State) (i p : Nat) (q : Pleat) (pv : Priv) (hq : q0.lasts s) :
    q0.lastsFire (s.planMerge i p q pv) := by
  unfold State.planMerge
  repeat' first
    | with_reducible first
      | assumption | apply State.lastsOut_next | apply State.lastsFire_some | apply State.lastsFire_none | apply State.setPriv_lasts
      | apply State.fetchOp_lasts | apply State.popFifo_lasts | refine State.each_lasts _ _ _ ?_ (fun i t ht => ?_) | apply State.after_lasts
      | refine State.lasts_foldl _ _ ?_ (fun t x ht => ?_) | refine State.lasts_foldlP _ _ ?_ (fun t x ht => ?_)
      | refine State.lasts_fst (by assumption) ?_
    | dsimp only | split | with_reducible refine State.lasts_mk ?_ rfl

theorem State.planDup_lasts {q0 : State} (s : State) (i p : Nat) (pv : Priv) (t : Token) (n : Nat) (hq : q0.lasts s) :
    q0.lasts (s.planDup i p pv t n).s := by
  unfold State.planDup
  repeat' first
    | with_reducible first
      | assumption | apply State.lastsOut_next | apply State.setPriv_lasts | refine State.each_lasts _ _ _ ?_ (fun i t ht => ?_)
      | apply State.after_lasts | refine State.lasts_foldl _ _ ?_ (fun t x ht => ?_) | refine State.lasts_foldlP _ _ ?_ (fun t x ht => ?_)
      | refine State.lasts_fst (by assumption) ?_
    | dsimp only | split | with_reducible refine State.lasts_mk ?_ rfl

theorem State.judgeEdge_lasts {q0 : State} (s : State) (i p : Nat) (q : Pleat) (pv : Priv) (hq : q0.lasts s) :
    q0.lasts (State.judgeEdge s i p q pv) := by
  unfold State.judgeEdge
  try dsimp only
  repeat' first
    | with_reducible first
      | assumption | apply State.fetchOp_lasts | apply State.setPriv_lasts | refine State.lasts_fst (by assumption) ?_
    | split | with_reducible refine State.lasts_mk ?_ rfl

theorem State.planEdge_lasts {q0 : State} (s : State) (i p : Nat) (q : Pleat) (pv : Priv) (d : Word × Bool) (hq : q0.lasts s) :
    q0.lasts (s.planEdge i p q pv d).s := State.setPriv_lasts _ _ _ _ hq

theorem State.planPe_lasts {q0 : State} (s : State) (i code : Nat) (hq : q0.lasts s) : q0.lastsFire (s.planPe i code) := by
  unfold State.planPe
  repeat' first
    | with_reducible first
      | assumption | apply State.lastsOut_next | apply State.lastsFire_some | apply State.lastsFire_none | apply State.planDup_lasts
      | apply State.planPlain_lasts | apply State.planMerge_lasts | apply State.planEdge_lasts
      | refine State.each_lasts _ _ _ ?_ (fun i t ht => ?_) | apply State.after_lasts | refine State.lasts_foldl _ _ ?_ (fun t x ht => ?_)
      | refine State.lasts_foldlP _ _ ?_ (fun t x ht => ?_) | refine State.lasts_fst (by assumption) ?_
    | dsimp only | split | with_reducible refine State.lasts_mk ?_ rfl

theorem State.pairFault_lasts {q0 : State} (s : State) (i : Nat) (hq : q0.lasts s) :
    q0.lasts (State.pairFault s i) := by
  unfold State.pairFault
  try dsimp only
  repeat' first
    | with_reducible first
      | assumption | apply State.bump_lasts | apply State.raiseF_lasts | apply State.report_lasts

theorem State.sendOut_lasts {q0 : State} (s : State) (i : Nat) (ok : Bool) (ds : List Dst) (toks twin : List Token) (hq : q0.lasts s) :
    q0.lasts (State.sendOut s i ok ds toks twin) := by
  unfold State.sendOut
  try dsimp only
  repeat' first
    | with_reducible first
      | assumption | apply State.sendTo_lasts | refine State.lasts_foldl _ _ ?_ (fun t x ht => ?_)
      | refine State.lasts_foldlP _ _ ?_ (fun t x ht => ?_)
    | split

theorem State.pairCheck_lasts {q0 : State} (s : State) (i : Nat) (ok : Bool) (ds : List Dst) (hq : q0.lasts s) :
    q0.lasts (State.pairCheck s i ok ds) := by
  unfold State.pairCheck
  try dsimp only
  repeat' first
    | with_reducible first | assumption | apply State.pairFault_lasts
    | split

theorem State.sendAll_lasts {q0 : State} (s : State) (i : Nat) (ds : List Dst) (toks twin : List Token) (hq : q0.lasts s) :
    q0.lasts (State.sendAll s i ds toks twin) := by
  unfold State.sendAll
  try dsimp only
  repeat' first
    | with_reducible first | assumption | apply State.pairCheck_lasts | apply State.sendOut_lasts

theorem State.sendHit_lasts {q0 : State} (s : State) (i : Nat) (hit : Option (Nat × Nat)) (ds : List Dst) (toks twin : List Token) (hq : q0.lasts s) :
    q0.lasts (State.sendHit s i hit ds toks twin) := by
  unfold State.sendHit
  try dsimp only
  repeat' first
    | with_reducible first
      | assumption | apply State.sendAll_lasts | apply State.pairCheck_lasts | apply State.sendOut_lasts | apply State.upset_lasts
      | refine State.lasts_fst (by assumption) ?_
    | split

theorem State.judged_lasts {q0 : State} (s : State) (i code : Nat) (hq : q0.lasts s) :
    q0.lasts (State.judged s i code) := by
  unfold State.judged
  try dsimp only
  repeat' first
    | with_reducible first | assumption | apply State.act_lasts | apply State.judgeEdge_lasts
    | intro _ | split

theorem State.dropGen_lasts {q0 : State} (s : State) (i : Nat) (hq : q0.lasts s) :
    q0.lasts (State.dropGen s i) :=
  State.lasts_mk hq rfl

theorem State.firePe_lasts {q0 : State} (s0 : State) (i code : Nat) (hit : Option (Nat × Nat)) (hq : q0.lasts s0) : q0.lasts (s0.firePe i code hit) := by
  unfold State.firePe
  split
  · exact hq
  · extract_lets pair s
    have h1 : q0.lasts s := by
      unfold s
      try dsimp only
      repeat' first
        | with_reducible first
          | assumption | apply State.lastsOut_next | apply State.judged_lasts | refine State.each_lasts _ _ _ ?_ (fun i t ht => ?_)
          | apply State.after_lasts | refine State.lasts_foldl _ _ ?_ (fun t x ht => ?_) | refine State.lasts_foldlP _ _ ?_ (fun t x ht => ?_)
          | refine State.lasts_ite (fun _ => ?_) (fun _ => ?_) | refine State.lasts_iteP (fun _ => ?_) (fun _ => ?_)
          | refine State.lasts_fst (by assumption) ?_
        | intro _ | split | with_reducible refine State.lasts_mk ?_ rfl
    clear_value s
    split
    · exact h1
    · next f hf =>
      have h2 := State.planPe_lasts s i code h1 f hf
      extract_lets ds n
      split
      · exact h1
      · split
        · split
          · next g hg => exact State.sendHit_lasts _ _ _ _ _ _ (State.dropGen_lasts _ _ (State.planPe_lasts _ _ _ h2 g hg))
          · exact State.sendHit_lasts _ _ _ _ _ _ h2
        · exact State.sendHit_lasts _ _ _ _ _ _ h2

theorem firePeOut_lasts {q0 : State} (pe : Fin 1536) (code : Nat) (s : State) (hq : q0.lasts s) :
    q0.lastsOut (firePeOut pe code s) := by
  unfold firePeOut
  try dsimp only
  repeat' first
    | with_reducible first | assumption | apply State.lastsOut_next | apply State.firePe_lasts

theorem execPeNop_lasts {q0 : State} (pe : Fin 1536) (s : State) (hq : q0.lasts s) :
    q0.lastsOut (execPeNop pe s) := by
  unfold execPeNop
  try dsimp only
  repeat' first
    | with_reducible first | assumption | apply State.lastsOut_next | apply firePeOut_lasts

theorem execPeMov_lasts {q0 : State} (pe : Fin 1536) (hit : Option (Fin 13 × Fin 42)) (s : State) (hq : q0.lasts s) :
    q0.lastsOut (execPeMov pe hit s) := by
  unfold execPeMov
  try dsimp only
  repeat' first
    | with_reducible first | assumption | apply State.lastsOut_next | apply State.firePe_lasts

theorem execPeAdd_lasts {q0 : State} (pe : Fin 1536) (s : State) (hq : q0.lasts s) :
    q0.lastsOut (execPeAdd pe s) := by
  unfold execPeAdd
  try dsimp only
  repeat' first
    | with_reducible first | assumption | apply State.lastsOut_next | apply firePeOut_lasts

theorem execPeSub_lasts {q0 : State} (pe : Fin 1536) (s : State) (hq : q0.lasts s) :
    q0.lastsOut (execPeSub pe s) := by
  unfold execPeSub
  try dsimp only
  repeat' first
    | with_reducible first | assumption | apply State.lastsOut_next | apply firePeOut_lasts

theorem execPeAnd_lasts {q0 : State} (pe : Fin 1536) (s : State) (hq : q0.lasts s) :
    q0.lastsOut (execPeAnd pe s) := by
  unfold execPeAnd
  try dsimp only
  repeat' first
    | with_reducible first | assumption | apply State.lastsOut_next | apply firePeOut_lasts

theorem execPeOr_lasts {q0 : State} (pe : Fin 1536) (s : State) (hq : q0.lasts s) :
    q0.lastsOut (execPeOr pe s) := by
  unfold execPeOr
  try dsimp only
  repeat' first
    | with_reducible first | assumption | apply State.lastsOut_next | apply firePeOut_lasts

theorem execPeXor_lasts {q0 : State} (pe : Fin 1536) (s : State) (hq : q0.lasts s) :
    q0.lastsOut (execPeXor pe s) := by
  unfold execPeXor
  try dsimp only
  repeat' first
    | with_reducible first | assumption | apply State.lastsOut_next | apply firePeOut_lasts

theorem execPeAndn_lasts {q0 : State} (pe : Fin 1536) (s : State) (hq : q0.lasts s) :
    q0.lastsOut (execPeAndn pe s) := by
  unfold execPeAndn
  try dsimp only
  repeat' first
    | with_reducible first | assumption | apply State.lastsOut_next | apply firePeOut_lasts

theorem execPeShl_lasts {q0 : State} (pe : Fin 1536) (s : State) (hq : q0.lasts s) :
    q0.lastsOut (execPeShl pe s) := by
  unfold execPeShl
  try dsimp only
  repeat' first
    | with_reducible first | assumption | apply State.lastsOut_next | apply firePeOut_lasts

theorem execPeShr_lasts {q0 : State} (pe : Fin 1536) (s : State) (hq : q0.lasts s) :
    q0.lastsOut (execPeShr pe s) := by
  unfold execPeShr
  try dsimp only
  repeat' first
    | with_reducible first | assumption | apply State.lastsOut_next | apply firePeOut_lasts

theorem execPeSra_lasts {q0 : State} (pe : Fin 1536) (s : State) (hq : q0.lasts s) :
    q0.lastsOut (execPeSra pe s) := by
  unfold execPeSra
  try dsimp only
  repeat' first
    | with_reducible first | assumption | apply State.lastsOut_next | apply firePeOut_lasts

theorem execPeRol_lasts {q0 : State} (pe : Fin 1536) (s : State) (hq : q0.lasts s) :
    q0.lastsOut (execPeRol pe s) := by
  unfold execPeRol
  try dsimp only
  repeat' first
    | with_reducible first | assumption | apply State.lastsOut_next | apply firePeOut_lasts

theorem execPeAdd2_lasts {q0 : State} (pe : Fin 1536) (s : State) (hq : q0.lasts s) :
    q0.lastsOut (execPeAdd2 pe s) := by
  unfold execPeAdd2
  try dsimp only
  repeat' first
    | with_reducible first | assumption | apply State.lastsOut_next | apply firePeOut_lasts

theorem execPeSub2_lasts {q0 : State} (pe : Fin 1536) (s : State) (hq : q0.lasts s) :
    q0.lastsOut (execPeSub2 pe s) := by
  unfold execPeSub2
  try dsimp only
  repeat' first
    | with_reducible first | assumption | apply State.lastsOut_next | apply firePeOut_lasts

theorem execPeAdd4_lasts {q0 : State} (pe : Fin 1536) (s : State) (hq : q0.lasts s) :
    q0.lastsOut (execPeAdd4 pe s) := by
  unfold execPeAdd4
  try dsimp only
  repeat' first
    | with_reducible first | assumption | apply State.lastsOut_next | apply firePeOut_lasts

theorem execPeSub4_lasts {q0 : State} (pe : Fin 1536) (s : State) (hq : q0.lasts s) :
    q0.lastsOut (execPeSub4 pe s) := by
  unfold execPeSub4
  try dsimp only
  repeat' first
    | with_reducible first | assumption | apply State.lastsOut_next | apply firePeOut_lasts

theorem execPeAbsd4_lasts {q0 : State} (pe : Fin 1536) (s : State) (hq : q0.lasts s) :
    q0.lastsOut (execPeAbsd4 pe s) := by
  unfold execPeAbsd4
  try dsimp only
  repeat' first
    | with_reducible first | assumption | apply State.lastsOut_next | apply firePeOut_lasts

theorem execPeCmp_lasts {q0 : State} (pe : Fin 1536) (s : State) (hq : q0.lasts s) :
    q0.lastsOut (execPeCmp pe s) := by
  unfold execPeCmp
  try dsimp only
  repeat' first
    | with_reducible first | assumption | apply State.lastsOut_next | apply firePeOut_lasts

theorem execPeSel_lasts {q0 : State} (pe : Fin 1536) (s : State) (hq : q0.lasts s) :
    q0.lastsOut (execPeSel pe s) := by
  unfold execPeSel
  try dsimp only
  repeat' first
    | with_reducible first | assumption | apply State.lastsOut_next | apply firePeOut_lasts

theorem execPeMin_lasts {q0 : State} (pe : Fin 1536) (s : State) (hq : q0.lasts s) :
    q0.lastsOut (execPeMin pe s) := by
  unfold execPeMin
  try dsimp only
  repeat' first
    | with_reducible first | assumption | apply State.lastsOut_next | apply firePeOut_lasts

theorem execPeMax_lasts {q0 : State} (pe : Fin 1536) (s : State) (hq : q0.lasts s) :
    q0.lastsOut (execPeMax pe s) := by
  unfold execPeMax
  try dsimp only
  repeat' first
    | with_reducible first | assumption | apply State.lastsOut_next | apply firePeOut_lasts

theorem execPeAbs_lasts {q0 : State} (pe : Fin 1536) (s : State) (hq : q0.lasts s) :
    q0.lastsOut (execPeAbs pe s) := by
  unfold execPeAbs
  try dsimp only
  repeat' first
    | with_reducible first | assumption | apply State.lastsOut_next | apply firePeOut_lasts

theorem execPePopc_lasts {q0 : State} (pe : Fin 1536) (s : State) (hq : q0.lasts s) :
    q0.lastsOut (execPePopc pe s) := by
  unfold execPePopc
  try dsimp only
  repeat' first
    | with_reducible first | assumption | apply State.lastsOut_next | apply firePeOut_lasts

theorem execPeClz_lasts {q0 : State} (pe : Fin 1536) (s : State) (hq : q0.lasts s) :
    q0.lastsOut (execPeClz pe s) := by
  unfold execPeClz
  try dsimp only
  repeat' first
    | with_reducible first | assumption | apply State.lastsOut_next | apply firePeOut_lasts

theorem execPeBfx_lasts {q0 : State} (pe : Fin 1536) (s : State) (hq : q0.lasts s) :
    q0.lastsOut (execPeBfx pe s) := by
  unfold execPeBfx
  try dsimp only
  repeat' first
    | with_reducible first | assumption | apply State.lastsOut_next | apply firePeOut_lasts

theorem execPeBfi_lasts {q0 : State} (pe : Fin 1536) (s : State) (hq : q0.lasts s) :
    q0.lastsOut (execPeBfi pe s) := by
  unfold execPeBfi
  try dsimp only
  repeat' first
    | with_reducible first | assumption | apply State.lastsOut_next | apply firePeOut_lasts

theorem execPeMul_lasts {q0 : State} (pe : Fin 1536) (s : State) (hq : q0.lasts s) :
    q0.lastsOut (execPeMul pe s) := by
  unfold execPeMul
  try dsimp only
  repeat' first
    | with_reducible first | assumption | apply State.lastsOut_next | apply firePeOut_lasts

theorem execPeMulh_lasts {q0 : State} (pe : Fin 1536) (s : State) (hq : q0.lasts s) :
    q0.lastsOut (execPeMulh pe s) := by
  unfold execPeMulh
  try dsimp only
  repeat' first
    | with_reducible first | assumption | apply State.lastsOut_next | apply firePeOut_lasts

theorem execPeMac32_lasts {q0 : State} (pe : Fin 1536) (s : State) (hq : q0.lasts s) :
    q0.lastsOut (execPeMac32 pe s) := by
  unfold execPeMac32
  try dsimp only
  repeat' first
    | with_reducible first | assumption | apply State.lastsOut_next | apply firePeOut_lasts

theorem execPeMac16_lasts {q0 : State} (pe : Fin 1536) (s : State) (hq : q0.lasts s) :
    q0.lastsOut (execPeMac16 pe s) := by
  unfold execPeMac16
  try dsimp only
  repeat' first
    | with_reducible first | assumption | apply State.lastsOut_next | apply firePeOut_lasts

theorem execPeMac8_lasts {q0 : State} (pe : Fin 1536) (s : State) (hq : q0.lasts s) :
    q0.lastsOut (execPeMac8 pe s) := by
  unfold execPeMac8
  try dsimp only
  repeat' first
    | with_reducible first | assumption | apply State.lastsOut_next | apply firePeOut_lasts

theorem execPeAccrd_lasts {q0 : State} (pe : Fin 1536) (s : State) (hq : q0.lasts s) :
    q0.lastsOut (execPeAccrd pe s) := by
  unfold execPeAccrd
  try dsimp only
  repeat' first
    | with_reducible first | assumption | apply State.lastsOut_next | apply firePeOut_lasts

theorem execPeAccld_lasts {q0 : State} (pe : Fin 1536) (s : State) (hq : q0.lasts s) :
    q0.lastsOut (execPeAccld pe s) := by
  unfold execPeAccld
  try dsimp only
  repeat' first
    | with_reducible first | assumption | apply State.lastsOut_next | apply firePeOut_lasts

theorem execPeDivs_lasts {q0 : State} (pe : Fin 1536) (s : State) (hq : q0.lasts s) :
    q0.lastsOut (execPeDivs pe s) := by
  unfold execPeDivs
  try dsimp only
  repeat' first
    | with_reducible first | assumption | apply State.lastsOut_next | apply firePeOut_lasts

theorem execPeCord_lasts {q0 : State} (pe : Fin 1536) (s : State) (hq : q0.lasts s) :
    q0.lastsOut (execPeCord pe s) := by
  unfold execPeCord
  try dsimp only
  repeat' first
    | with_reducible first | assumption | apply State.lastsOut_next | apply firePeOut_lasts

theorem execPeLd_lasts {q0 : State} (pe : Fin 1536) (s : State) (hq : q0.lasts s) :
    q0.lastsOut (execPeLd pe s) := by
  unfold execPeLd
  try dsimp only
  repeat' first
    | with_reducible first | assumption | apply State.lastsOut_next | apply firePeOut_lasts

theorem execPeSt_lasts {q0 : State} (pe : Fin 1536) (s : State) (hq : q0.lasts s) :
    q0.lastsOut (execPeSt pe s) := by
  unfold execPeSt
  try dsimp only
  repeat' first
    | with_reducible first | assumption | apply State.lastsOut_next | apply firePeOut_lasts

theorem execPeLut_lasts {q0 : State} (pe : Fin 1536) (s : State) (hq : q0.lasts s) :
    q0.lastsOut (execPeLut pe s) := by
  unfold execPeLut
  try dsimp only
  repeat' first
    | with_reducible first | assumption | apply State.lastsOut_next | apply firePeOut_lasts

theorem execPeCnt_lasts {q0 : State} (pe : Fin 1536) (s : State) (hq : q0.lasts s) :
    q0.lastsOut (execPeCnt pe s) := by
  unfold execPeCnt
  try dsimp only
  repeat' first
    | with_reducible first | assumption | apply State.lastsOut_next | apply firePeOut_lasts

theorem execPePcmp_lasts {q0 : State} (pe : Fin 1536) (s : State) (hq : q0.lasts s) :
    q0.lastsOut (execPePcmp pe s) := by
  unfold execPePcmp
  try dsimp only
  repeat' first
    | with_reducible first | assumption | apply State.lastsOut_next | apply firePeOut_lasts

theorem execPeRoute_lasts {q0 : State} (pe : Fin 1536) (s : State) (hq : q0.lasts s) :
    q0.lastsOut (execPeRoute pe s) := by
  unfold execPeRoute
  try dsimp only
  repeat' first
    | with_reducible first | assumption | apply State.lastsOut_next | apply firePeOut_lasts

theorem execPeMerge_lasts {q0 : State} (pe : Fin 1536) (s : State) (hq : q0.lasts s) :
    q0.lastsOut (execPeMerge pe s) := by
  unfold execPeMerge
  try dsimp only
  repeat' first
    | with_reducible first | assumption | apply State.lastsOut_next | apply firePeOut_lasts

theorem execPeSplit_lasts {q0 : State} (pe : Fin 1536) (s : State) (hq : q0.lasts s) :
    q0.lastsOut (execPeSplit pe s) := by
  unfold execPeSplit
  try dsimp only
  repeat' first
    | with_reducible first | assumption | apply State.lastsOut_next | apply firePeOut_lasts

theorem execPeDrop_lasts {q0 : State} (pe : Fin 1536) (s : State) (hq : q0.lasts s) :
    q0.lastsOut (execPeDrop pe s) := by
  unfold execPeDrop
  try dsimp only
  repeat' first
    | with_reducible first | assumption | apply State.lastsOut_next | apply firePeOut_lasts

theorem execPeDup_lasts {q0 : State} (pe : Fin 1536) (s : State) (hq : q0.lasts s) :
    q0.lastsOut (execPeDup pe s) := by
  unfold execPeDup
  try dsimp only
  repeat' first
    | with_reducible first | assumption | apply State.lastsOut_next | apply firePeOut_lasts

theorem execPeGate_lasts {q0 : State} (pe : Fin 1536) (s : State) (hq : q0.lasts s) :
    q0.lastsOut (execPeGate pe s) := by
  unfold execPeGate
  try dsimp only
  repeat' first
    | with_reducible first | assumption | apply State.lastsOut_next | apply firePeOut_lasts

theorem execPeFoldgen_lasts {q0 : State} (pe : Fin 1536) (s : State) (hq : q0.lasts s) :
    q0.lastsOut (execPeFoldgen pe s) := by
  unfold execPeFoldgen
  try dsimp only
  repeat' first
    | with_reducible first | assumption | apply State.lastsOut_next | apply firePeOut_lasts

theorem State.putSlot_lasts {q0 : State} (s : State) (k : Slot) (hq : q0.lasts s) :
    q0.lasts (State.putSlot s k) :=
  State.lasts_mk hq rfl

theorem State.freeSlot_lasts {q0 : State} (s : State) (id : Nat) (hq : q0.lasts s) :
    q0.lasts (State.freeSlot s id) :=
  State.lasts_mk hq rfl

theorem State.ckptIssue_lasts {q0 : State} (s : State) (g : Nat) (hq : q0.lasts s) :
    q0.lasts (State.ckptIssue s g) := by
  unfold State.ckptIssue
  try dsimp only
  repeat' first
    | with_reducible first
      | assumption | apply State.setGrp_lasts | apply State.act_lasts | apply State.setRb_lasts
    | intro _ | split | with_reducible refine State.lasts_mk ?_ rfl

theorem State.ckptOver_lasts {q0 : State} (s : State) (g : Nat) (hq : q0.lasts s) :
    q0.lasts (State.ckptOver s g) := by
  unfold State.ckptOver
  try dsimp only
  repeat' first
    | with_reducible first
      | assumption | apply State.setGrp_lasts | apply State.setRb_lasts | apply State.ckptIssue_lasts
    | split | with_reducible refine State.lasts_mk ?_ rfl

theorem State.ckptLost_lasts {q0 : State} (s : State) (g : Nat) (hq : q0.lasts s) :
    q0.lasts (State.ckptLost s g) := by
  unfold State.ckptLost
  try dsimp only
  repeat' first
    | with_reducible first | assumption | apply State.ckptOver_lasts | apply State.raiseF_lasts

theorem State.clearGen_lasts {q0 : State} (s : State) (i : Nat) (hq : q0.lasts s) :
    q0.lasts (State.clearGen s i) := by
  unfold State.clearGen
  try dsimp only
  repeat' first
    | with_reducible first | assumption | apply State.setPe_lasts
    | split | with_reducible refine State.lasts_mk ?_ rfl

theorem State.cancelSlot_lasts {q0 : State} (s : State) (k : Slot) (hq : q0.lasts s) :
    q0.lasts (State.cancelSlot s k) := by
  unfold State.cancelSlot
  try dsimp only
  repeat' first
    | with_reducible first
      | assumption | apply State.freeSlot_lasts | apply State.clearGen_lasts | apply State.raiseF_lasts | apply State.ckptLost_lasts
      | refine State.lasts_fst (by assumption) ?_
    | split | with_reducible refine State.lasts_mk ?_ rfl

theorem State.cancelSlots_lasts {q0 : State} (s : State) (l : List Slot) (hq : q0.lasts s) :
    q0.lasts (State.cancelSlots s l) := by
  unfold State.cancelSlots
  try dsimp only
  repeat' first
    | with_reducible first
      | assumption | apply State.cancelSlot_lasts | refine State.lasts_foldl _ _ ?_ (fun t x ht => ?_)
      | refine State.lasts_foldlP _ _ ?_ (fun t x ht => ?_)

theorem State.genCancel_lasts {q0 : State} (s : State) (i : Nat) (hq : q0.lasts s) :
    q0.lasts (State.genCancel s i) := by
  unfold State.genCancel
  try dsimp only
  repeat' first
    | with_reducible first
      | assumption | apply State.setPe_lasts | apply State.bump_lasts | apply State.raiseF_lasts
    | split | with_reducible refine State.lasts_mk ?_ rfl

theorem execFoldgenGrant_lasts {q0 : State} (s : State) (hq : q0.lasts s) :
    q0.lastsOut (execFoldgenGrant s) := by
  unfold execFoldgenGrant
  try dsimp only
  repeat' first
    | with_reducible first | assumption | apply State.lastsOut_next | refine State.lasts_fst (by assumption) ?_
    | split | with_reducible refine State.lasts_mk ?_ rfl

theorem State.sendFold_lasts {q0 : State} (s : State) (f : FoldReq) (hq : q0.lasts s) :
    q0.lasts (State.sendFold s f) :=
  State.lasts_mk hq rfl

theorem execFoldCmdGo_lasts {q0 : State} (v : Word) (s : State) (hq : q0.lasts s) :
    q0.lastsOut (execFoldCmdGo v s) := by
  unfold execFoldCmdGo
  try dsimp only
  repeat' first
    | with_reducible first | assumption | apply State.lastsOut_next | apply State.sendFold_lasts
    | split

theorem execFoldReqRise_lasts {q0 : State} (k : Fin 8) (s : State) (hq : q0.lasts s) :
    q0.lastsOut (execFoldReqRise k s) := by
  unfold execFoldReqRise
  try dsimp only
  repeat' first
    | with_reducible first | assumption | apply State.lastsOut_next | apply State.sendFold_lasts
    | split

theorem State.pleatFetch_lasts {q0 : State} (s : State) (i p : Nat) (hq : q0.lasts s) :
    q0.lasts (State.pleatFetch s i p) := by
  unfold State.pleatFetch
  try dsimp only
  repeat' first
    | with_reducible first | assumption | apply State.readWords_lasts

theorem State.refuseFold_lasts {q0 : State} (s : State) (f : FoldReq) (code : Nat) (at_ : Option Nat) (hq : q0.lasts s) :
    q0.lasts (State.refuseFold s f code at_) := by
  unfold State.refuseFold
  try dsimp only
  repeat' first
    | with_reducible first
      | assumption | apply State.setRg_lasts | apply State.raiseF_lasts | apply State.clearGen_lasts | apply State.ckptLost_lasts
      | apply State.hiFoldRefused_lasts | refine State.lasts_fst (by assumption) ?_
    | split

theorem execFoldArrive_lasts {q0 : State} (s : State) (hq : q0.lasts s) :
    q0.lastsOut (execFoldArrive s) := by
  unfold execFoldArrive
  try dsimp only
  repeat' first
    | with_reducible first
      | assumption | apply State.lastsOut_next | apply State.refuseFold_lasts | apply State.raiseF_lasts
      | refine State.lasts_fst (by assumption) ?_
    | split | with_reducible refine State.lasts_mk ?_ rfl

theorem State.popFold_lasts {q0 : State} (s : State) (hq : q0.lasts s) :
    q0.lasts (State.popFold s) :=
  State.lasts_mk hq rfl

theorem execFoldIssue_lasts {q0 : State} (s : State) (hq : q0.lasts s) :
    q0.lastsOut (execFoldIssue s) := by
  unfold execFoldIssue
  try dsimp only
  repeat' first
    | with_reducible first
      | assumption | apply State.lastsOut_next | apply State.pleatFetch_lasts | apply State.popFold_lasts | apply State.refuseFold_lasts
      | apply State.hiFoldDone_lasts | refine State.lasts_fst (by assumption) ?_
    | split | with_reducible refine State.lasts_mk ?_ rfl

theorem execFoldLoadWaitTimeout_lasts {q0 : State} (s : State) (hq : q0.lasts s) :
    q0.lastsOut (execFoldLoadWaitTimeout s) := by
  unfold execFoldLoadWaitTimeout
  try dsimp only
  repeat' first
    | with_reducible first
      | assumption | apply State.lastsOut_next | apply State.popFold_lasts | apply State.refuseFold_lasts
      | refine State.lasts_fst (by assumption) ?_
    | split

theorem State.putFold_lasts {q0 : State} (s : State) (t : Token) (d : Dst) (hq : q0.lasts s) :
    q0.lasts (State.putFold s t d) := by
  unfold State.putFold
  try dsimp only
  repeat' first
    | with_reducible first
      | assumption | apply State.exitMark_lasts | apply State.pushFifo_lasts | apply State.qPush_lasts
      | refine State.lasts_fst (by assumption) ?_
    | split

theorem State.snapshot_lasts {q0 : State} (s : State) (g i : Nat) (hq : q0.lasts s) :
    q0.lasts (State.snapshot s g i) := by
  unfold State.snapshot
  try dsimp only
  repeat' first
    | with_reducible first
      | assumption | apply State.setGrp_lasts | apply State.act_lasts | refine State.lasts_fst (by assumption) ?_
    | intro _ | split | with_reducible refine State.lasts_mk ?_ rfl

theorem State.foldPe_lasts {q0 : State} (s : State) (i : Nat) (k : Slot) (hq : q0.lasts s) :
    q0.lasts (State.foldPe s i k) := by
  unfold State.foldPe
  try dsimp only
  repeat' first
    | with_reducible first
      | assumption | apply State.act_lasts | apply State.putFold_lasts | apply State.snapshot_lasts | apply State.genCancel_lasts
      | apply State.pleatFetch_lasts | apply State.setPe_lasts | apply State.freeSlot_lasts | apply State.putSlot_lasts
      | refine State.lasts_foldl _ _ ?_ (fun t x ht => ?_) | refine State.lasts_foldlP _ _ ?_ (fun t x ht => ?_)
      | refine State.lasts_fst (by assumption) ?_
    | intro _ | split | with_reducible refine State.lasts_mk ?_ rfl

theorem execPeFold_lasts {q0 : State} (pe : Fin 1536) (s : State) (hq : q0.lasts s) :
    q0.lastsOut (execPeFold pe s) := by
  unfold execPeFold
  try dsimp only
  repeat' first
    | with_reducible first
      | assumption | apply State.lastsOut_next | apply State.clearGen_lasts | apply State.popFifo_lasts | apply State.foldPe_lasts
      | refine State.lasts_foldl _ _ ?_ (fun t x ht => ?_) | refine State.lasts_foldlP _ _ ?_ (fun t x ht => ?_)
      | refine State.lasts_fst (by assumption) ?_
    | split

theorem State.foldIntoQueue_lasts {q0 : State} (s : State) (q : Nat) (t : Token) (hq : q0.lasts s) :
    q0.lasts (State.foldIntoQueue s q t) := by
  unfold State.foldIntoQueue
  try dsimp only
  repeat' first
    | with_reducible first | assumption | apply State.settleQ_lasts
    | with_reducible refine State.lasts_mk ?_ rfl

theorem State.foldIntoFifo_lasts {q0 : State} (s : State) (i side : Nat) (t : Token) (express : Bool) (hq : q0.lasts s) :
    q0.lasts (State.foldIntoFifo s i side t express) := by
  unfold State.foldIntoFifo
  try dsimp only
  repeat' first
    | with_reducible first | assumption | apply State.setPe_lasts
    | with_reducible refine State.lasts_mk ?_ rfl

theorem State.injectEntry_lasts {q0 : State} (s : State) (t : Token) (i side : Nat) (hq : q0.lasts s) :
    q0.lasts (State.injectEntry s t i side) := by
  unfold State.injectEntry
  try dsimp only
  repeat' first
    | with_reducible first
      | assumption | apply State.foldIntoQueue_lasts | apply State.foldIntoFifo_lasts | refine State.lasts_fst (by assumption) ?_
    | split

theorem State.injectWave_lasts {q0 : State} (s : State) (w : Switch) (hq : q0.lasts s) :
    q0.lasts (State.injectWave s w) := by
  unfold State.injectWave
  try dsimp only
  repeat' first
    | with_reducible first
      | assumption | apply State.injectEntry_lasts | apply State.putSlot_lasts | apply State.clearGen_lasts | apply State.foldPe_lasts
      | apply State.setGrp_lasts | refine State.lasts_foldl _ _ ?_ (fun t x ht => ?_) | refine State.lasts_foldlP _ _ ?_ (fun t x ht => ?_)
      | refine State.lasts_fst (by assumption) ?_
    | split | with_reducible refine State.lasts_mk ?_ rfl

theorem State.switchAll_lasts {q0 : State} (s : State) (f : FoldReq) (hq : q0.lasts s) :
    q0.lasts (State.switchAll s f) := by
  unfold State.switchAll
  try dsimp only
  repeat' first
    | with_reducible first
      | assumption | apply State.cancelSlots_lasts | apply State.genCancel_lasts | apply State.setPe_lasts | apply State.act_lasts
      | apply State.openGroup_lasts | refine State.lasts_foldl _ _ ?_ (fun t x ht => ?_) | refine State.lasts_foldlP _ _ ?_ (fun t x ht => ?_)
    | intro _ | split | with_reducible refine State.lasts_mk ?_ rfl

theorem execFoldSwitchEdge_lasts {q0 : State} (s : State) (hq : q0.lasts s) :
    q0.lastsOut (execFoldSwitchEdge s) := by
  unfold execFoldSwitchEdge
  try dsimp only
  repeat' first
    | with_reducible first
      | assumption | apply State.lastsOut_next | apply State.injectWave_lasts | apply State.switchAll_lasts
      | refine State.lasts_fst (by assumption) ?_
    | split | with_reducible refine State.lasts_mk ?_ rfl

theorem execFoldTokenEnter_lasts {q0 : State} (s : State) (hq : q0.lasts s) :
    q0.lastsOut (execFoldTokenEnter s) := by
  unfold execFoldTokenEnter
  try dsimp only
  repeat' first
    | with_reducible first
      | assumption | apply State.lastsOut_next | apply State.qThr_lasts | refine State.each_lasts _ _ _ ?_ (fun i t ht => ?_)
    | with_reducible refine State.lasts_mk ?_ rfl

theorem execWaveStuck_lasts {q0 : State} (slot : Fin 16) (s : State) (hq : q0.lasts s) :
    q0.lastsOut (execWaveStuck slot s) := by
  unfold execWaveStuck
  try dsimp only
  repeat' first
    | with_reducible first
      | assumption | apply State.lastsOut_next | apply State.putSlot_lasts | apply State.raiseF_lasts | apply State.report_lasts
      | refine State.lasts_fst (by assumption) ?_
    | split | with_reducible refine State.lasts_mk ?_ rfl

theorem execCancelWaves_lasts {q0 : State} (s : State) (hq : q0.lasts s) :
    q0.lastsOut (execCancelWaves s) := by
  unfold execCancelWaves
  try dsimp only
  repeat' first
    | with_reducible first | assumption | apply State.lastsOut_next | apply State.cancelSlots_lasts

theorem State.loadResult_lasts {q0 : State} (s : State) (l : LoadReq) (st cnt : Nat) (first : Option Nat) (hq : q0.lasts s) :
    q0.lasts (State.loadResult s l st cnt first) := by
  unfold State.loadResult
  try dsimp only
  repeat' first
    | with_reducible first
      | assumption | apply State.setRg_lasts | apply State.hiLoaded_lasts | refine State.lasts_fst (by assumption) ?_
    | split

theorem execPleatLoadQueue_lasts {q0 : State} (v : Word) (s : State) (hq : q0.lasts s) :
    q0.lastsOut (execPleatLoadQueue v s) := by
  unfold execPleatLoadQueue
  try dsimp only
  repeat' first
    | with_reducible first
      | assumption | apply State.lastsOut_next | apply State.setRf_lasts | apply State.raiseF_lasts
    | split | with_reducible refine State.lasts_mk ?_ rfl

theorem State.loadOver_lasts {q0 : State} (s : State) (k : LoadRun) (hq : q0.lasts s) :
    q0.lasts (State.loadOver s k) := by
  unfold State.loadOver
  try dsimp only
  repeat' first
    | with_reducible first | assumption | apply State.loadResult_lasts | apply State.raiseF_lasts
    | split | with_reducible refine State.lasts_mk ?_ rfl

theorem execLoadStart_lasts {q0 : State} (s : State) (hq : q0.lasts s) :
    q0.lastsOut (execLoadStart s) := by
  unfold execLoadStart
  try dsimp only
  repeat' first
    | with_reducible first
      | assumption | apply State.lastsOut_next | apply State.loadResult_lasts | apply State.raiseF_lasts | apply State.loadOver_lasts
      | refine State.lasts_fst (by assumption) ?_
    | split | with_reducible refine State.lasts_mk ?_ rfl

theorem State.loadPe_lasts {q0 : State} (s : State) (i p src : Nat) (hq : q0.lasts s) :
    q0.lasts (State.loadPe s i p src) := by
  unfold State.loadPe
  try dsimp only
  repeat' first
    | with_reducible first
      | assumption | apply State.readWord_lasts | apply State.storeWord_lasts | apply State.storePoison_lasts | apply State.flip_lasts
      | apply State.setPriv_lasts | refine State.lasts_foldl _ _ ?_ (fun t x ht => ?_) | refine State.lasts_foldlP _ _ ?_ (fun t x ht => ?_)
      | refine State.lasts_fst (by assumption) ?_
    | split | with_reducible refine State.lasts_mk ?_ rfl

theorem execTileLoadDone_lasts {q0 : State} (tile : Fin 96) (s : State) (hq : q0.lasts s) :
    q0.lastsOut (execTileLoadDone tile s) := by
  unfold execTileLoadDone
  try dsimp only
  repeat' first
    | with_reducible first
      | assumption | apply State.lastsOut_next | apply State.loadPe_lasts | apply State.hiTile_lasts | apply State.loadOver_lasts
      | refine State.lasts_foldl _ _ ?_ (fun t x ht => ?_) | refine State.lasts_foldlP _ _ ?_ (fun t x ht => ?_)
      | refine State.lasts_fst (by assumption) ?_
    | split | with_reducible refine State.lasts_mk ?_ rfl

theorem State.abortLoad_lasts {q0 : State} (s : State) (hq : q0.lasts s) :
    q0.lasts (State.abortLoad s) := by
  unfold State.abortLoad
  try dsimp only
  repeat' first
    | with_reducible first | assumption | apply State.loadResult_lasts | refine State.lasts_fst (by assumption) ?_
    | split | with_reducible refine State.lasts_mk ?_ rfl

theorem State.plFlush_lasts {q0 : State} (s : State) (hq : q0.lasts s) :
    q0.lasts (State.plFlush s) := by
  unfold State.plFlush
  try dsimp only
  repeat' first
    | with_reducible first
      | assumption | apply State.cancelSlots_lasts | apply State.abortLoad_lasts | apply State.hiLoaded_lasts | apply State.tick_lasts
      | apply State.hiFoldRefused_lasts | refine State.lasts_foldl _ _ ?_ (fun t x ht => ?_)
      | refine State.lasts_foldlP _ _ ?_ (fun t x ht => ?_)
    | with_reducible refine State.lasts_mk ?_ rfl

theorem State.plBlkRst_lasts {q0 : State} (s : State) (hq : q0.lasts s) :
    q0.lasts (State.plBlkRst s) := by
  unfold State.plBlkRst
  try dsimp only
  repeat' first
    | with_reducible first
      | assumption | apply State.plFlush_lasts | apply State.clearRegs_lasts | apply State.setRf_lasts
    | split | with_reducible refine State.lasts_mk ?_ rfl

theorem execPlBlkRst_lasts {q0 : State} (s : State) (hq : q0.lasts s) :
    q0.lastsOut (execPlBlkRst s) := by
  unfold execPlBlkRst
  try dsimp only
  repeat' first
    | with_reducible first
      | assumption | apply State.lastsOut_next | apply State.blkRst_lasts | apply State.plBlkRst_lasts

theorem State.wcmdEnd_lasts {q0 : State} (s : State) (st : Nat) (hq : q0.lasts s) :
    q0.lasts (State.wcmdEnd s st) := by
  unfold State.wcmdEnd
  try dsimp only
  repeat' first
    | with_reducible first | assumption | apply State.setRg_lasts

theorem execPleatWordRead_lasts {q0 : State} (s : State) (hq : q0.lasts s) :
    q0.lastsOut (execPleatWordRead s) := by
  unfold execPleatWordRead
  try dsimp only
  repeat' first
    | with_reducible first
      | assumption | apply State.lastsOut_next | apply State.wcmdEnd_lasts | apply State.readWord_lasts | apply State.setRg_lasts
      | apply State.tick_lasts | refine State.lasts_fst (by assumption) ?_
    | split

theorem execPleatWordWrite_lasts {q0 : State} (s : State) (hq : q0.lasts s) :
    q0.lastsOut (execPleatWordWrite s) := by
  unfold execPleatWordWrite
  try dsimp only
  repeat' first
    | with_reducible first
      | assumption | apply State.lastsOut_next | apply State.wcmdEnd_lasts | apply State.writeWords_lasts
      | refine State.lasts_fst (by assumption) ?_
    | split | with_reducible refine State.lasts_mk ?_ rfl

theorem State.arRefuse_lasts {q0 : State} (s : State) (code : Nat) (hq : q0.lasts s) :
    q0.lasts (State.arRefuse s code) := by
  unfold State.arRefuse
  try dsimp only
  repeat' first
    | with_reducible first | assumption | apply State.setRg_lasts | apply State.raiseF_lasts

theorem execArColmapWrite_lasts {q0 : State} (v : Word) (s : State) (hq : q0.lasts s) :
    q0.lastsOut (execArColmapWrite v s) := by
  unfold execArColmapWrite
  try dsimp only
  repeat' first
    | with_reducible first
      | assumption | apply State.lastsOut_next | apply State.freeze_lasts | apply State.arRefuse_lasts | apply State.store_lasts
      | apply State.setRf_lasts | refine State.lasts_fst (by assumption) ?_
    | split

theorem State.freeze_lasts {q0 : State} (s : State) (on : Bool) (hq : q0.lasts s) :
    q0.lasts (State.freeze s on) := by
  unfold State.freeze
  try dsimp only
  repeat' first
    | with_reducible first | assumption | apply State.setRb_lasts

theorem State.frozenShow_lasts {q0 : State} (s : State) (hq : q0.lasts s) :
    q0.lasts (State.frozenShow s) := by
  unfold State.frozenShow
  try dsimp only
  repeat' first
    | with_reducible first | assumption | apply State.freeze_lasts

theorem execFreezeWrite_lasts {q0 : State} (on : Bool) (s : State) (hq : q0.lasts s) :
    q0.lastsOut (execFreezeWrite on s) := by
  unfold execFreezeWrite
  try dsimp only
  repeat' first
    | with_reducible first | assumption | apply State.lastsOut_next | apply State.freeze_lasts

theorem State.setPeReg_lasts {q0 : State} (s : State) (i p reg : Nat) (x : Word) (hq : q0.lasts s) :
    q0.lasts (State.setPeReg s i p reg x) := by
  unfold State.setPeReg
  try dsimp only
  repeat' first
    | with_reducible first
      | assumption | apply State.setPe_lasts | apply State.setPriv_lasts | refine State.lasts_fst (by assumption) ?_
    | split | with_reducible refine State.lasts_mk ?_ rfl

theorem State.peCmdEnd_lasts {q0 : State} (s : State) (st : Nat) (hq : q0.lasts s) :
    q0.lasts (State.peCmdEnd s st) := by
  unfold State.peCmdEnd
  try dsimp only
  repeat' first
    | with_reducible first | assumption | apply State.setRg_lasts

theorem execPeDataRead_lasts {q0 : State} (s : State) (hq : q0.lasts s) :
    q0.lastsOut (execPeDataRead s) := by
  unfold execPeDataRead
  try dsimp only
  repeat' first
    | with_reducible first
      | assumption | apply State.lastsOut_next | apply State.peCmdEnd_lasts | apply State.setRg_lasts | refine State.lasts_fst (by assumption) ?_
    | split

theorem execPeDataWrite_lasts {q0 : State} (s : State) (hq : q0.lasts s) :
    q0.lastsOut (execPeDataWrite s) := by
  unfold execPeDataWrite
  try dsimp only
  repeat' first
    | with_reducible first
      | assumption | apply State.lastsOut_next | apply State.peCmdEnd_lasts | apply State.setPeReg_lasts
      | refine State.lasts_fst (by assumption) ?_
    | split

theorem State.pushExpress_lasts {q0 : State} (s : State) (i : Nat) (v : Word) (hq : q0.lasts s) :
    q0.lasts (State.pushExpress s i v) := by
  unfold State.pushExpress
  try dsimp only
  repeat' first
    | with_reducible first
      | assumption | apply State.setPe_lasts | apply State.openGroup_lasts | refine State.lasts_fst (by assumption) ?_
    | split | with_reducible refine State.lasts_mk ?_ rfl

theorem execExpressInputChange_lasts {q0 : State} (k : Fin 16) (s : State) (hq : q0.lasts s) :
    q0.lastsOut (execExpressInputChange k s) := by
  unfold execExpressInputChange
  try dsimp only
  repeat' first
    | with_reducible first
      | assumption | apply State.lastsOut_next | apply State.setRg_lasts | apply State.pushExpress_lasts
    | split | with_reducible refine State.lasts_mk ?_ rfl

theorem State.homePes_lasts {q0 : State} (s : State) (hq : q0.lasts s) :
    q0.lasts (State.homePes s) := by
  unfold State.homePes
  try dsimp only
  repeat' first
    | with_reducible first
      | assumption | apply State.setPe_lasts | apply State.act_lasts | refine State.lasts_foldl _ _ ?_ (fun t x ht => ?_)
      | refine State.lasts_foldlP _ _ ?_ (fun t x ht => ?_)
    | intro _ | split | with_reducible refine State.lasts_mk ?_ rfl

theorem State.openTiled_lasts {q0 : State} (s : State) (hq : q0.lasts s) :
    q0.lasts (State.openTiled s) := by
  unfold State.openTiled
  try dsimp only
  repeat' first
    | with_reducible first
      | assumption | apply State.openGroup_lasts | refine State.lasts_foldl _ _ ?_ (fun t x ht => ?_)
      | refine State.lasts_foldlP _ _ ?_ (fun t x ht => ?_)
    | split

theorem State.openAll_lasts {q0 : State} (s : State) (hq : q0.lasts s) :
    q0.lasts (State.openAll s) := by
  unfold State.openAll
  try dsimp only
  repeat' first
    | with_reducible first
      | assumption | apply State.openGroup_lasts | refine State.lasts_foldl _ _ ?_ (fun t x ht => ?_)
      | refine State.lasts_foldlP _ _ ?_ (fun t x ht => ?_)
    | split

theorem State.arrayReset_lasts {q0 : State} (s : State) (hq : q0.lasts s) :
    q0.lasts (State.arrayReset s) := by
  unfold State.arrayReset
  try dsimp only
  repeat' first
    | with_reducible first
      | assumption | apply State.plFlush_lasts | apply State.emptyQs_lasts | apply State.homePes_lasts | apply State.openTiled_lasts
      | apply State.startFill_lasts
    | split | with_reducible refine State.lasts_mk ?_ rfl

theorem State.arBlkRst_lasts {q0 : State} (s : State) (hq : q0.lasts s) :
    q0.lasts (State.arBlkRst s) := by
  unfold State.arBlkRst
  try dsimp only
  repeat' first
    | with_reducible first
      | assumption | apply State.arrayReset_lasts | apply State.clearRegs_lasts | apply State.setRb_lasts
    | split

theorem execArBlkRst_lasts {q0 : State} (s : State) (hq : q0.lasts s) :
    q0.lastsOut (execArBlkRst s) := by
  unfold execArBlkRst
  try dsimp only
  repeat' first
    | with_reducible first
      | assumption | apply State.lastsOut_next | apply State.blkRst_lasts | apply State.arBlkRst_lasts

theorem State.fabFold_lasts {q0 : State} (s : State) (hq : q0.lasts s) :
    q0.lasts (State.fabFold s) := by
  unfold State.fabFold
  try dsimp only
  repeat' first
    | with_reducible first | assumption | apply State.bump_lasts | apply State.raiseF_lasts

theorem State.portToPe_lasts {q0 : State} (s : State) (q : Nat) (t : Token) (hq : q0.lasts s) : q0.lasts (s.portToPe q t) := by
  unfold State.portToPe
  generalize s.inFifo q = x
  obtain ⟨i, side, code⟩ := x
  dsimp only
  split
  · exact State.qDrop_lasts _ _ hq
  · split
    · next u e => exact State.intoPe_lasts _ _ _ (State.qDrop_lasts _ _ hq) e
    · exact hq

theorem State.popTo_lasts {q0 : State} (s : State) (q : Nat) (hq : q0.lasts s) :
    q0.lasts (State.popTo s q) := by
  unfold State.popTo
  try dsimp only
  repeat' first
    | with_reducible first
      | assumption | apply State.qAwait_lasts | apply State.qDrop_lasts | apply State.emit_lasts | apply State.giveIn_lasts
      | apply State.portToPe_lasts | apply State.qGive_lasts | refine State.lasts_fst (by assumption) ?_
    | split

theorem execTruncationMarker_lasts {q0 : State} (q : Fin 1160) (s : State) (hq : q0.lasts s) :
    q0.lastsOut (execTruncationMarker q s) := by
  unfold execTruncationMarker
  try dsimp only
  repeat' first
    | with_reducible first | assumption | apply State.lastsOut_next | apply State.popTo_lasts
    | split

theorem State.spEnd_lasts {q0 : State} (s : State) (p : Nat) (hq : q0.lasts s) :
    q0.lasts (State.spEnd s p) := by
  unfold State.spEnd
  try dsimp only
  repeat' first
    | with_reducible first
      | assumption | apply State.setSpr_lasts | apply State.bump_lasts | apply State.raiseF_lasts | apply State.qGive_lasts
    | split | with_reducible refine State.lasts_mk ?_ rfl

theorem execSpAlign_lasts {q0 : State} (p : Fin 8) (s : State) (hq : q0.lasts s) :
    q0.lastsOut (execSpAlign p s) := by
  unfold execSpAlign
  try dsimp only
  repeat' first
    | with_reducible first
      | assumption | apply State.lastsOut_next | apply State.spEnd_lasts | apply State.setSpr_lasts
    | split | with_reducible refine State.lasts_mk ?_ rfl

theorem execSpAlignTimeout_lasts {q0 : State} (p : Fin 8) (s : State) (hq : q0.lasts s) :
    q0.lastsOut (execSpAlignTimeout p s) := by
  unfold execSpAlignTimeout
  try dsimp only
  repeat' first
    | with_reducible first
      | assumption | apply State.lastsOut_next | apply State.setSpr_lasts | apply State.raiseF_lasts
    | split | with_reducible refine State.lasts_mk ?_ rfl

theorem State.spPush_lasts {q0 : State} (s : State) (p : Nat) (v : Word) (last : Bool) (hq : q0.lasts s) :
    q0.lasts (State.spPush s p v last) := by
  unfold State.spPush
  try dsimp only
  repeat' first
    | with_reducible first
      | assumption | apply State.setSpr_lasts | apply State.qGive_lasts | apply State.spEnd_lasts
    | split | with_reducible refine State.lasts_mk ?_ rfl

theorem State.spSearch_lasts {q0 : State} (s : State) (p : Nat) (lanes : BitVec 64) (hq : q0.lasts s) :
    q0.lasts (State.spSearch s p lanes) := by
  unfold State.spSearch
  try dsimp only
  repeat' first
    | with_reducible first
      | assumption | apply State.setSpr_lasts | refine State.lasts_foldl _ _ ?_ (fun t x ht => ?_)
      | refine State.lasts_foldlP _ _ ?_ (fun t x ht => ?_) | refine State.lasts_fst (by assumption) ?_
    | split | with_reducible refine State.lasts_mk ?_ rfl

theorem State.spTake_lasts {q0 : State} (s : State) (n : Nat) (lanes : BitVec 64) (tap : Nat) (hq : q0.lasts s) :
    q0.lasts (State.spTake s n lanes tap) := by
  unfold State.spTake
  try dsimp only
  repeat' first
    | with_reducible first
      | assumption | apply State.spSearch_lasts | apply State.setSpr_lasts | apply State.spPush_lasts | refine State.lasts_fst (by assumption) ?_
    | split | with_reducible refine State.lasts_mk ?_ rfl

theorem execSpWord_lasts {q0 : State} (p : Fin 8) (lanes : BitVec 64) (tap : BitVec 7) (s : State) (hq : q0.lasts s) :
    q0.lastsOut (execSpWord p lanes tap s) := by
  unfold execSpWord
  try dsimp only
  repeat' first
    | with_reducible first
      | assumption | apply State.lastsOut_next | apply State.spTake_lasts | apply State.setSpr_lasts
    | with_reducible refine State.lasts_mk ?_ rfl

theorem execSpClockLoss_lasts {q0 : State} (p : Fin 8) (s : State) (hq : q0.lasts s) :
    q0.lastsOut (execSpClockLoss p s) := by
  unfold execSpClockLoss
  try dsimp only
  repeat' first
    | with_reducible first
      | assumption | apply State.lastsOut_next | apply State.spEnd_lasts | apply State.setSpr_lasts | apply State.raiseF_lasts
    | split | with_reducible refine State.lasts_mk ?_ rfl

theorem State.spResync_lasts {q0 : State} (s : State) (hq : q0.lasts s) :
    q0.lasts (State.spResync s) := by
  unfold State.spResync
  try dsimp only
  repeat' first
    | with_reducible first
      | assumption | apply State.setSpr_lasts | refine State.each_lasts _ _ _ ?_ (fun i t ht => ?_)
    | with_reducible refine State.lasts_mk ?_ rfl

theorem State.sqBlkRst_lasts {q0 : State} (s : State) (hq : q0.lasts s) :
    q0.lasts (State.sqBlkRst s) := by
  unfold State.sqBlkRst
  try dsimp only
  repeat' first
    | with_reducible first
      | assumption | apply State.emptyQs_lasts | apply State.spResync_lasts | apply State.clearRegs_lasts

theorem execSqBlkRst_lasts {q0 : State} (s : State) (hq : q0.lasts s) :
    q0.lastsOut (execSqBlkRst s) := by
  unfold execSqBlkRst
  try dsimp only
  repeat' first
    | with_reducible first
      | assumption | apply State.lastsOut_next | apply State.blkRst_lasts | apply State.sqBlkRst_lasts

end Sys2Proof.Machine
end

