-- ==== Sys2Proof/Laws/LastsHost.lean ====
section
/-! SUPPORT. What no command takes away (State.lasts), operation by operation: the fabric, actions, flash arrays and the host interface. -/

set_option linter.unusedVariables false
set_option linter.unusedSimpArgs false

namespace Sys2Proof.Machine

theorem State.fabFlush_lasts {q0 : State} (s : State) (q : Nat) (hq : q0.lasts s) :
    q0.lasts (State.fabFlush s q) := by
  unfold State.fabFlush
  try dsimp only
  repeat' first
    | with_reducible first | assumption | apply State.flushQ_lasts | apply State.setQu_lasts
    | with_reducible refine State.lasts_mk ?_ rfl

theorem execQueuePush_lasts {q0 : State} (q : Fin 1160) (data : Word) (tag : BitVec 4) (last fold err par lost : Bool) (s : State) (hq : q0.lasts s) :
    q0.lastsOut (execQueuePush q data tag last fold err par lost s) := by
  unfold execQueuePush
  try dsimp only
  repeat' first
    | with_reducible first
      | assumption | apply State.lastsOut_next | apply State.qGive_lasts | apply State.fabFold_lasts | apply State.upset_lasts
      | refine State.lasts_fst (by assumption) ?_
    | split

theorem execQueuePop_lasts {q0 : State} (q : Fin 1544) (s : State) (hq : q0.lasts s) :
    q0.lastsOut (execQueuePop q s) := by
  unfold execQueuePop
  try dsimp only
  repeat' first
    | with_reducible first
      | assumption | apply State.lastsOut_next | apply State.popTo_lasts | refine State.lasts_fst (by assumption) ?_
    | split

theorem State.setTline_lasts {q0 : State} (s : State) (l : Nat) (x : TLine) (hq : q0.lasts s) :
    q0.lasts (State.setTline s l x) :=
  State.lasts_mk hq rfl

theorem execTlContention_lasts {q0 : State} (line : Fin 128) (drivers : BitVec 8) (anyZero : Bool) (s : State) (hq : q0.lasts s) :
    q0.lastsOut (execTlContention line drivers anyZero s) := by
  unfold execTlContention
  try dsimp only
  repeat' first
    | with_reducible first
      | assumption | apply State.lastsOut_next | apply State.setTline_lasts | apply State.bump_lasts | apply State.setRg_lasts
      | apply State.raiseF_lasts
    | split | with_reducible refine State.lasts_mk ?_ rfl

theorem execTlContentionEnd_lasts {q0 : State} (line : Fin 128) (driver : Option Bool) (s : State) (hq : q0.lasts s) :
    q0.lastsOut (execTlContentionEnd line driver s) := by
  unfold execTlContentionEnd
  try dsimp only
  repeat' first
    | with_reducible first | assumption | apply State.lastsOut_next | apply State.setTline_lasts

theorem execPllLockLoss_lasts {q0 : State} (p : Fin 4) (s : State) (hq : q0.lasts s) :
    q0.lastsOut (execPllLockLoss p s) := by
  unfold execPllLockLoss
  try dsimp only
  repeat' first
    | with_reducible first
      | assumption | apply State.lastsOut_next | apply State.setRb_lasts | apply State.bump_lasts | apply State.raiseF_lasts
    | split

theorem execPllLock_lasts {q0 : State} (p : Fin 4) (s : State) (hq : q0.lasts s) :
    q0.lastsOut (execPllLock p s) := by
  unfold execPllLock
  try dsimp only
  repeat' first
    | with_reducible first | assumption | apply State.lastsOut_next | apply State.setRb_lasts
    | split

theorem State.pllWrite_lasts {q0 : State} (s : State) (p a : Nat) (v : Word) (hq : q0.lasts s) :
    q0.lasts (State.pllWrite s p a v) := by
  unfold State.pllWrite
  try dsimp only
  repeat' first
    | with_reducible first | assumption | apply State.store_lasts | apply State.setRb_lasts
    | split | with_reducible refine State.lasts_mk ?_ rfl

theorem State.setCmux_lasts {q0 : State} (s : State) (m : Nat) (x : ClkMux) (hq : q0.lasts s) :
    q0.lasts (State.setCmux s m x) :=
  State.lasts_mk hq rfl

theorem execClockMuxSelect_lasts {q0 : State} (mux sel : Nat) (live : Bool) (falls : Fin 3) (s : State) (hq : q0.lasts s) :
    q0.lastsOut (execClockMuxSelect mux sel live falls s) := by
  unfold execClockMuxSelect
  try dsimp only
  repeat' first
    | with_reducible first
      | assumption | apply State.lastsOut_next | apply State.setCmux_lasts | refine State.lasts_fst (by assumption) ?_
    | split | with_reducible refine State.lasts_mk ?_ rfl

theorem execClockMuxTimeout_lasts {q0 : State} (mux : Nat) (falls : Fin 3) (s : State) (hq : q0.lasts s) :
    q0.lastsOut (execClockMuxTimeout mux falls s) := by
  unfold execClockMuxTimeout
  try dsimp only
  repeat' first
    | with_reducible first | assumption | apply State.lastsOut_next | apply State.setCmux_lasts
    | split | with_reducible refine State.lasts_mk ?_ rfl

theorem State.setBport_lasts {q0 : State} (s : State) (i : Nat) (x : BramPort) (hq : q0.lasts s) :
    q0.lasts (State.setBport s i x) :=
  State.lasts_mk hq rfl

theorem State.bramErr_lasts {q0 : State} (s : State) (block port word : Nat) (write : Bool) (hq : q0.lasts s) :
    q0.lasts (State.bramErr s block port word write) := by
  unfold State.bramErr
  try dsimp only
  repeat' first
    | with_reducible first | assumption | apply State.setRg_lasts | apply State.raiseF_lasts

theorem State.bramRead_lasts {q0 : State} (s : State) (block port : Nat) (x : BramAcc) (hq : q0.lasts s) :
    q0.lasts (State.bramRead s block port x).1 := by
  unfold State.bramRead
  try dsimp only
  repeat' first
    | with_reducible first
      | assumption | apply State.readWord_lasts | apply State.bramErr_lasts | refine State.lasts_foldl _ _ ?_ (fun t x ht => ?_)
      | refine State.lasts_foldlP _ _ ?_ (fun t x ht => ?_) | refine State.lasts_fst (by assumption) ?_
    | split

theorem State.bramWrite_lasts {q0 : State} (s : State) (block port : Nat) (x : BramAcc) (lost : List Nat) (hq : q0.lasts s) :
    q0.lasts (State.bramWrite s block port x lost).1 := by
  unfold State.bramWrite
  try dsimp only
  repeat' first
    | with_reducible first
      | assumption | apply State.storeWord_lasts | apply State.readWord_lasts | apply State.bramErr_lasts | apply State.flip_lasts
      | refine State.lasts_foldl _ _ ?_ (fun t x ht => ?_) | refine State.lasts_foldlP _ _ ?_ (fun t x ht => ?_)
      | refine State.lasts_fst (by assumption) ?_
    | split

theorem State.bramShow_lasts {q0 : State} (s : State) (i : Nat) (x : BramAcc) (old rd : Nat) (err werr coll : Bool) (hq : q0.lasts s) :
    q0.lasts (State.bramShow s i x old rd err werr coll) := by
  unfold State.bramShow
  try dsimp only
  repeat' first
    | with_reducible first | assumption | apply State.setBport_lasts
    | split

theorem execBramPortAccess_lasts {q0 : State} (block : Fin 240) (a b : Option BramAcc) (s : State) (hq : q0.lasts s) :
    q0.lastsOut (execBramPortAccess block a b s) := by
  unfold execBramPortAccess
  extract_lets stage ok held a1 b1 rd aw bw coll wr
  have hrd : ∀ t p o, q0.lasts t → q0.lasts (rd t p o).1 := by
    intro t p o ht
    unfold rd
    try dsimp only
    repeat' first
      | with_reducible first
        | assumption | apply State.lastsOut_next | apply State.bramRead_lasts | refine State.each_lasts _ _ _ ?_ (fun i t ht => ?_)
        | apply State.after_lasts | refine State.lasts_foldl _ _ ?_ (fun t x ht => ?_) | refine State.lasts_foldlP _ _ ?_ (fun t x ht => ?_)
        | refine State.lasts_ite (fun _ => ?_) (fun _ => ?_) | refine State.lasts_iteP (fun _ => ?_) (fun _ => ?_)
        | refine State.lasts_fst (by assumption) ?_
      | intro _ | split | with_reducible refine State.lasts_mk ?_ rfl
  have hwr : ∀ t p o l, q0.lasts t → q0.lasts (wr t p o l).1 := by
    intro t p o l ht
    unfold wr
    try dsimp only
    repeat' first
      | with_reducible first
        | assumption | apply State.lastsOut_next | apply State.bramWrite_lasts | refine State.each_lasts _ _ _ ?_ (fun i t ht => ?_)
        | apply State.after_lasts | refine State.lasts_foldl _ _ ?_ (fun t x ht => ?_) | refine State.lasts_foldlP _ _ ?_ (fun t x ht => ?_)
        | refine State.lasts_ite (fun _ => ?_) (fun _ => ?_) | refine State.lasts_iteP (fun _ => ?_) (fun _ => ?_)
        | refine State.lasts_fst (by assumption) ?_
      | intro _ | split | with_reducible refine State.lasts_mk ?_ rfl
  clear_value a1 b1 rd aw bw coll wr
  try dsimp only
  repeat' first
    | with_reducible first
      | assumption | apply State.lastsOut_next | apply State.bump_lasts | apply State.bramShow_lasts | apply hrd | apply hwr
      | refine State.each_lasts _ _ _ ?_ (fun i t ht => ?_) | apply State.after_lasts | refine State.lasts_foldl _ _ ?_ (fun t x ht => ?_)
      | refine State.lasts_foldlP _ _ ?_ (fun t x ht => ?_) | refine State.lasts_ite (fun _ => ?_) (fun _ => ?_)
      | refine State.lasts_iteP (fun _ => ?_) (fun _ => ?_) | refine State.lasts_fst (by assumption) ?_
    | intro _ | split | with_reducible refine State.lasts_mk ?_ rfl

theorem execTimerMatch_lasts {q0 : State} (k : Fin 32) (edges : Word) (s : State) (hq : q0.lasts s) :
    q0.lastsOut (execTimerMatch k edges s) := by
  unfold execTimerMatch
  try dsimp only
  repeat' first
    | with_reducible first
      | assumption | apply State.lastsOut_next | apply State.setRg_lasts | apply State.emit_lasts
    | split | with_reducible refine State.lasts_mk ?_ rfl

theorem State.cmpWrite_lasts {q0 : State} (s : State) (k : Nat) (v : Word) (hq : q0.lasts s) :
    q0.lasts (State.cmpWrite s k v) := by
  unfold State.cmpWrite
  try dsimp only
  repeat' first
    | with_reducible first | assumption | apply State.store_lasts
    | split | with_reducible refine State.lasts_mk ?_ rfl

theorem execTimerCapture_lasts {q0 : State} (k : Fin 32) (capin : Bool) (s : State) (hq : q0.lasts s) :
    q0.lastsOut (execTimerCapture k capin s) := by
  unfold execTimerCapture
  try dsimp only
  repeat' first
    | with_reducible first
      | assumption | apply State.lastsOut_next | apply State.setRb_lasts | apply State.raiseF_lasts | apply State.setRg_lasts
      | apply State.setRf_lasts
    | split | with_reducible refine State.lasts_mk ?_ rfl

theorem execMportRequest_lasts {q0 : State} (m : Fin 4) (p : Packet) (s : State) (hq : q0.lasts s) :
    q0.lastsOut (execMportRequest m p s) := by
  unfold execMportRequest
  try dsimp only
  repeat' first
    | with_reducible first
      | assumption | apply State.lastsOut_next | apply State.cmd_lasts | apply State.request_lasts
    | split | with_reducible refine State.lasts_mk ?_ rfl

theorem execMportCfgWrite_lasts {q0 : State} (m : Fin 4) (v : Word) (s : State) (hq : q0.lasts s) :
    q0.lastsOut (execMportCfgWrite m v s) := by
  unfold execMportCfgWrite
  try dsimp only
  repeat' first
    | with_reducible first | assumption | apply State.lastsOut_next | apply State.store_lasts
    | split

theorem State.uwinAnswer_lasts {q0 : State} (s : State) (p : Option Packet) (write : Bool) (status : Nat) (v : Word) (hq : q0.lasts s) :
    q0.lasts (State.uwinAnswer s p write status v) := by
  unfold State.uwinAnswer
  try dsimp only
  repeat' first
    | with_reducible first
      | assumption | apply State.inject_lasts | apply State.answerErr_lasts | apply State.emit_lasts | refine State.lasts_fst (by assumption) ?_
    | split

theorem State.uwinAccess_lasts {q0 : State} (s : State) (p : Option Packet) (off : Nat) (w : Option Word) (hq : q0.lasts s) :
    q0.lasts (State.uwinAccess s p off w) := by
  unfold State.uwinAccess
  try dsimp only
  repeat' first
    | with_reducible first | assumption | apply State.uwinAnswer_lasts | apply State.emit_lasts
    | split | with_reducible refine State.lasts_mk ?_ rfl

theorem execUwinAnswer_lasts {q0 : State} (v : Word) (s : State) (hq : q0.lasts s) :
    q0.lastsOut (execUwinAnswer v s) := by
  unfold execUwinAnswer
  try dsimp only
  repeat' first
    | with_reducible first
      | assumption | apply State.lastsOut_next | apply State.uwinAnswer_lasts | refine State.lasts_fst (by assumption) ?_
    | split | with_reducible refine State.lasts_mk ?_ rfl

theorem execUwinTimeout_lasts {q0 : State} (s : State) (hq : q0.lasts s) :
    q0.lastsOut (execUwinTimeout s) := by
  unfold execUwinTimeout
  try dsimp only
  repeat' first
    | with_reducible first
      | assumption | apply State.lastsOut_next | apply State.uwinAnswer_lasts | apply State.raiseF_lasts
      | refine State.lasts_fst (by assumption) ?_
    | split | with_reducible refine State.lasts_mk ?_ rfl

theorem execUserEventRise_lasts {q0 : State} (n : Fin 16) (s : State) (hq : q0.lasts s) :
    q0.lastsOut (execUserEventRise n s) := by
  unfold execUserEventRise
  try dsimp only
  repeat' first
    | with_reducible first | assumption | apply State.lastsOut_next | apply State.raise_lasts
    | split

theorem State.fbReach_lasts {q0 : State} (s : State) (n : Nat) (hq : q0.lasts s) :
    q0.lasts (State.fbReach s n) := by
  unfold State.fbReach
  try dsimp only
  repeat' first
    | with_reducible first | assumption | apply State.setRf_lasts
    | with_reducible refine State.lasts_mk ?_ rfl

theorem execReleaseStage1_lasts {q0 : State} (s : State) (hq : q0.lasts s) :
    q0.lastsOut (execReleaseStage1 s) := by
  unfold execReleaseStage1
  try dsimp only
  repeat' first
    | with_reducible first
      | assumption | apply State.lastsOut_next | apply State.fbReach_lasts | apply State.setRf_lasts | apply State.raiseF_lasts
    | split

theorem execReleaseStage2_lasts {q0 : State} (region : Option (Fin 15)) (s : State) (hq : q0.lasts s) :
    q0.lastsOut (execReleaseStage2 region s) := by
  unfold execReleaseStage2
  try dsimp only
  repeat' first
    | with_reducible first
      | assumption | apply State.lastsOut_next | apply State.fbReach_lasts | apply State.setCgr_lasts | refine State.lasts_fst (by assumption) ?_
    | split | with_reducible refine State.lasts_mk ?_ rfl

theorem execReleaseStage3_lasts {q0 : State} (region : Option (Fin 15)) (s : State) (hq : q0.lasts s) :
    q0.lastsOut (execReleaseStage3 region s) := by
  unfold execReleaseStage3
  try dsimp only
  repeat' first
    | with_reducible first
      | assumption | apply State.lastsOut_next | apply State.fbReach_lasts | apply State.setRb_lasts | apply State.raiseF_lasts
      | apply State.setCgr_lasts | apply State.setRf_lasts | refine State.lasts_fst (by assumption) ?_
    | split | with_reducible refine State.lasts_mk ?_ rfl

theorem execFlipflopRelease_lasts {q0 : State} (clk : Fin 120) (s : State) (hq : q0.lasts s) :
    q0.lastsOut (execFlipflopRelease clk s) := by
  unfold execFlipflopRelease
  try dsimp only
  repeat' first
    | with_reducible first | assumption | apply State.lastsOut_next
    | split | with_reducible refine State.lasts_mk ?_ rfl

theorem execCfgDoneChange_lasts {q0 : State} (level : Bool) (s : State) (hq : q0.lasts s) :
    q0.lastsOut (execCfgDoneChange level s) := by
  unfold execCfgDoneChange
  try dsimp only
  repeat' first
    | with_reducible first
      | assumption | apply State.lastsOut_next | apply State.setRb_lasts | apply State.raiseF_lasts
    | split | with_reducible refine State.lasts_mk ?_ rfl

theorem State.fbToStage1_lasts {q0 : State} (s : State) (hq : q0.lasts s) :
    q0.lasts (State.fbToStage1 s) := by
  unfold State.fbToStage1
  try dsimp only
  repeat' first
    | with_reducible first
      | assumption | apply State.uwinAnswer_lasts | apply State.fabFlush_lasts | apply State.fbReach_lasts | apply State.setRb_lasts
      | refine State.lasts_foldl _ _ ?_ (fun t x ht => ?_) | refine State.lasts_foldlP _ _ ?_ (fun t x ht => ?_)
    | split | with_reducible refine State.lasts_mk ?_ rfl

theorem execFbBlkRst_lasts {q0 : State} (s : State) (hq : q0.lasts s) :
    q0.lastsOut (execFbBlkRst s) := by
  unfold execFbBlkRst
  try dsimp only
  repeat' first
    | with_reducible first
      | assumption | apply State.lastsOut_next | apply State.clearRegs_lasts | apply State.fbToStage1_lasts | apply State.setRb_lasts
    | split | with_reducible refine State.lasts_mk ?_ rfl

theorem State.fbRunReset_lasts {q0 : State} (s : State) (hq : q0.lasts s) :
    q0.lasts (State.fbRunReset s) := by
  unfold State.fbRunReset
  try dsimp only
  repeat' first
    | with_reducible first
      | assumption | apply State.clearRegs_lasts | apply State.fbToStage1_lasts | apply State.setRb_lasts
    | split | with_reducible refine State.lasts_mk ?_ rfl

theorem execCapArm_lasts {q0 : State} (s : State) (hq : q0.lasts s) :
    q0.lastsOut (execCapArm s) := by
  unfold execCapArm
  try dsimp only
  repeat' first
    | with_reducible first | assumption | apply State.lastsOut_next | apply State.setRb_lasts
    | with_reducible refine State.lasts_mk ?_ rfl

theorem execCapCancel_lasts {q0 : State} (s : State) (hq : q0.lasts s) :
    q0.lastsOut (execCapCancel s) := by
  unfold execCapCancel
  try dsimp only
  repeat' first
    | with_reducible first | assumption | apply State.lastsOut_next | apply State.setRb_lasts
    | with_reducible refine State.lasts_mk ?_ rfl

theorem State.capStrobe_lasts {q0 : State} (s : State) (line : Nat) (hq : q0.lasts s) :
    q0.lasts (State.capStrobe s line) := by
  unfold State.capStrobe
  try dsimp only
  repeat' first
    | with_reducible first | assumption
    | split | with_reducible refine State.lasts_mk ?_ rfl

theorem execFfCaptureTake_lasts {q0 : State} (tap : BitVec 7) (edge : BitVec 16) (plane : List Word) (s : State) (hq : q0.lasts s) :
    q0.lastsOut (execFfCaptureTake tap edge plane s) := by
  unfold execFfCaptureTake
  try dsimp only
  repeat' first
    | with_reducible first
      | assumption | apply State.lastsOut_next | apply State.setRg_lasts | apply State.setRb_lasts | apply State.raiseF_lasts
    | split | with_reducible refine State.lasts_mk ?_ rfl

theorem State.markEvent_lasts {q0 : State} (s : State) (c : Commit) (hq : q0.lasts s) :
    q0.lasts (State.markEvent s c) := by
  unfold State.markEvent
  try dsimp only
  repeat' first
    | with_reducible first | assumption | apply State.raiseWith_lasts

theorem State.strobe_lasts {q0 : State} (s : State) (line : Nat) (inst : Int) (hq : q0.lasts s) :
    q0.lasts (State.strobe s line inst) := by
  unfold State.strobe
  try dsimp only
  repeat' first
    | with_reducible first | assumption | apply State.emit_lasts | apply State.capStrobe_lasts
    | split

theorem State.hxFiring_lasts {q0 : State} (s : State) (c : Commit) (oneshot : Bool) (hq : q0.lasts s) :
    q0.lasts (State.hxFiring s c oneshot) := by
  unfold State.hxFiring
  try dsimp only
  repeat' first
    | with_reducible first
      | assumption | apply State.markEvent_lasts | apply State.strobe_lasts | apply State.setHv_lasts
    | split

theorem State.recordFiring_lasts {q0 : State} (s : State) (c : Commit) (hq : q0.lasts s) :
    q0.lasts (State.recordFiring s c) := by
  unfold State.recordFiring
  try dsimp only
  repeat' first
    | with_reducible first
      | assumption | apply State.setMark_lasts | apply State.raise_lasts | apply State.hxFiring_lasts
    | split | with_reducible refine State.lasts_mk ?_ rfl

theorem State.afterFiring_lasts {q0 : State} (s : State) (n : Nat) (hq : q0.lasts s) :
    q0.lasts (State.afterFiring s n) := by
  unfold State.afterFiring
  try dsimp only
  repeat' first
    | with_reducible first | assumption | apply State.applyEntry_lasts | refine State.lasts_fst (by assumption) ?_
    | split

theorem State.act_lasts {q0 : State} (s : State) (n code : Nat) (f : State → Commit → State) (hq : q0.lasts s)
    (hf : ∀ t c, q0.lasts t → q0.lasts (f t c)) : q0.lasts (s.act n code f) := by
  unfold State.act
  try dsimp only
  repeat' first
    | with_reducible first
      | assumption | apply State.lastsOut_next | apply State.afterFiring_lasts | apply hf | apply State.recordFiring_lasts
      | refine State.each_lasts _ _ _ ?_ (fun i t ht => ?_) | apply State.after_lasts | refine State.lasts_foldl _ _ ?_ (fun t x ht => ?_)
      | refine State.lasts_foldlP _ _ ?_ (fun t x ht => ?_) | refine State.lasts_ite (fun _ => ?_) (fun _ => ?_)
      | refine State.lasts_iteP (fun _ => ?_) (fun _ => ?_) | refine State.lasts_fst (by assumption) ?_
    | intro _ | split | with_reducible refine State.lasts_mk ?_ rfl

theorem execActNone_lasts {q0 : State} (n : Fin 1024) (s : State) (hq : q0.lasts s) :
    q0.lastsOut (execActNone n s) := by
  unfold execActNone
  try dsimp only
  repeat' first
    | with_reducible first | assumption | apply State.lastsOut_next | apply State.act_lasts
    | intro _

theorem State.cuffEdge_lasts {q0 : State} (s : State) (c : Commit) (hq : q0.lasts s) :
    q0.lasts (State.cuffEdge s c) := by
  unfold State.cuffEdge
  try dsimp only
  repeat' first
    | with_reducible first
      | assumption | apply State.bump_lasts | apply State.raiseF_lasts | apply State.setCuff_lasts | refine State.lasts_fst (by assumption) ?_
    | split | with_reducible refine State.lasts_mk ?_ rfl

theorem execActCuffEdge_lasts {q0 : State} (n : Fin 1024) (s : State) (hq : q0.lasts s) :
    q0.lastsOut (execActCuffEdge n s) := by
  unfold execActCuffEdge
  try dsimp only
  repeat' first
    | with_reducible first
      | assumption | apply State.lastsOut_next | apply State.act_lasts | apply State.cuffEdge_lasts
    | intro _

theorem execActFold_lasts {q0 : State} (n : Fin 1024) (s : State) (hq : q0.lasts s) :
    q0.lastsOut (execActFold n s) := by
  unfold execActFold
  try dsimp only
  repeat' first
    | with_reducible first
      | assumption | apply State.lastsOut_next | apply State.act_lasts | apply State.sendFold_lasts | refine State.lasts_fst (by assumption) ?_
    | intro _ | split | with_reducible refine State.lasts_mk ?_ rfl

theorem execActDmaKick_lasts {q0 : State} (n : Fin 1024) (s : State) (hq : q0.lasts s) :
    q0.lastsOut (execActDmaKick n s) := by
  unfold execActDmaKick
  try dsimp only
  repeat' first
    | with_reducible first
      | assumption | apply State.lastsOut_next | apply State.act_lasts | apply State.request_lasts | apply State.raiseF_lasts
    | intro _ | split

theorem execActEvent_lasts {q0 : State} (n : Fin 1024) (s : State) (hq : q0.lasts s) :
    q0.lastsOut (execActEvent n s) := by
  unfold execActEvent
  try dsimp only
  repeat' first
    | with_reducible first
      | assumption | apply State.lastsOut_next | apply State.act_lasts | apply State.markEvent_lasts
    | intro _ | split

theorem execActCapture_lasts {q0 : State} (n : Fin 1024) (s : State) (hq : q0.lasts s) :
    q0.lastsOut (execActCapture n s) := by
  unfold execActCapture
  try dsimp only
  repeat' first
    | with_reducible first
      | assumption | apply State.lastsOut_next | apply State.act_lasts | apply State.capture_lasts
    | intro _ | split | with_reducible refine State.lasts_mk ?_ rfl

theorem execActFabricStrobe_lasts {q0 : State} (n : Fin 1024) (s : State) (hq : q0.lasts s) :
    q0.lastsOut (execActFabricStrobe n s) := by
  unfold execActFabricStrobe
  try dsimp only
  repeat' first
    | with_reducible first
      | assumption | apply State.lastsOut_next | apply State.act_lasts | apply State.strobe_lasts
    | intro _

theorem execActLaceSend_lasts {q0 : State} (n : Fin 1024) (s : State) (hq : q0.lasts s) :
    q0.lastsOut (execActLaceSend n s) := by
  unfold execActLaceSend
  try dsimp only
  repeat' first
    | with_reducible first
      | assumption | apply State.lastsOut_next | apply State.act_lasts | apply State.request_lasts
    | intro _

theorem execAxisSampleSend_lasts {q0 : State} (s : State) (hq : q0.lasts s) :
    q0.lastsOut (execAxisSampleSend s) := by
  unfold execAxisSampleSend
  try dsimp only
  repeat' first
    | with_reducible first
      | assumption | apply State.lastsOut_next | apply State.request_lasts | refine State.each_lasts _ _ _ ?_ (fun i t ht => ?_)
    | split | with_reducible refine State.lasts_mk ?_ rfl

theorem State.flWord_lasts {q0 : State} (s : State) (off : Nat) (hq : q0.lasts s) :
    q0.lasts (State.flWord s off).1 := by
  unfold State.flWord
  try dsimp only
  repeat' first
    | with_reducible first
      | assumption | apply State.bump_lasts | apply State.setRg_lasts | apply State.raiseF_lasts | refine State.lasts_fst (by assumption) ?_
    | split | with_reducible refine State.lasts_mk ?_ rfl

theorem State.flWords_lasts {q0 : State} (s : State) (l : List Nat) (h : q0.lasts s) : q0.lasts (State.flWords s l).1 := by
  induction l generalizing s with
  | nil =>
    unfold State.flWords
    try dsimp only
    repeat' first
      | with_reducible first
        | assumption | apply State.lastsOut_next | refine State.each_lasts _ _ _ ?_ (fun i t ht => ?_) | apply State.after_lasts
        | refine State.lasts_foldl _ _ ?_ (fun t x ht => ?_) | refine State.lasts_foldlP _ _ ?_ (fun t x ht => ?_)
        | refine State.lasts_ite (fun _ => ?_) (fun _ => ?_) | refine State.lasts_iteP (fun _ => ?_) (fun _ => ?_)
        | refine State.lasts_fst (by assumption) ?_
      | intro _ | split | with_reducible refine State.lasts_mk ?_ rfl
  | cons e r ih =>
    unfold State.flWords
    try dsimp only
    repeat' first
      | with_reducible first
        | assumption | apply State.lastsOut_next | apply ih | apply State.flWord_lasts | refine State.each_lasts _ _ _ ?_ (fun i t ht => ?_)
        | apply State.after_lasts | refine State.lasts_foldl _ _ ?_ (fun t x ht => ?_) | refine State.lasts_foldlP _ _ ?_ (fun t x ht => ?_)
        | refine State.lasts_ite (fun _ => ?_) (fun _ => ?_) | refine State.lasts_iteP (fun _ => ?_) (fun _ => ?_)
        | refine State.lasts_fst (by assumption) ?_
      | intro _ | split | with_reducible refine State.lasts_mk ?_ rfl

theorem State.flRead_lasts {q0 : State} (s : State) (off n : Nat) (hq : q0.lasts s) :
    q0.lasts (State.flRead s off n).1 := by
  unfold State.flRead
  try dsimp only
  repeat' first
    | with_reducible first | assumption | apply State.flWords_lasts | refine State.lasts_fst (by assumption) ?_
    | split

theorem State.flProgUnit_lasts {q0 : State} (s : State) (off : Nat) (l : List Byte) (hq : q0.lasts s) :
    q0.lasts (State.flProgUnit s off l) := by
  unfold State.flProgUnit
  try dsimp only
  repeat' first
    | with_reducible first
      | assumption | apply State.storeWord_lasts | refine State.each_lasts _ _ _ ?_ (fun i t ht => ?_)

theorem State.flProg_lasts {q0 : State} (s : State) (off : Nat) (l : List Byte) (hq : q0.lasts s) :
    q0.lasts (State.flProg s off l) := by
  unfold State.flProg
  try dsimp only
  repeat' first
    | with_reducible first
      | assumption | apply State.flProgUnit_lasts | refine State.each_lasts _ _ _ ?_ (fun i t ht => ?_)

theorem State.sectorErase_lasts {q0 : State} (s : State) (k : Nat) (hq : q0.lasts s) :
    q0.lasts (State.sectorErase s k) := by
  unfold State.sectorErase
  try dsimp only
  repeat' first
    | with_reducible first | assumption | apply State.clearMem_lasts

theorem State.sectorPart_lasts {q0 : State} (s : State) (k : Nat) (hq : q0.lasts s) :
    q0.lasts (State.sectorPart s k) := by
  unfold State.sectorPart
  try dsimp only
  repeat' first
    | with_reducible first
      | assumption | apply State.setNum_lasts | apply State.setSyn_lasts | apply State.tick_lasts
      | refine State.lasts_foldl _ _ ?_ (fun t x ht => ?_) | refine State.lasts_foldlP _ _ ?_ (fun t x ht => ?_)
      | refine State.lasts_fst (by assumption) ?_

theorem State.flRecords_lasts {q0 : State} (s : State) (base n : Nat) (hq : q0.lasts s) :
    q0.lasts (State.flRecords s base n).1 := by
  unfold State.flRecords
  try dsimp only
  repeat' first
    | with_reducible first
      | assumption | apply State.flRead_lasts | refine State.lasts_foldl _ _ ?_ (fun t x ht => ?_)
      | refine State.lasts_foldlP _ _ ?_ (fun t x ht => ?_) | refine State.lasts_fst (by assumption) ?_
    | split

theorem State.otSet_lasts {q0 : State} (s : State) (k b : Nat) (hq : q0.lasts s) : q0.lasts (s.otSet k b) := by
  refine ⟨hq.pend, fun j c hb => ?_, hq.mem⟩
  have h := hq.otp j c hb
  unfold State.otSet State.otWord at *
  rw [Tab.get_put]
  split
  · next e => subst e; exact wbit_setBit _ _ _ h
  · exact h

theorem State.rdpDerive_lasts {q0 : State} (s : State) (hq : q0.lasts s) :
    q0.lasts (State.rdpDerive s) := by
  unfold State.rdpDerive
  try dsimp only
  repeat' first
    | with_reducible first | assumption | apply State.setRf_lasts

theorem State.flShow_lasts {q0 : State} (s : State) (hq : q0.lasts s) :
    q0.lasts (State.flShow s) := by
  unfold State.flShow
  try dsimp only
  repeat' first
    | with_reducible first | assumption | apply State.setRb_lasts

theorem State.flRecord_lasts {q0 : State} (s : State) (r : FlRec) (hq : q0.lasts s) :
    q0.lasts (State.flRecord s r) := by
  unfold State.flRecord
  try dsimp only
  repeat' first
    | with_reducible first | assumption | apply State.flShow_lasts
    | with_reducible refine State.lasts_mk ?_ rfl

theorem State.lowerOpen_lasts {q0 : State} (s : State) (hq : q0.lasts s) : q0.lasts (s.lowerOpen).1 := by
  suffices h : q0.lastsP s.lowerOpen from h
  rw [State.lowerOpen]
  split
  next e =>
  exact State.lasts_fst (s := q0) e (State.flRecords_lasts s _ _ hq)

theorem execPcieLinkUp_lasts {q0 : State} (rate width : Fin 4) (s : State) (hq : q0.lasts s) :
    q0.lastsOut (execPcieLinkUp rate width s) := by
  unfold execPcieLinkUp
  try dsimp only
  repeat' first
    | with_reducible first | assumption | apply State.lastsOut_next | apply State.setRg_lasts
    | split

theorem State.forgetDescs_lasts {q0 : State} (s : State) (q : Option Nat) (hq : q0.lasts s) :
    q0.lasts (State.forgetDescs s q) := by
  unfold State.forgetDescs
  try dsimp only
  repeat' first
    | with_reducible first | assumption | refine State.lasts_fst (by assumption) ?_
    | split | with_reducible refine State.lasts_mk ?_ rfl

theorem State.hiReset_lasts {q0 : State} (s : State) (hq : q0.lasts s) :
    q0.lasts (State.hiReset s) := by
  unfold State.hiReset
  try dsimp only
  repeat' first
    | with_reducible first
      | assumption | apply State.setRf_lasts | apply State.clearRegs_lasts | apply State.forgetDescs_lasts
      | refine State.lasts_foldl _ _ ?_ (fun t x ht => ?_) | refine State.lasts_foldlP _ _ ?_ (fun t x ht => ?_)
    | with_reducible refine State.lasts_mk ?_ rfl

theorem execHiBlkRst_lasts {q0 : State} (s : State) (hq : q0.lasts s) :
    q0.lastsOut (execHiBlkRst s) := by
  unfold execHiBlkRst
  try dsimp only
  repeat' first
    | with_reducible first
      | assumption | apply State.lastsOut_next | apply State.blkRst_lasts | apply State.hiReset_lasts

theorem execFlr_lasts {q0 : State} (s : State) (hq : q0.lasts s) :
    q0.lastsOut (execFlr s) := by
  unfold execFlr
  try dsimp only
  repeat' first
    | with_reducible first
      | assumption | apply State.lastsOut_next | apply State.hiReset_lasts | apply State.raiseF_lasts
    | split

theorem execPcieLinkDown_lasts {q0 : State} (s : State) (hq : q0.lasts s) :
    q0.lastsOut (execPcieLinkDown s) := by
  unfold execPcieLinkDown
  try dsimp only
  repeat' first
    | with_reducible first
      | assumption | apply State.lastsOut_next | apply State.hiReset_lasts | apply State.setRg_lasts | apply State.raiseF_lasts
    | split

theorem execD3hotEntry_lasts {q0 : State} (s : State) (hq : q0.lasts s) :
    q0.lastsOut (execD3hotEntry s) := by
  unfold execD3hotEntry
  try dsimp only
  repeat' first
    | with_reducible first | assumption | apply State.lastsOut_next | apply State.hiReset_lasts
    | split

theorem State.mmioPart_lasts {q0 : State} (s : State) (req : Nat) (read : Bool) (skip cnt : Nat) (p : Option Packet) (hq : q0.lasts s) :
    q0.lasts (State.mmioPart s req read skip cnt p) := by
  unfold State.mmioPart
  try dsimp only
  repeat' first
    | with_reducible first | assumption | apply State.request_lasts | refine State.lasts_fst (by assumption) ?_
    | split | with_reducible refine State.lasts_mk ?_ rfl

theorem State.mmioNew_lasts {q0 : State} (s : State) (hq : q0.lasts s) :
    q0.lasts (State.mmioNew s).1 := by
  unfold State.mmioNew
  try dsimp only
  repeat' first
    | with_reducible first | assumption
    | with_reducible refine State.lasts_mk ?_ rfl

theorem execBar0Access_lasts {q0 : State} (write : Bool) (off : BitVec 24) (v : Word) (s : State) (hq : q0.lasts s) :
    q0.lastsOut (execBar0Access write off v s) := by
  unfold execBar0Access
  try dsimp only
  repeat' first
    | with_reducible first
      | assumption | apply State.lastsOut_next | apply State.mmioNew_lasts | apply State.mmioPart_lasts | apply State.mmioFlush_lasts
      | refine State.lasts_fst (by assumption) ?_
    | split | with_reducible refine State.lasts_mk ?_ rfl

theorem execBar2Access_lasts {q0 : State} (write : Bool) (addr : BitVec 26) (n : Fin 4097) (data : List (Option Byte)) (s : State) (hq : q0.lasts s) :
    q0.lastsOut (execBar2Access write addr n data s) := by
  unfold execBar2Access
  try dsimp only
  repeat' first
    | with_reducible first
      | assumption | apply State.lastsOut_next | apply State.mmioNew_lasts | apply State.mmioPart_lasts | apply State.mmioFlush_lasts
      | refine State.lasts_foldl _ _ ?_ (fun t x ht => ?_) | refine State.lasts_foldlP _ _ ?_ (fun t x ht => ?_)
      | refine State.lasts_fst (by assumption) ?_
    | split | with_reducible refine State.lasts_mk ?_ rfl

theorem State.dbErr_lasts {q0 : State} (s : State) (hq : q0.lasts s) :
    q0.lasts (State.dbErr s) := by
  unfold State.dbErr
  try dsimp only
  repeat' first
    | with_reducible first | assumption | apply State.raiseF_lasts

theorem execSubmissionDoorbell_lasts {q0 : State} (q : Fin 1024) (v : Word) (s : State) (hq : q0.lasts s) :
    q0.lastsOut (execSubmissionDoorbell q v s) := by
  unfold execSubmissionDoorbell
  try dsimp only
  repeat' first
    | with_reducible first
      | assumption | apply State.lastsOut_next | apply State.dbErr_lasts | apply State.setQp_lasts
    | split | with_reducible refine State.lasts_mk ?_ rfl

theorem execCompletionDoorbell_lasts {q0 : State} (q : Fin 1024) (v : Word) (s : State) (hq : q0.lasts s) :
    q0.lastsOut (execCompletionDoorbell q v s) := by
  unfold execCompletionDoorbell
  try dsimp only
  repeat' first
    | with_reducible first
      | assumption | apply State.lastsOut_next | apply State.dbErr_lasts | apply State.setQp_lasts
    | split | with_reducible refine State.lasts_mk ?_ rfl

theorem execEventRingDoorbell_lasts {q0 : State} (page : Fin 1024) (off : BitVec 12) (v : Word) (s : State) (hq : q0.lasts s) :
    q0.lastsOut (execEventRingDoorbell page off v s) := by
  unfold execEventRingDoorbell
  try dsimp only
  repeat' first
    | with_reducible first
      | assumption | apply State.lastsOut_next | apply State.dbErr_lasts | apply State.setRing_lasts
    | split | with_reducible refine State.lasts_mk ?_ rfl

theorem State.qpStop_lasts {q0 : State} (s : State) (q code : Nat) (hq : q0.lasts s) :
    q0.lasts (State.qpStop s q code) := by
  unfold State.qpStop
  try dsimp only
  repeat' first
    | with_reducible first
      | assumption | apply State.descEnd_lasts | apply State.tick_lasts | apply State.forgetDescs_lasts
      | refine State.lasts_foldl _ _ ?_ (fun t x ht => ?_) | refine State.lasts_foldlP _ _ ?_ (fun t x ht => ?_)
    | split

theorem State.hiCfgErr_lasts {q0 : State} (s : State) (hq : q0.lasts s) :
    q0.lasts (State.hiCfgErr s) := by
  unfold State.hiCfgErr
  try dsimp only
  repeat' first
    | with_reducible first | assumption | apply State.raiseF_lasts

theorem State.qpCfgWrite_lasts {q0 : State} (s : State) (q : Nat) (v : Word) (hq : q0.lasts s) :
    q0.lasts (State.qpCfgWrite s q v) := by
  unfold State.qpCfgWrite
  try dsimp only
  repeat' first
    | with_reducible first
      | assumption | apply State.hiCfgErr_lasts | apply State.qpStop_lasts | apply State.store_lasts | apply State.setQp_lasts
    | split | with_reducible refine State.lasts_mk ?_ rfl

theorem execHiQpCfgWrite_lasts {q0 : State} (q : Fin 1024) (v : Word) (s : State) (hq : q0.lasts s) :
    q0.lastsOut (execHiQpCfgWrite q v s) := by
  unfold execHiQpCfgWrite
  try dsimp only
  repeat' first
    | with_reducible first | assumption | apply State.lastsOut_next | apply State.qpCfgWrite_lasts

theorem execQueuePairDisable_lasts {q0 : State} (q : Fin 1024) (v : Word) (s : State) (hq : q0.lasts s) :
    q0.lastsOut (execQueuePairDisable q v s) := by
  unfold execQueuePairDisable
  try dsimp only
  repeat' first
    | with_reducible first | assumption | apply State.lastsOut_next | apply State.qpCfgWrite_lasts

theorem execDescriptorFetch_lasts {q0 : State} (q : Fin 1024) (words image : List Word) (hostErr : Bool) (s : State) (hq : q0.lasts s) :
    q0.lastsOut (execDescriptorFetch q words image hostErr s) := by
  unfold execDescriptorFetch
  try dsimp only
  repeat' first
    | with_reducible first
      | assumption | apply State.lastsOut_next | apply State.setQp_lasts | apply State.descEnd_lasts
    | split | with_reducible refine State.lasts_mk ?_ rfl

theorem State.streamFail_lasts {q0 : State} (s : State) (q : Nat) (d : Desc) (code : Nat) (net : Option Nat) (hq : q0.lasts s) :
    q0.lasts (State.streamFail s q d code net) := by
  unfold State.streamFail
  try dsimp only
  repeat' first
    | with_reducible first
      | assumption | apply State.descEnd_lasts | apply State.tick_lasts | refine State.lasts_fst (by assumption) ?_
    | split

theorem State.streamDone_lasts {q0 : State} (s : State) (q : Nat) (d : Desc) (hq : q0.lasts s) :
    q0.lasts (State.streamDone s q d) := by
  unfold State.streamDone
  try dsimp only
  repeat' first
    | with_reducible first | assumption | apply State.descEnd_lasts | apply State.tick_lasts

theorem State.resumeStream_lasts {q0 : State} (s : State) (d : Desc) (hq : q0.lasts s) :
    q0.lasts (State.resumeStream s d) := by
  unfold State.resumeStream
  try dsimp only
  repeat' first
    | with_reducible first
      | assumption | apply State.setExit_lasts | refine State.lasts_foldl _ _ ?_ (fun t x ht => ?_)
      | refine State.lasts_foldlP _ _ ?_ (fun t x ht => ?_)
    | split | with_reducible refine State.lasts_mk ?_ rfl

theorem execStreamIn_lasts {q0 : State} (q : Fin 1024) (dseq v : Word) (hostErr : Bool) (s : State) (hq : q0.lasts s) :
    q0.lastsOut (execStreamIn q dseq v hostErr s) := by
  unfold execStreamIn
  try dsimp only
  repeat' first
    | with_reducible first
      | assumption | apply State.lastsOut_next | apply State.streamFail_lasts | apply State.resumeStream_lasts | apply State.setDesc_lasts
      | apply State.streamDone_lasts | apply State.qGive_lasts | refine State.lasts_fst (by assumption) ?_
    | split | with_reducible refine State.lasts_mk ?_ rfl

theorem execStreamOut_lasts {q0 : State} (q : Fin 1024) (dseq : Word) (s : State) (hq : q0.lasts s) :
    q0.lastsOut (execStreamOut q dseq s) := by
  unfold execStreamOut
  try dsimp only
  repeat' first
    | with_reducible first
      | assumption | apply State.lastsOut_next | apply State.streamFail_lasts | apply State.setDesc_lasts | apply State.streamDone_lasts
      | apply State.qDrop_lasts | apply State.emit_lasts | refine State.lasts_fst (by assumption) ?_
    | split | with_reducible refine State.lasts_mk ?_ rfl

theorem State.descFail_lasts {q0 : State} (s : State) (q : Nat) (d : Desc) (code detail : Nat) (hq : q0.lasts s) :
    q0.lasts (State.descFail s q d code detail) := by
  unfold State.descFail
  try dsimp only
  repeat' first
    | with_reducible first | assumption | apply State.descEnd_lasts
    | split

theorem State.hiRead_lasts {q0 : State} (s : State) (pid a : Nat) (hq : q0.lasts s) :
    q0.lasts (State.hiRead s pid a).1 := by
  unfold State.hiRead
  try dsimp only
  repeat' first
    | with_reducible first
      | assumption | apply State.fwJudge_lasts | apply State.readWords_lasts | refine State.lasts_foldl _ _ ?_ (fun t x ht => ?_)
      | refine State.lasts_foldlP _ _ ?_ (fun t x ht => ?_) | refine State.lasts_fst (by assumption) ?_
    | split

theorem State.hiWrite_lasts {q0 : State} (s : State) (pid a x : Nat) (hq : q0.lasts s) :
    q0.lasts (State.hiWrite s pid a x).1 := by
  unfold State.hiWrite
  try dsimp only
  repeat' first
    | with_reducible first
      | assumption | apply State.fwJudge_lasts | apply State.writeWords_lasts | refine State.lasts_fst (by assumption) ?_
    | split

theorem execMemCopy_lasts {q0 : State} (q : Fin 1024) (dseq : Word) (data : BitVec 256) (hostErr : Bool) (s : State) (hq : q0.lasts s) :
    q0.lastsOut (execMemCopy q dseq data hostErr s) := by
  unfold execMemCopy
  apply State.lastsOut_next
  split
  · exact hq
  · next d _ =>
    extract_lets len dir d1 s1 src dst
    have h1 : q0.lasts s1 := State.setDesc_lasts _ _ _ hq
    clear_value s1 src dst
    refine State.lasts_ite (fun _ => State.descFail_lasts _ _ _ _ _ hq) (fun _ => ?_)
    refine State.lasts_ite (fun _ => State.descEnd_lasts _ _ _ _ _ _ _ _ h1) (fun _ => ?_)
    refine State.lasts_ite (fun _ => hq) (fun _ => ?_)
    refine State.lasts_ite (fun _ => State.descFail_lasts _ _ _ _ _ h1) (fun _ => ?_)
    have h2 : q0.lasts (if dir = 0 then (s1, data.toNat, 0, 0) else s1.hiRead (s.qpPid q) src).1 :=
      State.lasts_iteP (fun _ => h1) (fun _ => State.hiRead_lasts _ _ _ h1)
    generalize (if dir = 0 then (s1, data.toNat, 0, 0) else s1.hiRead (s.qpPid q) src) = r at h2 ⊢
    obtain ⟨s2, x, c, st⟩ := r
    dsimp only at h2 ⊢
    refine State.lasts_ite (fun _ => State.descFail_lasts _ _ _ _ _ h2) (fun _ => ?_)
    have h3 : q0.lasts (if dir = 1 then (s2.emit (.hostWrite dst (unitWords (BitVec.ofNat 256 x))), 0, 0)
        else s2.hiWrite (s.qpPid q) dst x).1 := State.lasts_iteP (fun _ => State.emit_lasts _ _ h2) (fun _ => State.hiWrite_lasts _ _ _ _ h2)
    generalize (if dir = 1 then (s2.emit (.hostWrite dst (unitWords (BitVec.ofNat 256 x))), 0, 0)
        else s2.hiWrite (s.qpPid q) dst x) = r at h3 ⊢
    obtain ⟨s3, c3, st3⟩ := r
    dsimp only at h3 ⊢
    refine State.lasts_ite (fun _ => State.descFail_lasts _ _ _ _ _ h3) (fun _ => ?_)
    have h4 := State.setDesc_lasts s3 q ({ d1 with units := d.units + 1 }) h3
    exact State.lasts_ite (fun _ => State.descEnd_lasts _ _ _ _ _ _ _ _ h4) (fun _ => h4)

theorem execLoadPleats_lasts {q0 : State} (q : Fin 1024) (dseq : Word) (s : State) (hq : q0.lasts s) :
    q0.lastsOut (execLoadPleats q dseq s) := by
  unfold execLoadPleats
  try dsimp only
  repeat' first
    | with_reducible first
      | assumption | apply State.lastsOut_next | apply State.setDesc_lasts | refine State.lasts_fst (by assumption) ?_
    | split | with_reducible refine State.lasts_mk ?_ rfl

theorem State.writeImage_lasts {q0 : State} (s : State) (n : Nat) (w : List Word) (fold : Option (Nat × Nat)) (hq : q0.lasts s) :
    q0.lasts (State.writeImage s n w fold).1 := by
  unfold State.writeImage
  try dsimp only
  repeat' first
    | with_reducible first
      | assumption | apply State.setRg_lasts | apply State.writeCtl_lasts | refine State.lasts_fst (by assumption) ?_

theorem execFoldAt_lasts {q0 : State} (q : Fin 1024) (dseq : Word) (s : State) (hq : q0.lasts s) :
    q0.lastsOut (execFoldAt q dseq s) := by
  unfold execFoldAt
  try dsimp only
  repeat' first
    | with_reducible first
      | assumption | apply State.lastsOut_next | apply State.setDesc_lasts | apply State.writeImage_lasts | apply State.descEnd_lasts
      | refine State.lasts_fst (by assumption) ?_
    | split | with_reducible refine State.lasts_mk ?_ rfl

theorem execMarkWrite_lasts {q0 : State} (q : Fin 1024) (dseq : Word) (s : State) (hq : q0.lasts s) :
    q0.lastsOut (execMarkWrite q dseq s) := by
  unfold execMarkWrite
  try dsimp only
  repeat' first
    | with_reducible first
      | assumption | apply State.lastsOut_next | apply State.writeImage_lasts | apply State.descEnd_lasts
      | refine State.lasts_fst (by assumption) ?_
    | split

theorem execDescBarrier_lasts {q0 : State} (q : Fin 1024) (dseq : Word) (s : State) (hq : q0.lasts s) :
    q0.lastsOut (execDescBarrier q dseq s) := by
  unfold execDescBarrier
  try dsimp only
  repeat' first
    | with_reducible first
      | assumption | apply State.lastsOut_next | apply State.descEnd_lasts | refine State.lasts_fst (by assumption) ?_
    | split

theorem execCompletionRecordWrite_lasts {q0 : State} (q : Fin 1024) (s : State) (hq : q0.lasts s) :
    q0.lastsOut (execCompletionRecordWrite q s) := by
  unfold execCompletionRecordWrite
  try dsimp only
  repeat' first
    | with_reducible first
      | assumption | apply State.lastsOut_next | apply State.emit_lasts | apply State.setQp_lasts | apply State.sendMsix_lasts
      | refine State.lasts_fst (by assumption) ?_
    | split | with_reducible refine State.lasts_mk ?_ rfl

theorem State.ptRsp_lasts {q0 : State} (s : State) (st id gen : Nat) (hq : q0.lasts s) :
    q0.lasts (State.ptRsp s st id gen) := by
  unfold State.ptRsp
  try dsimp only
  repeat' first
    | with_reducible first | assumption | apply State.setRg_lasts

theorem State.ptJoin_lasts {q0 : State} (s : State) (hq : q0.lasts s) :
    q0.lasts (State.ptJoin s) := by
  unfold State.ptJoin
  try dsimp only
  repeat' first
    | with_reducible first
      | assumption | apply State.ptRsp_lasts | apply State.setRg_lasts | apply State.setRb_lasts | apply State.setRf_lasts
      | refine State.lasts_fst (by assumption) ?_
    | split

theorem execPtJoin_lasts {q0 : State} (s : State) (hq : q0.lasts s) :
    q0.lastsOut (execPtJoin s) := by
  unfold execPtJoin
  try dsimp only
  repeat' first
    | with_reducible first | assumption | apply State.lastsOut_next | apply State.ptJoin_lasts

theorem State.rsvFree_lasts {q0 : State} (s : State) (k : Nat) (hq : q0.lasts s) :
    q0.lasts (State.rsvFree s k) := by
  unfold State.rsvFree
  try dsimp only
  repeat' first
    | with_reducible first | assumption | apply State.setRg_lasts
    | with_reducible refine State.lasts_mk ?_ rfl

theorem State.ptLeave_lasts {q0 : State} (s : State) (hq : q0.lasts s) :
    q0.lasts (State.ptLeave s) := by
  unfold State.ptLeave
  try dsimp only
  repeat' first
    | with_reducible first
      | assumption | apply State.ptRsp_lasts | apply State.qpStop_lasts | apply State.setRb_lasts | apply State.setRf_lasts
      | apply State.rsvFree_lasts | apply State.raiseF_lasts | refine State.lasts_foldl _ _ ?_ (fun t x ht => ?_)
      | refine State.lasts_foldlP _ _ ?_ (fun t x ht => ?_)
    | split

theorem execPtLeave_lasts {q0 : State} (s : State) (hq : q0.lasts s) :
    q0.lastsOut (execPtLeave s) := by
  unfold execPtLeave
  try dsimp only
  repeat' first
    | with_reducible first | assumption | apply State.lastsOut_next | apply State.ptLeave_lasts

theorem State.rsvAdmit_lasts {q0 : State} (s : State) (r : Word) (rate : Nat) (hq : q0.lasts s) :
    q0.lasts (State.rsvAdmit s r rate).1 := by
  unfold State.rsvAdmit
  try dsimp only
  repeat' first
    | with_reducible first
      | assumption | apply State.setRg_lasts | refine State.lasts_foldl _ _ ?_ (fun t x ht => ?_)
      | refine State.lasts_foldlP _ _ ?_ (fun t x ht => ?_) | refine State.lasts_fst (by assumption) ?_
    | split | with_reducible refine State.lasts_mk ?_ rfl

theorem State.rsvReserve_lasts {q0 : State} (s : State) (hq : q0.lasts s) :
    q0.lasts (State.rsvReserve s) := by
  unfold State.rsvReserve
  try dsimp only
  repeat' first
    | with_reducible first
      | assumption | apply State.rsvAdmit_lasts | apply State.setRg_lasts | refine State.lasts_fst (by assumption) ?_
    | split

theorem execRsvReserve_lasts {q0 : State} (s : State) (hq : q0.lasts s) :
    q0.lastsOut (execRsvReserve s) := by
  unfold execRsvReserve
  try dsimp only
  repeat' first
    | with_reducible first | assumption | apply State.lastsOut_next | apply State.rsvReserve_lasts

theorem State.rsvRelease_lasts {q0 : State} (s : State) (k : Nat) (hq : q0.lasts s) :
    q0.lasts (State.rsvRelease s k) := by
  unfold State.rsvRelease
  try dsimp only
  repeat' first
    | with_reducible first | assumption | apply State.rsvFree_lasts | apply State.setRg_lasts
    | split

theorem execReservationRelease_lasts {q0 : State} (k : Fin 256) (s : State) (hq : q0.lasts s) :
    q0.lastsOut (execReservationRelease k s) := by
  unfold execReservationRelease
  try dsimp only
  repeat' first
    | with_reducible first | assumption | apply State.lastsOut_next | apply State.rsvRelease_lasts

theorem State.breach_lasts {q0 : State} (s : State) (k d : Nat) (hq : q0.lasts s) :
    q0.lasts (State.breach s k d) := by
  unfold State.breach
  try dsimp only
  repeat' first
    | with_reducible first
      | assumption | apply State.bump_lasts | apply State.addRec_lasts | apply State.raiseWith_lasts
    | split

theorem State.windowOne_lasts {q0 : State} (s : State) (k d r : Nat) (hq : q0.lasts s) :
    q0.lasts (State.windowOne s k d r) := by
  unfold State.windowOne
  try dsimp only
  repeat' first
    | with_reducible first
      | assumption | apply State.breach_lasts | apply State.setRg_lasts | apply State.bump_lasts | apply State.raiseF_lasts
      | refine State.lasts_foldl _ _ ?_ (fun t x ht => ?_) | refine State.lasts_foldlP _ _ ?_ (fun t x ht => ?_)
    | split | with_reducible refine State.lasts_mk ?_ rfl

theorem State.rsvLate_lasts {q0 : State} (s : State) (k moved : Nat) (hq : q0.lasts s) :
    q0.lasts (State.rsvLate s k moved).1 := by
  unfold State.rsvLate
  try dsimp only
  repeat' first
    | with_reducible first
      | assumption | refine State.lasts_foldl _ _ ?_ (fun t x ht => ?_) | refine State.lasts_foldlP _ _ ?_ (fun t x ht => ?_)
      | refine State.lasts_fst (by assumption) ?_
    | split | with_reducible refine State.lasts_mk ?_ rfl

theorem execReservationWindowEnd_lasts {q0 : State} (want : List (Fin 256 × Nat × Nat)) (room : List (Fin 96 × Nat)) (s : State) (hq : q0.lasts s) :
    q0.lastsOut (execReservationWindowEnd want room s) := by
  unfold execReservationWindowEnd
  try dsimp only
  repeat' first
    | with_reducible first
      | assumption | apply State.lastsOut_next | apply State.rsvLate_lasts | apply State.windowOne_lasts
      | refine State.each_lasts _ _ _ ?_ (fun i t ht => ?_) | refine State.lasts_foldl _ _ ?_ (fun t x ht => ?_)
      | refine State.lasts_foldlP _ _ ?_ (fun t x ht => ?_) | refine State.lasts_fst (by assumption) ?_
    | split | with_reducible refine State.lasts_mk ?_ rfl

end Sys2Proof.Machine
end

