-- ==== Sys2Proof/Laws/LastsConfig.lean ====
section
/-! SUPPORT. What no command takes away (State.lasts), operation by operation: configuration, Ethernet, flash commands, Lace, reset and power. -/

set_option linter.unusedVariables false
set_option linter.unusedSimpArgs false

namespace Sys2Proof.Machine

theorem State.smbBytes_lasts {q0 : State} (s : State) (a n : Nat) (hq : q0.lasts s) :
    q0.lasts (State.smbBytes s a n).1 := by
  unfold State.smbBytes
  try dsimp only
  repeat' first
    | with_reducible first | assumption | apply State.readWords_lasts | refine State.lasts_fst (by assumption) ?_
    | split

theorem State.srcRead_lasts {q0 : State} (s : State) (src : ImgSrc) (o n : Nat) (hq : q0.lasts s) :
    q0.lasts (State.srcRead s src o n).1 := by
  unfold State.srcRead
  try dsimp only
  repeat' first
    | with_reducible first
      | assumption | apply State.flRead_lasts | apply State.smbSettle_lasts | apply State.smbBytes_lasts
      | refine State.lasts_fst (by assumption) ?_
    | split

theorem State.writeUnit_lasts {q0 : State} (s : State) (bram : Bool) (n : Nat) (l : List Byte) (hq : q0.lasts s) :
    q0.lasts (State.writeUnit s bram n l) := by
  unfold State.writeUnit
  try dsimp only
  repeat' first
    | with_reducible first | assumption | apply State.writeWords_lasts
    | split

theorem State.loadUnits_lasts {q0 : State} (s : State) (src : ImgSrc) (l : List (Bool × Nat × Nat)) (h : q0.lasts s) : q0.lasts (State.loadUnits s src l).1 := by
  induction l generalizing s with
  | nil =>
    unfold State.loadUnits
    try dsimp only
    repeat' first
      | with_reducible first
        | assumption | apply State.lastsOut_next | refine State.each_lasts _ _ _ ?_ (fun i t ht => ?_) | apply State.after_lasts
        | refine State.lasts_foldl _ _ ?_ (fun t x ht => ?_) | refine State.lasts_foldlP _ _ ?_ (fun t x ht => ?_)
        | refine State.lasts_ite (fun _ => ?_) (fun _ => ?_) | refine State.lasts_iteP (fun _ => ?_) (fun _ => ?_)
        | refine State.lasts_fst (by assumption) ?_
      | intro _ | split | with_reducible refine State.lasts_mk ?_ rfl
  | cons e r ih =>
    unfold State.loadUnits
    try dsimp only
    repeat' first
      | with_reducible first
        | assumption | apply State.lastsOut_next | apply ih | apply State.srcRead_lasts | apply State.writeUnit_lasts
        | refine State.each_lasts _ _ _ ?_ (fun i t ht => ?_) | apply State.after_lasts | refine State.lasts_foldl _ _ ?_ (fun t x ht => ?_)
        | refine State.lasts_foldlP _ _ ?_ (fun t x ht => ?_) | refine State.lasts_ite (fun _ => ?_) (fun _ => ?_)
        | refine State.lasts_iteP (fun _ => ?_) (fun _ => ?_) | refine State.lasts_fst (by assumption) ?_
      | intro _ | split | with_reducible refine State.lasts_mk ?_ rfl

theorem State.regInit_lasts {q0 : State} (s : State) (l : List (Nat × Nat)) (hq : q0.lasts s) :
    q0.lasts (State.regInit s l) := by
  unfold State.regInit
  try dsimp only
  repeat' first
    | with_reducible first
      | assumption | apply State.pllWrite_lasts | apply State.store_lasts | refine State.lasts_foldl _ _ ?_ (fun t x ht => ?_)
      | refine State.lasts_foldlP _ _ ?_ (fun t x ht => ?_) | refine State.lasts_fst (by assumption) ?_
    | split

theorem State.proofErr_lasts {q0 : State} (s : State) (code frame : Nat) (partial_ : Bool) (hq : q0.lasts s) :
    q0.lasts (State.proofErr s code frame partial_) := by
  unfold State.proofErr
  try dsimp only
  repeat' first
    | with_reducible first | assumption | apply State.setRg_lasts

theorem State.cgShow_lasts {q0 : State} (s : State) (hq : q0.lasts s) :
    q0.lasts (State.cgShow s) := by
  unfold State.cgShow
  try dsimp only
  repeat' first
    | with_reducible first | assumption | apply State.setRb_lasts

theorem State.sleeve_lasts {q0 : State} (s : State) (r st : Nat) (hq : q0.lasts s) :
    q0.lasts (State.sleeve s r st) := by
  unfold State.sleeve
  try dsimp only
  repeat' first
    | with_reducible first
      | assumption | apply State.fabFlush_lasts | apply State.setCgr_lasts | apply State.setRf_lasts
      | refine State.lasts_foldl _ _ ?_ (fun t x ht => ?_) | refine State.lasts_foldlP _ _ ?_ (fun t x ht => ?_)
    | with_reducible refine State.lasts_mk ?_ rfl

theorem State.torn_lasts {q0 : State} (s : State) (r : Nat) (hq : q0.lasts s) :
    q0.lasts (State.torn s r) := by
  unfold State.torn
  try dsimp only
  repeat' first
    | with_reducible first | assumption | apply State.sleeve_lasts | apply State.raiseF_lasts

theorem State.regionRelease_lasts {q0 : State} (s : State) (r : Nat) (hq : q0.lasts s) :
    q0.lasts (State.regionRelease s r) := by
  unfold State.regionRelease
  try dsimp only
  repeat' first
    | with_reducible first | assumption | apply State.setCgr_lasts
    | with_reducible refine State.lasts_mk ?_ rfl

theorem State.reloadFrames_lasts {q0 : State} (s : State) (base : Nat) (p : Nat → Bool) (hq : q0.lasts s) :
    q0.lasts (State.reloadFrames s base p) := by
  unfold State.reloadFrames
  try dsimp only
  repeat' first
    | with_reducible first
      | assumption | apply State.flRead_lasts | apply State.writeUnit_lasts | refine State.lasts_foldl _ _ ?_ (fun t x ht => ?_)
      | refine State.lasts_foldlP _ _ ?_ (fun t x ht => ?_) | refine State.lasts_fst (by assumption) ?_
    | split

theorem State.reloadWord_lasts {q0 : State} (s : State) (base w : Nat) (hq : q0.lasts s) :
    q0.lasts (State.reloadWord s base w).1 := by
  unfold State.reloadWord
  try dsimp only
  repeat' first
    | with_reducible first
      | assumption | apply State.flRead_lasts | apply State.storeWord_lasts | refine State.lasts_fst (by assumption) ?_
    | split

theorem State.icpAnswer_lasts {q0 : State} (s : State) (host : Bool) (region st : Nat) (hq : q0.lasts s) :
    q0.lasts (State.icpAnswer s host region st) := by
  unfold State.icpAnswer
  try dsimp only
  repeat' first
    | with_reducible first | assumption | apply State.emit_lasts
    | split

theorem State.plEnd_lasts {q0 : State} (s : State) (p : PartRun) (st : Nat) (hq : q0.lasts s) :
    q0.lasts (State.plEnd s p st) := by
  unfold State.plEnd
  try dsimp only
  repeat' first
    | with_reducible first
      | assumption | apply State.cgShow_lasts | apply State.setRg_lasts | apply State.icpAnswer_lasts | apply State.descEnd_lasts
      | refine State.lasts_fst (by assumption) ?_
    | split | with_reducible refine State.lasts_mk ?_ rfl

theorem State.verifyShow_lasts {q0 : State} (s : State) (hq : q0.lasts s) : q0.lasts s.verifyShow :=
  State.setRb_lasts _ _ _ _ hq

theorem State.plFail_lasts {q0 : State} (s : State) (p : PartRun) (st : Nat) (code : Option Nat) (hq : q0.lasts s) :
    q0.lasts (State.plFail s p st code) := by
  unfold State.plFail
  try dsimp only
  repeat' first
    | with_reducible first
      | assumption | apply State.plEnd_lasts | apply State.verifyShow_lasts | apply State.torn_lasts | apply State.proofErr_lasts | apply State.emit_lasts
      | refine State.lasts_fst (by assumption) ?_
    | split

theorem State.libEnd_lasts {q0 : State} (s : State) (st : Nat) (hq : q0.lasts s) :
    q0.lasts (State.libEnd s st) := by
  unfold State.libEnd
  try dsimp only
  repeat' first
    | with_reducible first | assumption | apply State.setRf_lasts | apply State.setRb_lasts
    | split | with_reducible refine State.lasts_mk ?_ rfl

theorem State.cfgRunReset_lasts {q0 : State} (s : State) (hq : q0.lasts s) :
    q0.lasts (State.cfgRunReset s) := by
  unfold State.cfgRunReset
  try dsimp only
  repeat' first
    | with_reducible first
      | assumption | apply State.plFail_lasts | apply State.verifyShow_lasts | apply State.torn_lasts | apply State.cgShow_lasts | apply State.libEnd_lasts
      | refine State.each_lasts _ _ _ ?_ (fun i t ht => ?_) | refine State.lasts_fst (by assumption) ?_
    | split | with_reducible refine State.lasts_mk ?_ rfl

theorem State.cfgDomClose_lasts {q0 : State} (s : State) (d : Nat) (hq : q0.lasts s) :
    q0.lasts (State.cfgDomClose s d) := by
  unfold State.cfgDomClose
  try dsimp only
  repeat' first
    | with_reducible first | assumption | apply State.plFail_lasts | refine State.lasts_fst (by assumption) ?_
    | split

theorem State.cfgDomOff_lasts {q0 : State} (s : State) (d : Nat) (hq : q0.lasts s) :
    q0.lasts (State.cfgDomOff s d) := by
  unfold State.cfgDomOff
  try dsimp only
  repeat' first
    | with_reducible first
      | assumption | apply State.clearMem_lasts | apply State.sleeve_lasts | refine State.each_lasts _ _ _ ?_ (fun i t ht => ?_)
    | split

theorem State.cfgDomOn_lasts {q0 : State} (s : State) (d : Nat) (hq : q0.lasts s) :
    q0.lasts (State.cfgDomOn s d) := by
  unfold State.cfgDomOn
  try dsimp only
  repeat' first
    | with_reducible first
      | assumption | apply State.reloadFrames_lasts | apply State.torn_lasts | apply State.regionRelease_lasts
      | refine State.each_lasts _ _ _ ?_ (fun i t ht => ?_) | refine State.lasts_fst (by assumption) ?_
    | split

theorem State.setEnPort_lasts {q0 : State} (s : State) (p : Nat) (x : EnPort) (hq : q0.lasts s) :
    q0.lasts (State.setEnPort s p x) :=
  State.lasts_mk hq rfl

theorem State.setPtp_lasts {q0 : State} (s : State) (x : Nat) (hq : q0.lasts s) :
    q0.lasts (State.setPtp s x) :=
  State.lasts_mk hq rfl

theorem execEnPtpStep_lasts {q0 : State} (v : Word) (s : State) (hq : q0.lasts s) :
    q0.lastsOut (execEnPtpStep v s) := by
  unfold execEnPtpStep
  try dsimp only
  repeat' first
    | with_reducible first | assumption | apply State.lastsOut_next | apply State.setPtp_lasts

theorem execPtpSet_lasts {q0 : State} (s : State) (hq : q0.lasts s) :
    q0.lastsOut (execPtpSet s) := by
  unfold execPtpSet
  try dsimp only
  repeat' first
    | with_reducible first | assumption | apply State.lastsOut_next | apply State.setPtp_lasts

theorem State.pushItem_lasts {q0 : State} (s : State) (q : Nat) (l : List Word) (h : q0.lasts s) : q0.lasts (State.pushItem s q l) := by
  induction l generalizing s with
  | nil => exact h
  | cons e r ih => exact ih _ (State.qGive_lasts _ _ _ _ h)

theorem State.rxDrop_lasts {q0 : State} (s : State) (p : Nat) (f : Fld) (hq : q0.lasts s) :
    q0.lasts (State.rxDrop s p f) := by
  unfold State.rxDrop
  try dsimp only
  repeat' first
    | with_reducible first | assumption | apply State.bump_lasts

theorem State.rxDeliver_lasts {q0 : State} (s : State) (p : Nat) (f : List Byte) (rule : Option Nat) (ts : Nat) (hq : q0.lasts s) :
    q0.lasts (State.rxDeliver s p f rule ts) := by
  unfold State.rxDeliver
  try dsimp only
  repeat' first
    | with_reducible first
      | assumption | apply State.pushItem_lasts | apply State.bump_lasts | apply State.rxDrop_lasts | refine State.lasts_fst (by assumption) ?_
    | split

theorem State.rxArrive_lasts {q0 : State} (s : State) (n : Nat) (frame : List Byte) (fcsOk : Bool) (hq : q0.lasts s) :
    q0.lasts (State.rxArrive s n frame fcsOk) := by
  unfold State.rxArrive
  try dsimp only
  repeat' first
    | with_reducible first | assumption | apply State.rxDrop_lasts | apply State.setEnPort_lasts
    | split | with_reducible refine State.lasts_mk ?_ rfl

theorem State.rxSteer_lasts {q0 : State} (s : State) (n : Nat) (f : RxFrame) (hq : q0.lasts s) :
    q0.lasts (State.rxSteer s n f) := by
  unfold State.rxSteer
  try dsimp only
  repeat' first
    | with_reducible first
      | assumption | apply State.rxDeliver_lasts | apply State.rxDrop_lasts | refine State.lasts_fst (by assumption) ?_
    | split

theorem State.rxEmpty_lasts {q0 : State} (s : State) (n : Nat) (hq : q0.lasts s) :
    q0.lasts (State.rxEmpty s n) := by
  unfold State.rxEmpty
  try dsimp only
  repeat' first
    | with_reducible first
      | assumption | apply State.rxSteer_lasts | apply State.setEnPort_lasts | refine State.lasts_foldl _ _ ?_ (fun t x ht => ?_)
      | refine State.lasts_foldlP _ _ ?_ (fun t x ht => ?_)
    | with_reducible refine State.lasts_mk ?_ rfl

theorem execEnFrameReceive_lasts {q0 : State} (p : Fin 4) (frame : List Byte) (fcsOk hold : Bool) (s : State) (hq : q0.lasts s) :
    q0.lastsOut (execEnFrameReceive p frame fcsOk hold s) := by
  unfold execEnFrameReceive
  try dsimp only
  repeat' first
    | with_reducible first
      | assumption | apply State.lastsOut_next | apply State.rxArrive_lasts | apply State.rxEmpty_lasts
    | split

theorem State.pullItem_lasts {q0 : State} (s : State) (q n : Nat) (h : q0.lasts s) : q0.lasts (s.pullItem q n).1 := by
  induction n generalizing s with
  | zero => exact h
  | succ n ih =>
    unfold State.pullItem
    try dsimp only
    repeat' first
      | with_reducible first
        | assumption | apply State.lastsOut_next | apply ih | apply State.qDrop_lasts | refine State.each_lasts _ _ _ ?_ (fun i t ht => ?_)
        | apply State.after_lasts | refine State.lasts_foldl _ _ ?_ (fun t x ht => ?_) | refine State.lasts_foldlP _ _ ?_ (fun t x ht => ?_)
        | refine State.lasts_ite (fun _ => ?_) (fun _ => ?_) | refine State.lasts_iteP (fun _ => ?_) (fun _ => ?_)
        | refine State.lasts_fst (by assumption) ?_
      | intro _ | split | with_reducible refine State.lasts_mk ?_ rfl

theorem State.pushTxts_lasts {q0 : State} (s : State) (p seq : Nat) (hq : q0.lasts s) :
    q0.lasts (State.pushTxts s p seq) := by
  unfold State.pushTxts
  try dsimp only
  repeat' first
    | with_reducible first
      | assumption | apply State.bump_lasts | apply State.setEnPort_lasts | refine State.lasts_fst (by assumption) ?_
    | split | with_reducible refine State.lasts_mk ?_ rfl

theorem State.txSend_lasts {q0 : State} (s : State) (n : Nat) (item : List Word) (hq : q0.lasts s) :
    q0.lasts (State.txSend s n item) := by
  unfold State.txSend
  try dsimp only
  repeat' first
    | with_reducible first
      | assumption | apply State.setEnPort_lasts | apply State.emit_lasts | apply State.bump_lasts | apply State.pushTxts_lasts
    | split | with_reducible refine State.lasts_mk ?_ rfl

theorem execEnFrameTransmit_lasts {q0 : State} (p : Fin 4) (s : State) (hq : q0.lasts s) :
    q0.lastsOut (execEnFrameTransmit p s) := by
  unfold execEnFrameTransmit
  try dsimp only
  repeat' first
    | with_reducible first
      | assumption | apply State.lastsOut_next | apply State.pullItem_lasts | apply State.setEnPort_lasts | apply State.txSend_lasts
      | refine State.lasts_fst (by assumption) ?_
    | split | with_reducible refine State.lasts_mk ?_ rfl

theorem State.txtsRead_lasts {q0 : State} (s : State) (p : Nat) (hq : q0.lasts s) :
    q0.lasts (State.txtsRead s p).1 := by
  unfold State.txtsRead
  try dsimp only
  repeat' first
    | with_reducible first
      | assumption | apply State.setEnPort_lasts | apply State.setRg_lasts | refine State.lasts_fst (by assumption) ?_
    | split | with_reducible refine State.lasts_mk ?_ rfl

theorem execTxtsRead_lasts {q0 : State} (p : Fin 4) (s : State) (hq : q0.lasts s) :
    q0.lastsOut (execTxtsRead p s) := by
  unfold execTxtsRead
  try dsimp only
  repeat' first
    | with_reducible first
      | assumption | apply State.lastsOut_next | apply State.txtsRead_lasts | apply State.emit_lasts | refine State.lasts_fst (by assumption) ?_
    | split

theorem State.enDrop_lasts {q0 : State} (s : State) (hq : q0.lasts s) :
    q0.lasts (State.enDrop s) := by
  unfold State.enDrop
  try dsimp only
  repeat' first
    | with_reducible first
      | assumption | apply State.setEnPort_lasts | apply State.emit_lasts | refine State.each_lasts _ _ _ ?_ (fun i t ht => ?_)
    | split | with_reducible refine State.lasts_mk ?_ rfl

theorem execEnBlkRst_lasts {q0 : State} (s : State) (hq : q0.lasts s) :
    q0.lastsOut (execEnBlkRst s) := by
  unfold execEnBlkRst
  try dsimp only
  repeat' first
    | with_reducible first
      | assumption | apply State.lastsOut_next | apply State.blkRst_lasts | apply State.enDrop_lasts | apply State.clearRegs_lasts

theorem execEnLinkChange_lasts {q0 : State} (p : Fin 4) (block link fec : Bool) (s : State) (hq : q0.lasts s) :
    q0.lastsOut (execEnLinkChange p block link fec s) := by
  unfold execEnLinkChange
  try dsimp only
  repeat' first
    | with_reducible first | assumption | apply State.lastsOut_next | apply State.setRg_lasts
    | split

theorem State.flEnd_lasts {q0 : State} (s : State) (st : Nat) (hq : q0.lasts s) :
    q0.lasts (State.flEnd s st) := by
  unfold State.flEnd
  try dsimp only
  repeat' first
    | with_reducible first
      | assumption | apply State.flShow_lasts | apply State.setRf_lasts | apply State.raiseF_lasts
    | split

theorem State.flRun_lasts {q0 : State} (s : State) (r : FlRun) (hq : q0.lasts s) :
    q0.lasts (State.flRun s r) := by
  unfold State.flRun
  try dsimp only
  repeat' first
    | with_reducible first | assumption | apply State.flShow_lasts
    | with_reducible refine State.lasts_mk ?_ rfl

theorem State.flJudge_lasts {q0 : State} (s : State) (pid : Nat) (write : Bool) (hq : q0.lasts s) :
    q0.lasts (State.flJudge s pid write).1 := by
  unfold State.flJudge
  try dsimp only
  repeat' first
    | with_reducible first | assumption | apply State.fwJudge_lasts

theorem State.flashRead_lasts {q0 : State} (s : State) (n : Nat) (hq : q0.lasts s) :
    q0.lasts (State.flashRead s n) := by
  unfold State.flashRead
  try dsimp only
  repeat' first
    | with_reducible first
      | assumption | apply State.flEnd_lasts | apply State.flRead_lasts | apply State.setRg_lasts
      | refine State.each_lasts _ _ _ ?_ (fun i t ht => ?_) | refine State.lasts_fst (by assumption) ?_
    | split

theorem State.flashProgram_lasts {q0 : State} (s : State) (n : Nat) (hq : q0.lasts s) :
    q0.lasts (State.flashProgram s n) := by
  unfold State.flashProgram
  try dsimp only
  repeat' first
    | with_reducible first
      | assumption | apply State.setRg_lasts | apply State.flEnd_lasts | apply State.flRun_lasts | refine State.lasts_fst (by assumption) ?_
    | split

theorem State.flashErase_lasts {q0 : State} (s : State) (hq : q0.lasts s) :
    q0.lasts (State.flashErase s) := by
  unfold State.flashErase
  try dsimp only
  repeat' first
    | with_reducible first
      | assumption | apply State.flEnd_lasts | apply State.setRg_lasts | apply State.sectorPart_lasts | apply State.flRun_lasts
      | refine State.lasts_fst (by assumption) ?_
    | split

theorem State.flashBlank_lasts {q0 : State} (s : State) (n : Nat) (hq : q0.lasts s) :
    q0.lasts (State.flashBlank s n) := by
  unfold State.flashBlank
  try dsimp only
  repeat' first
    | with_reducible first
      | assumption | apply State.setRg_lasts | apply State.flEnd_lasts | refine State.lasts_fst (by assumption) ?_
    | split

theorem State.trimWrite_lasts {q0 : State} (s : State) (hq : q0.lasts s) :
    q0.lasts (State.trimWrite s) := by
  unfold State.trimWrite
  try dsimp only
  repeat' first
    | with_reducible first
      | assumption | apply State.flEnd_lasts | apply State.flRun_lasts | refine State.lasts_fst (by assumption) ?_
    | split

theorem State.logAppend_lasts {q0 : State} (s : State) (hq : q0.lasts s) : q0.lasts (s.logAppend) := by
  unfold State.logAppend
  have h1 := State.flRecords_lasts s logBase 2048 hq
  generalize s.flRecords logBase 2048 = p at h1 ⊢
  obtain ⟨s1, rs⟩ := p
  generalize s.firstErased logBase 2048 = e
  try dsimp only
  repeat' first
    | with_reducible first
      | assumption | apply State.lastsOut_next | apply State.flEnd_lasts | apply State.raiseF_lasts | apply State.flRun_lasts
      | refine State.each_lasts _ _ _ ?_ (fun i t ht => ?_) | apply State.after_lasts | refine State.lasts_foldl _ _ ?_ (fun t x ht => ?_)
      | refine State.lasts_foldlP _ _ ?_ (fun t x ht => ?_) | refine State.lasts_ite (fun _ => ?_) (fun _ => ?_)
      | refine State.lasts_iteP (fun _ => ?_) (fun _ => ?_) | refine State.lasts_fst (by assumption) ?_
    | intro _ | split | with_reducible refine State.lasts_mk ?_ rfl

theorem State.flReady_lasts {q0 : State} (s : State) (hq : q0.lasts s) :
    q0.lasts (State.flReady s) := by
  unfold State.flReady
  try dsimp only
  repeat' first
    | with_reducible first | assumption | apply State.flShow_lasts
    | split | with_reducible refine State.lasts_mk ?_ rfl

theorem State.flCmd_lasts {q0 : State} (s : State) (pid : Nat) (write : Bool) (f : State → State) (hq : q0.lasts s)
    (hf : ∀ t, q0.lasts t → q0.lasts (f t)) : q0.lasts (s.flCmd pid write f) := by
  unfold State.flCmd
  try dsimp only
  repeat' first
    | with_reducible first
      | assumption | apply State.lastsOut_next | apply hf | apply State.flJudge_lasts | apply State.flReady_lasts
      | refine State.each_lasts _ _ _ ?_ (fun i t ht => ?_) | apply State.after_lasts | refine State.lasts_foldl _ _ ?_ (fun t x ht => ?_)
      | refine State.lasts_foldlP _ _ ?_ (fun t x ht => ?_) | refine State.lasts_ite (fun _ => ?_) (fun _ => ?_)
      | refine State.lasts_iteP (fun _ => ?_) (fun _ => ?_) | refine State.lasts_fst (by assumption) ?_
    | intro _ | split | with_reducible refine State.lasts_mk ?_ rfl

theorem State.flOp_lasts {q0 : State} (s : State) (pid op n : Nat) (hq : q0.lasts s) :
    q0.lasts (State.flOp s pid op n).1 := by
  unfold State.flOp
  try dsimp only
  repeat' first
    | with_reducible first
      | assumption | apply State.flJudge_lasts | apply State.flReady_lasts | apply State.flashRead_lasts | apply State.flashProgram_lasts
      | apply State.flashErase_lasts | apply State.flashBlank_lasts | apply State.trimWrite_lasts | apply State.logAppend_lasts
      | apply State.flEnd_lasts | refine State.lasts_fst (by assumption) ?_
    | split

theorem execFlashRead_lasts {q0 : State} (len : BitVec 11) (pid : BitVec 10) (s : State) (hq : q0.lasts s) :
    q0.lastsOut (execFlashRead len pid s) := by
  unfold execFlashRead
  try dsimp only
  repeat' first
    | with_reducible first
      | assumption | apply State.lastsOut_next | apply State.flCmd_lasts | apply State.flashRead_lasts
    | intro _

theorem execFlashProgram_lasts {q0 : State} (len : BitVec 11) (pid : BitVec 10) (s : State) (hq : q0.lasts s) :
    q0.lastsOut (execFlashProgram len pid s) := by
  unfold execFlashProgram
  try dsimp only
  repeat' first
    | with_reducible first
      | assumption | apply State.lastsOut_next | apply State.flCmd_lasts | apply State.flashProgram_lasts
    | intro _

theorem execFlashErase_lasts {q0 : State} (pid : BitVec 10) (s : State) (hq : q0.lasts s) :
    q0.lastsOut (execFlashErase pid s) := by
  unfold execFlashErase
  try dsimp only
  repeat' first
    | with_reducible first
      | assumption | apply State.lastsOut_next | apply State.flCmd_lasts | apply State.flashErase_lasts
    | intro _

theorem execBlankCheck_lasts {q0 : State} (len : BitVec 11) (pid : BitVec 10) (s : State) (hq : q0.lasts s) :
    q0.lastsOut (execBlankCheck len pid s) := by
  unfold execBlankCheck
  try dsimp only
  repeat' first
    | with_reducible first
      | assumption | apply State.lastsOut_next | apply State.flCmd_lasts | apply State.flashBlank_lasts
    | intro _

theorem execTrimWrite_lasts {q0 : State} (pid : BitVec 10) (s : State) (hq : q0.lasts s) :
    q0.lastsOut (execTrimWrite pid s) := by
  unfold execTrimWrite
  try dsimp only
  repeat' first
    | with_reducible first
      | assumption | apply State.lastsOut_next | apply State.flCmd_lasts | apply State.trimWrite_lasts
    | intro _

theorem execLogAppend_lasts {q0 : State} (pid : BitVec 10) (s : State) (hq : q0.lasts s) :
    q0.lastsOut (execLogAppend pid s) := by
  unfold execLogAppend
  try dsimp only
  repeat' first
    | with_reducible first
      | assumption | apply State.lastsOut_next | apply State.flCmd_lasts | apply State.logAppend_lasts
    | intro _

theorem State.flCounts_lasts {q0 : State} (s : State) (hq : q0.lasts s) :
    q0.lasts (State.flCounts s) := by
  unfold State.flCounts
  try dsimp only
  repeat' first
    | with_reducible first | assumption | apply State.setRf_lasts

theorem State.flPageDone_lasts {q0 : State} (s : State) (l : List (Nat × List Byte)) (hq : q0.lasts s) : q0.lasts (s.flPageDone l) := by
  cases l with
  | nil =>
    unfold State.flPageDone
    try dsimp only
    repeat' first
      | with_reducible first
        | assumption | apply State.lastsOut_next | apply State.flEnd_lasts | refine State.each_lasts _ _ _ ?_ (fun i t ht => ?_)
        | apply State.after_lasts | refine State.lasts_foldl _ _ ?_ (fun t x ht => ?_) | refine State.lasts_foldlP _ _ ?_ (fun t x ht => ?_)
        | refine State.lasts_ite (fun _ => ?_) (fun _ => ?_) | refine State.lasts_iteP (fun _ => ?_) (fun _ => ?_)
        | refine State.lasts_fst (by assumption) ?_
      | intro _ | split | with_reducible refine State.lasts_mk ?_ rfl
  | cons e r =>
    unfold State.flPageDone
    try dsimp only
    repeat' first
      | with_reducible first
        | assumption | apply State.lastsOut_next | apply State.flEnd_lasts | apply State.flProg_lasts | apply State.flCounts_lasts
        | refine State.each_lasts _ _ _ ?_ (fun i t ht => ?_) | apply State.after_lasts | refine State.lasts_foldl _ _ ?_ (fun t x ht => ?_)
        | refine State.lasts_foldlP _ _ ?_ (fun t x ht => ?_) | refine State.lasts_ite (fun _ => ?_) (fun _ => ?_)
        | refine State.lasts_iteP (fun _ => ?_) (fun _ => ?_) | refine State.lasts_fst (by assumption) ?_
      | intro _ | split | with_reducible refine State.lasts_mk ?_ rfl

theorem State.otEnd_lasts {q0 : State} (s : State) (st : Nat) (hq : q0.lasts s) :
    q0.lasts (State.otEnd s st) := by
  unfold State.otEnd
  try dsimp only
  repeat' first
    | with_reducible first | assumption | apply State.setRf_lasts | apply State.setRb_lasts

theorem State.otPulse_lasts {q0 : State} (s : State) (bits : List (Nat × Nat)) (why : OtWhy) (hq : q0.lasts s) :
    q0.lasts (State.otPulse s bits why) := by
  unfold State.otPulse
  try dsimp only
  repeat' first
    | with_reducible first | assumption | apply State.setRb_lasts
    | with_reducible refine State.lasts_mk ?_ rfl

theorem State.otpRead_lasts {q0 : State} (s : State) (hq : q0.lasts s) :
    q0.lasts (State.otpRead s) := by
  unfold State.otpRead
  try dsimp only
  repeat' first
    | with_reducible first | assumption | apply State.otEnd_lasts | apply State.setRg_lasts
    | split

theorem execOtpRead_lasts {q0 : State} (s : State) (hq : q0.lasts s) :
    q0.lastsOut (execOtpRead s) := by
  unfold execOtpRead
  try dsimp only
  repeat' first
    | with_reducible first | assumption | apply State.lastsOut_next | apply State.otpRead_lasts

theorem State.otpProg_lasts {q0 : State} (s : State) (hq : q0.lasts s) :
    q0.lasts (State.otpProg s) := by
  unfold State.otpProg
  try dsimp only
  repeat' first
    | with_reducible first | assumption | apply State.otEnd_lasts | apply State.otPulse_lasts
    | split

theorem execOtpProg_lasts {q0 : State} (s : State) (hq : q0.lasts s) :
    q0.lastsOut (execOtpProg s) := by
  unfold execOtpProg
  try dsimp only
  repeat' first
    | with_reducible first | assumption | apply State.lastsOut_next | apply State.otpProg_lasts

theorem State.lowerLevel_lasts {q0 : State} (s : State) (hq : q0.lasts s) :
    q0.lasts (State.lowerLevel s) := by
  unfold State.lowerLevel
  try dsimp only
  repeat' first
    | with_reducible first
      | assumption | apply State.setRg_lasts | apply State.otPulse_lasts | refine State.lasts_fst (by assumption) ?_
    | split

theorem State.lowerNext_lasts {q0 : State} (s : State) (k : Nat) (hq : q0.lasts s) :
    q0.lasts (State.lowerNext s k) := by
  unfold State.lowerNext
  try dsimp only
  repeat' first
    | with_reducible first
      | assumption | apply State.setRg_lasts | apply State.sectorPart_lasts | apply State.flRun_lasts | apply State.flRecord_lasts
      | apply State.lowerLevel_lasts | refine State.lasts_fst (by assumption) ?_
    | split | with_reducible refine State.lasts_mk ?_ rfl

theorem execErasePulseEnd_lasts {q0 : State} (erased : Bool) (s : State) (hq : q0.lasts s) :
    q0.lastsOut (execErasePulseEnd erased s) := by
  unfold execErasePulseEnd
  try dsimp only
  repeat' first
    | with_reducible first
      | assumption | apply State.lastsOut_next | apply State.bump_lasts | apply State.sectorErase_lasts | apply State.flShow_lasts
      | apply State.lowerNext_lasts | apply State.flEnd_lasts | apply State.sectorPart_lasts | apply State.flRun_lasts
      | apply State.flReady_lasts | refine State.lasts_fst (by assumption) ?_
    | split | with_reducible refine State.lasts_mk ?_ rfl

theorem State.flSuspend_lasts {q0 : State} (s : State) (hq : q0.lasts s) :
    q0.lasts (State.flSuspend s) := by
  unfold State.flSuspend
  try dsimp only
  repeat' first
    | with_reducible first | assumption | apply State.flShow_lasts | refine State.lasts_fst (by assumption) ?_
    | split | with_reducible refine State.lasts_mk ?_ rfl

theorem execFlashSuspend_lasts {q0 : State} (s : State) (hq : q0.lasts s) :
    q0.lastsOut (execFlashSuspend s) := by
  unfold execFlashSuspend
  try dsimp only
  repeat' first
    | with_reducible first | assumption | apply State.lastsOut_next | apply State.flSuspend_lasts

theorem State.flResume_lasts {q0 : State} (s : State) (hq : q0.lasts s) :
    q0.lasts (State.flResume s) := by
  unfold State.flResume
  try dsimp only
  repeat' first
    | with_reducible first
      | assumption | apply State.sectorPart_lasts | apply State.flRun_lasts | refine State.lasts_fst (by assumption) ?_
    | split | with_reducible refine State.lasts_mk ?_ rfl

theorem execFlashResume_lasts {q0 : State} (s : State) (hq : q0.lasts s) :
    q0.lastsOut (execFlashResume s) := by
  unfold execFlashResume
  try dsimp only
  repeat' first
    | with_reducible first | assumption | apply State.lastsOut_next | apply State.flResume_lasts

theorem State.flAbort_lasts {q0 : State} (s : State) (hq : q0.lasts s) :
    q0.lasts (State.flAbort s) := by
  unfold State.flAbort
  try dsimp only
  repeat' first
    | with_reducible first
      | assumption | apply State.flProg_lasts | apply State.flShow_lasts | refine State.lasts_fst (by assumption) ?_
    | split | with_reducible refine State.lasts_mk ?_ rfl

theorem State.flRunReset_lasts {q0 : State} (s : State) (hq : q0.lasts s) :
    q0.lasts (State.flRunReset s) := by
  unfold State.flRunReset
  try dsimp only
  repeat' first
    | with_reducible first
      | assumption | apply State.clearRegs_lasts | apply State.setRf_lasts | apply State.setRg_lasts | apply State.flShow_lasts
    | split | with_reducible refine State.lasts_mk ?_ rfl

theorem State.flBlkRst_lasts {q0 : State} (s : State) (hq : q0.lasts s) :
    q0.lasts (State.flBlkRst s) := by
  unfold State.flBlkRst
  try dsimp only
  repeat' first
    | with_reducible first
      | assumption | apply State.flAbort_lasts | apply State.clearRegs_lasts | apply State.flShow_lasts | apply State.flEnd_lasts
    | split

theorem execFlBlkRst_lasts {q0 : State} (s : State) (hq : q0.lasts s) :
    q0.lastsOut (execFlBlkRst s) := by
  unfold execFlBlkRst
  try dsimp only
  repeat' first
    | with_reducible first
      | assumption | apply State.lastsOut_next | apply State.blkRst_lasts | apply State.flBlkRst_lasts

theorem State.lcGot_lasts {q0 : State} (s : State) (p : Nat) (hq : q0.lasts s) :
    q0.lasts (State.lcGot s p) :=
  State.lasts_mk hq rfl

theorem State.lcForward_lasts {q0 : State} (s : State) (p typ : Nat) (h : LaceHdr) (time : Int) (fields : List Int) (hq : q0.lasts s) :
    q0.lasts (State.lcForward s p typ h time fields) := by
  unfold State.lcForward
  try dsimp only
  repeat' first
    | with_reducible first | assumption | apply State.lcEmit_lasts | apply State.lcLose_lasts
    | split

theorem State.lcTake_lasts {q0 : State} (s : State) (p : Fin 2) (typ : Nat) (h : LaceHdr) (time : Int) (fields : List Int)
    (use : State → State) (hq : q0.lasts s) (hf : ∀ t, q0.lasts t → q0.lasts (use t)) : q0.lasts (s.lcTake p typ h time fields use) := by
  unfold State.lcTake
  try dsimp only
  repeat' first
    | with_reducible first
      | assumption | apply State.lastsOut_next | apply hf | apply State.lcForward_lasts | apply State.lcGot_lasts
      | refine State.each_lasts _ _ _ ?_ (fun i t ht => ?_) | apply State.after_lasts | refine State.lasts_foldl _ _ ?_ (fun t x ht => ?_)
      | refine State.lasts_foldlP _ _ ?_ (fun t x ht => ?_) | refine State.lasts_ite (fun _ => ?_) (fun _ => ?_)
      | refine State.lasts_iteP (fun _ => ?_) (fun _ => ?_) | refine State.lasts_fst (by assumption) ?_
    | intro _ | split | with_reducible refine State.lasts_mk ?_ rfl

theorem execLaceAxs_lasts {q0 : State} (p : Fin 2) (h : LaceHdr) (axis : Fin 8) (st : BitVec 2) (pos vel : BitVec 64) (s : State) (hq : q0.lasts s) :
    q0.lastsOut (execLaceAxs p h axis st pos vel s) := by
  unfold execLaceAxs
  try dsimp only
  repeat' first
    | with_reducible first
      | assumption | apply State.lastsOut_next | apply State.lcTake_lasts | apply State.setAx_lasts
      | refine State.each_lasts _ _ _ ?_ (fun i t ht => ?_) | refine State.lasts_fst (by assumption) ?_
    | intro _ | split | with_reducible refine State.lasts_mk ?_ rfl

theorem execLaceLsend_lasts {q0 : State} (p : Fin 2) (h : LaceHdr) (tag : BitVec 8) (data : Word) (s : State) (hq : q0.lasts s) :
    q0.lastsOut (execLaceLsend p h tag data s) := by
  unfold execLaceLsend
  try dsimp only
  repeat' first
    | with_reducible first
      | assumption | apply State.lastsOut_next | apply State.lcTake_lasts | apply State.emit_lasts
    | intro _

theorem State.lcRequest_lasts {q0 : State} (s : State) (q : Packet) (hq : q0.lasts s) :
    q0.lasts (State.lcRequest s q) := by
  unfold State.lcRequest
  try dsimp only
  repeat' first
    | with_reducible first
      | assumption | apply State.answerErr_lasts | apply State.lcSendOn_lasts | apply State.lcSeqNext_lasts
      | refine State.lasts_fst (by assumption) ?_
    | split | with_reducible refine State.lasts_mk ?_ rfl

theorem execLacePkt_lasts {q0 : State} (p : Fin 2) (h : LaceHdr) (pkt : Packet) (re : Option Word) (s : State) (hq : q0.lasts s) :
    q0.lastsOut (execLacePkt p h pkt re s) := by
  unfold execLacePkt
  try dsimp only
  repeat' first
    | with_reducible first
      | assumption | apply State.lastsOut_next | apply State.lcTake_lasts | apply State.injectAt_lasts | apply State.lcAnswer_lasts
      | apply State.cmd_lasts | apply State.request_lasts | refine State.lasts_fst (by assumption) ?_
    | intro _ | split | with_reducible refine State.lasts_mk ?_ rfl

theorem State.lcTopo_lasts {q0 : State} (s : State) (hq : q0.lasts s) :
    q0.lasts (State.lcTopo s) := by
  unfold State.lcTopo
  try dsimp only
  repeat' first
    | with_reducible first | assumption | apply State.setRb_lasts | apply State.raiseF_lasts
    | split

theorem State.lcCut_lasts {q0 : State} (s : State) (c : Nat) (hq : q0.lasts s) :
    q0.lasts (State.lcCut s c) := by
  unfold State.lcCut
  try dsimp only
  repeat' first
    | with_reducible first
      | assumption | apply State.answerErr_lasts | apply State.lcTopo_lasts | refine State.lasts_foldl _ _ ?_ (fun t x ht => ?_)
      | refine State.lasts_foldlP _ _ ?_ (fun t x ht => ?_)
    | split | with_reducible refine State.lasts_mk ?_ rfl

theorem State.lcHeal_lasts {q0 : State} (s : State) (c : Nat) (hq : q0.lasts s) :
    q0.lasts (State.lcHeal s c) := by
  unfold State.lcHeal
  try dsimp only
  repeat' first
    | with_reducible first | assumption | apply State.lcTopo_lasts
    | with_reducible refine State.lasts_mk ?_ rfl

theorem State.lcSendList_lasts {q0 : State} (s : State) (hq : q0.lasts s) :
    q0.lasts (State.lcSendList s) := by
  unfold State.lcSendList
  try dsimp only
  repeat' first
    | with_reducible first | assumption | apply State.lcBroadcast_lasts

theorem execLaceNote_lasts {q0 : State} (p : Fin 2) (h : LaceHdr) (link : Fin 64) (heal : Bool) (s : State) (hq : q0.lasts s) :
    q0.lastsOut (execLaceNote p h link heal s) := by
  unfold execLaceNote
  try dsimp only
  repeat' first
    | with_reducible first
      | assumption | apply State.lastsOut_next | apply State.lcTake_lasts | apply State.lcCut_lasts | apply State.lcHeal_lasts
      | apply State.lcSendList_lasts
    | intro _ | split | with_reducible refine State.lasts_mk ?_ rfl

theorem State.lcPortDown_lasts {q0 : State} (s : State) (p lost : Nat) (hq : q0.lasts s) :
    q0.lasts (State.lcPortDown s p lost) := by
  unfold State.lcPortDown
  try dsimp only
  repeat' first
    | with_reducible first
      | assumption | apply State.setRb_lasts | apply State.raise_lasts | apply State.lcGot_lasts | apply State.lcLose_lasts
      | apply State.lcSendOn_lasts | apply State.lcSeqNext_lasts | apply State.lcCut_lasts
    | split

theorem execLaceFrameCrcFail_lasts {q0 : State} (p : Fin 2) (lost : BitVec 8) (s : State) (hq : q0.lasts s) :
    q0.lastsOut (execLaceFrameCrcFail p lost s) := by
  unfold execLaceFrameCrcFail
  try dsimp only
  repeat' first
    | with_reducible first
      | assumption | apply State.lastsOut_next | apply State.lcPortDown_lasts | apply State.bump_lasts
    | split | with_reducible refine State.lasts_mk ?_ rfl

theorem execLaceBlockTimeout_lasts {q0 : State} (p : Fin 2) (lost : BitVec 8) (s : State) (hq : q0.lasts s) :
    q0.lastsOut (execLaceBlockTimeout p lost s) := by
  unfold execLaceBlockTimeout
  try dsimp only
  repeat' first
    | with_reducible first | assumption | apply State.lastsOut_next | apply State.lcPortDown_lasts

theorem execLacePortUp_lasts {q0 : State} (p : Fin 2) (s : State) (hq : q0.lasts s) :
    q0.lastsOut (execLacePortUp p s) := by
  unfold execLacePortUp
  try dsimp only
  repeat' first
    | with_reducible first
      | assumption | apply State.lastsOut_next | apply State.setRb_lasts | apply State.raise_lasts | apply State.lcSendOn_lasts
      | apply State.lcSeqNext_lasts | apply State.lcHeal_lasts | apply State.lcSendList_lasts
    | split | with_reducible refine State.lasts_mk ?_ rfl

theorem execDlyExchangeTimer_lasts {q0 : State} (p : Fin 2) (tap : BitVec 7) (s : State) (hq : q0.lasts s) :
    q0.lastsOut (execDlyExchangeTimer p tap s) := by
  unfold execDlyExchangeTimer
  try dsimp only
  repeat' first
    | with_reducible first
      | assumption | apply State.lastsOut_next | apply State.lcEmit_lasts | apply State.lcSeqNext_lasts
      | refine State.lasts_fst (by assumption) ?_
    | split | with_reducible refine State.lasts_mk ?_ rfl

theorem execLaceDly_lasts {q0 : State} (p : Fin 2) (tap : BitVec 7) (t3 : BitVec 55) (echo : Option (BitVec 55 × BitVec 55)) (s : State) (hq : q0.lasts s) :
    q0.lastsOut (execLaceDly p tap t3 echo s) := by
  unfold execLaceDly
  try dsimp only
  repeat' first
    | with_reducible first
      | assumption | apply State.lastsOut_next | apply State.lcGot_lasts | apply State.setRg_lasts | apply State.setRg64_lasts
      | apply State.tick_lasts | refine State.lasts_fst (by assumption) ?_
    | split | with_reducible refine State.lasts_mk ?_ rfl

theorem State.lcNumber_lasts {q0 : State} (s : State) (uids : List (BitVec 128)) (east : Nat) (ring : Bool) (hq : q0.lasts s) :
    q0.lasts (State.lcNumber s uids east ring) := by
  unfold State.lcNumber
  try dsimp only
  repeat' first
    | with_reducible first
      | assumption | apply State.setRf_lasts | apply State.setRb_lasts | apply State.raiseF_lasts | apply State.lcTopo_lasts
      | refine State.lasts_fst (by assumption) ?_
    | split | with_reducible refine State.lasts_mk ?_ rfl

theorem State.lcDisc_lasts {q0 : State} (s : State) (p : Nat) (uids : List (BitVec 128)) (east : Option Nat) (hq : q0.lasts s) :
    q0.lasts (State.lcDisc s p uids east) := by
  unfold State.lcDisc
  try dsimp only
  repeat' first
    | with_reducible first
      | assumption | apply State.lcSendOn_lasts | apply State.lcSeqNext_lasts | refine State.lasts_fst (by assumption) ?_
    | split

theorem State.lcDone_lasts {q0 : State} (s : State) (uids : List (BitVec 128)) (east : Nat) (ring : Bool) (hq : q0.lasts s) :
    q0.lasts (State.lcDone s uids east ring) := by
  unfold State.lcDone
  try dsimp only
  repeat' first
    | with_reducible first | assumption | apply State.lcNumber_lasts | apply State.lcSendList_lasts

theorem State.lcDiscover_lasts {q0 : State} (s : State) (hq : q0.lasts s) :
    q0.lasts (State.lcDiscover s) := by
  unfold State.lcDiscover
  try dsimp only
  repeat' first
    | with_reducible first | assumption | apply State.lcDisc_lasts | apply State.lcDone_lasts
    | split | with_reducible refine State.lasts_mk ?_ rfl

theorem execLcDiscover_lasts {q0 : State} (s : State) (hq : q0.lasts s) :
    q0.lastsOut (execLcDiscover s) := by
  unfold execLcDiscover
  try dsimp only
  repeat' first
    | with_reducible first | assumption | apply State.lastsOut_next | apply State.lcDiscover_lasts
    | split

theorem execDiscoveryTimer_lasts {q0 : State} (s : State) (hq : q0.lasts s) :
    q0.lastsOut (execDiscoveryTimer s) := by
  unfold execDiscoveryTimer
  try dsimp only
  repeat' first
    | with_reducible first
      | assumption | apply State.lastsOut_next | apply State.lcDiscover_lasts | refine State.lasts_fst (by assumption) ?_
    | split

theorem execLaceDisc_lasts {q0 : State} (p : Fin 2) (h : LaceHdr) (uids : List (BitVec 128)) (east : Option (Fin 65)) (complete : Bool) (s : State) (hq : q0.lasts s) :
    q0.lastsOut (execLaceDisc p h uids east complete s) := by
  unfold execLaceDisc
  try dsimp only
  repeat' first
    | with_reducible first
      | assumption | apply State.lastsOut_next | apply State.lcTake_lasts | apply State.lcNumber_lasts | apply State.lcGot_lasts
      | apply State.lcDone_lasts | apply State.lcDisc_lasts | apply State.setRb_lasts | apply State.setRf_lasts | apply State.raiseF_lasts
      | refine State.lasts_fst (by assumption) ?_
    | intro _ | split | with_reducible refine State.lasts_mk ?_ rfl

theorem State.cfgRelease_lasts {q0 : State} (s : State) (hq : q0.lasts s) :
    q0.lasts (State.cfgRelease s) := by
  unfold State.cfgRelease
  try dsimp only
  repeat' first
    | with_reducible first | assumption | apply State.setRb_lasts
    | split

theorem State.lcStarted_lasts {q0 : State} (s : State) (hq : q0.lasts s) :
    q0.lasts (State.lcStarted s) := by
  unfold State.lcStarted
  try dsimp only
  repeat' first
    | with_reducible first
      | assumption | apply State.setRb_lasts | apply State.cfgRelease_lasts | apply State.raiseF_lasts
    | with_reducible refine State.lasts_mk ?_ rfl

theorem State.lcStartAt_lasts {q0 : State} (s : State) (t : Int) (hq : q0.lasts s) :
    q0.lasts (State.lcStartAt s t) := by
  unfold State.lcStartAt
  try dsimp only
  repeat' first
    | with_reducible first | assumption | apply State.lcStarted_lasts | apply State.raiseF_lasts
    | split | with_reducible refine State.lasts_mk ?_ rfl

theorem execLcStartCmd_lasts {q0 : State} (s : State) (hq : q0.lasts s) :
    q0.lastsOut (execLcStartCmd s) := by
  unfold execLcStartCmd
  try dsimp only
  repeat' first
    | with_reducible first
      | assumption | apply State.lastsOut_next | apply State.raiseF_lasts | apply State.lcBroadcast_lasts | apply State.lcStartAt_lasts
    | split

theorem execLaceStart_lasts {q0 : State} (p : Fin 2) (h : LaceHdr) (s : State) (hq : q0.lasts s) :
    q0.lastsOut (execLaceStart p h s) := by
  unfold execLaceStart
  try dsimp only
  repeat' first
    | with_reducible first
      | assumption | apply State.lastsOut_next | apply State.lcTake_lasts | apply State.lcStartAt_lasts
    | intro _

theorem execStartInstant_lasts {q0 : State} (s : State) (hq : q0.lasts s) :
    q0.lastsOut (execStartInstant s) := by
  unfold execStartInstant
  try dsimp only
  repeat' first
    | with_reducible first
      | assumption | apply State.lastsOut_next | apply State.lcStarted_lasts | refine State.lasts_fst (by assumption) ?_
    | split

theorem execLaceImg_lasts {q0 : State} (p : Fin 2) (h : LaceHdr) (uid : Option (BitVec 128)) (ofs : BitVec 26) (bytes : List Byte) (s : State) (hq : q0.lasts s) :
    q0.lastsOut (execLaceImg p h uid ofs bytes s) := by
  unfold execLaceImg
  try dsimp only
  repeat' first
    | with_reducible first
      | assumption | apply State.lastsOut_next | apply State.lcTake_lasts | refine State.lasts_fst (by assumption) ?_
    | intro _ | split | with_reducible refine State.lasts_mk ?_ rfl

theorem State.lcImgFrames_lasts {q0 : State} (s : State) (ports : List Nat) (dst : Nat) (uid : Int) (off : Nat) (l : List Byte) (hq : q0.lasts s) :
    q0.lasts (State.lcImgFrames s ports dst uid off l) := by
  unfold State.lcImgFrames
  try dsimp only
  repeat' first
    | with_reducible first
      | assumption | apply State.lcSendOn_lasts | apply State.lcSeqNext_lasts | refine State.each_lasts _ _ _ ?_ (fun i t ht => ?_)
      | refine State.lasts_foldl _ _ ?_ (fun t x ht => ?_) | refine State.lasts_foldlP _ _ ?_ (fun t x ht => ?_)

theorem State.imgEnd_lasts {q0 : State} (s : State) (st : Nat) (hq : q0.lasts s) :
    q0.lasts (State.imgEnd s st) := by
  unfold State.imgEnd
  try dsimp only
  repeat' first
    | with_reducible first | assumption | apply State.setRg_lasts | apply State.raiseF_lasts
    | with_reducible refine State.lasts_mk ?_ rfl

theorem State.lcImgGo_lasts {q0 : State} (s : State) (v : Word) (hq : q0.lasts s) :
    q0.lasts (State.lcImgGo s v) := by
  unfold State.lcImgGo
  try dsimp only
  repeat' first
    | with_reducible first
      | assumption | apply State.flRead_lasts | apply State.setRg_lasts | apply State.imgEnd_lasts | refine State.lasts_fst (by assumption) ?_
    | split | with_reducible refine State.lasts_mk ?_ rfl

theorem execLcImgGo_lasts {q0 : State} (v : Word) (s : State) (hq : q0.lasts s) :
    q0.lastsOut (execLcImgGo v s) := by
  unfold execLcImgGo
  try dsimp only
  repeat' first
    | with_reducible first | assumption | apply State.lastsOut_next | apply State.lcImgGo_lasts

theorem execImgDone_lasts {q0 : State} (s : State) (hq : q0.lasts s) :
    q0.lastsOut (execImgDone s) := by
  unfold execImgDone
  try dsimp only
  repeat' first
    | with_reducible first
      | assumption | apply State.lastsOut_next | apply State.imgEnd_lasts | apply State.flRead_lasts | apply State.lcImgFrames_lasts
      | refine State.lasts_fst (by assumption) ?_
    | split

theorem State.clearRunOnly_lasts {q0 : State} (s : State) (lo hi : Nat) (hq : q0.lasts s) :
    q0.lasts (State.clearRunOnly s lo hi) :=
  State.lasts_mk hq rfl

theorem State.startCore_lasts {q0 : State} (s : State) (kind : Nat) (hq : q0.lasts s) :
    q0.lasts (State.startCore s kind) := by
  unfold State.startCore
  try dsimp only
  repeat' first
    | with_reducible first
      | assumption | apply State.setRf_lasts | refine State.lasts_foldl _ _ ?_ (fun t x ht => ?_)
      | refine State.lasts_foldlP _ _ ?_ (fun t x ht => ?_)
    | with_reducible refine State.lasts_mk ?_ rfl

theorem State.hxDisarm_lasts {q0 : State} (s : State) (p : HxParm) (hq : q0.lasts s) :
    q0.lasts (State.hxDisarm s p) := by
  unfold State.hxDisarm
  try dsimp only
  repeat' first
    | with_reducible first
      | assumption | apply State.mkWrite_lasts | refine State.each_lasts _ _ _ ?_ (fun i t ht => ?_)

theorem State.hxLoad_lasts {q0 : State} (s : State) (hq : q0.lasts s) :
    q0.lasts (State.hxLoad s) := by
  unfold State.hxLoad
  try dsimp only
  repeat' first
    | with_reducible first
      | assumption | apply State.clearRegs_lasts | apply execAxCfgWrite_lasts | apply State.hxDisarm_lasts | apply State.after_lasts
    | split | with_reducible refine State.lasts_mk ?_ rfl

theorem State.runReset_lasts {q0 : State} (s : State) (hq : q0.lasts s) :
    q0.lasts (State.runReset s) := by
  unfold State.runReset
  try dsimp only
  repeat' first
    | with_reducible first
      | assumption | apply State.cfgRunReset_lasts | apply State.hiReset_lasts | apply State.smBlkRst_lasts | apply State.fbRunReset_lasts
      | apply State.arrayReset_lasts | apply State.emptyQs_lasts | apply State.spResync_lasts | apply State.enDrop_lasts
      | apply State.netRunReset_lasts | apply State.clearRegs_lasts | apply State.flRunReset_lasts | apply State.clearRunOnly_lasts
      | apply State.setRf_lasts | apply State.setRb_lasts | apply State.openAll_lasts | refine State.lasts_foldl _ _ ?_ (fun t x ht => ?_)
      | refine State.lasts_foldlP _ _ ?_ (fun t x ht => ?_) | refine State.lasts_fst (by assumption) ?_
    | split | with_reducible refine State.lasts_mk ?_ rfl

theorem State.newChal_lasts {q0 : State} (s : State) (hq : q0.lasts s) :
    q0.lasts (State.newChal s) := by
  unfold State.newChal
  try dsimp only
  repeat' first
    | with_reducible first
      | assumption | apply State.setRg_lasts | refine State.each_lasts _ _ _ ?_ (fun i t ht => ?_)
    | with_reducible refine State.lasts_mk ?_ rfl

theorem State.strapAt_lasts {q0 : State} (s : State) (straps : BitVec 4) (hq : q0.lasts s) :
    q0.lasts (State.strapAt s straps) :=
  State.lasts_mk hq rfl

theorem State.latchStraps_lasts {q0 : State} (s : State) (hq : q0.lasts s) :
    q0.lasts (State.latchStraps s) := by
  unfold State.latchStraps
  try dsimp only
  repeat' first
    | with_reducible first
      | assumption | apply State.setRg_lasts | apply State.setRf_lasts | apply State.setRb_lasts

theorem State.wideReset_lasts {q0 : State} (s : State) (cold : Bool) (hq : q0.lasts s) :
    q0.lasts (State.wideReset s cold) := by
  unfold State.wideReset
  try dsimp only
  repeat' first
    | with_reducible first | assumption | apply State.flAbort_lasts | refine State.lasts_fst (by assumption) ?_
    | split | with_reducible refine State.lasts_mk ?_ rfl

theorem State.deepReset_lasts {q0 : State} (s : State) (cold : Bool) (hq : q0.lasts s) :
    q0.lasts (State.deepReset s cold) := by
  unfold State.deepReset
  try dsimp only
  repeat' first
    | with_reducible first
      | assumption | apply State.wideReset_lasts | apply State.latchStraps_lasts | apply State.newChal_lasts | apply State.setRb_lasts
    | split

theorem State.rsShow_lasts {q0 : State} (s : State) (hq : q0.lasts s) :
    q0.lasts (State.rsShow s) := by
  unfold State.rsShow
  try dsimp only
  repeat' first
    | with_reducible first
      | assumption | apply step_lasts | apply State.setRg_lasts | refine State.lasts_fst (by assumption) ?_
    | split

theorem State.domRefuse_lasts {q0 : State} (s : State) (d c : Nat) (hq : q0.lasts s) :
    q0.lasts (State.domRefuse s d c) := by
  unfold State.domRefuse
  try dsimp only
  repeat' first
    | with_reducible first | assumption | apply State.setRg_lasts | apply State.raiseF_lasts

theorem State.startSeq_lasts {q0 : State} (s : State) (code detail : Nat) (hq : q0.lasts s) :
    q0.lasts (State.startSeq s code detail) := by
  unfold State.startSeq
  try dsimp only
  repeat' first
    | with_reducible first
      | assumption | apply State.domRefuse_lasts | apply State.runReset_lasts | apply State.deepReset_lasts | apply step_lasts
      | apply State.setRg_lasts | apply State.rsShow_lasts | apply State.bump_lasts | apply State.raiseF_lasts
      | refine State.lasts_foldl _ _ ?_ (fun t x ht => ?_) | refine State.lasts_foldlP _ _ ?_ (fun t x ht => ?_)
      | refine State.lasts_fst (by assumption) ?_
    | split | with_reducible refine State.lasts_mk ?_ rfl

theorem State.resetRequest_lasts {q0 : State} (s : State) (code detail : Nat) (lasts : Bool) (hq : q0.lasts s) :
    q0.lasts (State.resetRequest s code detail lasts) := by
  unfold State.resetRequest
  try dsimp only
  repeat' first
    | with_reducible first | assumption | apply State.rsShow_lasts | apply State.startSeq_lasts
    | split | with_reducible refine State.lasts_mk ?_ rfl

theorem State.resetUnhold_lasts {q0 : State} (s : State) (code : Nat) (hq : q0.lasts s) :
    q0.lasts (State.resetUnhold s code) := by
  unfold State.resetUnhold
  try dsimp only
  repeat' first
    | with_reducible first | assumption | apply State.rsShow_lasts
    | with_reducible refine State.lasts_mk ?_ rfl

theorem State.resetDeferred_lasts {q0 : State} (s : State) (hq : q0.lasts s) :
    q0.lasts (State.resetDeferred s) := by
  unfold State.resetDeferred
  try dsimp only
  repeat' first
    | with_reducible first
      | assumption | apply State.startSeq_lasts | refine State.lasts_foldl _ _ ?_ (fun t x ht => ?_)
      | refine State.lasts_foldlP _ _ ?_ (fun t x ht => ?_)
    | with_reducible refine State.lasts_mk ?_ rfl

theorem State.keyStat_lasts {q0 : State} (s : State) (hq : q0.lasts s) :
    q0.lasts (State.keyStat s) := by
  unfold State.keyStat
  try dsimp only
  repeat' first
    | with_reducible first
      | assumption | apply State.setRg_lasts | refine State.lasts_foldl _ _ ?_ (fun t x ht => ?_)
      | refine State.lasts_foldlP _ _ ?_ (fun t x ht => ?_) | refine State.lasts_fst (by assumption) ?_

theorem State.stepDo_lasts {q0 : State} (s : State) (reach k : Nat) (hq : q0.lasts s) : q0.lasts (s.stepDo reach k) := by
  unfold State.stepDo
  have h1 := State.flRead_lasts s 0x3FE4000 0x1000 hq
  generalize s.flRead 0x3FE4000 0x1000 = p at h1 ⊢
  obtain ⟨s1, l, ok⟩ := p
  try dsimp only
  repeat' first
    | with_reducible first
      | assumption | apply State.lastsOut_next | apply State.setRb_lasts | apply State.flCounts_lasts | apply State.startFill_lasts
      | apply State.keyStat_lasts | apply State.startCore_lasts | apply State.fbReach_lasts | apply State.hxLoad_lasts | apply State.raiseF_lasts
      | refine State.each_lasts _ _ _ ?_ (fun i t ht => ?_) | apply State.after_lasts | refine State.lasts_foldl _ _ ?_ (fun t x ht => ?_)
      | refine State.lasts_foldlP _ _ ?_ (fun t x ht => ?_) | refine State.lasts_ite (fun _ => ?_) (fun _ => ?_)
      | refine State.lasts_iteP (fun _ => ?_) (fun _ => ?_) | refine State.lasts_fst (by assumption) ?_
    | intro _ | split | with_reducible refine State.lasts_mk ?_ rfl

theorem execResetStepRelease_lasts {q0 : State} (s : State) (hq : q0.lasts s) :
    q0.lastsOut (execResetStepRelease s) := by
  unfold execResetStepRelease
  try dsimp only
  repeat' first
    | with_reducible first
      | assumption | apply State.lastsOut_next | apply State.stepDo_lasts | apply step_lasts | apply State.rsShow_lasts
      | refine State.lasts_fst (by assumption) ?_
    | split | with_reducible refine State.lasts_mk ?_ rfl

theorem execOptionLoadDone_lasts {q0 : State} (s : State) (hq : q0.lasts s) :
    q0.lastsOut (execOptionLoadDone s) := by
  unfold execOptionLoadDone
  try dsimp only
  repeat' first
    | with_reducible first
      | assumption | apply State.lastsOut_next | apply State.rdpDerive_lasts | apply State.factorySpares_lasts
    | split | with_reducible refine State.lasts_mk ?_ rfl

theorem State.setVin_lasts {q0 : State} (s : State) (mv : BitVec 16) (hq : q0.lasts s) :
    q0.lasts (State.setVin s mv) := by
  unfold State.setVin
  try dsimp only
  repeat' first
    | with_reducible first | assumption | apply State.setRf_lasts

theorem execPowerOn_lasts {q0 : State} (straps : BitVec 4) (mv : BitVec 16) (s : State) (hq : q0.lasts s) :
    q0.lastsOut (execPowerOn straps mv s) := by
  unfold execPowerOn
  try dsimp only
  repeat' first
    | with_reducible first
      | assumption | apply State.lastsOut_next | apply State.resetRequest_lasts | apply State.setVin_lasts
    | with_reducible refine State.lasts_mk ?_ rfl

theorem execVinRise4v5_lasts {q0 : State} (mv : BitVec 16) (s : State) (hq : q0.lasts s) :
    q0.lastsOut (execVinRise4v5 mv s) := by
  unfold execVinRise4v5
  try dsimp only
  repeat' first
    | with_reducible first
      | assumption | apply State.lastsOut_next | apply State.resetUnhold_lasts | apply State.setVin_lasts
    | with_reducible refine State.lasts_mk ?_ rfl

theorem execBrownout_lasts {q0 : State} (straps : BitVec 4) (mv : BitVec 16) (s : State) (hq : q0.lasts s) :
    q0.lastsOut (execBrownout straps mv s) := by
  unfold execBrownout
  try dsimp only
  repeat' first
    | with_reducible first
      | assumption | apply State.lastsOut_next | apply State.resetRequest_lasts | apply State.setVin_lasts
    | with_reducible refine State.lasts_mk ?_ rfl

theorem execPhaseFail_lasts {q0 : State} (phase : Fin 6) (s : State) (hq : q0.lasts s) :
    q0.lastsOut (execPhaseFail phase s) := by
  unfold execPhaseFail
  try dsimp only
  repeat' first
    | with_reducible first
      | assumption | apply State.lastsOut_next | apply State.setRf_lasts | apply State.raiseF_lasts

theorem execPowerGoodLoss_lasts {q0 : State} (straps : BitVec 4) (s0 : State) (hq : q0.lasts s0) :
    q0.lastsOut (execPowerGoodLoss straps s0) := by
  unfold execPowerGoodLoss
  try dsimp only
  repeat' first
    | with_reducible first
      | assumption | apply State.lastsOut_next | apply State.strapAt_lasts | apply State.otSet_lasts | apply State.tick_lasts
      | apply State.resetRequest_lasts | refine State.lasts_fst (by assumption) ?_
    | split

theorem State.setTemp_lasts {q0 : State} (s : State) (tj : BitVec 16) (hq : q0.lasts s) :
    q0.lasts (State.setTemp s tj) := by
  unfold State.setTemp
  try dsimp only
  repeat' first
    | with_reducible first | assumption | apply State.setRf_lasts

theorem execThermalWarn_lasts {q0 : State} (tj : BitVec 16) (s : State) (hq : q0.lasts s) :
    q0.lastsOut (execThermalWarn tj s) := by
  unfold execThermalWarn
  try dsimp only
  repeat' first
    | with_reducible first
      | assumption | apply State.lastsOut_next | apply State.setTemp_lasts | apply State.raiseF_lasts
    | split

theorem execThermalTrip_lasts {q0 : State} (straps : BitVec 4) (tj : BitVec 16) (s : State) (hq : q0.lasts s) :
    q0.lastsOut (execThermalTrip straps tj s) := by
  unfold execThermalTrip
  try dsimp only
  repeat' first
    | with_reducible first
      | assumption | apply State.lastsOut_next | apply State.strapAt_lasts | apply State.resetRequest_lasts | apply State.setTemp_lasts
    | split

theorem execThermalTripEnd_lasts {q0 : State} (tj : BitVec 16) (s : State) (hq : q0.lasts s) :
    q0.lastsOut (execThermalTripEnd tj s) := by
  unfold execThermalTripEnd
  try dsimp only
  repeat' first
    | with_reducible first
      | assumption | apply State.lastsOut_next | apply State.resetUnhold_lasts | apply State.setTemp_lasts
    | split

theorem execNresetLow_lasts {q0 : State} (straps : BitVec 4) (s : State) (hq : q0.lasts s) :
    q0.lastsOut (execNresetLow straps s) := by
  unfold execNresetLow
  try dsimp only
  repeat' first
    | with_reducible first
      | assumption | apply State.lastsOut_next | apply State.strapAt_lasts | apply State.resetRequest_lasts
    | split

theorem execNresetRelease_lasts {q0 : State} (s : State) (hq : q0.lasts s) :
    q0.lastsOut (execNresetRelease s) := by
  unfold execNresetRelease
  try dsimp only
  repeat' first
    | with_reducible first | assumption | apply State.lastsOut_next | apply State.resetUnhold_lasts

theorem execPerst_lasts {q0 : State} (s : State) (hq : q0.lasts s) :
    q0.lastsOut (execPerst s) := by
  unfold execPerst
  try dsimp only
  repeat' first
    | with_reducible first | assumption | apply State.lastsOut_next | apply State.resetRequest_lasts

theorem execPerstRelease_lasts {q0 : State} (s : State) (hq : q0.lasts s) :
    q0.lastsOut (execPerstRelease s) := by
  unfold execPerstRelease
  try dsimp only
  repeat' first
    | with_reducible first | assumption | apply State.lastsOut_next | apply State.resetUnhold_lasts

theorem State.rsCtrlWrite_lasts {q0 : State} (s : State) (v : Word) (hq : q0.lasts s) :
    q0.lasts (State.rsCtrlWrite s v) := by
  unfold State.rsCtrlWrite
  try dsimp only
  repeat' first
    | with_reducible first | assumption | apply State.resetRequest_lasts
    | split

theorem execSoftwareWarm_lasts {q0 : State} (straps : BitVec 4) (v : Word) (s : State) (hq : q0.lasts s) :
    q0.lastsOut (execSoftwareWarm straps v s) := by
  unfold execSoftwareWarm
  try dsimp only
  repeat' first
    | with_reducible first
      | assumption | apply State.lastsOut_next | apply State.strapAt_lasts | apply State.rsCtrlWrite_lasts

theorem execSoftwareRun_lasts {q0 : State} (v : Word) (s : State) (hq : q0.lasts s) :
    q0.lastsOut (execSoftwareRun v s) := by
  unfold execSoftwareRun
  try dsimp only
  repeat' first
    | with_reducible first | assumption | apply State.lastsOut_next | apply State.rsCtrlWrite_lasts

theorem execJtagReset_lasts {q0 : State} (straps : BitVec 4) (s : State) (hq : q0.lasts s) :
    q0.lastsOut (execJtagReset straps s) := by
  unfold execJtagReset
  try dsimp only
  repeat' first
    | with_reducible first
      | assumption | apply State.lastsOut_next | apply State.strapAt_lasts | apply State.resetRequest_lasts

theorem execAonDisagree_lasts {q0 : State} (straps : BitVec 4) (s : State) (hq : q0.lasts s) :
    q0.lastsOut (execAonDisagree straps s) := by
  unfold execAonDisagree
  try dsimp only
  repeat' first
    | with_reducible first
      | assumption | apply State.lastsOut_next | apply State.strapAt_lasts | apply State.resetRequest_lasts

theorem State.rsWdtWrite_lasts {q0 : State} (s : State) (v : Word) (rom : Bool) (hq : q0.lasts s) :
    q0.lasts (State.rsWdtWrite s v rom) := by
  unfold State.rsWdtWrite
  try dsimp only
  repeat' first
    | with_reducible first | assumption | apply State.setRg_lasts
    | split | with_reducible refine State.lasts_mk ?_ rfl

theorem State.rsKick_lasts {q0 : State} (s : State) (v : Word) (hq : q0.lasts s) :
    q0.lasts (State.rsKick s v) := by
  unfold State.rsKick
  try dsimp only
  repeat' first
    | with_reducible first | assumption | apply State.kick_lasts
    | split | with_reducible refine State.lasts_mk ?_ rfl

theorem execRsWdtKick_lasts {q0 : State} (v : Word) (s : State) (hq : q0.lasts s) :
    q0.lastsOut (execRsWdtKick v s) := by
  unfold execRsWdtKick
  try dsimp only
  repeat' first
    | with_reducible first | assumption | apply State.lastsOut_next | apply State.rsKick_lasts

theorem execRsWdtWarn_lasts {q0 : State} (s : State) (hq : q0.lasts s) :
    q0.lastsOut (execRsWdtWarn s) := by
  unfold execRsWdtWarn
  try dsimp only
  repeat' first
    | with_reducible first | assumption | apply State.lastsOut_next | apply State.raiseF_lasts
    | split

theorem execSystemWdtExpiry_lasts {q0 : State} (straps : BitVec 4) (s : State) (hq : q0.lasts s) :
    q0.lastsOut (execSystemWdtExpiry straps s) := by
  unfold execSystemWdtExpiry
  try dsimp only
  repeat' first
    | with_reducible first
      | assumption | apply State.lastsOut_next | apply State.strapAt_lasts | apply State.resetRequest_lasts
    | split

theorem execRsSafeWrite_lasts {q0 : State} (v : Word) (s : State) (hq : q0.lasts s) :
    q0.lastsOut (execRsSafeWrite v s) := by
  unfold execRsSafeWrite
  try dsimp only
  repeat' first
    | with_reducible first | assumption | apply State.lastsOut_next | apply State.store_lasts

theorem State.setDom_lasts {q0 : State} (s : State) (d st : Nat) (hq : q0.lasts s) :
    q0.lasts (State.setDom s d st) := by
  unfold State.setDom
  try dsimp only
  repeat' first
    | with_reducible first | assumption | apply State.scrubLeave_lasts | apply State.setRf_lasts
    | split

theorem State.seamMark_lasts {q0 : State} (s : State) (d : Nat) (hq : q0.lasts s) :
    q0.lasts (State.seamMark s d) := by
  unfold State.seamMark
  try dsimp only
  repeat' first
    | with_reducible first | assumption
    | with_reducible refine State.lasts_mk ?_ rfl

theorem State.domClose_lasts {q0 : State} (s : State) (d : Nat) (hq : q0.lasts s) :
    q0.lasts (State.domClose s d) := by
  unfold State.domClose
  try dsimp only
  repeat' first
    | with_reducible first
      | assumption | apply State.domRefuse_lasts | apply State.seamMark_lasts | apply State.setDom_lasts | apply State.cfgDomClose_lasts
      | refine State.lasts_fst (by assumption) ?_
    | split | with_reducible refine State.lasts_mk ?_ rfl

theorem State.domOpen_lasts {q0 : State} (s : State) (d : Nat) (hq : q0.lasts s) :
    q0.lasts (State.domOpen s d) := by
  unfold State.domOpen
  try dsimp only
  repeat' first
    | with_reducible first
      | assumption | apply State.domRefuse_lasts | apply State.setDom_lasts | refine State.lasts_fst (by assumption) ?_
    | split | with_reducible refine State.lasts_mk ?_ rfl

theorem State.domCmd_lasts {q0 : State} (s : State) (v : Word) (hq : q0.lasts s) :
    q0.lasts (State.domCmd s v) := by
  unfold State.domCmd
  try dsimp only
  repeat' first
    | with_reducible first | assumption | apply State.domClose_lasts | apply State.domOpen_lasts
    | split | with_reducible refine State.lasts_mk ?_ rfl

theorem State.domResume_lasts {q0 : State} (s : State) (hq : q0.lasts s) :
    q0.lasts (State.domResume s) := by
  unfold State.domResume
  try dsimp only
  repeat' first
    | with_reducible first | assumption | apply State.domClose_lasts | refine State.lasts_fst (by assumption) ?_
    | split | with_reducible refine State.lasts_mk ?_ rfl

theorem execDomainOff_lasts {q0 : State} (v : Word) (s : State) (hq : q0.lasts s) :
    q0.lastsOut (execDomainOff v s) := by
  unfold execDomainOff
  try dsimp only
  repeat' first
    | with_reducible first | assumption | apply State.lastsOut_next | apply State.domCmd_lasts
    | split

theorem execDomainOn_lasts {q0 : State} (v : Word) (s : State) (hq : q0.lasts s) :
    q0.lastsOut (execDomainOn v s) := by
  unfold execDomainOn
  try dsimp only
  repeat' first
    | with_reducible first | assumption | apply State.lastsOut_next | apply State.domCmd_lasts
    | split

theorem State.serdesDown_lasts {q0 : State} (s : State) (d : Nat) (hq : q0.lasts s) :
    q0.lasts (State.serdesDown s d) := by
  unfold State.serdesDown
  try dsimp only
  repeat' first
    | with_reducible first
      | assumption | apply State.hiReset_lasts | apply State.setRg_lasts | apply State.raiseF_lasts | apply State.lcPortDown_lasts
      | refine State.each_lasts _ _ _ ?_ (fun i t ht => ?_)
    | split

theorem execDrainEnd_lasts {q0 : State} (s : State) (hq : q0.lasts s) :
    q0.lastsOut (execDrainEnd s) := by
  unfold execDrainEnd
  try dsimp only
  repeat' first
    | with_reducible first
      | assumption | apply State.lastsOut_next | apply State.answerErr_lasts | apply State.raiseF_lasts | apply State.setDom_lasts
      | apply State.serdesDown_lasts | refine State.lasts_foldl _ _ ?_ (fun t x ht => ?_) | refine State.lasts_foldlP _ _ ?_ (fun t x ht => ?_)
      | refine State.lasts_fst (by assumption) ?_
    | split | with_reducible refine State.lasts_mk ?_ rfl

theorem State.yokeReset_lasts {q0 : State} (s : State) (hq : q0.lasts s) :
    q0.lasts (State.yokeReset s) := by
  unfold State.yokeReset
  try dsimp only
  repeat' first
    | with_reducible first | assumption | apply State.clearRegs_lasts
    | with_reducible refine State.lasts_mk ?_ rfl

theorem State.rowLost_lasts {q0 : State} (s : State) (y : Nat) (hq : q0.lasts s) :
    q0.lasts (State.rowLost s y) := by
  unfold State.rowLost
  try dsimp only
  repeat' first
    | with_reducible first
      | assumption | apply State.clearMem_lasts | apply State.emptyQs_lasts | refine State.lasts_foldl _ _ ?_ (fun t x ht => ?_)
      | refine State.lasts_foldlP _ _ ?_ (fun t x ht => ?_) | refine State.lasts_fst (by assumption) ?_
    | with_reducible refine State.lasts_mk ?_ rfl

theorem execIsolationEnd_lasts {q0 : State} (s : State) (hq : q0.lasts s) :
    q0.lastsOut (execIsolationEnd s) := by
  unfold execIsolationEnd
  try dsimp only
  repeat' first
    | with_reducible first
      | assumption | apply State.lastsOut_next | apply State.setDom_lasts | apply State.raiseF_lasts | apply State.rowLost_lasts
      | apply State.cfgDomOff_lasts | apply State.yokeReset_lasts | refine State.lasts_fst (by assumption) ?_
    | split | with_reducible refine State.lasts_mk ?_ rfl

theorem execRampDone_lasts {q0 : State} (s : State) (hq : q0.lasts s) :
    q0.lastsOut (execRampDone s) := by
  unfold execRampDone
  try dsimp only
  repeat' first
    | with_reducible first
      | assumption | apply State.lastsOut_next | apply State.rowLost_lasts | apply State.startFill_lasts | apply State.cfgDomOn_lasts
      | apply State.yokeReset_lasts | apply State.setDom_lasts | apply State.raiseF_lasts | refine State.lasts_fst (by assumption) ?_
    | split | with_reducible refine State.lasts_mk ?_ rfl

theorem execRefLoss_lasts {q0 : State} (s : State) (hq : q0.lasts s) :
    q0.lastsOut (execRefLoss s) := by
  unfold execRefLoss
  try dsimp only
  repeat' first
    | with_reducible first
      | assumption | apply State.lastsOut_next | apply State.setRb_lasts | apply State.raiseF_lasts

theorem execRefRestore_lasts {q0 : State} (s : State) (hq : q0.lasts s) :
    q0.lastsOut (execRefRestore s) := by
  unfold execRefRestore
  try dsimp only
  repeat' first
    | with_reducible first
      | assumption | apply State.lastsOut_next | apply State.setRb_lasts | apply State.raiseF_lasts
    | split

theorem State.aclkWrite_lasts {q0 : State} (s : State) (v : Word) (hq : q0.lasts s) :
    q0.lasts (State.aclkWrite s v) := by
  unfold State.aclkWrite
  try dsimp only
  repeat' first
    | with_reducible first
      | assumption | apply State.raiseF_lasts | apply State.store_lasts | apply State.setRb_lasts
    | split | with_reducible refine State.lasts_mk ?_ rfl

theorem execAclkWrite_lasts {q0 : State} (v : Word) (s : State) (hq : q0.lasts s) :
    q0.lastsOut (execAclkWrite v s) := by
  unfold execAclkWrite
  try dsimp only
  repeat' first
    | with_reducible first | assumption | apply State.lastsOut_next | apply State.aclkWrite_lasts

theorem execAclkRelock_lasts {q0 : State} (s : State) (hq : q0.lasts s) :
    q0.lastsOut (execAclkRelock s) := by
  unfold execAclkRelock
  try dsimp only
  repeat' first
    | with_reducible first
      | assumption | apply State.lastsOut_next | apply State.frozenShow_lasts | apply State.setRb_lasts | apply State.raiseF_lasts
    | split | with_reducible refine State.lasts_mk ?_ rfl

theorem State.cgState_lasts {q0 : State} (s : State) (st : Nat) (hq : q0.lasts s) :
    q0.lasts (State.cgState s st) := by
  unfold State.cgState
  try dsimp only
  repeat' first
    | with_reducible first | assumption | apply State.setRf_lasts

theorem State.bootFail_lasts {q0 : State} (s : State) (code frame : Nat) (hq : q0.lasts s) :
    q0.lasts (State.bootFail s code frame) := by
  unfold State.bootFail
  try dsimp only
  repeat' first
    | with_reducible first
      | assumption | apply State.proofErr_lasts | apply State.bump_lasts | apply State.cgState_lasts | apply State.verifyShow_lasts
      | apply State.raiseF_lasts | apply State.emit_lasts
    | with_reducible refine State.lasts_mk ?_ rfl

theorem State.bootLoad_lasts {q0 : State} (s : State) (src : ImgSrc) (idx : Nat) (hq : q0.lasts s) :
    q0.lasts (State.bootLoad s src idx) := by
  unfold State.bootLoad
  try dsimp only
  repeat' first
    | with_reducible first
      | assumption | apply State.srcRead_lasts | apply State.bootFail_lasts | apply State.regInit_lasts | apply State.cgState_lasts
      | apply State.verifyShow_lasts | refine State.lasts_fst (by assumption) ?_
    | split | with_reducible refine State.lasts_mk ?_ rfl

theorem State.xspiRead_lasts {q0 : State} (s : State) (h : List Byte) (hq : q0.lasts s) :
    q0.lasts (State.xspiRead s h) := by
  unfold State.xspiRead
  try dsimp only
  repeat' first
    | with_reducible first
      | assumption | apply State.emit_lasts | refine State.lasts_foldl _ _ ?_ (fun t x ht => ?_)
      | refine State.lasts_foldlP _ _ ?_ (fun t x ht => ?_)
    | split

theorem State.slotFirst_lasts {q0 : State} (s : State) (hq : q0.lasts s) : q0.lasts (s.slotFirst).1 := by
  unfold State.slotFirst
  have h1 := State.flRead_lasts s 0 0x1000 hq
  generalize s.flRead 0 0x1000 = p at h1 ⊢
  obtain ⟨s1, a, oka⟩ := p
  have h2 := State.flRead_lasts s1 0xE00000 0x1000 h1
  dsimp only
  generalize s1.flRead 0xE00000 0x1000 = p at h2 ⊢
  obtain ⟨s2, b, okb⟩ := p
  exact h2

theorem State.bootAttempt_lasts {q0 : State} (s : State) (ext : List Byte) (hq : q0.lasts s) :
    q0.lasts (State.bootAttempt s ext) := by
  unfold State.bootAttempt
  try dsimp only
  repeat' first
    | with_reducible first
      | assumption | apply State.bootLoad_lasts | apply State.slotFirst_lasts | apply State.setRf_lasts | apply State.xspiRead_lasts
      | apply State.cgState_lasts | refine State.lasts_fst (by assumption) ?_
    | split | with_reducible refine State.lasts_mk ?_ rfl

theorem State.laceBoot_lasts {q0 : State} (s : State) (hq : q0.lasts s) :
    q0.lasts (State.laceBoot s) := by
  unfold State.laceBoot
  try dsimp only
  repeat' first
    | with_reducible first | assumption | apply State.bootLoad_lasts
    | split | with_reducible refine State.lasts_mk ?_ rfl

theorem execBootAttempt_lasts {q0 : State} (ext : List Byte) (s : State) (hq : q0.lasts s) :
    q0.lastsOut (execBootAttempt ext s) := by
  unfold execBootAttempt
  try dsimp only
  repeat' first
    | with_reducible first
      | assumption | apply State.lastsOut_next | apply State.bootAttempt_lasts | apply State.laceBoot_lasts
    | split

theorem State.cgHostGo_lasts {q0 : State} (s : State) (hq : q0.lasts s) :
    q0.lasts (State.cgHostGo s) := by
  unfold State.cgHostGo
  try dsimp only
  repeat' first
    | with_reducible first | assumption | apply State.bootLoad_lasts
    | split

theorem execCgHostGo_lasts {q0 : State} (s : State) (hq : q0.lasts s) :
    q0.lastsOut (execCgHostGo s) := by
  unfold execCgHostGo
  try dsimp only
  repeat' first
    | with_reducible first | assumption | apply State.lastsOut_next | apply State.cgHostGo_lasts

theorem execBackoffEnd_lasts {q0 : State} (ext : List Byte) (s : State) (hq : q0.lasts s) :
    q0.lastsOut (execBackoffEnd ext s) := by
  unfold execBackoffEnd
  try dsimp only
  repeat' first
    | with_reducible first | assumption | apply State.lastsOut_next | apply State.bootAttempt_lasts
    | split

theorem State.bootPass_lasts {q0 : State} (s : State) (b : BootRun) (hq : q0.lasts s) :
    q0.lasts (State.bootPass s b) := by
  unfold State.bootPass
  try dsimp only
  repeat' first
    | with_reducible first
      | assumption | apply State.act_lasts | apply State.setRg_lasts | apply State.setCgr_lasts | apply State.setRf_lasts
      | apply State.cgState_lasts | apply State.cfgRelease_lasts | refine State.each_lasts _ _ _ ?_ (fun i t ht => ?_)
      | refine State.lasts_fst (by assumption) ?_
    | intro _ | split | with_reducible refine State.lasts_mk ?_ rfl

theorem State.bootSig_lasts {q0 : State} (s : State) (b : BootRun) (units : Nat) (hq : q0.lasts s) :
    q0.lasts (State.bootSig s b units) := by
  unfold State.bootSig
  try dsimp only
  repeat' first
    | with_reducible first
      | assumption | apply State.loadUnits_lasts | apply State.verifyShow_lasts | apply State.bootFail_lasts | apply State.cgState_lasts
      | refine State.lasts_fst (by assumption) ?_
    | split | with_reducible refine State.lasts_mk ?_ rfl

theorem State.bootEnd_lasts {q0 : State} (s : State) (b : BootRun) (hq : q0.lasts s) :
    q0.lasts (State.bootEnd s b) := by
  unfold State.bootEnd
  try dsimp only
  repeat' first
    | with_reducible first
      | assumption | apply State.loadUnits_lasts | apply State.bootFail_lasts | apply State.srcRead_lasts | apply State.bootPass_lasts
      | refine State.lasts_fst (by assumption) ?_
    | split

theorem State.partStart_lasts {q0 : State} (s : State) (region : Nat) (lining : Option Nat) (host : Bool) (desc : Option (Nat × Nat)) (img : List Byte) (hq : q0.lasts s) :
    q0.lasts (State.partStart s region lining host desc img) := by
  unfold State.partStart
  try dsimp only
  repeat' first
    | with_reducible first
      | assumption | apply State.setRg_lasts | apply State.icpAnswer_lasts | apply State.descEnd_lasts | apply State.sleeve_lasts
      | apply State.cgShow_lasts | apply State.plFail_lasts | apply State.verifyShow_lasts | refine State.lasts_fst (by assumption) ?_
    | split | with_reducible refine State.lasts_mk ?_ rfl

theorem execIcpStart_lasts {q0 : State} (start : Word) (words : List Word) (s : State) (hq : q0.lasts s) :
    q0.lastsOut (execIcpStart start words s) := by
  unfold execIcpStart
  try dsimp only
  repeat' first
    | with_reducible first | assumption | apply State.lastsOut_next | apply State.partStart_lasts
    | split

theorem execConfigPartial_lasts {q0 : State} (q : Fin 1024) (dseq : Word) (hdr : List Byte) (hostErr : Bool) (s : State) (hq : q0.lasts s) :
    q0.lastsOut (execConfigPartial q dseq hdr hostErr s) := by
  unfold execConfigPartial
  try dsimp only
  repeat' first
    | with_reducible first
      | assumption | apply State.lastsOut_next | apply State.setDesc_lasts | apply State.descFail_lasts | apply State.partStart_lasts
      | refine State.lasts_fst (by assumption) ?_
    | split | with_reducible refine State.lasts_mk ?_ rfl

theorem State.partSig_lasts {q0 : State} (s : State) (p : PartRun) (hq : q0.lasts s) :
    q0.lasts (State.partSig s p) := by
  unfold State.partSig
  try dsimp only
  repeat' first
    | with_reducible first
      | assumption | apply State.verifyShow_lasts | apply State.plFail_lasts | refine State.lasts_fst (by assumption) ?_
    | split | with_reducible refine State.lasts_mk ?_ rfl

theorem State.partUnits_lasts {q0 : State} (s : State) (p : PartRun) (l : List (Bool × Nat × Nat)) (h : q0.lasts s) : q0.lasts (State.partUnits s p l) := by
  induction l generalizing s p with
  | nil =>
    unfold State.partUnits
    try dsimp only
    repeat' first
      | with_reducible first
        | assumption | apply State.lastsOut_next | refine State.each_lasts _ _ _ ?_ (fun i t ht => ?_) | apply State.after_lasts
        | refine State.lasts_foldl _ _ ?_ (fun t x ht => ?_) | refine State.lasts_foldlP _ _ ?_ (fun t x ht => ?_)
        | refine State.lasts_ite (fun _ => ?_) (fun _ => ?_) | refine State.lasts_iteP (fun _ => ?_) (fun _ => ?_)
        | refine State.lasts_fst (by assumption) ?_
      | intro _ | split | with_reducible refine State.lasts_mk ?_ rfl
  | cons e r ih =>
    unfold State.partUnits
    try dsimp only
    repeat' first
      | with_reducible first
        | assumption | apply State.lastsOut_next | apply ih | apply State.writeUnit_lasts | apply State.plFail_lasts
        | refine State.each_lasts _ _ _ ?_ (fun i t ht => ?_) | apply State.after_lasts | refine State.lasts_foldl _ _ ?_ (fun t x ht => ?_)
        | refine State.lasts_foldlP _ _ ?_ (fun t x ht => ?_) | refine State.lasts_ite (fun _ => ?_) (fun _ => ?_)
        | refine State.lasts_iteP (fun _ => ?_) (fun _ => ?_) | refine State.lasts_fst (by assumption) ?_
      | intro _ | split | with_reducible refine State.lasts_mk ?_ rfl

theorem execPartialFrame_lasts {q0 : State} (words : List Word) (bad : Bool) (s : State) (hq : q0.lasts s) :
    q0.lastsOut (execPartialFrame words bad s) := by
  unfold execPartialFrame
  try dsimp only
  repeat' first
    | with_reducible first
      | assumption | apply State.lastsOut_next | apply State.plFail_lasts | apply State.partUnits_lasts
      | refine State.lasts_fst (by assumption) ?_
    | split | with_reducible refine State.lasts_mk ?_ rfl

theorem State.partEnd_lasts {q0 : State} (s : State) (p : PartRun) (hq : q0.lasts s) :
    q0.lasts (State.partEnd s p) := by
  unfold State.partEnd
  try dsimp only
  repeat' first
    | with_reducible first
      | assumption | apply State.plFail_lasts | apply State.flRead_lasts | apply State.setRg_lasts | apply State.setRb_lasts
      | apply State.plEnd_lasts | apply State.raiseF_lasts | apply State.setCgr_lasts | apply State.regionRelease_lasts
      | refine State.lasts_fst (by assumption) ?_
    | split | with_reducible refine State.lasts_mk ?_ rfl

theorem execPartialStall_lasts {q0 : State} (s : State) (hq : q0.lasts s) :
    q0.lastsOut (execPartialStall s) := by
  unfold execPartialStall
  try dsimp only
  repeat' first
    | with_reducible first
      | assumption | apply State.lastsOut_next | apply State.plFail_lasts | refine State.lasts_fst (by assumption) ?_
    | split

theorem State.plAbort_lasts {q0 : State} (s : State) (hq : q0.lasts s) :
    q0.lasts (State.plAbort s) := by
  unfold State.plAbort
  try dsimp only
  repeat' first
    | with_reducible first | assumption | apply State.plFail_lasts | refine State.lasts_fst (by assumption) ?_
    | split

theorem execPlAbort_lasts {q0 : State} (s : State) (hq : q0.lasts s) :
    q0.lastsOut (execPlAbort s) := by
  unfold execPlAbort
  try dsimp only
  repeat' first
    | with_reducible first | assumption | apply State.lastsOut_next | apply State.plAbort_lasts

theorem State.libFail_lasts {q0 : State} (s : State) (code : Nat) (hq : q0.lasts s) :
    q0.lasts (State.libFail s code) := by
  unfold State.libFail
  try dsimp only
  repeat' first
    | with_reducible first
      | assumption | apply State.libEnd_lasts | apply State.proofErr_lasts | apply State.verifyShow_lasts | apply State.raiseF_lasts

theorem State.libHeader_lasts {q0 : State} (s : State) (l : LibRun) (img : List Byte) (hq : q0.lasts s) :
    q0.lasts (State.libHeader s l img) := by
  unfold State.libHeader
  try dsimp only
  repeat' first
    | with_reducible first
      | assumption | apply State.setRf_lasts | apply State.libEnd_lasts | apply State.libFail_lasts | apply State.verifyShow_lasts
      | refine State.lasts_fst (by assumption) ?_
    | split | with_reducible refine State.lasts_mk ?_ rfl

theorem State.libSend_lasts {q0 : State} (s : State) (l : LibRun) (off : Nat) (bytes : List Byte) (hq : q0.lasts s) :
    q0.lasts (State.libSend s l off bytes) := by
  unfold State.libSend
  try dsimp only
  repeat' first
    | with_reducible first | assumption | apply State.lcImgFrames_lasts
    | split

theorem State.libGo_lasts {q0 : State} (s : State) (v : Word) (hq : q0.lasts s) :
    q0.lasts (State.libGo s v) := by
  unfold State.libGo
  try dsimp only
  repeat' first
    | with_reducible first
      | assumption | apply State.setRg_lasts | apply State.setRb_lasts | apply State.srcRead_lasts | apply State.libSend_lasts
      | apply State.libHeader_lasts | apply State.libFail_lasts | refine State.lasts_fst (by assumption) ?_
    | split | with_reducible refine State.lasts_mk ?_ rfl

theorem execLibGo_lasts {q0 : State} (v : Word) (s : State) (hq : q0.lasts s) :
    q0.lastsOut (execLibGo v s) := by
  unfold execLibGo
  try dsimp only
  repeat' first
    | with_reducible first | assumption | apply State.lastsOut_next | apply State.libGo_lasts

theorem State.libAbort_lasts {q0 : State} (s : State) (hq : q0.lasts s) :
    q0.lasts (State.libAbort s) := by
  unfold State.libAbort
  try dsimp only
  repeat' first
    | with_reducible first | assumption | apply State.verifyShow_lasts | apply State.libEnd_lasts
    | split

theorem execLibAbort_lasts {q0 : State} (s : State) (hq : q0.lasts s) :
    q0.lastsOut (execLibAbort s) := by
  unfold execLibAbort
  try dsimp only
  repeat' first
    | with_reducible first | assumption | apply State.lastsOut_next | apply State.libAbort_lasts

theorem State.libWrite_lasts {q0 : State} (s : State) (base off : Nat) (bytes : List Byte) (hq : q0.lasts s) :
    q0.lasts (State.libWrite s base off bytes) := by
  unfold State.libWrite
  try dsimp only
  repeat' first
    | with_reducible first
      | assumption | apply State.writeWords_lasts | refine State.each_lasts _ _ _ ?_ (fun i t ht => ?_)
    | split

theorem State.libRead_lasts {q0 : State} (n : Nat) (s : State) (l : LibRun) (h : q0.lasts s) : q0.lasts (State.libRead n s l).1 := by
  induction n generalizing s l with
  | zero => exact h
  | succ n ih =>
    unfold State.libRead
    try dsimp only
    repeat' first
      | with_reducible first
        | assumption | apply State.lastsOut_next | apply ih | apply State.libSend_lasts | apply State.libWrite_lasts | apply State.srcRead_lasts
        | refine State.each_lasts _ _ _ ?_ (fun i t ht => ?_) | apply State.after_lasts | refine State.lasts_foldl _ _ ?_ (fun t x ht => ?_)
        | refine State.lasts_foldlP _ _ ?_ (fun t x ht => ?_) | refine State.lasts_ite (fun _ => ?_) (fun _ => ?_)
        | refine State.lasts_iteP (fun _ => ?_) (fun _ => ?_) | refine State.lasts_fst (by assumption) ?_
      | intro _ | split | with_reducible refine State.lasts_mk ?_ rfl

theorem State.libSig_lasts {q0 : State} (s : State) (l0 : LibRun) (units : Nat) (hq : q0.lasts s) : q0.lasts (s.libSig l0 units) := by
  unfold State.libSig
  extract_lets s1
  have h1 : q0.lasts s1 := by
    unfold s1
    try dsimp only
    repeat' first
      | with_reducible first
        | assumption | apply State.lastsOut_next | apply State.libHeader_lasts | refine State.each_lasts _ _ _ ?_ (fun i t ht => ?_)
        | apply State.after_lasts | refine State.lasts_foldl _ _ ?_ (fun t x ht => ?_) | refine State.lasts_foldlP _ _ ?_ (fun t x ht => ?_)
        | refine State.lasts_ite (fun _ => ?_) (fun _ => ?_) | refine State.lasts_iteP (fun _ => ?_) (fun _ => ?_)
        | refine State.lasts_fst (by assumption) ?_
      | intro _ | split | with_reducible refine State.lasts_mk ?_ rfl
  clear_value s1
  split
  · next l _ =>
    split
    · exact h1
    · extract_lets n
      have h2 := State.libRead_lasts n s1 l h1
      generalize State.libRead n s1 l = r at h2 ⊢
      obtain ⟨s2, l2, ok⟩ := r
      dsimp only at h2 ⊢
      split
      · exact State.libFail_lasts _ _ h2
      · split
        · exact State.libFail_lasts _ _ h2
        · exact State.setRb_lasts _ _ _ _ (State.lasts_mk h2 rfl)
  · exact h1

theorem State.libDone_lasts {q0 : State} (s : State) (l : LibRun) (hq : q0.lasts s) : q0.lasts (s.libDone l) := by
  unfold State.libDone
  split
  · exact hq
  · have h1 := State.libRead_lasts (libUnitCount l.hdr - l.got.length / 512) s l hq
    generalize State.libRead (libUnitCount l.hdr - l.got.length / 512) s l = r at h1 ⊢
    obtain ⟨s1, l1, ok⟩ := r
    have h2 := State.srcRead_lasts s1 (if l.lace then .held s.lc.recv else l.src) (imgLen l.hdr - 4) 4 h1
    dsimp only
    generalize s1.srcRead (if l.lace then .held s.lc.recv else l.src) (imgLen l.hdr - 4) 4 = r at h2 ⊢
    obtain ⟨s2, crc, ok2⟩ := r
    dsimp only at h2 ⊢
    split
    · exact State.libFail_lasts _ _ h2
    · have h4 := State.libSend_lasts s2 l (imgLen l.hdr - 4) crc h2
      split
      · exact State.libFail_lasts _ _ h4
      · exact State.raiseF_lasts _ _ _ (State.lasts_mk (State.setRg_lasts _ _ _ (State.libEnd_lasts _ _ h4)) rfl)

theorem execSignatureVerifyDone_lasts {q0 : State} (who : Fin 3) (units : Nat) (s : State) (hq : q0.lasts s) :
    q0.lastsOut (execSignatureVerifyDone who units s) := by
  unfold execSignatureVerifyDone
  try dsimp only
  repeat' first
    | with_reducible first
      | assumption | apply State.lastsOut_next | apply State.bootSig_lasts | apply State.partSig_lasts | apply State.libSig_lasts
      | refine State.lasts_fst (by assumption) ?_
    | split

theorem execProofEnd_lasts {q0 : State} (who : Fin 3) (s : State) (hq : q0.lasts s) :
    q0.lastsOut (execProofEnd who s) := by
  unfold execProofEnd
  try dsimp only
  repeat' first
    | with_reducible first
      | assumption | apply State.lastsOut_next | apply State.bootEnd_lasts | apply State.partEnd_lasts | apply State.libDone_lasts
      | refine State.lasts_fst (by assumption) ?_
    | split

theorem execSourceTimeout_lasts {q0 : State} (s : State) (hq : q0.lasts s) :
    q0.lastsOut (execSourceTimeout s) := by
  unfold execSourceTimeout
  try dsimp only
  repeat' first
    | with_reducible first
      | assumption | apply State.lastsOut_next | apply State.bootFail_lasts | apply State.libFail_lasts
      | refine State.lasts_fst (by assumption) ?_
    | split

theorem State.essential_lasts {q0 : State} (s : State) (w : Nat) (c : EccClass) (hq : q0.lasts s) :
    q0.lasts (State.essential s w c).1 := by
  unfold State.essential
  try dsimp only
  repeat' first
    | with_reducible first | assumption | apply State.flRead_lasts | refine State.lasts_fst (by assumption) ?_
    | split

theorem State.scrubStep_lasts {q0 : State} (s : State) (hq : q0.lasts s) :
    q0.lasts (State.scrubStep s) := by
  unfold State.scrubStep
  try dsimp only
  repeat' first
    | with_reducible first | assumption | apply State.setRf_lasts | apply State.setRb_lasts
    | split | with_reducible refine State.lasts_mk ?_ rfl

theorem State.cfgRecord_lasts {q0 : State} (s : State) (hq : q0.lasts s) :
    q0.lasts (State.cfgRecord s) := by
  unfold State.cfgRecord
  try dsimp only
  repeat' first
    | with_reducible first | assumption | apply State.report_lasts

theorem State.upsetFix_lasts {q0 : State} (s : State) (r w : Nat) (c : EccClass) (hq : q0.lasts s) :
    q0.lasts (State.upsetFix s r w c) := by
  unfold State.upsetFix
  try dsimp only
  repeat' first
    | with_reducible first
      | assumption | apply State.reloadWord_lasts | apply State.storeWord_lasts | refine State.lasts_fst (by assumption) ?_
    | split

theorem State.upset_lasts {q0 : State} (s : State) (r w : Nat) (c : EccClass) (hq : q0.lasts s) :
    q0.lasts (State.upset s r w c) := by
  unfold State.upset
  try dsimp only
  repeat' first
    | with_reducible first
      | assumption | apply State.essential_lasts | apply State.bump_lasts | apply State.upsetFix_lasts | apply State.raiseF_lasts
      | apply State.cfgRecord_lasts | apply State.torn_lasts | apply State.sleeve_lasts | apply State.cgShow_lasts
      | refine State.lasts_fst (by assumption) ?_
    | split | with_reducible refine State.lasts_mk ?_ rfl

theorem State.scrubCfgWord_lasts {q0 : State} (s : State) (hq : q0.lasts s) :
    q0.lasts (State.scrubCfgWord s) := by
  unfold State.scrubCfgWord
  try dsimp only
  repeat' first
    | with_reducible first
      | assumption | apply State.setRb_lasts | apply State.scrubStep_lasts | apply State.logEcc_lasts | apply State.upset_lasts
      | refine State.lasts_fst (by assumption) ?_
    | split | with_reducible refine State.lasts_mk ?_ rfl

theorem State.scrubVote_lasts {q0 : State} (s : State) (vote badA badB : Bool) (hq : q0.lasts s) :
    q0.lasts (State.scrubVote s vote badA badB) := by
  unfold State.scrubVote
  try dsimp only
  repeat' first
    | with_reducible first
      | assumption | apply State.bump_lasts | apply State.resetRequest_lasts | apply State.raiseF_lasts
    | split

theorem execCfgScrubWord_lasts {q0 : State} (vote badA badB : Bool) (s : State) (hq : q0.lasts s) :
    q0.lastsOut (execCfgScrubWord vote badA badB s) := by
  unfold execCfgScrubWord
  try dsimp only
  repeat' first
    | with_reducible first
      | assumption | apply State.lastsOut_next | apply State.scrubCfgWord_lasts | apply State.scrubVote_lasts

theorem execRegionReloadDone_lasts {q0 : State} (s : State) (hq : q0.lasts s) :
    q0.lastsOut (execRegionReloadDone s) := by
  unfold execRegionReloadDone
  try dsimp only
  repeat' first
    | with_reducible first
      | assumption | apply State.lastsOut_next | apply State.reloadFrames_lasts | apply State.cgShow_lasts | apply State.regionRelease_lasts
      | refine State.lasts_fst (by assumption) ?_
    | split | with_reducible refine State.lasts_mk ?_ rfl

theorem execScrubWdtExpiry_lasts {q0 : State} (straps : BitVec 4) (s : State) (hq : q0.lasts s) :
    q0.lastsOut (execScrubWdtExpiry straps s) := by
  unfold execScrubWdtExpiry
  try dsimp only
  repeat' first
    | with_reducible first
      | assumption | apply State.lastsOut_next | apply State.raiseF_lasts | apply State.bump_lasts | apply State.cfgRecord_lasts
      | apply State.strapAt_lasts | apply State.resetRequest_lasts
    | split | with_reducible refine State.lasts_mk ?_ rfl

theorem execEbmCheck_lasts {q0 : State} (s : State) (hq : q0.lasts s) :
    q0.lastsOut (execEbmCheck s) := by
  unfold execEbmCheck
  try dsimp only
  repeat' first
    | with_reducible first
      | assumption | apply State.lastsOut_next | apply State.flRead_lasts | apply State.setRb_lasts | apply State.raiseF_lasts
      | refine State.lasts_fst (by assumption) ?_
    | split

theorem State.readback_lasts {q0 : State} (s : State) (hq : q0.lasts s) :
    q0.lasts (State.readback s) := by
  unfold State.readback
  try dsimp only
  repeat' first
    | with_reducible first
      | assumption | apply State.setRg_lasts | apply State.readWord_lasts | apply State.tick_lasts | refine State.lasts_fst (by assumption) ?_
    | split

theorem execReadback_lasts {q0 : State} (s : State) (hq : q0.lasts s) :
    q0.lastsOut (execReadback s) := by
  unfold execReadback
  try dsimp only
  repeat' first
    | with_reducible first | assumption | apply State.lastsOut_next | apply State.readback_lasts

end Sys2Proof.Machine
end

