-- ==== Sys2Proof/Laws/LastsCore.lean ====
section
/-! SUPPORT. What no command takes away (State.lasts), operation by operation: the Octey core, the starter and fault tolerance. -/

set_option linter.unusedVariables false
set_option linter.unusedSimpArgs false

namespace Sys2Proof.Machine

theorem State.coreRead_lasts {q0 : State} (s : State) (a : Nat) (hq : q0.lasts s) :
    q0.lasts (State.coreRead s a).1 := by
  unfold State.coreRead
  try dsimp only
  repeat' first
    | with_reducible first
      | assumption | apply State.readWord_lasts | apply State.raiseF_lasts | refine State.lasts_fst (by assumption) ?_
    | split

theorem State.coreWrite_lasts {q0 : State} (s : State) (a d en : Nat) (hq : q0.lasts s) :
    q0.lasts (State.coreWrite s a d en).1 := by
  unfold State.coreWrite
  try dsimp only
  repeat' first
    | with_reducible first
      | assumption | apply State.writeWords_lasts | apply State.raiseF_lasts | refine State.lasts_fst (by assumption) ?_
    | split

theorem State.octFetch_lasts {q0 : State} (s : State) (hq : q0.lasts s) :
    q0.lasts (State.octFetch s).1 := by
  unfold State.octFetch
  try dsimp only
  repeat' first
    | with_reducible first
      | assumption | apply State.octFault_lasts | apply State.coreRead_lasts | apply State.octBusErr_lasts
      | refine State.lasts_fst (by assumption) ?_
    | split

theorem State.octRun_lasts {q0 : State} (s : State) (f : State → State) (hq : q0.lasts s)
    (hf : ∀ t, q0.lasts t → q0.lasts (f t)) : q0.lasts (s.octRun f) := by
  unfold State.octRun
  try dsimp only
  repeat' first
    | with_reducible first
      | assumption | apply State.lastsOut_next | apply hf | apply State.octFetch_lasts | refine State.each_lasts _ _ _ ?_ (fun i t ht => ?_)
      | apply State.after_lasts | refine State.lasts_foldl _ _ ?_ (fun t x ht => ?_) | refine State.lasts_foldlP _ _ ?_ (fun t x ht => ?_)
      | refine State.lasts_ite (fun _ => ?_) (fun _ => ?_) | refine State.lasts_iteP (fun _ => ?_) (fun _ => ?_)
      | refine State.lasts_fst (by assumption) ?_
    | intro _ | split | with_reducible refine State.lasts_mk ?_ rfl

theorem State.octSend_lasts {q0 : State} (s : State) (b : CcBus) (p : Packet) (hq : q0.lasts s) :
    q0.lasts (State.octSend s b p) := by
  unfold State.octSend
  try dsimp only
  repeat' first
    | with_reducible first | assumption | apply State.request_lasts
    | with_reducible refine State.lasts_mk ?_ rfl

theorem State.octDev_lasts {q0 : State} (s : State) (b : CcBus) (off : Nat) (wr : Option Word) (hq : q0.lasts s) :
    q0.lasts (State.octDev s b off wr) := by
  unfold State.octDev
  try dsimp only
  repeat' first
    | with_reducible first
      | assumption | apply State.octBusErr_lasts | apply State.cmd_lasts | apply State.octSend_lasts | refine State.lasts_fst (by assumption) ?_
    | split | with_reducible refine State.lasts_mk ?_ rfl

theorem State.octSmb_lasts {q0 : State} (s : State) (b : CcBus) (off : Nat) (wr : Option Word) (hq : q0.lasts s) :
    q0.lasts (State.octSmb s b off wr) := by
  unfold State.octSmb
  try dsimp only
  repeat' first
    | with_reducible first | assumption | apply State.octSend_lasts | refine State.lasts_fst (by assumption) ?_
    | split | with_reducible refine State.lasts_mk ?_ rfl

theorem State.octLoad_lasts {q0 : State} (s : State) (size : Nat) (signed : Bool) (rd ra : Reg) (imm : BitVec 16) (hq : q0.lasts s) :
    q0.lasts (State.octLoad s size signed rd ra imm) := by
  unfold State.octLoad
  try dsimp only
  repeat' first
    | with_reducible first
      | assumption | apply State.octFault_lasts | apply State.coreRead_lasts | apply State.setOct_lasts | apply State.octNext_lasts
      | apply State.octBusErr_lasts | apply State.octDev_lasts | apply State.octSmb_lasts | refine State.lasts_fst (by assumption) ?_
    | split

theorem State.octStore_lasts {q0 : State} (s : State) (size : Nat) (rs ra : Reg) (imm : BitVec 16) (hq : q0.lasts s) :
    q0.lasts (State.octStore s size rs ra imm) := by
  unfold State.octStore
  try dsimp only
  repeat' first
    | with_reducible first
      | assumption | apply State.octFault_lasts | apply State.coreWrite_lasts | apply State.octNext_lasts | apply State.octBusErr_lasts
      | apply State.octDev_lasts | apply State.octSmb_lasts | refine State.lasts_fst (by assumption) ?_
    | split

theorem State.octOp3_lasts {q0 : State} (s : State) (rd ra rb : Reg) (f : Word → Word → Word) (hq : q0.lasts s) :
    q0.lastsOut (State.octOp3 s rd ra rb f) := by
  unfold State.octOp3
  try dsimp only
  repeat' first
    | with_reducible first
      | assumption | apply State.lastsOut_next | apply State.octRun_lasts | apply State.setOct_lasts | apply State.octNext_lasts
    | intro _

theorem State.octOpI_lasts {q0 : State} (s : State) (rd ra : Reg) (imm : Word) (f : Word → Word → Word) (hq : q0.lasts s) :
    q0.lastsOut (State.octOpI s rd ra imm f) := by
  unfold State.octOpI
  try dsimp only
  repeat' first
    | with_reducible first
      | assumption | apply State.lastsOut_next | apply State.octRun_lasts | apply State.setOct_lasts | apply State.octNext_lasts
    | intro _

theorem State.octShI_lasts {q0 : State} (s : State) (op : Nat) (rd ra : Reg) (imm : BitVec 16) (f : Word → Word → Word) (hq : q0.lasts s) :
    q0.lastsOut (State.octShI s op rd ra imm f) := by
  unfold State.octShI
  try dsimp only
  repeat' first
    | with_reducible first
      | assumption | apply State.lastsOut_next | apply State.octRun_lasts | apply State.octFault_lasts | apply State.setOct_lasts
      | apply State.octNext_lasts
    | intro _ | split

theorem execOctAdd_lasts {q0 : State} (rd ra rb : Reg) (s : State) (hq : q0.lasts s) :
    q0.lastsOut (execOctAdd rd ra rb s) := by
  unfold execOctAdd
  try dsimp only
  repeat' first
    | with_reducible first | assumption | apply State.lastsOut_next | apply State.octOp3_lasts

theorem execOctSub_lasts {q0 : State} (rd ra rb : Reg) (s : State) (hq : q0.lasts s) :
    q0.lastsOut (execOctSub rd ra rb s) := by
  unfold execOctSub
  try dsimp only
  repeat' first
    | with_reducible first | assumption | apply State.lastsOut_next | apply State.octOp3_lasts

theorem execOctAnd_lasts {q0 : State} (rd ra rb : Reg) (s : State) (hq : q0.lasts s) :
    q0.lastsOut (execOctAnd rd ra rb s) := by
  unfold execOctAnd
  try dsimp only
  repeat' first
    | with_reducible first | assumption | apply State.lastsOut_next | apply State.octOp3_lasts

theorem execOctOr_lasts {q0 : State} (rd ra rb : Reg) (s : State) (hq : q0.lasts s) :
    q0.lastsOut (execOctOr rd ra rb s) := by
  unfold execOctOr
  try dsimp only
  repeat' first
    | with_reducible first | assumption | apply State.lastsOut_next | apply State.octOp3_lasts

theorem execOctXor_lasts {q0 : State} (rd ra rb : Reg) (s : State) (hq : q0.lasts s) :
    q0.lastsOut (execOctXor rd ra rb s) := by
  unfold execOctXor
  try dsimp only
  repeat' first
    | with_reducible first | assumption | apply State.lastsOut_next | apply State.octOp3_lasts

theorem execOctAndn_lasts {q0 : State} (rd ra rb : Reg) (s : State) (hq : q0.lasts s) :
    q0.lastsOut (execOctAndn rd ra rb s) := by
  unfold execOctAndn
  try dsimp only
  repeat' first
    | with_reducible first | assumption | apply State.lastsOut_next | apply State.octOp3_lasts

theorem execOctShl_lasts {q0 : State} (rd ra rb : Reg) (s : State) (hq : q0.lasts s) :
    q0.lastsOut (execOctShl rd ra rb s) := by
  unfold execOctShl
  try dsimp only
  repeat' first
    | with_reducible first | assumption | apply State.lastsOut_next | apply State.octOp3_lasts

theorem execOctShr_lasts {q0 : State} (rd ra rb : Reg) (s : State) (hq : q0.lasts s) :
    q0.lastsOut (execOctShr rd ra rb s) := by
  unfold execOctShr
  try dsimp only
  repeat' first
    | with_reducible first | assumption | apply State.lastsOut_next | apply State.octOp3_lasts

theorem execOctSra_lasts {q0 : State} (rd ra rb : Reg) (s : State) (hq : q0.lasts s) :
    q0.lastsOut (execOctSra rd ra rb s) := by
  unfold execOctSra
  try dsimp only
  repeat' first
    | with_reducible first | assumption | apply State.lastsOut_next | apply State.octOp3_lasts

theorem execOctSlt_lasts {q0 : State} (rd ra rb : Reg) (s : State) (hq : q0.lasts s) :
    q0.lastsOut (execOctSlt rd ra rb s) := by
  unfold execOctSlt
  try dsimp only
  repeat' first
    | with_reducible first | assumption | apply State.lastsOut_next | apply State.octOp3_lasts

theorem execOctSltu_lasts {q0 : State} (rd ra rb : Reg) (s : State) (hq : q0.lasts s) :
    q0.lastsOut (execOctSltu rd ra rb s) := by
  unfold execOctSltu
  try dsimp only
  repeat' first
    | with_reducible first | assumption | apply State.lastsOut_next | apply State.octOp3_lasts

theorem execOctMin_lasts {q0 : State} (rd ra rb : Reg) (s : State) (hq : q0.lasts s) :
    q0.lastsOut (execOctMin rd ra rb s) := by
  unfold execOctMin
  try dsimp only
  repeat' first
    | with_reducible first | assumption | apply State.lastsOut_next | apply State.octOp3_lasts
    | split

theorem execOctMax_lasts {q0 : State} (rd ra rb : Reg) (s : State) (hq : q0.lasts s) :
    q0.lastsOut (execOctMax rd ra rb s) := by
  unfold execOctMax
  try dsimp only
  repeat' first
    | with_reducible first | assumption | apply State.lastsOut_next | apply State.octOp3_lasts
    | split

theorem execOctClz_lasts {q0 : State} (rd ra : Reg) (s : State) (hq : q0.lasts s) :
    q0.lastsOut (execOctClz rd ra s) := by
  unfold execOctClz
  try dsimp only
  repeat' first
    | with_reducible first | assumption | apply State.lastsOut_next | apply State.octOpI_lasts

theorem execOctPopc_lasts {q0 : State} (rd ra : Reg) (s : State) (hq : q0.lasts s) :
    q0.lastsOut (execOctPopc rd ra s) := by
  unfold execOctPopc
  try dsimp only
  repeat' first
    | with_reducible first | assumption | apply State.lastsOut_next | apply State.octOpI_lasts

theorem execOctMul_lasts {q0 : State} (rd ra rb : Reg) (s : State) (hq : q0.lasts s) :
    q0.lastsOut (execOctMul rd ra rb s) := by
  unfold execOctMul
  try dsimp only
  repeat' first
    | with_reducible first | assumption | apply State.lastsOut_next | apply State.octOp3_lasts

theorem execOctMulh_lasts {q0 : State} (rd ra rb : Reg) (s : State) (hq : q0.lasts s) :
    q0.lastsOut (execOctMulh rd ra rb s) := by
  unfold execOctMulh
  try dsimp only
  repeat' first
    | with_reducible first | assumption | apply State.lastsOut_next | apply State.octOp3_lasts

theorem execOctDiv_lasts {q0 : State} (rd ra rb : Reg) (s : State) (hq : q0.lasts s) :
    q0.lastsOut (execOctDiv rd ra rb s) := by
  unfold execOctDiv
  try dsimp only
  repeat' first
    | with_reducible first | assumption | apply State.lastsOut_next | apply State.octOp3_lasts

theorem execOctDivu_lasts {q0 : State} (rd ra rb : Reg) (s : State) (hq : q0.lasts s) :
    q0.lastsOut (execOctDivu rd ra rb s) := by
  unfold execOctDivu
  try dsimp only
  repeat' first
    | with_reducible first | assumption | apply State.lastsOut_next | apply State.octOp3_lasts

theorem execOctRem_lasts {q0 : State} (rd ra rb : Reg) (s : State) (hq : q0.lasts s) :
    q0.lastsOut (execOctRem rd ra rb s) := by
  unfold execOctRem
  try dsimp only
  repeat' first
    | with_reducible first | assumption | apply State.lastsOut_next | apply State.octOp3_lasts

theorem execOctAddi_lasts {q0 : State} (rd ra : Reg) (imm : BitVec 16) (s : State) (hq : q0.lasts s) :
    q0.lastsOut (execOctAddi rd ra imm s) := by
  unfold execOctAddi
  try dsimp only
  repeat' first
    | with_reducible first | assumption | apply State.lastsOut_next | apply State.octOpI_lasts

theorem execOctAndi_lasts {q0 : State} (rd ra : Reg) (imm : BitVec 16) (s : State) (hq : q0.lasts s) :
    q0.lastsOut (execOctAndi rd ra imm s) := by
  unfold execOctAndi
  try dsimp only
  repeat' first
    | with_reducible first | assumption | apply State.lastsOut_next | apply State.octOpI_lasts

theorem execOctOri_lasts {q0 : State} (rd ra : Reg) (imm : BitVec 16) (s : State) (hq : q0.lasts s) :
    q0.lastsOut (execOctOri rd ra imm s) := by
  unfold execOctOri
  try dsimp only
  repeat' first
    | with_reducible first | assumption | apply State.lastsOut_next | apply State.octOpI_lasts

theorem execOctXori_lasts {q0 : State} (rd ra : Reg) (imm : BitVec 16) (s : State) (hq : q0.lasts s) :
    q0.lastsOut (execOctXori rd ra imm s) := by
  unfold execOctXori
  try dsimp only
  repeat' first
    | with_reducible first | assumption | apply State.lastsOut_next | apply State.octOpI_lasts

theorem execOctShli_lasts {q0 : State} (rd ra : Reg) (imm : BitVec 16) (s : State) (hq : q0.lasts s) :
    q0.lastsOut (execOctShli rd ra imm s) := by
  unfold execOctShli
  try dsimp only
  repeat' first
    | with_reducible first | assumption | apply State.lastsOut_next | apply State.octShI_lasts

theorem execOctShri_lasts {q0 : State} (rd ra : Reg) (imm : BitVec 16) (s : State) (hq : q0.lasts s) :
    q0.lastsOut (execOctShri rd ra imm s) := by
  unfold execOctShri
  try dsimp only
  repeat' first
    | with_reducible first | assumption | apply State.lastsOut_next | apply State.octShI_lasts

theorem execOctSrai_lasts {q0 : State} (rd ra : Reg) (imm : BitVec 16) (s : State) (hq : q0.lasts s) :
    q0.lastsOut (execOctSrai rd ra imm s) := by
  unfold execOctSrai
  try dsimp only
  repeat' first
    | with_reducible first | assumption | apply State.lastsOut_next | apply State.octShI_lasts

theorem execOctLui_lasts {q0 : State} (rd : Reg) (imm : BitVec 16) (s : State) (hq : q0.lasts s) :
    q0.lastsOut (execOctLui rd imm s) := by
  unfold execOctLui
  try dsimp only
  repeat' first
    | with_reducible first
      | assumption | apply State.lastsOut_next | apply State.octRun_lasts | apply State.setOct_lasts | apply State.octNext_lasts
    | intro _

theorem execOctLdw_lasts {q0 : State} (rd ra : Reg) (imm : BitVec 16) (s : State) (hq : q0.lasts s) :
    q0.lastsOut (execOctLdw rd ra imm s) := by
  unfold execOctLdw
  try dsimp only
  repeat' first
    | with_reducible first
      | assumption | apply State.lastsOut_next | apply State.octRun_lasts | apply State.octLoad_lasts
    | intro _

theorem execOctLdh_lasts {q0 : State} (rd ra : Reg) (imm : BitVec 16) (s : State) (hq : q0.lasts s) :
    q0.lastsOut (execOctLdh rd ra imm s) := by
  unfold execOctLdh
  try dsimp only
  repeat' first
    | with_reducible first
      | assumption | apply State.lastsOut_next | apply State.octRun_lasts | apply State.octLoad_lasts
    | intro _

theorem execOctLdhu_lasts {q0 : State} (rd ra : Reg) (imm : BitVec 16) (s : State) (hq : q0.lasts s) :
    q0.lastsOut (execOctLdhu rd ra imm s) := by
  unfold execOctLdhu
  try dsimp only
  repeat' first
    | with_reducible first
      | assumption | apply State.lastsOut_next | apply State.octRun_lasts | apply State.octLoad_lasts
    | intro _

theorem execOctLdb_lasts {q0 : State} (rd ra : Reg) (imm : BitVec 16) (s : State) (hq : q0.lasts s) :
    q0.lastsOut (execOctLdb rd ra imm s) := by
  unfold execOctLdb
  try dsimp only
  repeat' first
    | with_reducible first
      | assumption | apply State.lastsOut_next | apply State.octRun_lasts | apply State.octLoad_lasts
    | intro _

theorem execOctLdbu_lasts {q0 : State} (rd ra : Reg) (imm : BitVec 16) (s : State) (hq : q0.lasts s) :
    q0.lastsOut (execOctLdbu rd ra imm s) := by
  unfold execOctLdbu
  try dsimp only
  repeat' first
    | with_reducible first
      | assumption | apply State.lastsOut_next | apply State.octRun_lasts | apply State.octLoad_lasts
    | intro _

theorem execOctSwapw_lasts {q0 : State} (rd ra : Reg) (imm : BitVec 16) (s : State) (hq : q0.lasts s) :
    q0.lastsOut (execOctSwapw rd ra imm s) := by
  unfold execOctSwapw
  try dsimp only
  repeat' first
    | with_reducible first
      | assumption | apply State.lastsOut_next | apply State.octRun_lasts | apply State.octFault_lasts | apply State.coreRead_lasts
      | apply State.octBusErr_lasts | apply State.coreWrite_lasts | apply State.setOct_lasts | apply State.octNext_lasts
      | refine State.lasts_fst (by assumption) ?_
    | intro _ | split

theorem execOctStw_lasts {q0 : State} (rb ra : Reg) (imm : BitVec 16) (s : State) (hq : q0.lasts s) :
    q0.lastsOut (execOctStw rb ra imm s) := by
  unfold execOctStw
  try dsimp only
  repeat' first
    | with_reducible first
      | assumption | apply State.lastsOut_next | apply State.octRun_lasts | apply State.octStore_lasts
    | intro _

theorem execOctSth_lasts {q0 : State} (rb ra : Reg) (imm : BitVec 16) (s : State) (hq : q0.lasts s) :
    q0.lastsOut (execOctSth rb ra imm s) := by
  unfold execOctSth
  try dsimp only
  repeat' first
    | with_reducible first
      | assumption | apply State.lastsOut_next | apply State.octRun_lasts | apply State.octStore_lasts
    | intro _

theorem execOctStb_lasts {q0 : State} (rb ra : Reg) (imm : BitVec 16) (s : State) (hq : q0.lasts s) :
    q0.lastsOut (execOctStb rb ra imm s) := by
  unfold execOctStb
  try dsimp only
  repeat' first
    | with_reducible first
      | assumption | apply State.lastsOut_next | apply State.octRun_lasts | apply State.octStore_lasts
    | intro _

theorem State.octBranch_lasts {q0 : State} (s : State) (ra rb : Reg) (off : BitVec 16) (c : Word → Word → Bool) (hq : q0.lasts s) :
    q0.lastsOut (State.octBranch s ra rb off c) := by
  unfold State.octBranch
  try dsimp only
  repeat' first
    | with_reducible first
      | assumption | apply State.lastsOut_next | apply State.octRun_lasts | apply State.setPc_lasts | apply State.octNext_lasts
    | intro _ | split

theorem execOctBeq_lasts {q0 : State} (ra rb : Reg) (off : BitVec 16) (s : State) (hq : q0.lasts s) :
    q0.lastsOut (execOctBeq ra rb off s) := by
  unfold execOctBeq
  try dsimp only
  repeat' first
    | with_reducible first | assumption | apply State.lastsOut_next | apply State.octBranch_lasts

theorem execOctBne_lasts {q0 : State} (ra rb : Reg) (off : BitVec 16) (s : State) (hq : q0.lasts s) :
    q0.lastsOut (execOctBne ra rb off s) := by
  unfold execOctBne
  try dsimp only
  repeat' first
    | with_reducible first | assumption | apply State.lastsOut_next | apply State.octBranch_lasts

theorem execOctBlt_lasts {q0 : State} (ra rb : Reg) (off : BitVec 16) (s : State) (hq : q0.lasts s) :
    q0.lastsOut (execOctBlt ra rb off s) := by
  unfold execOctBlt
  try dsimp only
  repeat' first
    | with_reducible first | assumption | apply State.lastsOut_next | apply State.octBranch_lasts

theorem execOctBge_lasts {q0 : State} (ra rb : Reg) (off : BitVec 16) (s : State) (hq : q0.lasts s) :
    q0.lastsOut (execOctBge ra rb off s) := by
  unfold execOctBge
  try dsimp only
  repeat' first
    | with_reducible first | assumption | apply State.lastsOut_next | apply State.octBranch_lasts

theorem execOctBltu_lasts {q0 : State} (ra rb : Reg) (off : BitVec 16) (s : State) (hq : q0.lasts s) :
    q0.lastsOut (execOctBltu ra rb off s) := by
  unfold execOctBltu
  try dsimp only
  repeat' first
    | with_reducible first | assumption | apply State.lastsOut_next | apply State.octBranch_lasts

theorem execOctBgeu_lasts {q0 : State} (ra rb : Reg) (off : BitVec 16) (s : State) (hq : q0.lasts s) :
    q0.lastsOut (execOctBgeu ra rb off s) := by
  unfold execOctBgeu
  try dsimp only
  repeat' first
    | with_reducible first | assumption | apply State.lastsOut_next | apply State.octBranch_lasts

theorem execOctJmp_lasts {q0 : State} (off : BitVec 26) (s : State) (hq : q0.lasts s) :
    q0.lastsOut (execOctJmp off s) := by
  unfold execOctJmp
  try dsimp only
  repeat' first
    | with_reducible first
      | assumption | apply State.lastsOut_next | apply State.octRun_lasts | apply State.setPc_lasts
    | intro _

theorem State.octCall_lasts {q0 : State} (s : State) (target : Word) (hq : q0.lasts s) :
    q0.lasts (State.octCall s target) := by
  unfold State.octCall
  try dsimp only
  repeat' first
    | with_reducible first
      | assumption | apply State.octFault_lasts | apply State.setCsr_lasts | apply State.setWinReg_lasts | apply State.setPc_lasts
    | split

theorem execOctCallw_lasts {q0 : State} (off : BitVec 26) (s : State) (hq : q0.lasts s) :
    q0.lastsOut (execOctCallw off s) := by
  unfold execOctCallw
  try dsimp only
  repeat' first
    | with_reducible first
      | assumption | apply State.lastsOut_next | apply State.octRun_lasts | apply State.octFault_lasts | apply State.octCall_lasts
    | intro _ | split

theorem execOctJr_lasts {q0 : State} (ra : Reg) (imm : BitVec 16) (s : State) (hq : q0.lasts s) :
    q0.lastsOut (execOctJr ra imm s) := by
  unfold execOctJr
  try dsimp only
  repeat' first
    | with_reducible first
      | assumption | apply State.lastsOut_next | apply State.octRun_lasts | apply State.octFault_lasts | apply State.setPc_lasts
    | intro _ | split

theorem execOctCallwr_lasts {q0 : State} (ra : Reg) (imm : BitVec 16) (s : State) (hq : q0.lasts s) :
    q0.lastsOut (execOctCallwr ra imm s) := by
  unfold execOctCallwr
  try dsimp only
  repeat' first
    | with_reducible first
      | assumption | apply State.lastsOut_next | apply State.octRun_lasts | apply State.octFault_lasts | apply State.octCall_lasts
    | intro _ | split

theorem execOctRetw_lasts {q0 : State} (s : State) (hq : q0.lasts s) :
    q0.lastsOut (execOctRetw s) := by
  unfold execOctRetw
  try dsimp only
  repeat' first
    | with_reducible first
      | assumption | apply State.lastsOut_next | apply State.octRun_lasts | apply State.octFault_lasts | apply State.setCsr_lasts
      | apply State.setPc_lasts
    | intro _ | split

theorem State.setMacc_lasts {q0 : State} (s : State) (k : Nat) (v : BitVec 72) (hq : q0.lasts s) :
    q0.lasts (State.setMacc s k v) :=
  State.lasts_mk hq rfl

theorem State.macSwitch_lasts {q0 : State} (s : State) (hq : q0.lasts s) : q0.lasts (s.macSwitch).1 := by
  suffices h : q0.lastsP s.macSwitch from h
  unfold State.macSwitch
  extract_lets area own bad words
  split
  · exact hq
  · split
    · exact hq
    · split
      next e =>
      have h1 := State.lasts_fst (s := q0) e (by
            try dsimp only
            repeat' first
              | with_reducible first
                | assumption | apply State.lastsOut_next | apply State.writeWords_lasts | refine State.each_lasts _ _ _ ?_ (fun i t ht => ?_)
                | apply State.after_lasts | refine State.lasts_foldl _ _ ?_ (fun t x ht => ?_)
                | refine State.lasts_foldlP _ _ ?_ (fun t x ht => ?_) | refine State.lasts_ite (fun _ => ?_) (fun _ => ?_)
                | refine State.lasts_iteP (fun _ => ?_) (fun _ => ?_) | refine State.lasts_fst (by assumption) ?_
              | intro _ | split | with_reducible refine State.lasts_mk ?_ rfl)
      clear e
      split
      · exact h1
      · split
        next e =>
        have h2 := State.lasts_fst (s := q0) e (by
              try dsimp only
              repeat' first
                | with_reducible first
                  | assumption | apply State.lastsOut_next | apply State.coreRead_lasts | refine State.each_lasts _ _ _ ?_ (fun i t ht => ?_)
                  | apply State.after_lasts | refine State.lasts_foldl _ _ ?_ (fun t x ht => ?_)
                  | refine State.lasts_foldlP _ _ ?_ (fun t x ht => ?_) | refine State.lasts_ite (fun _ => ?_) (fun _ => ?_)
                  | refine State.lasts_iteP (fun _ => ?_) (fun _ => ?_) | refine State.lasts_fst (by assumption) ?_
                | intro _ | split | with_reducible refine State.lasts_mk ?_ rfl)
        clear e
        split
        · exact h2
        · apply State.lastsP_of
          try dsimp only
          repeat' first
            | with_reducible first
              | assumption | apply State.lastsOut_next | apply State.setCsr_lasts | apply State.setMacc_lasts
              | refine State.each_lasts _ _ _ ?_ (fun i t ht => ?_) | apply State.after_lasts
              | refine State.lasts_foldl _ _ ?_ (fun t x ht => ?_) | refine State.lasts_foldlP _ _ ?_ (fun t x ht => ?_)
              | refine State.lasts_ite (fun _ => ?_) (fun _ => ?_) | refine State.lasts_iteP (fun _ => ?_) (fun _ => ?_)
              | refine State.lasts_fst (by assumption) ?_
            | intro _ | split | with_reducible refine State.lasts_mk ?_ rfl

theorem State.octMacRun_lasts {q0 : State} (s : State) (word : Word) (f : State → State) (hq : q0.lasts s)
    (hf : ∀ t, q0.lasts t → q0.lasts (f t)) : q0.lastsOut (State.octMacRun s word f) := by
  unfold State.octMacRun
  try dsimp only
  repeat' first
    | with_reducible first
      | assumption | apply State.lastsOut_next | apply hf | apply State.octRun_lasts | apply State.octFault_lasts | apply State.macSwitch_lasts
      | apply State.octNext_lasts | refine State.each_lasts _ _ _ ?_ (fun i t ht => ?_) | apply State.after_lasts
      | refine State.lasts_foldl _ _ ?_ (fun t x ht => ?_) | refine State.lasts_foldlP _ _ ?_ (fun t x ht => ?_)
      | refine State.lasts_ite (fun _ => ?_) (fun _ => ?_) | refine State.lasts_iteP (fun _ => ?_) (fun _ => ?_)
      | refine State.lasts_fst (by assumption) ?_
    | intro _ | split | with_reducible refine State.lasts_mk ?_ rfl

theorem execOctMac_lasts {q0 : State} (acc : Fin 4) (ra rb : Reg) (s : State) (hq : q0.lasts s) :
    q0.lastsOut (execOctMac acc ra rb s) := by
  unfold execOctMac
  try dsimp only
  repeat' first
    | with_reducible first
      | assumption | apply State.lastsOut_next | apply State.octMacRun_lasts | apply State.setMacc_lasts
    | intro _

theorem execOctMacu_lasts {q0 : State} (acc : Fin 4) (ra rb : Reg) (s : State) (hq : q0.lasts s) :
    q0.lastsOut (execOctMacu acc ra rb s) := by
  unfold execOctMacu
  try dsimp only
  repeat' first
    | with_reducible first
      | assumption | apply State.lastsOut_next | apply State.octMacRun_lasts | apply State.setMacc_lasts
    | intro _

theorem execOctMac2_lasts {q0 : State} (acc : Fin 4) (ra rb : Reg) (s : State) (hq : q0.lasts s) :
    q0.lastsOut (execOctMac2 acc ra rb s) := by
  unfold execOctMac2
  try dsimp only
  repeat' first
    | with_reducible first
      | assumption | apply State.lastsOut_next | apply State.octMacRun_lasts | apply State.setMacc_lasts
    | intro _

theorem execOctMacrd_lasts {q0 : State} (rd : Reg) (acc : Fin 4) (s : State) (hq : q0.lasts s) :
    q0.lastsOut (execOctMacrd rd acc s) := by
  unfold execOctMacrd
  try dsimp only
  repeat' first
    | with_reducible first
      | assumption | apply State.lastsOut_next | apply State.octMacRun_lasts | apply State.setOct_lasts
    | intro _ | split

theorem execOctMacld_lasts {q0 : State} (acc : Fin 4) (ra rb : Reg) (s : State) (hq : q0.lasts s) :
    q0.lastsOut (execOctMacld acc ra rb s) := by
  unfold execOctMacld
  try dsimp only
  repeat' first
    | with_reducible first
      | assumption | apply State.lastsOut_next | apply State.octMacRun_lasts | apply State.setMacc_lasts
    | intro _

theorem execOctMacclr_lasts {q0 : State} (acc : Fin 4) (s : State) (hq : q0.lasts s) :
    q0.lastsOut (execOctMacclr acc s) := by
  unfold execOctMacclr
  try dsimp only
  repeat' first
    | with_reducible first
      | assumption | apply State.lastsOut_next | apply State.octMacRun_lasts | apply State.setMacc_lasts
    | intro _

theorem execOctTexit_lasts {q0 : State} (s : State) (hq : q0.lasts s) :
    q0.lastsOut (execOctTexit s) := by
  unfold execOctTexit
  try dsimp only
  repeat' first
    | with_reducible first
      | assumption | apply State.lastsOut_next | apply State.octRun_lasts | apply State.octFault_lasts | apply State.setCsr_lasts
      | apply State.setPc_lasts
    | intro _ | split

theorem execOctTrap_lasts {q0 : State} (arg : BitVec 12) (s : State) (hq : q0.lasts s) :
    q0.lastsOut (execOctTrap arg s) := by
  unfold execOctTrap
  try dsimp only
  repeat' first
    | with_reducible first
      | assumption | apply State.lastsOut_next | apply State.octRun_lasts | apply State.octTrap_lasts
    | intro _

theorem execOctBrk_lasts {q0 : State} (s : State) (hq : q0.lasts s) :
    q0.lastsOut (execOctBrk s) := by
  unfold execOctBrk
  try dsimp only
  repeat' first
    | with_reducible first
      | assumption | apply State.lastsOut_next | apply State.octRun_lasts | apply State.octNext_lasts | apply State.octHalt_lasts
      | apply State.octTrap_lasts
    | intro _ | split

theorem execOctWait_lasts {q0 : State} (s : State) (hq : q0.lasts s) :
    q0.lastsOut (execOctWait s) := by
  unfold execOctWait
  try dsimp only
  repeat' first
    | with_reducible first
      | assumption | apply State.lastsOut_next | apply State.octRun_lasts | apply State.octFault_lasts | apply State.octNext_lasts
    | intro _ | split | with_reducible refine State.lasts_mk ?_ rfl

theorem State.csrRead_lasts {q0 : State} (s : State) (n : Nat) (hq : q0.lasts s) :
    q0.lasts (State.csrRead s n).1 := by
  unfold State.csrRead
  try dsimp only
  repeat' first
    | with_reducible first
      | assumption | apply State.setCsr_lasts | apply State.tick_lasts | refine State.lasts_foldl _ _ ?_ (fun t x ht => ?_)
      | refine State.lasts_foldlP _ _ ?_ (fun t x ht => ?_)
    | split

theorem execOctRdcr_lasts {q0 : State} (rd : Reg) (arg : BitVec 12) (s : State) (hq : q0.lasts s) :
    q0.lastsOut (execOctRdcr rd arg s) := by
  unfold execOctRdcr
  try dsimp only
  repeat' first
    | with_reducible first
      | assumption | apply State.lastsOut_next | apply State.octRun_lasts | apply State.octFault_lasts | apply State.csrRead_lasts
      | apply State.setOct_lasts | apply State.octNext_lasts | refine State.lasts_fst (by assumption) ?_
    | intro _ | split

theorem execOctWrcr_lasts {q0 : State} (arg : BitVec 12) (ra : Reg) (s : State) (hq : q0.lasts s) :
    q0.lastsOut (execOctWrcr arg ra s) := by
  unfold execOctWrcr
  try dsimp only
  repeat' first
    | with_reducible first
      | assumption | apply State.lastsOut_next | apply State.octRun_lasts | apply State.octFault_lasts | apply State.setCsr_lasts
      | apply State.octNext_lasts
    | intro _ | split

theorem execOctXrd_lasts {q0 : State} (rd : Reg) (n : Fin 16) (s : State) (hq : q0.lasts s) :
    q0.lastsOut (execOctXrd rd n s) := by
  unfold execOctXrd
  try dsimp only
  repeat' first
    | with_reducible first
      | assumption | apply State.lastsOut_next | apply State.octRun_lasts | apply State.octFault_lasts | apply State.setOct_lasts
      | apply State.octNext_lasts
    | intro _ | split

theorem execOctXwr_lasts {q0 : State} (n : Fin 16) (ra : Reg) (s : State) (hq : q0.lasts s) :
    q0.lastsOut (execOctXwr n ra s) := by
  unfold execOctXwr
  try dsimp only
  repeat' first
    | with_reducible first
      | assumption | apply State.lastsOut_next | apply State.octRun_lasts | apply State.octFault_lasts | apply State.setWinReg_lasts
      | apply State.octNext_lasts
    | intro _ | split

theorem execInterruptTake_lasts {q0 : State} (s : State) (hq : q0.lasts s) :
    q0.lastsOut (execInterruptTake s) := by
  unfold execInterruptTake
  try dsimp only
  repeat' first
    | with_reducible first
      | assumption | apply State.lastsOut_next | apply State.octTrap_lasts | refine State.lasts_fst (by assumption) ?_
    | split | with_reducible refine State.lasts_mk ?_ rfl

theorem execCycleReachesTmrcmp_lasts {q0 : State} (s : State) (hq : q0.lasts s) :
    q0.lastsOut (execCycleReachesTmrcmp s) := by
  unfold execCycleReachesTmrcmp
  try dsimp only
  repeat' first
    | with_reducible first | assumption | apply State.lastsOut_next
    | split | with_reducible refine State.lasts_mk ?_ rfl

theorem execCcHalt_lasts {q0 : State} (s : State) (hq : q0.lasts s) :
    q0.lastsOut (execCcHalt s) := by
  unfold execCcHalt
  try dsimp only
  repeat' first
    | with_reducible first | assumption | apply State.lastsOut_next | apply State.octHalt_lasts
    | split

theorem execCcRun_lasts {q0 : State} (s : State) (hq : q0.lasts s) :
    q0.lastsOut (execCcRun s) := by
  unfold execCcRun
  try dsimp only
  repeat' first
    | with_reducible first | assumption | apply State.lastsOut_next
    | split | with_reducible refine State.lasts_mk ?_ rfl

theorem State.ccBlkRst_lasts {q0 : State} (s : State) (hq : q0.lasts s) :
    q0.lasts (State.ccBlkRst s) := by
  unfold State.ccBlkRst
  try dsimp only
  repeat' first
    | with_reducible first | assumption | apply State.clearRegs_lasts | apply State.startCore_lasts

theorem execCcBlkRst_lasts {q0 : State} (s : State) (hq : q0.lasts s) :
    q0.lastsOut (execCcBlkRst s) := by
  unfold execCcBlkRst
  try dsimp only
  repeat' first
    | with_reducible first
      | assumption | apply State.lastsOut_next | apply State.blkRst_lasts | apply State.ccBlkRst_lasts

theorem execDoubleTrapReset_lasts {q0 : State} (s : State) (hq : q0.lasts s) :
    q0.lastsOut (execDoubleTrapReset s) := by
  unfold execDoubleTrapReset
  try dsimp only
  repeat' first
    | with_reducible first | assumption | apply State.lastsOut_next | apply State.resetRequest_lasts
    | split

theorem State.ccWdtWrite_lasts {q0 : State} (s : State) (v : Word) (rom : Bool) (hq : q0.lasts s) :
    q0.lasts (State.ccWdtWrite s v rom) := by
  unfold State.ccWdtWrite
  try dsimp only
  repeat' first
    | with_reducible first | assumption | apply State.setRg_lasts
    | split | with_reducible refine State.lasts_mk ?_ rfl

theorem State.ccKick_lasts {q0 : State} (s : State) (v : Word) (hq : q0.lasts s) :
    q0.lasts (State.ccKick s v) := by
  unfold State.ccKick
  try dsimp only
  repeat' first
    | with_reducible first | assumption | apply State.kick_lasts
    | split | with_reducible refine State.lasts_mk ?_ rfl

theorem execCcWdtKick_lasts {q0 : State} (v : Word) (s : State) (hq : q0.lasts s) :
    q0.lastsOut (execCcWdtKick v s) := by
  unfold execCcWdtKick
  try dsimp only
  repeat' first
    | with_reducible first | assumption | apply State.lastsOut_next | apply State.ccKick_lasts

theorem execCcWdtWarn_lasts {q0 : State} (s : State) (hq : q0.lasts s) :
    q0.lastsOut (execCcWdtWarn s) := by
  unfold execCcWdtWarn
  try dsimp only
  repeat' first
    | with_reducible first | assumption | apply State.lastsOut_next | apply State.raiseF_lasts
    | split

theorem execCcWdtExpiry_lasts {q0 : State} (s : State) (hq : q0.lasts s) :
    q0.lastsOut (execCcWdtExpiry s) := by
  unfold execCcWdtExpiry
  try dsimp only
  repeat' first
    | with_reducible first | assumption | apply State.lastsOut_next | apply State.resetRequest_lasts
    | split

theorem State.mboxWrite_lasts {q0 : State} (s : State) (a : Nat) (full : Fld) (v : Word) (hq : q0.lasts s) :
    q0.lasts (State.mboxWrite s a full v) := by
  unfold State.mboxWrite
  try dsimp only
  repeat' first
    | with_reducible first | assumption | apply State.setRb_lasts | apply State.setRg_lasts
    | split

theorem State.c2hWrite_lasts {q0 : State} (s : State) (v : Word) (hq : q0.lasts s) :
    q0.lasts (State.c2hWrite s v) := by
  unfold State.c2hWrite
  try dsimp only
  repeat' first
    | with_reducible first | assumption | apply State.mboxWrite_lasts | apply State.raiseF_lasts
    | split

theorem State.mboxRead_lasts {q0 : State} (s : State) (a : Nat) (full : Fld) (hq : q0.lasts s) :
    q0.lasts (State.mboxRead s a full).1 := by
  unfold State.mboxRead
  try dsimp only
  repeat' first
    | with_reducible first | assumption | apply State.setRb_lasts

theorem execMboxH2cWrite_lasts {q0 : State} (v : Word) (s : State) (hq : q0.lasts s) :
    q0.lastsOut (execMboxH2cWrite v s) := by
  unfold execMboxH2cWrite
  try dsimp only
  repeat' first
    | with_reducible first | assumption | apply State.lastsOut_next | apply State.mboxWrite_lasts

theorem execMboxH2cRead_lasts {q0 : State} (s : State) (hq : q0.lasts s) :
    q0.lastsOut (execMboxH2cRead s) := by
  unfold execMboxH2cRead
  try dsimp only
  repeat' first
    | with_reducible first
      | assumption | apply State.lastsOut_next | apply State.mboxRead_lasts | apply State.emit_lasts | refine State.lasts_fst (by assumption) ?_
    | split

theorem execMboxC2hWrite_lasts {q0 : State} (v : Word) (s : State) (hq : q0.lasts s) :
    q0.lastsOut (execMboxC2hWrite v s) := by
  unfold execMboxC2hWrite
  try dsimp only
  repeat' first
    | with_reducible first | assumption | apply State.lastsOut_next | apply State.c2hWrite_lasts

theorem execMboxC2hRead_lasts {q0 : State} (s : State) (hq : q0.lasts s) :
    q0.lastsOut (execMboxC2hRead s) := by
  unfold execMboxC2hRead
  try dsimp only
  repeat' first
    | with_reducible first
      | assumption | apply State.lastsOut_next | apply State.mboxRead_lasts | apply State.emit_lasts | refine State.lasts_fst (by assumption) ?_
    | split

theorem State.lowerStart_lasts {q0 : State} (s : State) (hq : q0.lasts s) :
    q0.lasts (State.lowerStart s) := by
  unfold State.lowerStart
  try dsimp only
  repeat' first
    | with_reducible first
      | assumption | apply State.ccWdtWrite_lasts | apply State.rsWdtWrite_lasts | apply State.lowerNext_lasts
    | split

theorem State.trimPut_lasts {q0 : State} (s : State) (l : List Byte) (hq : q0.lasts s) :
    q0.lasts (State.trimPut s l) := by
  unfold State.trimPut
  try dsimp only
  repeat' first
    | with_reducible first
      | assumption | apply State.store_lasts | refine State.each_lasts _ _ _ ?_ (fun i t ht => ?_)
      | refine State.lasts_foldl _ _ ?_ (fun t x ht => ?_) | refine State.lasts_foldlP _ _ ?_ (fun t x ht => ?_)
      | refine State.lasts_fst (by assumption) ?_

theorem State.trimCopy_lasts {q0 : State} (s : State) (hq : q0.lasts s) :
    q0.lasts (State.trimCopy s) := by
  unfold State.trimCopy
  try dsimp only
  repeat' first
    | with_reducible first
      | assumption | apply State.setRb_lasts | apply State.flRead_lasts | apply State.trimPut_lasts | apply State.setRf_lasts
      | refine State.lasts_fst (by assumption) ?_
    | split

theorem State.mapLive_lasts {q0 : State} (s : State) (hq : q0.lasts s) :
    q0.lasts (State.mapLive s) := by
  unfold State.mapLive
  try dsimp only
  repeat' first
    | with_reducible first
      | assumption | apply State.setRg_lasts | refine State.each_lasts _ _ _ ?_ (fun i t ht => ?_)
      | refine State.lasts_foldl _ _ ?_ (fun t x ht => ?_) | refine State.lasts_foldlP _ _ ?_ (fun t x ht => ?_)
    | with_reducible refine State.lasts_mk ?_ rfl

theorem State.policyRead_lasts {q0 : State} (s : State) (hq : q0.lasts s) :
    q0.lasts (State.policyRead s).1 := by
  unfold State.policyRead
  try dsimp only
  repeat' first
    | with_reducible first
      | assumption | apply State.flRead_lasts | refine State.lasts_foldl _ _ ?_ (fun t x ht => ?_)
      | refine State.lasts_foldlP _ _ ?_ (fun t x ht => ?_) | refine State.lasts_fst (by assumption) ?_
    | split

theorem State.policyLoad_lasts {q0 : State} (s : State) (hq : q0.lasts s) :
    q0.lasts (State.policyLoad s) := by
  unfold State.policyLoad
  try dsimp only
  repeat' first
    | with_reducible first
      | assumption | apply State.policyRead_lasts | apply State.store_lasts | apply State.mapLive_lasts | apply State.setRb_lasts
      | refine State.each_lasts _ _ _ ?_ (fun i t ht => ?_) | refine State.lasts_fst (by assumption) ?_
    | split

theorem State.logApply_lasts {q0 : State} (s : State) (l : List Byte) (hq : q0.lasts s) :
    q0.lasts (State.logApply s l).1 := by
  unfold State.logApply
  try dsimp only
  repeat' first
    | with_reducible first
      | assumption | apply State.repairStart_lasts | apply State.repairDone_lasts | apply State.store_lasts | apply State.setRf_lasts
      | refine State.lasts_fst (by assumption) ?_
    | split

theorem State.logRun_lasts {q0 : State} (s : State) (hq : q0.lasts s) : q0.lasts (s.logRun) := by
  rw [State.logRun]
  split
  next e =>
  have h1 := State.lasts_fst (s := q0) e (State.flRecords_lasts s _ _ hq)
  clear e
  extract_lets good
  split
  next e =>
  have h2 := State.lasts_fst (s := q0) e (State.lasts_foldlP _ _ h1 (fun t x ht => by
        try dsimp only
        repeat' first
          | with_reducible first
            | assumption | apply State.lastsOut_next | apply State.logApply_lasts | refine State.each_lasts _ _ _ ?_ (fun i t ht => ?_)
            | apply State.after_lasts | refine State.lasts_foldl _ _ ?_ (fun t x ht => ?_) | refine State.lasts_foldlP _ _ ?_ (fun t x ht => ?_)
            | refine State.lasts_ite (fun _ => ?_) (fun _ => ?_) | refine State.lasts_iteP (fun _ => ?_) (fun _ => ?_)
            | refine State.lasts_fst (by assumption) ?_
          | intro _ | split | with_reducible refine State.lasts_mk ?_ rfl))
  clear e
  try dsimp only
  repeat' first
    | with_reducible first
      | assumption | apply State.lastsOut_next | apply State.setRf_lasts | refine State.each_lasts _ _ _ ?_ (fun i t ht => ?_)
      | apply State.after_lasts | refine State.lasts_foldl _ _ ?_ (fun t x ht => ?_) | refine State.lasts_foldlP _ _ ?_ (fun t x ht => ?_)
      | refine State.lasts_ite (fun _ => ?_) (fun _ => ?_) | refine State.lasts_iteP (fun _ => ?_) (fun _ => ?_)
      | refine State.lasts_fst (by assumption) ?_
    | intro _ | split | with_reducible refine State.lasts_mk ?_ rfl

theorem State.ccIdle_lasts {q0 : State} (s : State) (hq : q0.lasts s) :
    q0.lasts (State.ccIdle s) :=
  State.lasts_mk hq rfl

theorem State.ccGo_lasts {q0 : State} (s : State) (a : Nat) (hq : q0.lasts s) :
    q0.lasts (State.ccGo s a) :=
  State.lasts_mk hq rfl

theorem State.rtFail_lasts {q0 : State} (s : State) (code : Nat) (hq : q0.lasts s) :
    q0.lasts (State.rtFail s code) := by
  unfold State.rtFail
  try dsimp only
  repeat' first
    | with_reducible first
      | assumption | apply State.setRf_lasts | apply State.raiseF_lasts | apply State.ccIdle_lasts

theorem State.rtLoad_lasts {q0 : State} (s : State) (hq : q0.lasts s) : q0.lasts (s.rtLoad) := by
  rw [State.rtLoad]
  split
  next e =>
  have h1 := State.lasts_fst (s := q0) e (State.flRead_lasts s 0x3200000 0x6000 hq)
  clear e
  extract_lets len ld en
  split
  · exact State.rtFail_lasts _ _ h1
  · split
    · exact State.rtFail_lasts _ _ h1
    · split
      · exact State.rtFail_lasts _ _ h1
      · generalize State.rtSig _ _ = o
        cases o with
        | some c => exact State.rtFail_lasts _ _ h1
        | none =>
          revert h1
          generalize e : State.flRead _ _ _ = r
          intro h1
          have h2 : q0.lasts r.1 := e ▸ State.flRead_lasts _ _ _ h1
          clear e
          obtain ⟨s2, code, ok2⟩ := r
          dsimp only
          split
          · exact State.rtFail_lasts _ _ h2
          · have h3 : ∀ (l : List Nat) (f : Nat → Nat), q0.lasts (s2.each l (fun i t => t.storeWord (memCore + ld + 8 * i) (f i))) := fun _ _ =>
              State.each_lasts _ _ _ h2 (fun i t ht => State.storeWord_lasts _ _ _ ht)
            split
            · exact State.rtFail_lasts _ _ (h3 _ _)
            · exact State.ccGo_lasts _ _ (State.setRf_lasts _ _ _ _ (h3 _ _))

theorem State.rtStart_lasts {q0 : State} (s : State) (kind : Nat) (hq : q0.lasts s) :
    q0.lasts (State.rtStart s kind) := by
  unfold State.rtStart
  try dsimp only
  repeat' first
    | with_reducible first
      | assumption | apply State.ccIdle_lasts | apply State.ccGo_lasts | apply State.rtLoad_lasts
    | split

theorem execStarterStart_lasts {q0 : State} (s : State) (hq : q0.lasts s) : q0.lastsOut (execStarterStart s) := by
  generalize hy : execStarterStart s = y
  unfold execStarterStart at hy
  have h1 := State.lowerOpen_lasts s hq
  generalize s.lowerOpen = p at h1 hy
  obtain ⟨s1, o⟩ := p
  subst hy
  try dsimp only
  repeat' first
    | with_reducible first
      | assumption | apply State.lastsOut_next | apply State.lowerStart_lasts | apply State.setRb_lasts | apply State.policyLoad_lasts
      | apply State.trimCopy_lasts | apply State.logRun_lasts | apply State.rtStart_lasts | refine State.each_lasts _ _ _ ?_ (fun i t ht => ?_)
      | apply State.after_lasts | refine State.lasts_foldl _ _ ?_ (fun t x ht => ?_) | refine State.lasts_foldlP _ _ ?_ (fun t x ht => ?_)
      | refine State.lasts_ite (fun _ => ?_) (fun _ => ?_) | refine State.lasts_iteP (fun _ => ?_) (fun _ => ?_)
      | refine State.lasts_fst (by assumption) ?_
    | intro _ | split | with_reducible refine State.lasts_mk ?_ rfl

theorem State.ftShow_lasts {q0 : State} (s : State) (hq : q0.lasts s) :
    q0.lasts (State.ftShow s) := by
  unfold State.ftShow
  try dsimp only
  repeat' first
    | with_reducible first
      | assumption | apply State.setRf_lasts | apply State.setRb_lasts | apply step_lasts | refine State.lasts_fst (by assumption) ?_
    | split

theorem State.setRun_lasts {q0 : State} (s : State) (r : Option Recovery) (hq : q0.lasts s) :
    q0.lasts (State.setRun s r) := by
  unfold State.setRun
  try dsimp only
  repeat' first
    | with_reducible first | assumption | apply State.ftShow_lasts
    | with_reducible refine State.lasts_mk ?_ rfl

theorem State.ftLog_lasts {q0 : State} (s : State) (det : Nat) (code loc cls res : Nat) (g : Option Nat) (rep time : Nat) (hq : q0.lasts s) :
    q0.lasts (State.ftLog s det code loc cls res g rep time).1 := by
  unfold State.ftLog
  try dsimp only
  repeat' first
    | with_reducible first
      | assumption | apply State.raiseF_lasts | apply State.setRg_lasts | refine State.lasts_fst (by assumption) ?_
    | split

theorem State.ftOnlyLog_lasts {q0 : State} (s : State) (f : FaultRec) (res : Nat → Nat) (rep : Nat) (hq : q0.lasts s) :
    q0.lasts (State.ftOnlyLog s f res rep) := by
  unfold State.ftOnlyLog
  try dsimp only
  repeat' first
    | with_reducible first
      | assumption | apply State.ftLog_lasts | refine State.lasts_foldl _ _ ?_ (fun t x ht => ?_)
      | refine State.lasts_foldlP _ _ ?_ (fun t x ht => ?_)

theorem State.ckptDiscard_lasts {q0 : State} (s : State) (g : Nat) (hq : q0.lasts s) :
    q0.lasts (State.ckptDiscard s g) := by
  unfold State.ckptDiscard
  try dsimp only
  repeat' first
    | with_reducible first | assumption | apply State.setGrp_lasts | apply State.setRb_lasts
    | split | with_reducible refine State.lasts_mk ?_ rfl

theorem State.rowTemp_lasts {q0 : State} (s : State) (loc : Nat) (hq : q0.lasts s) :
    q0.lasts (State.rowTemp s loc) := by
  unfold State.rowTemp
  try dsimp only
  repeat' first
    | with_reducible first
      | assumption | apply State.repairDone_lasts | apply State.repairStart_lasts | refine State.lasts_fst (by assumption) ?_
    | split

theorem State.rowTemps_lasts {q0 : State} (s : State) (l : List FtElem) (hq : q0.lasts s) :
    q0.lasts (State.rowTemps s l) := by
  unfold State.rowTemps
  try dsimp only
  repeat' first
    | with_reducible first
      | assumption | apply State.rowTemp_lasts | refine State.lasts_foldl _ _ ?_ (fun t x ht => ?_)
      | refine State.lasts_foldlP _ _ ?_ (fun t x ht => ?_)

theorem State.ftStart_lasts {q0 : State} (s : State) (f : FaultRec) (rep : Nat) (hq : q0.lasts s) :
    q0.lasts (State.ftStart s f rep) := by
  unfold State.ftStart
  try dsimp only
  repeat' first
    | with_reducible first
      | assumption | apply step_lasts | apply State.freeze_lasts | apply State.setRun_lasts | apply State.ckptDiscard_lasts
      | apply State.frozenShow_lasts | apply State.rowTemps_lasts | refine State.each_lasts _ _ _ ?_ (fun i t ht => ?_)
    | split

theorem State.ftRepeat_lasts {q0 : State} (s : State) (r : Recovery) (f : FaultRec) (hq : q0.lasts s) :
    q0.lasts (State.ftRepeat s r f) := by
  unfold State.ftRepeat
  try dsimp only
  repeat' first
    | with_reducible first
      | assumption | apply State.bump_lasts | apply State.setRun_lasts | refine State.lasts_foldl _ _ ?_ (fun t x ht => ?_)
      | refine State.lasts_foldlP _ _ ?_ (fun t x ht => ?_) | refine State.lasts_fst (by assumption) ?_
    | split | with_reducible refine State.lasts_mk ?_ rfl

theorem execDetection_lasts {q0 : State} (s : State) (hq : q0.lasts s) :
    q0.lastsOut (execDetection s) := by
  unfold execDetection
  try dsimp only
  repeat' first
    | with_reducible first
      | assumption | apply State.lastsOut_next | apply State.raiseF_lasts | apply State.ftOnlyLog_lasts | apply State.ftStart_lasts
      | apply State.ftRepeat_lasts | apply State.freeze_lasts | apply step_lasts | apply State.setRun_lasts | apply State.ckptDiscard_lasts
      | apply State.frozenShow_lasts | apply State.rowTemps_lasts | apply State.ftShow_lasts
      | refine State.each_lasts _ _ _ ?_ (fun i t ht => ?_) | refine State.lasts_fst (by assumption) ?_
    | split | with_reducible refine State.lasts_mk ?_ rfl

theorem State.ftAppend_lasts {q0 : State} (s : State) (kind n row : Nat) (hq : q0.lasts s) : q0.lasts (s.ftAppend kind n row) := by
  unfold State.ftAppend
  have h1 := State.flRecords_lasts s logBase 2048 hq
  generalize s.flRecords logBase 2048 = p at h1 ⊢
  obtain ⟨s1, rs⟩ := p
  generalize s.firstErased logBase 2048 = e
  try dsimp only
  repeat' first
    | with_reducible first
      | assumption | apply State.lastsOut_next | apply State.flCounts_lasts | apply State.raiseF_lasts | apply State.flProgUnit_lasts
      | refine State.each_lasts _ _ _ ?_ (fun i t ht => ?_) | apply State.after_lasts | refine State.lasts_foldl _ _ ?_ (fun t x ht => ?_)
      | refine State.lasts_foldlP _ _ ?_ (fun t x ht => ?_) | refine State.lasts_ite (fun _ => ?_) (fun _ => ?_)
      | refine State.lasts_iteP (fun _ => ?_) (fun _ => ?_) | refine State.lasts_fst (by assumption) ?_
    | intro _ | split | with_reducible refine State.lasts_mk ?_ rfl

theorem State.memMove_lasts {q0 : State} (s : State) (src dst n : Nat) (hq : q0.lasts s) : q0.lasts (s.memMove src dst n) := by
  unfold State.memMove
  refine State.lasts_foldl _ _ ⟨hq.pend, hq.otp, fun hw => Tab.wf_moved memDefault _ _ _ _ (hq.mem hw)⟩ (fun t x ht => ?_)
  try dsimp only
  repeat' first
    | with_reducible first
      | assumption | apply State.lastsOut_next | apply State.storeWord_lasts | apply State.storePoison_lasts
      | refine State.each_lasts _ _ _ ?_ (fun i t ht => ?_) | apply State.after_lasts | refine State.lasts_foldl _ _ ?_ (fun t x ht => ?_)
      | refine State.lasts_foldlP _ _ ?_ (fun t x ht => ?_) | refine State.lasts_ite (fun _ => ?_) (fun _ => ?_)
      | refine State.lasts_iteP (fun _ => ?_) (fun _ => ?_) | refine State.lasts_fst (by assumption) ?_
    | intro _ | split | with_reducible refine State.lasts_mk ?_ rfl

theorem State.copyCol_lasts {q0 : State} (s : State) (src dst : Nat) (hq : q0.lasts s) :
    q0.lasts (State.copyCol s src dst) := by
  unfold State.copyCol
  try dsimp only
  repeat' first
    | with_reducible first | assumption | apply State.memMove_lasts
    | with_reducible refine State.lasts_mk ?_ rfl

theorem State.remap_lasts {q0 : State} (s : State) (p : Nat) (hq : q0.lasts s) :
    q0.lasts (State.remap s p).1 := by
  unfold State.remap
  try dsimp only
  repeat' first
    | with_reducible first
      | assumption | apply State.raiseF_lasts | apply State.store_lasts | apply State.setRf_lasts | apply State.copyCol_lasts
      | refine State.lasts_foldl _ _ ?_ (fun t x ht => ?_) | refine State.lasts_foldlP _ _ ?_ (fun t x ht => ?_)
    | split

theorem State.colClass_lasts {q0 : State} (s : State) (r : Recovery) (e : FtElem) (fail : Bool) (hq : q0.lasts s) :
    q0.lasts (State.colClass s r e fail).1 := by
  unfold State.colClass
  try dsimp only
  repeat' first
    | with_reducible first
      | assumption | apply State.remap_lasts | apply State.ftAppend_lasts | apply State.raiseF_lasts | apply State.ftLog_lasts
      | refine State.lasts_foldl _ _ ?_ (fun t x ht => ?_) | refine State.lasts_foldlP _ _ ?_ (fun t x ht => ?_)
      | refine State.lasts_fst (by assumption) ?_
    | split | with_reducible refine State.lasts_mk ?_ rfl

theorem State.rowClass_lasts {q0 : State} (s : State) (loc : Nat) (fail : Bool) (hq : q0.lasts s) :
    q0.lasts (State.rowClass s loc fail) := by
  unfold State.rowClass
  try dsimp only
  repeat' first
    | with_reducible first
      | assumption | apply State.repairDone_lasts | apply State.repairStart_lasts | apply State.tempSoft_lasts | apply State.ftAppend_lasts
      | refine State.lasts_fst (by assumption) ?_
    | split

theorem State.elemClass_lasts {q0 : State} (s : State) (r : Recovery) (e : FtElem) (fail : Bool) (hq : q0.lasts s) :
    q0.lasts (State.elemClass s r e fail).1 := by
  unfold State.elemClass
  try dsimp only
  repeat' first
    | with_reducible first
      | assumption | apply State.ftLog_lasts | apply State.raiseF_lasts | apply State.colClass_lasts | apply State.rowClass_lasts
      | apply State.loseNode_lasts | refine State.lasts_fst (by assumption) ?_
    | split | with_reducible refine State.lasts_mk ?_ rfl

theorem State.ftNext_lasts {q0 : State} (s : State) (hq : q0.lasts s) :
    q0.lasts (State.ftNext s) := by
  unfold State.ftNext
  try dsimp only
  repeat' first
    | with_reducible first
      | assumption | apply State.domResume_lasts | apply State.ftStart_lasts | refine State.lasts_fst (by assumption) ?_
    | split | with_reducible refine State.lasts_mk ?_ rfl

theorem execRecoveryTestDone_lasts {q0 : State} (fails : BitVec 64) (s : State) (hq : q0.lasts s) :
    q0.lastsOut (execRecoveryTestDone fails s) := by
  unfold execRecoveryTestDone
  try dsimp only
  repeat' first
    | with_reducible first
      | assumption | apply State.lastsOut_next | apply step_lasts | apply State.elemClass_lasts | apply State.freeze_lasts
      | apply State.setRun_lasts | apply State.ftNext_lasts | refine State.lasts_foldl _ _ ?_ (fun t x ht => ?_)
      | refine State.lasts_foldlP _ _ ?_ (fun t x ht => ?_) | refine State.lasts_fst (by assumption) ?_
    | split | with_reducible refine State.lasts_mk ?_ rfl

theorem State.putPe_lasts {q0 : State} (s : State) (i act : Nat) (l : List Byte) (hq : q0.lasts s) :
    q0.lasts (State.putPe s i act l) := by
  unfold State.putPe
  try dsimp only
  repeat' first
    | with_reducible first
      | assumption | apply State.act_lasts | apply State.setPe_lasts | apply State.setPriv_lasts
      | refine State.each_lasts _ _ _ ?_ (fun i t ht => ?_)
    | intro _ | with_reducible refine State.lasts_mk ?_ rfl

theorem State.readLining_lasts {q0 : State} (s : State) (g half : Nat) (bank : Nat → Nat) (pes : List Nat) (hq : q0.lasts s) :
    q0.lasts (State.readLining s g half bank pes).1 := by
  unfold State.readLining
  try dsimp only
  repeat' first
    | with_reducible first
      | assumption | apply State.readWords_lasts | refine State.lasts_foldl _ _ ?_ (fun t x ht => ?_)
      | refine State.lasts_foldlP _ _ ?_ (fun t x ht => ?_) | refine State.lasts_fst (by assumption) ?_
    | split

theorem State.rewind_lasts {q0 : State} (s : State) (q : Nat) (hq : q0.lasts s) :
    q0.lasts (State.rewind s q) := by
  unfold State.rewind
  try dsimp only
  repeat' first
    | with_reducible first
      | assumption | apply State.setQu_lasts | apply State.emit_lasts | apply State.setRf_lasts | refine State.lasts_fst (by assumption) ?_
    | split | with_reducible refine State.lasts_mk ?_ rfl

theorem State.rewaves_lasts {q0 : State} (s : State) (g : Nat) (hq : q0.lasts s) :
    q0.lasts (State.rewaves s g) := by
  unfold State.rewaves
  try dsimp only
  repeat' first
    | with_reducible first
      | assumption | apply State.putSlot_lasts | refine State.lasts_foldl _ _ ?_ (fun t x ht => ?_)
      | refine State.lasts_foldlP _ _ ?_ (fun t x ht => ?_) | refine State.lasts_fst (by assumption) ?_
    | split | with_reducible refine State.lasts_mk ?_ rfl

theorem State.dropCkpt_lasts {q0 : State} (s : State) (g : Nat) (hq : q0.lasts s) :
    q0.lasts (State.dropCkpt s g) := by
  unfold State.dropCkpt
  try dsimp only
  repeat' first
    | with_reducible first
      | assumption | apply State.freeSlot_lasts | refine State.lasts_foldl _ _ ?_ (fun t x ht => ?_)
      | refine State.lasts_foldlP _ _ ?_ (fun t x ht => ?_)
    | with_reducible refine State.lasts_mk ?_ rfl

theorem State.ftFail_lasts {q0 : State} (s : State) (g : Nat) (hq : q0.lasts s) :
    q0.lasts (State.ftFail s g) := by
  unfold State.ftFail
  try dsimp only
  repeat' first
    | with_reducible first
      | assumption | apply State.endStreams_lasts | apply State.setRb_lasts | apply State.raiseF_lasts
      | refine State.lasts_foldl _ _ ?_ (fun t x ht => ?_) | refine State.lasts_foldlP _ _ ?_ (fun t x ht => ?_)

theorem State.restore_lasts {q0 : State} (s : State) (g : Nat) (recs : List (Nat × List Byte)) (act : Option Nat) (hq : q0.lasts s) :
    q0.lasts (State.restore s g recs act) := by
  unfold State.restore
  try dsimp only
  repeat' first
    | with_reducible first
      | assumption | apply State.act_lasts | apply State.putPe_lasts | apply State.dropCkpt_lasts | apply State.rewaves_lasts
      | apply State.rewind_lasts | apply State.setExit_lasts | refine State.each_lasts _ _ _ ?_ (fun i t ht => ?_)
      | refine State.lasts_foldl _ _ ?_ (fun t x ht => ?_) | refine State.lasts_foldlP _ _ ?_ (fun t x ht => ?_)
      | refine State.lasts_fst (by assumption) ?_
    | intro _ | split | with_reducible refine State.lasts_mk ?_ rfl

theorem State.restoreGroup_lasts {q0 : State} (s : State) (g : Nat) (hq : q0.lasts s) :
    q0.lasts (State.restoreGroup s g).1 := by
  unfold State.restoreGroup
  try dsimp only
  repeat' first
    | with_reducible first
      | assumption | apply State.readLining_lasts | apply State.restore_lasts | refine State.lasts_fst (by assumption) ?_
    | split

theorem State.pairCopy_lasts {q0 : State} (s : State) (g src dst : Nat) (hq : q0.lasts s) :
    q0.lasts (State.pairCopy s g src dst) := by
  unfold State.pairCopy
  try dsimp only
  repeat' first
    | with_reducible first
      | assumption | apply State.setPe_lasts | apply State.setPriv_lasts | apply State.memMove_lasts
      | refine State.each_lasts _ _ _ ?_ (fun i t ht => ?_) | refine State.lasts_foldl _ _ ?_ (fun t x ht => ?_)
      | refine State.lasts_foldlP _ _ ?_ (fun t x ht => ?_)

theorem State.groupTransfer_lasts {q0 : State} (s : State) (r : Recovery) (g : Nat) (hq : q0.lasts s) :
    q0.lasts (State.groupTransfer s r g).1 := by
  unfold State.groupTransfer
  try dsimp only
  repeat' first
    | with_reducible first
      | assumption | apply State.pairCopy_lasts | apply State.restoreGroup_lasts | refine State.lasts_foldl _ _ ?_ (fun t x ht => ?_)
      | refine State.lasts_foldlP _ _ ?_ (fun t x ht => ?_)
    | split

theorem State.nodeMove_lasts {q0 : State} (s : State) (g node : Nat) (hq : q0.lasts s) :
    q0.lasts (State.nodeMove s g node).1 := by
  unfold State.nodeMove
  try dsimp only
  repeat' first
    | with_reducible first
      | assumption | apply State.readLining_lasts | apply State.restore_lasts | apply State.raiseF_lasts
      | refine State.lasts_fst (by assumption) ?_
    | split

theorem execTransferDone_lasts {q0 : State} (s : State) (hq : q0.lasts s) :
    q0.lastsOut (execTransferDone s) := by
  unfold execTransferDone
  try dsimp only
  repeat' first
    | with_reducible first
      | assumption | apply State.lastsOut_next | apply step_lasts | apply State.smbSettle_lasts | apply State.nodeMove_lasts
      | apply State.groupTransfer_lasts | apply State.ftFail_lasts | apply State.setRf_lasts | apply State.setRun_lasts
      | apply State.frozenShow_lasts | refine State.lasts_foldl _ _ ?_ (fun t x ht => ?_) | refine State.lasts_foldlP _ _ ?_ (fun t x ht => ?_)
      | refine State.lasts_fst (by assumption) ?_
    | split | with_reducible refine State.lasts_mk ?_ rfl

theorem execReplayDone_lasts {q0 : State} (s : State) (hq : q0.lasts s) :
    q0.lastsOut (execReplayDone s) := by
  unfold execReplayDone
  try dsimp only
  repeat' first
    | with_reducible first
      | assumption | apply State.lastsOut_next | apply step_lasts | apply State.setRg_lasts | apply State.raise_lasts | apply State.bump_lasts
      | apply State.raiseF_lasts | apply State.setRun_lasts | apply State.frozenShow_lasts | apply State.ftNext_lasts
      | refine State.each_lasts _ _ _ ?_ (fun i t ht => ?_) | refine State.lasts_foldl _ _ ?_ (fun t x ht => ?_)
      | refine State.lasts_foldlP _ _ ?_ (fun t x ht => ?_) | refine State.lasts_fst (by assumption) ?_
    | split

theorem execCheckpointInterval_lasts {q0 : State} (g : Fin 32) (s : State) (hq : q0.lasts s) :
    q0.lastsOut (execCheckpointInterval g s) := by
  unfold execCheckpointInterval
  try dsimp only
  repeat' first
    | with_reducible first | assumption | apply State.lastsOut_next | apply State.ckptIssue_lasts
    | split

theorem execFtCkpt_lasts {q0 : State} (g : Fin 32) (s : State) (hq : q0.lasts s) :
    q0.lastsOut (execFtCkpt g s) := by
  unfold execFtCkpt
  try dsimp only
  repeat' first
    | with_reducible first | assumption | apply State.lastsOut_next | apply State.ckptIssue_lasts
    | split

theorem State.ckptDone_lasts {q0 : State} (s : State) (g : Nat) (c : CkFlight) (hq : q0.lasts s) :
    q0.lasts (State.ckptDone s g c) := by
  unfold State.ckptDone
  try dsimp only
  repeat' first
    | with_reducible first
      | assumption | apply State.setGrp_lasts | apply State.act_lasts | apply State.setRf_lasts | apply State.setRb_lasts
      | apply State.setExit_lasts | apply State.setQu_lasts | apply State.emit_lasts | apply State.ckptOver_lasts
      | refine State.each_lasts _ _ _ ?_ (fun i t ht => ?_)
    | intro _ | split | with_reducible refine State.lasts_mk ?_ rfl

theorem execLiningRecordWritten_lasts {q0 : State} (g : Fin 32) (s : State) (hq : q0.lasts s) :
    q0.lastsOut (execLiningRecordWritten g s) := by
  unfold execLiningRecordWritten
  try dsimp only
  repeat' first
    | with_reducible first
      | assumption | apply State.lastsOut_next | apply State.writeWords_lasts | apply State.setGrp_lasts | apply State.act_lasts
      | apply State.ckptDone_lasts | refine State.lasts_fst (by assumption) ?_
    | intro _ | split | with_reducible refine State.lasts_mk ?_ rfl

theorem execGrpClear_lasts {q0 : State} (g : Fin 32) (s : State) (hq : q0.lasts s) :
    q0.lastsOut (execGrpClear g s) := by
  unfold execGrpClear
  try dsimp only
  repeat' first
    | with_reducible first
      | assumption | apply State.lastsOut_next | apply State.setPe_lasts | apply State.setQu_lasts | apply State.setRb_lasts
      | refine State.each_lasts _ _ _ ?_ (fun i t ht => ?_) | refine State.lasts_foldl _ _ ?_ (fun t x ht => ?_)
      | refine State.lasts_foldlP _ _ ?_ (fun t x ht => ?_)
    | split | with_reducible refine State.lasts_mk ?_ rfl

theorem State.ftCfgErr_lasts {q0 : State} (s : State) (hq : q0.lasts s) :
    q0.lasts (State.ftCfgErr s) := by
  unfold State.ftCfgErr
  try dsimp only
  repeat' first
    | with_reducible first | assumption | apply State.raiseF_lasts

theorem State.ftInject_lasts {q0 : State} (s : State) (v : Word) (hq : q0.lasts s) :
    q0.lasts (State.ftInject s v) := by
  unfold State.ftInject
  try dsimp only
  repeat' first
    | with_reducible first | assumption | apply State.ftCfgErr_lasts | apply State.report_lasts
    | split

theorem execFtInject_lasts {q0 : State} (v : Word) (s : State) (hq : q0.lasts s) :
    q0.lastsOut (execFtInject v s) := by
  unfold execFtInject
  try dsimp only
  repeat' first
    | with_reducible first | assumption | apply State.lastsOut_next | apply State.ftInject_lasts

theorem State.grpWrite_lasts {q0 : State} (s : State) (a : Nat) (v : Word) (hq : q0.lasts s) :
    q0.lasts (State.grpWrite s a v) := by
  unfold State.grpWrite
  try dsimp only
  repeat' first
    | with_reducible first
      | assumption | apply State.store_lasts | apply State.ftCfgErr_lasts | apply State.setGrp_lasts
    | split | with_reducible refine State.lasts_mk ?_ rfl

theorem execFtGrpCfgWrite_lasts {q0 : State} (off : BitVec 24) (v : Word) (s : State) (hq : q0.lasts s) :
    q0.lastsOut (execFtGrpCfgWrite off v s) := by
  unfold execFtGrpCfgWrite
  try dsimp only
  repeat' first
    | with_reducible first | assumption | apply State.lastsOut_next | apply State.grpWrite_lasts
    | split

theorem State.ftBlkRst_lasts {q0 : State} (s : State) (hq : q0.lasts s) :
    q0.lasts (State.ftBlkRst s) := by
  unfold State.ftBlkRst
  try dsimp only
  repeat' first
    | with_reducible first | assumption | apply State.clearRegs_lasts
    | split

theorem execFtBlkRst_lasts {q0 : State} (s : State) (hq : q0.lasts s) :
    q0.lastsOut (execFtBlkRst s) := by
  unfold execFtBlkRst
  try dsimp only
  repeat' first
    | with_reducible first
      | assumption | apply State.lastsOut_next | apply State.blkRst_lasts | apply State.ftBlkRst_lasts

end Sys2Proof.Machine
end

