-- ==== Sys2Proof/Laws/LastsRegs.lean ====
section
/-! SUPPORT. What no command takes away (State.lasts), operation by operation: the HX-1130 view, security, register accesses, served requests and the serial blocks. -/

set_option linter.unusedVariables false
set_option linter.unusedSimpArgs false

namespace Sys2Proof.Machine

theorem State.hxIrqEvent_lasts {q0 : State} (s : State) (hq : q0.lasts s) :
    q0.lasts (State.hxIrqEvent s) := by
  unfold State.hxIrqEvent
  try dsimp only
  repeat' first
    | with_reducible first | assumption | apply State.raiseF_lasts
    | split

theorem State.hxClearFlags_lasts {q0 : State} (s : State) (i : Nat) (hq : q0.lasts s) :
    q0.lasts (State.hxClearFlags s i) := by
  unfold State.hxClearFlags
  try dsimp only
  repeat' first
    | with_reducible first
      | assumption | apply State.setHv_lasts | apply State.setRg_lasts | refine State.each_lasts _ _ _ ?_ (fun i t ht => ?_)
      | refine State.lasts_fst (by assumption) ?_
    | split

theorem State.hxReportNext_lasts {q0 : State} (s : State) (hq : q0.lasts s) :
    q0.lasts (State.hxReportNext s).1 := by
  unfold State.hxReportNext
  try dsimp only
  repeat' first
    | with_reducible first
      | assumption | apply State.flRead_lasts | apply State.tick_lasts | refine State.lasts_fst (by assumption) ?_
    | split | with_reducible refine State.lasts_mk ?_ rfl

theorem State.hxRead_lasts {q0 : State} (s : State) (i : Nat) (hq : q0.lasts s) :
    q0.lasts (State.hxRead s i).1 := by
  unfold State.hxRead
  try dsimp only
  repeat' first
    | with_reducible first
      | assumption | apply State.hxReportNext_lasts | apply State.hxClearFlags_lasts | refine State.lasts_fst (by assumption) ?_
    | split | with_reducible refine State.lasts_mk ?_ rfl

theorem State.hxRefuse_lasts {q0 : State} (s : State) (hq : q0.lasts s) :
    q0.lasts (State.hxRefuse s) := by
  unfold State.hxRefuse
  try dsimp only
  repeat' first
    | with_reducible first | assumption | apply State.setHv_lasts | apply State.raiseF_lasts

theorem State.hxPair_lasts {q0 : State} (s : State) (i lo : Nat) (hq : q0.lasts s) :
    q0.lasts (State.hxPair s i lo).1 := by
  unfold State.hxPair
  try dsimp only
  repeat' first
    | with_reducible first | assumption | apply State.setHv_lasts
    | with_reducible refine State.lasts_mk ?_ rfl

theorem State.hxZval_lasts {q0 : State} (s : State) (hq : q0.lasts s) :
    q0.lasts (State.hxZval s) := by
  unfold State.hxZval
  try dsimp only
  repeat' first
    | with_reducible first | assumption | apply State.setRg64_lasts

theorem State.hxCtrl_lasts {q0 : State} (s : State) (v : Nat) (hq : q0.lasts s) :
    q0.lasts (State.hxCtrl s v).1 := by
  unfold State.hxCtrl
  try dsimp only
  repeat' first
    | with_reducible first
      | assumption | apply State.setHv_lasts | apply State.setRg_lasts | apply State.setRf_lasts | apply State.hxZval_lasts
      | apply State.hxRefuse_lasts | apply execAxCfgWrite_lasts | apply State.after_lasts
    | split | with_reducible refine State.lasts_mk ?_ rfl

theorem State.hxTmrCfg_lasts {q0 : State} (s : State) (v : Nat) (hq : q0.lasts s) :
    q0.lasts (State.hxTmrCfg s v).1 := by
  unfold State.hxTmrCfg
  try dsimp only
  repeat' first
    | with_reducible first | assumption | apply State.hxRefuse_lasts | apply State.setHv_lasts
    | split

theorem State.hxChannel_lasts {q0 : State} (s : State) (k : Nat) (hq : q0.lasts s) :
    q0.lasts (State.hxChannel s k).1 := by
  unfold State.hxChannel
  try dsimp only
  repeat' first
    | with_reducible first
      | assumption | apply State.act_lasts | apply execCfCfgWrite_lasts | apply State.setRg64_lasts | apply State.setRg_lasts
      | apply State.writeCtl_lasts | apply State.hxRefuse_lasts | apply State.after_lasts | refine State.lasts_fst (by assumption) ?_
    | intro _ | split

theorem State.hxAxMod_lasts {q0 : State} (s : State) (m : Nat) (hq : q0.lasts s) :
    q0.lasts (State.hxAxMod s m) := by
  unfold State.hxAxMod
  try dsimp only
  repeat' first
    | with_reducible first
      | assumption | apply execAxCfgWrite_lasts | apply execModLoWrite_lasts | apply execModHiWrite_lasts | apply State.after_lasts
      | refine State.lasts_fst (by assumption) ?_
    | split

theorem State.hxModWrite_lasts {q0 : State} (s : State) (lo : Nat) (hq : q0.lasts s) :
    q0.lasts (State.hxModWrite s lo).1 := by
  unfold State.hxModWrite
  try dsimp only
  repeat' first
    | with_reducible first
      | assumption | apply State.hxPair_lasts | apply State.hxRefuse_lasts | apply State.hxDisarm_lasts | apply State.hxAxMod_lasts
      | apply State.hxChannel_lasts | refine State.lasts_foldl _ _ ?_ (fun t x ht => ?_) | refine State.lasts_foldlP _ _ ?_ (fun t x ht => ?_)
      | refine State.lasts_fst (by assumption) ?_
    | split | with_reducible refine State.lasts_mk ?_ rfl

theorem State.hxCmd_lasts {q0 : State} (s : State) (v : Nat) (hq : q0.lasts s) :
    q0.lasts (State.hxCmd s v) := by
  unfold State.hxCmd
  try dsimp only
  repeat' first
    | with_reducible first
      | assumption | apply State.setRg64_lasts | apply execAxSet_lasts | apply execAxRst_lasts | apply State.after_lasts
    | split | with_reducible refine State.lasts_mk ?_ rfl

theorem State.hxCapCfg_lasts {q0 : State} (s : State) (k v : Nat) (hq : q0.lasts s) :
    q0.lasts (State.hxCapCfg s k v) := by
  unfold State.hxCapCfg
  try dsimp only
  repeat' first
    | with_reducible first
      | assumption | apply State.setHv_lasts | apply execCfCfgWrite_lasts | apply State.after_lasts

theorem State.hxMask_lasts {q0 : State} (s : State) (n width v : Nat) (hq : q0.lasts s) :
    q0.lasts (State.hxMask s n width v) := by
  unfold State.hxMask
  try dsimp only
  repeat' first
    | with_reducible first
      | assumption | apply execEvSrcCfgWrite_lasts | refine State.each_lasts _ _ _ ?_ (fun i t ht => ?_) | apply State.after_lasts

theorem State.progEndWith_lasts {q0 : State} (s : State) (r : Nat) (hq : q0.lasts s) :
    q0.lasts (State.progEndWith s r) := by
  unfold State.progEndWith
  try dsimp only
  repeat' first
    | with_reducible first | assumption | apply State.report_lasts
    | with_reducible refine State.lasts_mk ?_ rfl

theorem State.progBegin_lasts {q0 : State} (s : State) (jtag : Bool) (hq : q0.lasts s) :
    q0.lasts (State.progBegin s jtag) := by
  unfold State.progBegin
  try dsimp only
  repeat' first
    | with_reducible first | assumption
    | split | with_reducible refine State.lasts_mk ?_ rfl

theorem State.progFeed_lasts {q0 : State} (s : State) (l : List (BitVec 16)) (hq : q0.lasts s) :
    q0.lasts (State.progFeed s l) := by
  unfold State.progFeed
  try dsimp only
  repeat' first
    | with_reducible first | assumption | apply State.progEndWith_lasts
    | split | with_reducible refine State.lasts_mk ?_ rfl

theorem State.progFinish_lasts {q0 : State} (s : State) (hq : q0.lasts s) :
    q0.lasts (State.progFinish s) := by
  unfold State.progFinish
  try dsimp only
  repeat' first
    | with_reducible first
      | assumption | apply State.progEndWith_lasts | apply State.raiseF_lasts | refine State.lasts_fst (by assumption) ?_
    | split | with_reducible refine State.lasts_mk ?_ rfl

theorem State.progStop_lasts {q0 : State} (s : State) (hq : q0.lasts s) :
    q0.lasts (State.progStop s) := by
  unfold State.progStop
  try dsimp only
  repeat' first
    | with_reducible first | assumption | apply State.progEndWith_lasts
    | split

theorem State.progCtrl_lasts {q0 : State} (s : State) (open_ : Bool) (v : Nat) (hq : q0.lasts s) :
    q0.lasts (State.progCtrl s open_ v).1 := by
  unfold State.progCtrl
  try dsimp only
  repeat' first
    | with_reducible first
      | assumption | apply State.hxRefuse_lasts | apply State.progBegin_lasts | apply State.progFinish_lasts | apply State.progStop_lasts
    | split | with_reducible refine State.lasts_mk ?_ rfl

theorem State.hxWrite_lasts {q0 : State} (s0 : State) (i v : Nat) (hq : q0.lasts s0) : q0.lasts (s0.hxWrite i v).1 := by
  unfold State.hxWrite
  extract_lets open_ src s src2 half
  have h1 : q0.lasts s := State.lasts_mk hq rfl
  have h2 : q0.lasts (half ()).1 := State.lasts_mk h1 rfl
  clear_value s half
  try dsimp only
  repeat' first
    | with_reducible first
      | assumption | apply State.lastsOut_next | apply State.hxCtrl_lasts | apply State.hxMask_lasts | apply State.progCtrl_lasts
      | apply State.progFeed_lasts | apply State.hxTmrCfg_lasts | apply State.hxPair_lasts | apply State.hxCmd_lasts
      | apply State.hxModWrite_lasts | apply State.hxZval_lasts | apply State.hxCapCfg_lasts | apply State.hxChannel_lasts
      | apply State.setHv_lasts | refine State.each_lasts _ _ _ ?_ (fun i t ht => ?_) | apply State.after_lasts
      | refine State.lasts_foldl _ _ ?_ (fun t x ht => ?_) | refine State.lasts_foldlP _ _ ?_ (fun t x ht => ?_)
      | refine State.lasts_ite (fun _ => ?_) (fun _ => ?_) | refine State.lasts_iteP (fun _ => ?_) (fun _ => ?_)
      | refine State.lasts_fst (by assumption) ?_
    | intro _ | split | with_reducible refine State.lasts_mk ?_ rfl

theorem State.hxAccess_lasts {q0 : State} (s : State) (i v : Nat) (hq : q0.lasts s) :
    q0.lasts (State.hxAccess s i v) := by
  unfold State.hxAccess
  try dsimp only
  repeat' first
    | with_reducible first | assumption | apply State.hxWrite_lasts
    | split

theorem execHxBusRead_lasts {q0 : State} (addr : BitVec 9) (s : State) (hq : q0.lasts s) :
    q0.lastsOut (execHxBusRead addr s) := by
  unfold execHxBusRead
  try dsimp only
  repeat' first
    | with_reducible first
      | assumption | apply State.lastsOut_next | apply State.hxRead_lasts | apply State.emit_lasts | refine State.lasts_fst (by assumption) ?_
    | split

theorem execHxBusWrite_lasts {q0 : State} (addr : BitVec 9) (v : BitVec 16) (s : State) (hq : q0.lasts s) :
    q0.lastsOut (execHxBusWrite addr v s) := by
  unfold execHxBusWrite
  try dsimp only
  repeat' first
    | with_reducible first | assumption | apply State.lastsOut_next
    | split | with_reducible refine State.lasts_mk ?_ rfl

theorem execHxWriteApply_lasts {q0 : State} (s : State) (hq : q0.lasts s) :
    q0.lastsOut (execHxWriteApply s) := by
  unfold execHxWriteApply
  try dsimp only
  repeat' first
    | with_reducible first
      | assumption | apply State.lastsOut_next | apply State.hxAccess_lasts | refine State.lasts_fst (by assumption) ?_
    | split | with_reducible refine State.lasts_mk ?_ rfl

theorem execTmrEnWrite_lasts {q0 : State} (v : BitVec 16) (s : State) (hq : q0.lasts s) :
    q0.lastsOut (execTmrEnWrite v s) := by
  unfold execTmrEnWrite
  try dsimp only
  repeat' first
    | with_reducible first | assumption | apply State.lastsOut_next | apply State.hxAccess_lasts

theorem execTmrCfgWrite_lasts {q0 : State} (v : BitVec 16) (s : State) (hq : q0.lasts s) :
    q0.lastsOut (execTmrCfgWrite v s) := by
  unfold execTmrCfgWrite
  try dsimp only
  repeat' first
    | with_reducible first | assumption | apply State.lastsOut_next | apply State.hxAccess_lasts

theorem execHxModCommit_lasts {q0 : State} (v : BitVec 16) (s : State) (hq : q0.lasts s) :
    q0.lastsOut (execHxModCommit v s) := by
  unfold execHxModCommit
  try dsimp only
  repeat' first
    | with_reducible first | assumption | apply State.lastsOut_next | apply State.hxAccess_lasts

theorem execTmrLoad_lasts {q0 : State} (s : State) (hq : q0.lasts s) :
    q0.lastsOut (execTmrLoad s) := by
  unfold execTmrLoad
  try dsimp only
  repeat' first
    | with_reducible first | assumption | apply State.lastsOut_next | apply State.hxAccess_lasts

theorem execTmrClr_lasts {q0 : State} (s : State) (hq : q0.lasts s) :
    q0.lastsOut (execTmrClr s) := by
  unfold execTmrClr
  try dsimp only
  repeat' first
    | with_reducible first | assumption | apply State.lastsOut_next | apply State.hxAccess_lasts

theorem execCmpCommit_lasts {q0 : State} (k : Fin 64) (cfg : Bool) (v : BitVec 16) (s : State) (hq : q0.lasts s) :
    q0.lastsOut (execCmpCommit k cfg v s) := by
  unfold execCmpCommit
  try dsimp only
  repeat' first
    | with_reducible first | assumption | apply State.lastsOut_next | apply State.hxAccess_lasts
    | split

theorem execCapCfgWrite_lasts {q0 : State} (k : Fin 8) (v : BitVec 16) (s : State) (hq : q0.lasts s) :
    q0.lastsOut (execCapCfgWrite k v s) := by
  unfold execCapCfgWrite
  try dsimp only
  repeat' first
    | with_reducible first | assumption | apply State.lastsOut_next | apply State.hxAccess_lasts

theorem execHxTick_lasts {q0 : State} (s : State) (hq : q0.lasts s) :
    q0.lastsOut (execHxTick s) := by
  unfold execHxTick
  try dsimp only
  repeat' first
    | with_reducible first
      | assumption | apply State.lastsOut_next | apply State.shown_lasts | apply State.hxIrqEvent_lasts
    | split | with_reducible refine State.lasts_mk ?_ rfl

theorem execProgStart_lasts {q0 : State} (s : State) (hq : q0.lasts s) :
    q0.lastsOut (execProgStart s) := by
  unfold execProgStart
  try dsimp only
  repeat' first
    | with_reducible first | assumption | apply State.lastsOut_next | apply State.hxAccess_lasts

theorem execProgDataWrite_lasts {q0 : State} (v : BitVec 16) (s : State) (hq : q0.lasts s) :
    q0.lastsOut (execProgDataWrite v s) := by
  unfold execProgDataWrite
  try dsimp only
  repeat' first
    | with_reducible first | assumption | apply State.lastsOut_next | apply State.hxAccess_lasts

theorem execProgEnd_lasts {q0 : State} (s : State) (hq : q0.lasts s) :
    q0.lastsOut (execProgEnd s) := by
  unfold execProgEnd
  try dsimp only
  repeat' first
    | with_reducible first | assumption | apply State.lastsOut_next | apply State.hxAccess_lasts

theorem execProgAbort_lasts {q0 : State} (s : State) (hq : q0.lasts s) :
    q0.lastsOut (execProgAbort s) := by
  unfold execProgAbort
  try dsimp only
  repeat' first
    | with_reducible first | assumption | apply State.lastsOut_next | apply State.hxAccess_lasts

theorem execProgRewind_lasts {q0 : State} (s : State) (hq : q0.lasts s) :
    q0.lastsOut (execProgRewind s) := by
  unfold execProgRewind
  try dsimp only
  repeat' first
    | with_reducible first | assumption | apply State.lastsOut_next | apply State.hxAccess_lasts

theorem execProgDataRead_lasts {q0 : State} (s : State) (hq : q0.lasts s) :
    q0.lastsOut (execProgDataRead s) := by
  unfold execProgDataRead
  try dsimp only
  repeat' first
    | with_reducible first
      | assumption | apply State.lastsOut_next | apply State.hxRead_lasts | apply State.emit_lasts | refine State.lasts_fst (by assumption) ?_
    | split

theorem execHxTranslateDone_lasts {q0 : State} (s : State) (hq : q0.lasts s) :
    q0.lastsOut (execHxTranslateDone s) := by
  unfold execHxTranslateDone
  try dsimp only
  repeat' first
    | with_reducible first
      | assumption | apply State.lastsOut_next | apply State.progEndWith_lasts | apply State.setRb_lasts | apply State.sectorErase_lasts
      | apply State.setRg_lasts | apply State.report_lasts | refine State.each_lasts _ _ _ ?_ (fun i t ht => ?_)
    | split | with_reducible refine State.lasts_mk ?_ rfl

theorem execHxFlashWriteDone_lasts {q0 : State} (ok : Bool) (s : State) (hq : q0.lasts s) :
    q0.lastsOut (execHxFlashWriteDone ok s) := by
  unfold execHxFlashWriteDone
  try dsimp only
  repeat' first
    | with_reducible first
      | assumption | apply State.lastsOut_next | apply State.flProg_lasts | apply State.report_lasts | apply State.progEndWith_lasts
      | apply State.resetRequest_lasts | apply State.sectorPart_lasts | refine State.each_lasts _ _ _ ?_ (fun i t ht => ?_)
    | split

theorem execHxJtagProgram_lasts {q0 : State} (words : List (BitVec 16)) (s : State) (hq : q0.lasts s) :
    q0.lastsOut (execHxJtagProgram words s) := by
  unfold execHxJtagProgram
  try dsimp only
  repeat' first
    | with_reducible first
      | assumption | apply State.lastsOut_next | apply State.progBegin_lasts | apply State.progFeed_lasts | apply State.progFinish_lasts
    | split

theorem execHxMixCfgWrite_lasts {q0 : State} (v : Word) (s : State) (hq : q0.lasts s) :
    q0.lastsOut (execHxMixCfgWrite v s) := by
  unfold execHxMixCfgWrite
  try dsimp only
  repeat' first
    | with_reducible first
      | assumption | apply State.lastsOut_next | apply State.raiseF_lasts | apply State.rsvAdmit_lasts | apply State.store_lasts
      | refine State.lasts_fst (by assumption) ?_
    | split

theorem execHxViewRequest_lasts {q0 : State} (rst : Bool) (s : State) (hq : q0.lasts s) :
    q0.lastsOut (execHxViewRequest rst s) := by
  unfold execHxViewRequest
  try dsimp only
  repeat' first
    | with_reducible first
      | assumption | apply State.lastsOut_next | apply State.qDrop_lasts | apply State.qGive_lasts | apply State.hxWrite_lasts
      | apply State.hxIrqEvent_lasts | apply State.hxRead_lasts | refine State.lasts_fst (by assumption) ?_
    | split

theorem execHxBlkRst_lasts {q0 : State} (s : State) (hq : q0.lasts s) :
    q0.lastsOut (execHxBlkRst s) := by
  unfold execHxBlkRst
  try dsimp only
  repeat' first
    | with_reducible first
      | assumption | apply State.lastsOut_next | apply State.blkRst_lasts | apply State.hxLoad_lasts

theorem State.policyWrite_lasts {q0 : State} (s : State) (slot : Nat) (signed : Bool) (hq : q0.lasts s) :
    q0.lasts (State.policyWrite s slot signed) := by
  unfold State.policyWrite
  try dsimp only
  repeat' first
    | with_reducible first
      | assumption | apply State.policyRead_lasts | apply State.flRecord_lasts | refine State.lasts_fst (by assumption) ?_
    | split

theorem State.tpResult_lasts {q0 : State} (s : State) (res : Nat) (hq : q0.lasts s) :
    q0.lasts (State.tpResult s res) := by
  unfold State.tpResult
  try dsimp only
  repeat' first
    | with_reducible first | assumption | apply State.setRf_lasts | apply State.raiseF_lasts
    | split

theorem State.tpClose_lasts {q0 : State} (s : State) (res : Nat) (hq : q0.lasts s) :
    q0.lasts (State.tpClose s res) := by
  unfold State.tpClose
  try dsimp only
  repeat' first
    | with_reducible first | assumption | apply State.setRf_lasts | apply State.tpResult_lasts
    | with_reducible refine State.lasts_mk ?_ rfl

theorem State.tpReject_lasts {q0 : State} (s : State) (hq : q0.lasts s) :
    q0.lasts (State.tpReject s) := by
  unfold State.tpReject
  try dsimp only
  repeat' first
    | with_reducible first | assumption | apply State.setRf_lasts | apply State.raiseF_lasts
    | split

theorem State.tpOk_lasts {q0 : State} (s : State) (hq : q0.lasts s) :
    q0.lasts (State.tpOk s) := by
  unfold State.tpOk
  try dsimp only
  repeat' first
    | with_reducible first | assumption | apply State.tpClose_lasts | apply State.setRf_lasts

theorem State.propose_lasts {q0 : State} (s : State) (pid : Nat) (hq : q0.lasts s) :
    q0.lasts (State.propose s pid) := by
  unfold State.propose
  try dsimp only
  repeat' first
    | with_reducible first
      | assumption | apply State.tpResult_lasts | apply State.tpReject_lasts | apply exec_lasts | apply State.setRf_lasts
      | apply State.newChal_lasts | refine State.lasts_fst (by assumption) ?_
    | split | with_reducible refine State.lasts_mk ?_ rfl

theorem execTpPropose_lasts {q0 : State} (pid : BitVec 10) (s : State) (hq : q0.lasts s) :
    q0.lastsOut (execTpPropose pid s) := by
  unfold execTpPropose
  try dsimp only
  repeat' first
    | with_reducible first | assumption | apply State.lastsOut_next | apply State.propose_lasts

theorem State.consent_lasts {q0 : State} (s : State) (pid : Nat) (hq : q0.lasts s) :
    q0.lasts (State.consent s pid) := by
  unfold State.consent
  try dsimp only
  repeat' first
    | with_reducible first
      | assumption | apply State.tpResult_lasts | apply exec_lasts | apply State.tpClose_lasts | apply State.tpReject_lasts
      | apply State.setRf_lasts | refine State.lasts_fst (by assumption) ?_
    | split | with_reducible refine State.lasts_mk ?_ rfl

theorem execTpConsent_lasts {q0 : State} (pid : BitVec 10) (s : State) (hq : q0.lasts s) :
    q0.lastsOut (execTpConsent pid s) := by
  unfold execTpConsent
  try dsimp only
  repeat' first
    | with_reducible first | assumption | apply State.lastsOut_next | apply State.consent_lasts

theorem State.tpCancel_lasts {q0 : State} (s : State) (pid : Nat) (hq : q0.lasts s) :
    q0.lasts (State.tpCancel s pid) := by
  unfold State.tpCancel
  try dsimp only
  repeat' first
    | with_reducible first
      | assumption | apply State.tpResult_lasts | apply exec_lasts | apply State.tpClose_lasts | refine State.lasts_fst (by assumption) ?_
    | split

theorem execTpCancel_lasts {q0 : State} (pid : BitVec 10) (s : State) (hq : q0.lasts s) :
    q0.lastsOut (execTpCancel pid s) := by
  unfold execTpCancel
  try dsimp only
  repeat' first
    | with_reducible first | assumption | apply State.lastsOut_next | apply State.tpCancel_lasts

theorem execProposalExpire_lasts {q0 : State} (s : State) (hq : q0.lasts s) :
    q0.lastsOut (execProposalExpire s) := by
  unfold execProposalExpire
  try dsimp only
  repeat' first
    | with_reducible first
      | assumption | apply State.lastsOut_next | apply exec_lasts | apply State.tpClose_lasts | refine State.lasts_fst (by assumption) ?_
    | split

theorem State.tpRun_lasts {q0 : State} (s : State) (op : Nat) (f : Proposal → State) (hq : q0.lasts s)
    (hf : ∀ p, q0.lasts (f p)) : q0.lasts (s.tpRun op f) := by
  unfold State.tpRun
  try dsimp only
  repeat' first
    | with_reducible first
      | assumption | apply State.lastsOut_next | apply hf | refine State.each_lasts _ _ _ ?_ (fun i t ht => ?_) | apply State.after_lasts
      | refine State.lasts_foldl _ _ ?_ (fun t x ht => ?_) | refine State.lasts_foldlP _ _ ?_ (fun t x ht => ?_)
      | refine State.lasts_ite (fun _ => ?_) (fun _ => ?_) | refine State.lasts_iteP (fun _ => ?_) (fun _ => ?_)
      | refine State.lasts_fst (by assumption) ?_
    | intro _ | split | with_reducible refine State.lasts_mk ?_ rfl

theorem execRdpRaise1_lasts {q0 : State} (s : State) (hq : q0.lasts s) :
    q0.lastsOut (execRdpRaise1 s) := by
  unfold execRdpRaise1
  try dsimp only
  repeat' first
    | with_reducible first
      | assumption | apply State.lastsOut_next | apply State.tpRun_lasts | apply State.tpClose_lasts | apply State.otPulse_lasts
      | refine State.lasts_fst (by assumption) ?_
    | intro _ | split

theorem execRdpRaise2_lasts {q0 : State} (s : State) (hq : q0.lasts s) :
    q0.lastsOut (execRdpRaise2 s) := by
  unfold execRdpRaise2
  try dsimp only
  repeat' first
    | with_reducible first
      | assumption | apply State.lastsOut_next | apply State.tpRun_lasts | apply State.tpOk_lasts | apply State.otPulse_lasts
      | refine State.lasts_fst (by assumption) ?_
    | intro _ | split

theorem execRdpLower_lasts {q0 : State} (s : State) (hq : q0.lasts s) :
    q0.lastsOut (execRdpLower s) := by
  unfold execRdpLower
  try dsimp only
  repeat' first
    | with_reducible first
      | assumption | apply State.lastsOut_next | apply State.tpRun_lasts | apply State.tpClose_lasts | apply State.setRg_lasts
      | apply State.flRecord_lasts | apply State.resetRequest_lasts | refine State.lasts_fst (by assumption) ?_
    | intro _ | split

theorem execFwCommit_lasts {q0 : State} (s : State) (hq : q0.lasts s) :
    q0.lastsOut (execFwCommit s) := by
  unfold execFwCommit
  try dsimp only
  repeat' first
    | with_reducible first
      | assumption | apply State.lastsOut_next | apply State.tpRun_lasts | apply State.tpClose_lasts | apply State.mapLive_lasts
      | apply State.policyWrite_lasts | apply State.tpOk_lasts | refine State.lasts_fst (by assumption) ?_
    | intro _ | split

theorem execKeyRevoke_lasts {q0 : State} (s : State) (hq : q0.lasts s) :
    q0.lastsOut (execKeyRevoke s) := by
  unfold execKeyRevoke
  try dsimp only
  repeat' first
    | with_reducible first
      | assumption | apply State.lastsOut_next | apply State.tpRun_lasts | apply State.tpClose_lasts | apply State.otPulse_lasts
    | intro _ | split

theorem execDebugUnlock_lasts {q0 : State} (s : State) (hq : q0.lasts s) :
    q0.lastsOut (execDebugUnlock s) := by
  unfold execDebugUnlock
  try dsimp only
  repeat' first
    | with_reducible first
      | assumption | apply State.lastsOut_next | apply State.tpRun_lasts | apply State.tpClose_lasts | apply State.setRg_lasts
      | apply State.tpOk_lasts
    | intro _ | split | with_reducible refine State.lasts_mk ?_ rfl

theorem execDebugUnlockEnd_lasts {q0 : State} (s : State) (hq : q0.lasts s) :
    q0.lastsOut (execDebugUnlockEnd s) := by
  unfold execDebugUnlockEnd
  try dsimp only
  repeat' first
    | with_reducible first
      | assumption | apply State.lastsOut_next | apply State.setRg_lasts | apply State.raiseF_lasts
    | split

theorem execIcpPolicy_lasts {q0 : State} (s : State) (hq : q0.lasts s) :
    q0.lastsOut (execIcpPolicy s) := by
  unfold execIcpPolicy
  try dsimp only
  repeat' first
    | with_reducible first
      | assumption | apply State.lastsOut_next | apply State.tpRun_lasts | apply State.tpClose_lasts | apply State.setRb_lasts
      | apply State.policyWrite_lasts | refine State.lasts_fst (by assumption) ?_
    | intro _ | split

theorem State.otDone_lasts {q0 : State} (s : State) (r : OtRun) (hq : q0.lasts s) :
    q0.lasts (State.otDone s r) := by
  unfold State.otDone
  try dsimp only
  repeat' first
    | with_reducible first
      | assumption | apply State.setRb_lasts | apply State.otPulse_lasts | apply State.otEnd_lasts | apply State.keyStat_lasts
      | apply State.rdpDerive_lasts | apply State.tpOk_lasts | apply State.resetRequest_lasts | refine State.lasts_fst (by assumption) ?_
    | split | with_reducible refine State.lasts_mk ?_ rfl

theorem execOtpPulseEnd_lasts {q0 : State} (ok : Bool) (s : State) (hq : q0.lasts s) :
    q0.lastsOut (execOtpPulseEnd ok s) := by
  unfold execOtpPulseEnd
  try dsimp only
  repeat' first
    | with_reducible first
      | assumption | apply State.lastsOut_next | apply State.otDone_lasts | apply State.otSet_lasts | apply State.resetDeferred_lasts
      | refine State.lasts_fst (by assumption) ?_
    | split | with_reducible refine State.lasts_mk ?_ rfl

theorem State.recordDone_lasts {q0 : State} (s : State) (r : FlRec) (hq : q0.lasts s) :
    q0.lasts (State.recordDone s r) := by
  unfold State.recordDone
  try dsimp only
  repeat' first
    | with_reducible first
      | assumption | apply State.flProg_lasts | apply State.flShow_lasts | apply State.resetRequest_lasts | apply State.lowerLevel_lasts
      | apply State.tpOk_lasts | refine State.lasts_fst (by assumption) ?_
    | split | with_reducible refine State.lasts_mk ?_ rfl

theorem execFlashProgramDone_lasts {q0 : State} (s : State) (hq : q0.lasts s) :
    q0.lastsOut (execFlashProgramDone s) := by
  unfold execFlashProgramDone
  try dsimp only
  repeat' first
    | with_reducible first
      | assumption | apply State.lastsOut_next | apply State.flPageDone_lasts | apply State.recordDone_lasts | apply State.flReady_lasts
      | refine State.lasts_fst (by assumption) ?_
    | split

theorem State.attest_lasts {q0 : State} (s : State) (pid : Nat) (hq : q0.lasts s) :
    q0.lasts (State.attest s pid) := by
  unfold State.attest
  try dsimp only
  repeat' first
    | with_reducible first | assumption | apply State.setRg_lasts
    | split | with_reducible refine State.lasts_mk ?_ rfl

theorem execAttestGo_lasts {q0 : State} (pid : BitVec 10) (s : State) (hq : q0.lasts s) :
    q0.lastsOut (execAttestGo pid s) := by
  unfold execAttestGo
  try dsimp only
  repeat' first
    | with_reducible first | assumption | apply State.lastsOut_next | apply State.attest_lasts

theorem State.smbPut_lasts {q0 : State} (s : State) (pid a : Nat) (l : List Byte) (hq : q0.lasts s) :
    q0.lasts (State.smbPut s pid a l).1 := by
  unfold State.smbPut
  try dsimp only
  repeat' first
    | with_reducible first
      | assumption | apply State.fwJudge_lasts | apply State.writeWords_lasts | refine State.lasts_fst (by assumption) ?_
    | split

theorem execAttestDone_lasts {q0 : State} (s : State) (hq : q0.lasts s) :
    q0.lastsOut (execAttestDone s) := by
  unfold execAttestDone
  try dsimp only
  repeat' first
    | with_reducible first
      | assumption | apply State.lastsOut_next | apply State.smbPut_lasts | apply State.setRg_lasts | apply State.raiseF_lasts
      | refine State.lasts_foldl _ _ ?_ (fun t x ht => ?_) | refine State.lasts_foldlP _ _ ?_ (fun t x ht => ?_)
      | refine State.lasts_fst (by assumption) ?_
    | split | with_reducible refine State.lasts_mk ?_ rfl

theorem State.cmdIf_lasts {q0 : State} (s : State) (c : Bool) (f : State → Host.Outcome State Fault Refusal) (hq : q0.lasts s)
    (hf : q0.lastsOut (f s)) : q0.lasts (s.cmdIf c f) := by
  unfold State.cmdIf
  try dsimp only
  repeat' first
    | with_reducible first
      | assumption | apply State.lastsOut_next | apply hf | refine State.each_lasts _ _ _ ?_ (fun i t ht => ?_) | apply State.after_lasts
      | refine State.lasts_foldl _ _ ?_ (fun t x ht => ?_) | refine State.lasts_foldlP _ _ ?_ (fun t x ht => ?_)
      | refine State.lasts_ite (fun _ => ?_) (fun _ => ?_) | refine State.lasts_iteP (fun _ => ?_) (fun _ => ?_)
      | refine State.lasts_fst (by assumption) ?_
    | intro _ | split | with_reducible refine State.lasts_mk ?_ rfl

theorem State.cmd_lasts {q0 : State} (s : State) (f : State → Host.Outcome State Fault Refusal) (hf : q0.lastsOut (f s)) :
    q0.lasts (s.cmd f) := by
  unfold State.cmd
  try dsimp only
  repeat' first
    | with_reducible first
      | assumption | apply State.lastsOut_next | apply hf | refine State.each_lasts _ _ _ ?_ (fun i t ht => ?_) | apply State.after_lasts
      | refine State.lasts_foldl _ _ ?_ (fun t x ht => ?_) | refine State.lasts_foldlP _ _ ?_ (fun t x ht => ?_)
      | refine State.lasts_ite (fun _ => ?_) (fun _ => ?_) | refine State.lasts_iteP (fun _ => ?_) (fun _ => ?_)
      | refine State.lasts_fst (by assumption) ?_
    | intro _ | split | with_reducible refine State.lasts_mk ?_ rfl

theorem State.axCmd_lasts {q0 : State} (s : State) (n : Fin 8) (v : Word) (hq : q0.lasts s) :
    q0.lasts (State.axCmd s n v) := by
  unfold State.axCmd
  try dsimp only
  repeat' first
    | with_reducible first
      | assumption | apply State.cmdIf_lasts | apply execAxSet_lasts | apply execAxSetv_lasts | apply execAxResume_lasts | apply execAxRst_lasts

theorem State.wrYk_lasts {q0 : State} (s : State) (a : Nat) (v : Word) (hq : q0.lasts s) :
    q0.lasts (State.wrYk s a v) := by
  unfold State.wrYk
  try dsimp only
  repeat' first
    | with_reducible first
      | assumption | apply State.cmdIf_lasts | apply execSnapAll_lasts | apply execYkBlkRst_lasts | apply State.cmd_lasts
      | apply execAxCfgWrite_lasts | apply execAxFiltWrite_lasts | apply execAxSsiWrite_lasts | apply execModLoWrite_lasts
      | apply execModHiWrite_lasts | apply State.axCmd_lasts | apply State.store_lasts
    | split

theorem State.wrMk_lasts {q0 : State} (s : State) (a : Nat) (v : Word) (hq : q0.lasts s) :
    q0.lasts (State.wrMk s a v) := by
  unfold State.wrMk
  try dsimp only
  repeat' first
    | with_reducible first
      | assumption | apply State.mkWrite_lasts | apply State.cmdIf_lasts | apply execMkBlkRst_lasts

theorem State.wrCf_lasts {q0 : State} (s : State) (a : Nat) (v : Word) (hq : q0.lasts s) :
    q0.lasts (State.wrCf s a v) := by
  unfold State.wrCf
  try dsimp only
  repeat' first
    | with_reducible first
      | assumption | apply State.cmdIf_lasts | apply execCfBlkRst_lasts | apply State.cmd_lasts | apply execCfCfgWrite_lasts
      | apply State.store_lasts | refine State.lasts_fst (by assumption) ?_
    | split

theorem State.expCfg_lasts {q0 : State} (s : State) (k : Nat) (v : Word) (hq : q0.lasts s) :
    q0.lasts (State.expCfg s k v) := by
  unfold State.expCfg
  try dsimp only
  repeat' first
    | with_reducible first | assumption | apply State.store_lasts | apply State.setRg_lasts
    | split | with_reducible refine State.lasts_mk ?_ rfl

theorem State.wrAr_lasts {q0 : State} (s : State) (a : Nat) (v : Word) (hq : q0.lasts s) :
    q0.lasts (State.wrAr s a v) := by
  unfold State.wrAr
  try dsimp only
  repeat' first
    | with_reducible first
      | assumption | apply State.store_lasts | apply State.cmd_lasts | apply execFreezeWrite_lasts | apply State.cmdIf_lasts
      | apply execArBlkRst_lasts | apply execArColmapWrite_lasts | apply execPeDataRead_lasts | apply execPeDataWrite_lasts
      | apply State.expCfg_lasts | refine State.lasts_fst (by assumption) ?_
    | split

theorem State.wrPl_lasts {q0 : State} (s : State) (a : Nat) (v : Word) (hq : q0.lasts s) :
    q0.lasts (State.wrPl s a v) := by
  unfold State.wrPl
  try dsimp only
  repeat' first
    | with_reducible first
      | assumption | apply State.cmdIf_lasts | apply execCancelWaves_lasts | apply execPlBlkRst_lasts | apply execFoldCmdGo_lasts
      | apply State.cmd_lasts | apply execPleatLoadQueue_lasts | apply execPleatWordRead_lasts | apply execPleatWordWrite_lasts
      | apply State.store_lasts
    | split

theorem State.wrSq_lasts {q0 : State} (s : State) (a : Nat) (v : Word) (hq : q0.lasts s) :
    q0.lasts (State.wrSq s a v) := by
  unfold State.wrSq
  try dsimp only
  repeat' first
    | with_reducible first
      | assumption | apply State.cmdIf_lasts | apply execSqBlkRst_lasts | apply State.sqConfigWrite_lasts | apply State.flushQ_lasts
      | apply execSpAlign_lasts | apply State.store_lasts | refine State.lasts_fst (by assumption) ?_
    | split

theorem State.wrNw_lasts {q0 : State} (s : State) (a : Nat) (v : Word) (hq : q0.lasts s) :
    q0.lasts (State.wrNw s a v) := by
  unfold State.wrNw
  try dsimp only
  repeat' first
    | with_reducible first
      | assumption | apply State.loseNode_lasts | apply State.store_lasts | refine State.lasts_fst (by assumption) ?_
    | split

theorem State.dbCtrl_lasts {q0 : State} (s : State) (v : Word) (hq : q0.lasts s) :
    q0.lasts (State.dbCtrl s v) := by
  unfold State.dbCtrl
  try dsimp only
  repeat' first
    | with_reducible first
      | assumption | apply State.store_lasts | apply State.tracePort_lasts | apply State.cmdIf_lasts | apply execDbBlkRst_lasts

theorem State.wrDb_lasts {q0 : State} (s : State) (a : Nat) (v : Word) (hq : q0.lasts s) :
    q0.lasts (State.wrDb s a v) := by
  unfold State.wrDb
  try dsimp only
  repeat' first
    | with_reducible first
      | assumption | apply State.dbCtrl_lasts | apply State.cmdIf_lasts | apply execProbeClr_lasts | apply State.store_lasts
      | refine State.lasts_fst (by assumption) ?_
    | split

theorem State.repairGo_lasts {q0 : State} (s : State) (v : Word) (hq : q0.lasts s) :
    q0.lasts (State.repairGo s v) := by
  unfold State.repairGo
  try dsimp only
  repeat' first
    | with_reducible first
      | assumption | apply State.cmd_lasts | apply execRepairSoft_lasts | apply execRepairTemp_lasts | apply execRepairRelease_lasts
      | refine State.lasts_fst (by assumption) ?_
    | split

theorem State.wrSm_lasts {q0 : State} (s : State) (a : Nat) (v : Word) (hq : q0.lasts s) :
    q0.lasts (State.wrSm s a v) := by
  unfold State.wrSm
  try dsimp only
  repeat' first
    | with_reducible first
      | assumption | apply State.store_lasts | apply State.cmdIf_lasts | apply execSmBlkRst_lasts | apply execScrubAbort_lasts
      | apply execScrubGo_lasts | apply State.repairGo_lasts
    | split

theorem State.wrFb_lasts {q0 : State} (s : State) (a : Nat) (v : Word) (hq : q0.lasts s) :
    q0.lasts (State.wrFb s a v) := by
  unfold State.wrFb
  try dsimp only
  repeat' first
    | with_reducible first
      | assumption | apply State.cmdIf_lasts | apply execFbBlkRst_lasts | apply execCapCancel_lasts | apply execCapArm_lasts
      | apply State.pllWrite_lasts | apply State.cmd_lasts | apply execMportCfgWrite_lasts | apply State.cmpWrite_lasts | apply State.store_lasts
      | refine State.lasts_fst (by assumption) ?_
    | split

theorem State.wrCg_lasts {q0 : State} (s : State) (a : Nat) (v : Word) (hq : q0.lasts s) :
    q0.lasts (State.wrCg s a v) := by
  unfold State.wrCg
  try dsimp only
  repeat' first
    | with_reducible first
      | assumption | apply State.cmdIf_lasts | apply execPlAbort_lasts | apply execLibAbort_lasts | apply execCgHostGo_lasts
      | apply execReadback_lasts | apply execLibGo_lasts | apply State.store_lasts
    | split

theorem State.wrFl_lasts {q0 : State} (s : State) (w : BusWho) (a : Nat) (v : Word) (hq : q0.lasts s) :
    q0.lasts (State.wrFl s w a v).1 := by
  unfold State.wrFl
  try dsimp only
  repeat' first
    | with_reducible first
      | assumption | apply State.store_lasts | apply State.cmdIf_lasts | apply execFlashSuspend_lasts | apply execFlashResume_lasts
      | apply execFlBlkRst_lasts | apply State.flOp_lasts
    | split

theorem State.wrOt_lasts {q0 : State} (s : State) (a : Nat) (v : Word) (hq : q0.lasts s) :
    q0.lasts (State.wrOt s a v) := by
  unfold State.wrOt
  try dsimp only
  repeat' first
    | with_reducible first
      | assumption | apply State.cmd_lasts | apply execOtpRead_lasts | apply State.cmdIf_lasts | apply execOtpProg_lasts
      | apply State.store_lasts
    | split

theorem State.wrSc_lasts {q0 : State} (s : State) (w : BusWho) (a : Nat) (v : Word) (hq : q0.lasts s) :
    q0.lasts (State.wrSc s w a v) := by
  unfold State.wrSc
  try dsimp only
  repeat' first
    | with_reducible first
      | assumption | apply State.attest_lasts | apply State.propose_lasts | apply State.consent_lasts | apply State.tpCancel_lasts
      | apply State.store_lasts
    | split

theorem State.hiCtrl_lasts {q0 : State} (s : State) (v : Word) (hq : q0.lasts s) :
    q0.lasts (State.hiCtrl s v) := by
  unfold State.hiCtrl
  try dsimp only
  repeat' first
    | with_reducible first
      | assumption | apply State.store_lasts | apply State.cmdIf_lasts | apply execHiBlkRst_lasts
    | split

theorem State.msixCtl_lasts {q0 : State} (s : State) (n : Nat) (v : Word) (hq : q0.lasts s) :
    q0.lasts (State.msixCtl s n v) := by
  unfold State.msixCtl
  try dsimp only
  repeat' first
    | with_reducible first
      | assumption | apply State.store_lasts | apply State.setRg_lasts | apply State.sendMsix_lasts
    | split

theorem State.qpWrite_lasts {q0 : State} (s : State) (q a : Nat) (v : Word) (hq : q0.lasts s) :
    q0.lasts (State.qpWrite s q a v) := by
  unfold State.qpWrite
  try dsimp only
  repeat' first
    | with_reducible first
      | assumption | apply State.qpCfgWrite_lasts | apply State.hiCfgErr_lasts | apply State.store_lasts
    | split

theorem State.wrHi_lasts {q0 : State} (s : State) (a : Nat) (v : Word) (hq : q0.lasts s) :
    q0.lasts (State.wrHi s a v) := by
  unfold State.wrHi
  try dsimp only
  repeat' first
    | with_reducible first
      | assumption | apply State.hiCtrl_lasts | apply State.cmdIf_lasts | apply execPtJoin_lasts | apply execPtLeave_lasts
      | apply execReservationRelease_lasts | apply execRsvReserve_lasts | apply State.qpWrite_lasts | apply State.msixCtl_lasts
      | apply State.store_lasts | refine State.lasts_fst (by assumption) ?_
    | split

theorem State.wrLc_lasts {q0 : State} (s : State) (a : Nat) (v : Word) (hq : q0.lasts s) :
    q0.lasts (State.wrLc s a v) := by
  unfold State.wrLc
  try dsimp only
  repeat' first
    | with_reducible first
      | assumption | apply State.cmdIf_lasts | apply execLcDiscover_lasts | apply execLcStartCmd_lasts | apply execLcImgGo_lasts
      | apply State.store_lasts
    | split

theorem State.wrEv_lasts {q0 : State} (s : State) (a : Nat) (v : Word) (hq : q0.lasts s) :
    q0.lasts (State.wrEv s a v) := by
  unfold State.wrEv
  try dsimp only
  repeat' first
    | with_reducible first
      | assumption | apply State.cmd_lasts | apply execEvSrcCfgWrite_lasts | apply State.store_lasts | refine State.lasts_fst (by assumption) ?_
    | split

theorem State.wrEn_lasts {q0 : State} (s : State) (a : Nat) (v : Word) (hq : q0.lasts s) :
    q0.lasts (State.wrEn s a v) := by
  unfold State.wrEn
  try dsimp only
  repeat' first
    | with_reducible first
      | assumption | apply State.cmdIf_lasts | apply execPtpSet_lasts | apply execEnBlkRst_lasts | apply State.cmd_lasts
      | apply execEnPtpStep_lasts | apply State.setPtp_lasts | apply State.store_lasts
    | split

theorem State.ccCtrl_lasts {q0 : State} (s : State) (v : Word) (hq : q0.lasts s) :
    q0.lasts (State.ccCtrl s v) := by
  unfold State.ccCtrl
  try dsimp only
  repeat' first
    | with_reducible first
      | assumption | apply State.cmd_lasts | apply execCcBlkRst_lasts | apply State.cmdIf_lasts | apply execCcHalt_lasts | apply execCcRun_lasts
    | split

theorem State.ccPid_lasts {q0 : State} (s : State) (v : Word) (hq : q0.lasts s) :
    q0.lasts (State.ccPid s v) := by
  unfold State.ccPid
  try dsimp only
  repeat' first
    | with_reducible first | assumption | apply State.store_lasts | refine State.lasts_fst (by assumption) ?_
    | split

theorem State.wrCc_lasts {q0 : State} (s : State) (w : BusWho) (a : Nat) (v : Word) (hq : q0.lasts s) :
    q0.lasts (State.wrCc s w a v) := by
  unfold State.wrCc
  try dsimp only
  repeat' first
    | with_reducible first
      | assumption | apply State.ccCtrl_lasts | apply State.ccPid_lasts | apply State.ccWdtWrite_lasts | apply State.ccKick_lasts
      | apply State.cmd_lasts | apply execMboxH2cWrite_lasts | apply execMboxC2hWrite_lasts | apply State.store_lasts
    | split

theorem State.wrFt_lasts {q0 : State} (s : State) (a : Nat) (v : Word) (hq : q0.lasts s) :
    q0.lasts (State.wrFt s a v) := by
  unfold State.wrFt
  try dsimp only
  repeat' first
    | with_reducible first
      | assumption | apply State.store_lasts | apply State.cmdIf_lasts | apply execFtBlkRst_lasts | apply State.cmd_lasts
      | apply execFtInject_lasts | apply State.grpWrite_lasts | apply execGrpClear_lasts | apply execFtCkpt_lasts
    | split

theorem State.wrRs_lasts {q0 : State} (s : State) (w : BusWho) (a : Nat) (v : Word) (hq : q0.lasts s) :
    q0.lasts (State.wrRs s w a v) := by
  unfold State.wrRs
  try dsimp only
  repeat' first
    | with_reducible first
      | assumption | apply State.rsCtrlWrite_lasts | apply State.rsWdtWrite_lasts | apply State.rsKick_lasts | apply State.domCmd_lasts
      | apply State.aclkWrite_lasts | apply State.store_lasts
    | split

theorem State.wrHx_lasts {q0 : State} (s : State) (a : Nat) (v : Word) (hq : q0.lasts s) :
    q0.lasts (State.wrHx s a v) := by
  unfold State.wrHx
  try dsimp only
  repeat' first
    | with_reducible first
      | assumption | apply State.cmdIf_lasts | apply execHxBlkRst_lasts | apply State.cmd_lasts | apply execHxMixCfgWrite_lasts
      | apply State.hxAccess_lasts | apply State.store_lasts | refine State.lasts_fst (by assumption) ?_
    | split

theorem State.blockWrite_lasts {q0 : State} (s : State) (w : BusWho) (a : Nat) (v : Word) (hq : q0.lasts s) :
    q0.lasts (State.blockWrite s w a v).1 := by
  unfold State.blockWrite
  try dsimp only
  repeat' first
    | with_reducible first
      | assumption | apply State.wrRs_lasts | apply State.wrYk_lasts | apply State.wrMk_lasts | apply State.wrCf_lasts | apply State.wrAr_lasts
      | apply State.wrPl_lasts | apply State.wrSq_lasts | apply State.wrNw_lasts | apply State.wrSm_lasts | apply State.wrFb_lasts
      | apply State.wrCg_lasts | apply State.wrFl_lasts | apply State.wrOt_lasts | apply State.wrSc_lasts | apply State.wrHi_lasts
      | apply State.wrEv_lasts | apply State.wrLc_lasts | apply State.wrEn_lasts | apply State.wrCc_lasts | apply State.wrFt_lasts
      | apply State.wrHx_lasts | apply State.wrDb_lasts | apply State.store_lasts | refine State.lasts_fst (by assumption) ?_
    | split

theorem State.rdYk_lasts {q0 : State} (s : State) (a : Nat) (hq : q0.lasts s) :
    q0.lasts (State.rdYk s a).1 := by
  unfold State.rdYk
  try dsimp only
  repeat' first
    | with_reducible first
      | assumption | apply State.setRg_lasts | apply State.latchAxis_lasts | refine State.lasts_fst (by assumption) ?_
    | split | with_reducible refine State.lasts_mk ?_ rfl

theorem State.rdEn_lasts {q0 : State} (s : State) (a : Nat) (hq : q0.lasts s) :
    q0.lasts (State.rdEn s a).1 := by
  unfold State.rdEn
  try dsimp only
  repeat' first
    | with_reducible first | assumption | apply State.txtsRead_lasts | refine State.lasts_fst (by assumption) ?_
    | split | with_reducible refine State.lasts_mk ?_ rfl

theorem State.rdDb_lasts {q0 : State} (s : State) (a : Nat) (hq : q0.lasts s) :
    q0.lasts (State.rdDb s a).1 := by
  unfold State.rdDb
  try dsimp only
  repeat' first
    | with_reducible first | assumption | refine State.lasts_fst (by assumption) ?_
    | split | with_reducible refine State.lasts_mk ?_ rfl

theorem State.rdLc_lasts {q0 : State} (s : State) (a : Nat) (hq : q0.lasts s) :
    q0.lasts (State.rdLc s a).1 := by
  unfold State.rdLc
  try dsimp only
  repeat' first
    | with_reducible first | assumption | refine State.lasts_fst (by assumption) ?_
    | split | with_reducible refine State.lasts_mk ?_ rfl

theorem State.rdCc_lasts {q0 : State} (s : State) (w : BusWho) (a : Nat) (hq : q0.lasts s) :
    q0.lasts (State.rdCc s w a).1 := by
  unfold State.rdCc
  try dsimp only
  repeat' first
    | with_reducible first | assumption | apply State.mboxRead_lasts
    | split

theorem State.rdHx_lasts {q0 : State} (s : State) (a : Nat) (hq : q0.lasts s) :
    q0.lasts (State.rdHx s a).1 := by
  unfold State.rdHx
  try dsimp only
  repeat' first
    | with_reducible first | assumption | apply State.hxRead_lasts | refine State.lasts_fst (by assumption) ?_
    | split

theorem State.shown_lasts {q0 : State} (s : State) (w : BusWho) (a : Nat) (hq : q0.lasts s) :
    q0.lasts (State.shown s w a).1 := by
  unfold State.shown
  try dsimp only
  repeat' first
    | with_reducible first
      | assumption | apply State.rdYk_lasts | apply State.rdLc_lasts | apply State.rdEn_lasts | apply State.rdCc_lasts | apply State.rdHx_lasts
      | apply State.rdDb_lasts | refine State.lasts_fst (by assumption) ?_
    | split

theorem State.answerOk_lasts {q0 : State} (s : State) (p : Packet) (data : List (BitVec 256)) (hq : q0.lasts s) :
    q0.lasts (State.answerOk s p data) := by
  unfold State.answerOk
  try dsimp only
  repeat' first
    | with_reducible first | assumption | apply State.inject_lasts

theorem State.answerOff_lasts {q0 : State} (s : State) (p : Packet) (hq : q0.lasts s) :
    q0.lasts (State.answerOff s p) := by
  unfold State.answerOff
  try dsimp only
  repeat' first
    | with_reducible first | assumption | apply State.answer_lasts | apply State.raiseF_lasts

theorem State.serve_lasts {q0 : State} (s : State) (p : Packet) (f : State → State) (hq : q0.lasts s)
    (hf : ∀ t, q0.lasts t → q0.lasts (f t)) : q0.lasts (s.serve p f) := by
  unfold State.serve
  try dsimp only
  repeat' first
    | with_reducible first
      | assumption | apply State.lastsOut_next | apply hf | apply State.answer_lasts | apply State.hdrPar_lasts | apply State.unboxed_lasts
      | refine State.each_lasts _ _ _ ?_ (fun i t ht => ?_) | apply State.after_lasts | refine State.lasts_foldl _ _ ?_ (fun t x ht => ?_)
      | refine State.lasts_foldlP _ _ ?_ (fun t x ht => ?_) | refine State.lasts_ite (fun _ => ?_) (fun _ => ?_)
      | refine State.lasts_iteP (fun _ => ?_) (fun _ => ?_) | refine State.lasts_fst (by assumption) ?_
    | intro _ | split | with_reducible refine State.lasts_mk ?_ rfl

theorem State.serveOn_lasts {q0 : State} (s : State) (p : Packet) (f : State → State) (hq : q0.lasts s)
    (hf : ∀ t, q0.lasts t → q0.lasts (f t)) : q0.lasts (s.serveOn p f) := by
  unfold State.serveOn
  try dsimp only
  repeat' first
    | with_reducible first
      | assumption | apply State.lastsOut_next | apply State.serve_lasts | apply hf | apply State.answerOff_lasts
      | refine State.each_lasts _ _ _ ?_ (fun i t ht => ?_) | apply State.after_lasts | refine State.lasts_foldl _ _ ?_ (fun t x ht => ?_)
      | refine State.lasts_foldlP _ _ ?_ (fun t x ht => ?_) | refine State.lasts_ite (fun _ => ?_) (fun _ => ?_)
      | refine State.lasts_iteP (fun _ => ?_) (fun _ => ?_) | refine State.lasts_fst (by assumption) ?_
    | intro _ | split | with_reducible refine State.lasts_mk ?_ rfl

theorem State.memRead_lasts {q0 : State} (s : State) (p : Packet) (place : Nat → Nat) (hq : q0.lasts s) :
    q0.lasts (State.memRead s p place) := by
  unfold State.memRead
  try dsimp only
  repeat' first
    | with_reducible first
      | assumption | apply State.readWords_lasts | apply State.answerOk_lasts | apply State.answer_lasts
      | refine State.lasts_fst (by assumption) ?_
    | split

theorem State.memWrite_lasts {q0 : State} (s : State) (p : Packet) (place : Nat → Nat) (lost : BitVec 64) (hq : q0.lasts s) :
    q0.lasts (State.memWrite s p place lost) := by
  unfold State.memWrite
  try dsimp only
  repeat' first
    | with_reducible first
      | assumption | apply State.writeWords_lasts | apply State.writeLost_lasts | apply State.answer_lasts | apply State.answerOk_lasts
      | refine State.lasts_fst (by assumption) ?_
    | split

theorem State.memAdd_lasts {q0 : State} (s : State) (p : Packet) (place : Nat → Nat) (lost : Bool) (hq : q0.lasts s) :
    q0.lasts (State.memAdd s p place lost) := by
  unfold State.memAdd
  try dsimp only
  repeat' first
    | with_reducible first
      | assumption | apply State.readWord_lasts | apply State.answer_lasts | apply State.writeLost_lasts | apply State.inject_lasts
      | apply State.writeWords_lasts | apply State.answerOk_lasts | refine State.lasts_fst (by assumption) ?_
    | split

theorem State.memAccess_lasts {q0 : State} (s : State) (p : Packet) (place : Nat → Nat) (lost : BitVec 64) (hq : q0.lasts s) :
    q0.lasts (State.memAccess s p place lost) := by
  unfold State.memAccess
  try dsimp only
  repeat' first
    | with_reducible first
      | assumption | apply State.cmd_lasts | apply State.memRead_lasts | apply State.memWrite_lasts | apply State.memAdd_lasts
      | refine State.lasts_fst (by assumption) ?_
    | split

theorem State.smbServe_lasts {q0 : State} (s : State) (p : Packet) (lost : BitVec 64) (hq : q0.lasts s) :
    q0.lasts (State.smbServe s p lost) := by
  unfold State.smbServe
  try dsimp only
  repeat' first
    | with_reducible first
      | assumption | apply State.smbJudge_lasts | apply State.answer_lasts | apply State.memAccess_lasts
      | refine State.lasts_fst (by assumption) ?_
    | split

theorem State.lmServe_lasts {q0 : State} (s : State) (p : Packet) (hq : q0.lasts s) :
    q0.lasts (State.lmServe s p) := by
  unfold State.lmServe
  try dsimp only
  repeat' first
    | with_reducible first | assumption | apply State.answer_lasts | refine State.lasts_fst (by assumption) ?_
    | split | with_reducible refine State.lasts_mk ?_ rfl

theorem State.memServe_lasts {q0 : State} (s : State) (p : Packet) (lost : BitVec 64) (hq : q0.lasts s) :
    q0.lasts (State.memServe s p lost) := by
  unfold State.memServe
  try dsimp only
  repeat' first
    | with_reducible first
      | assumption | apply State.serveOn_lasts | apply State.smbServe_lasts | apply State.lmServe_lasts | apply State.lcRequest_lasts
      | apply State.answer_lasts | refine State.lasts_fst (by assumption) ?_
    | intro _ | split

theorem execNwRd_lasts {q0 : State} (p : Packet) (s : State) (hq : q0.lasts s) :
    q0.lastsOut (execNwRd p s) := by
  unfold execNwRd
  try dsimp only
  repeat' first
    | with_reducible first
      | assumption | apply State.lastsOut_next | apply State.cmd_lasts | apply State.serve_lasts | apply State.answer_lasts
      | apply State.memServe_lasts
    | intro _ | split

theorem execNwWr_lasts {q0 : State} (p : Packet) (lost : BitVec 64) (s : State) (hq : q0.lasts s) :
    q0.lastsOut (execNwWr p lost s) := by
  unfold execNwWr
  try dsimp only
  repeat' first
    | with_reducible first
      | assumption | apply State.lastsOut_next | apply State.cmd_lasts | apply State.memServe_lasts
    | split

theorem execNwAtomAdd_lasts {q0 : State} (p : Packet) (lost : Bool) (s : State) (hq : q0.lasts s) :
    q0.lastsOut (execNwAtomAdd p lost s) := by
  unfold execNwAtomAdd
  try dsimp only
  repeat' first
    | with_reducible first
      | assumption | apply State.lastsOut_next | apply State.cmd_lasts | apply State.memServe_lasts
    | split

theorem State.lmDrop_lasts {q0 : State} (s : State) (w : LmWait) (hq : q0.lasts s) :
    q0.lasts (State.lmDrop s w) :=
  State.lasts_mk hq rfl

theorem execLmAccessGrant_lasts {q0 : State} (pe : Fin 1536) (s : State) (hq : q0.lasts s) :
    q0.lastsOut (execLmAccessGrant pe s) := by
  unfold execLmAccessGrant
  try dsimp only
  repeat' first
    | with_reducible first
      | assumption | apply State.lastsOut_next | apply State.lmDrop_lasts | apply State.answer_lasts | apply State.memAccess_lasts
      | refine State.lasts_fst (by assumption) ?_
    | split

theorem execLmWaitTimeout_lasts {q0 : State} (s : State) (hq : q0.lasts s) :
    q0.lastsOut (execLmWaitTimeout s) := by
  unfold execLmWaitTimeout
  try dsimp only
  repeat' first
    | with_reducible first
      | assumption | apply State.lastsOut_next | apply State.lmDrop_lasts | apply State.answer_lasts | apply State.raiseF_lasts
      | apply State.arErr_lasts | refine State.lasts_fst (by assumption) ?_
    | split

theorem State.regJudge_lasts {q0 : State} (s : State) (pid off : Nat) (shape wr : Bool) (hq : q0.lasts s) :
    q0.lasts (State.regJudge s pid off shape wr).1 := by
  unfold State.regJudge
  try dsimp only
  repeat' first
    | with_reducible first | assumption | apply State.fwJudge_lasts | refine State.lasts_fst (by assumption) ?_
    | split

theorem State.regWrite_lasts {q0 : State} (s : State) (w : BusWho) (off : Nat) (v : Word) (hq : q0.lasts s) :
    q0.lasts (State.regWrite s w off v).1 := by
  unfold State.regWrite
  try dsimp only
  repeat' first
    | with_reducible first | assumption | apply State.blockWrite_lasts
    | split

theorem State.regRead_lasts {q0 : State} (s : State) (w : BusWho) (off : Nat) (hq : q0.lasts s) :
    q0.lasts (State.regRead s w off).1 := by
  unfold State.regRead
  try dsimp only
  repeat' first
    | with_reducible first
      | assumption | apply State.shown_lasts | apply State.readClear_lasts | refine State.lasts_fst (by assumption) ?_
    | split

theorem State.regServe_lasts {q0 : State} (s : State) (p : Packet) (wr : Bool) (hq : q0.lasts s) :
    q0.lasts (State.regServe s p wr) := by
  unfold State.regServe
  try dsimp only
  repeat' first
    | with_reducible first
      | assumption | apply State.serve_lasts | apply State.answer_lasts | apply State.lcRequest_lasts | apply State.regJudge_lasts
      | apply State.answerOff_lasts | apply State.uwinAccess_lasts | apply State.regWrite_lasts | apply State.answerOk_lasts
      | apply State.regRead_lasts | refine State.lasts_fst (by assumption) ?_
    | intro _ | split

theorem execNwRegRd_lasts {q0 : State} (p : Packet) (s : State) (hq : q0.lasts s) :
    q0.lastsOut (execNwRegRd p s) := by
  unfold execNwRegRd
  try dsimp only
  repeat' first
    | with_reducible first
      | assumption | apply State.lastsOut_next | apply State.cmd_lasts | apply State.regServe_lasts
    | split

theorem execNwRegWr_lasts {q0 : State} (p : Packet) (s : State) (hq : q0.lasts s) :
    q0.lastsOut (execNwRegWr p s) := by
  unfold execNwRegWr
  try dsimp only
  repeat' first
    | with_reducible first
      | assumption | apply State.lastsOut_next | apply State.cmd_lasts | apply State.regServe_lasts
    | split

theorem execNwMrd_lasts {q0 : State} (p : Packet) (s : State) (hq : q0.lasts s) :
    q0.lastsOut (execNwMrd p s) := by
  unfold execNwMrd
  try dsimp only
  repeat' first
    | with_reducible first
      | assumption | apply State.lastsOut_next | apply State.cmd_lasts | apply State.regServe_lasts
    | split

theorem execNwMwr_lasts {q0 : State} (p : Packet) (s : State) (hq : q0.lasts s) :
    q0.lastsOut (execNwMwr p s) := by
  unfold execNwMwr
  try dsimp only
  repeat' first
    | with_reducible first
      | assumption | apply State.lastsOut_next | apply State.cmd_lasts | apply State.regServe_lasts
    | split

theorem execRegisterWrite_lasts {q0 : State} (off : BitVec 24) (v : Word) (s : State) (hq : q0.lasts s) :
    q0.lastsOut (execRegisterWrite off v s) := by
  unfold execRegisterWrite
  try dsimp only
  repeat' first
    | with_reducible first
      | assumption | apply State.lastsOut_next | apply State.regJudge_lasts | apply State.uwinAccess_lasts | apply State.regWrite_lasts
      | refine State.lasts_fst (by assumption) ?_
    | split

theorem execNwKick_lasts {q0 : State} (p : Packet) (s : State) (hq : q0.lasts s) :
    q0.lastsOut (execNwKick p s) := by
  unfold execNwKick
  try dsimp only
  repeat' first
    | with_reducible first
      | assumption | apply State.lastsOut_next | apply State.cmd_lasts | apply State.serveOn_lasts | apply State.answer_lasts
      | apply State.kick_lasts | apply State.answerOk_lasts | apply State.raiseF_lasts
    | intro _ | split

theorem State.takeRecord_lasts {q0 : State} (s : State) (u : BitVec 256) (hq : q0.lasts s) :
    q0.lasts (State.takeRecord s u) := by
  unfold State.takeRecord
  try dsimp only
  repeat' first
    | with_reducible first
      | assumption | apply State.raiseWith_lasts | apply State.raise_lasts | refine State.lasts_fst (by assumption) ?_
    | split

theorem execNwPevt_lasts {q0 : State} (p : Packet) (s : State) (hq : q0.lasts s) :
    q0.lastsOut (execNwPevt p s) := by
  unfold execNwPevt
  try dsimp only
  repeat' first
    | with_reducible first
      | assumption | apply State.lastsOut_next | apply State.cmd_lasts | apply State.serveOn_lasts | apply State.takeRecord_lasts
      | apply State.answerOk_lasts | apply State.answer_lasts
    | intro _ | split

theorem State.laceSend_lasts {q0 : State} (s : State) (u : BitVec 256) (hq : q0.lasts s) :
    q0.lasts (State.laceSend s u).1 := by
  unfold State.laceSend
  try dsimp only
  repeat' first
    | with_reducible first | assumption | apply State.lcBroadcast_lasts | apply State.lcSendTo_lasts
    | split

theorem execNwLsend_lasts {q0 : State} (p : Packet) (s : State) (hq : q0.lasts s) :
    q0.lastsOut (execNwLsend p s) := by
  unfold execNwLsend
  try dsimp only
  repeat' first
    | with_reducible first
      | assumption | apply State.lastsOut_next | apply State.cmd_lasts | apply State.serveOn_lasts | apply State.answer_lasts
      | apply State.laceSend_lasts | apply State.answerOk_lasts | refine State.lasts_fst (by assumption) ?_
    | intro _ | split

theorem execNwAxs_lasts {q0 : State} (p : Packet) (s : State) (hq : q0.lasts s) :
    q0.lastsOut (execNwAxs p s) := by
  unfold execNwAxs
  try dsimp only
  repeat' first
    | with_reducible first
      | assumption | apply State.lastsOut_next | apply State.cmd_lasts | apply State.serveOn_lasts | apply State.answer_lasts
      | apply State.lcBroadcast_lasts | apply State.answerOk_lasts
    | intro _ | split

theorem State.queryGo_lasts {q0 : State} (s : State) (w : BusWho) (n off : Nat) (h : q0.lasts s) : q0.lasts (State.queryGo s w n off).1 := by
  induction n generalizing s off with
  | zero =>
    unfold State.queryGo
    try dsimp only
    repeat' first
      | with_reducible first
        | assumption | apply State.lastsOut_next | refine State.each_lasts _ _ _ ?_ (fun i t ht => ?_) | apply State.after_lasts
        | refine State.lasts_foldl _ _ ?_ (fun t x ht => ?_) | refine State.lasts_foldlP _ _ ?_ (fun t x ht => ?_)
        | refine State.lasts_ite (fun _ => ?_) (fun _ => ?_) | refine State.lasts_iteP (fun _ => ?_) (fun _ => ?_)
        | refine State.lasts_fst (by assumption) ?_
      | intro _ | split | with_reducible refine State.lasts_mk ?_ rfl
  | succ n ih =>
    unfold State.queryGo
    try dsimp only
    repeat' first
      | with_reducible first
        | assumption | apply State.lastsOut_next | apply ih | apply State.regJudge_lasts | apply State.regRead_lasts
        | refine State.each_lasts _ _ _ ?_ (fun i t ht => ?_) | apply State.after_lasts | refine State.lasts_foldl _ _ ?_ (fun t x ht => ?_)
        | refine State.lasts_foldlP _ _ ?_ (fun t x ht => ?_) | refine State.lasts_ite (fun _ => ?_) (fun _ => ?_)
        | refine State.lasts_iteP (fun _ => ?_) (fun _ => ?_) | refine State.lasts_fst (by assumption) ?_
      | intro _ | split | with_reducible refine State.lasts_mk ?_ rfl

theorem execDescQuery_lasts {q0 : State} (q : Fin 1024) (dseq : Word) (s : State) (hq : q0.lasts s) :
    q0.lastsOut (execDescQuery q dseq s) := by
  unfold execDescQuery
  try dsimp only
  repeat' first
    | with_reducible first
      | assumption | apply State.lastsOut_next | apply State.descFail_lasts | apply State.queryGo_lasts | apply State.emit_lasts
      | apply State.setDesc_lasts | apply State.descEnd_lasts | refine State.lasts_fst (by assumption) ?_
    | split | with_reducible refine State.lasts_mk ?_ rfl

theorem State.setSer_lasts {q0 : State} (s : State) (r : Nat) (x : Serial) (hq : q0.lasts s) :
    q0.lasts (State.setSer s r x) :=
  State.lasts_mk hq rfl

theorem State.serialEvent_lasts {q0 : State} (s : State) (r : Nat) (e : SerEvent) (hq : q0.lasts s) :
    q0.lasts (State.serialEvent s r e) := by
  unfold State.serialEvent
  try dsimp only
  repeat' first
    | with_reducible first | assumption | apply State.setSer_lasts
    | split

theorem State.userCycle_lasts {q0 : State} (s : State) (hq : q0.lasts s) :
    q0.lasts (State.userCycle s) := by
  unfold State.userCycle
  try dsimp only
  repeat' first
    | with_reducible first | assumption | apply State.serialEvent_lasts
    | split | with_reducible refine State.lasts_mk ?_ rfl

end Sys2Proof.Machine
end

