-- ==== Sys2Proof/Laws/Reads.lean ====
section
/-! SUPPORT. Laws of the reads of stored words: they hang on memory and check bits alone; good words are read as they stand, with no effect. -/

namespace Sys2Proof.Machine

variable {s u : State}

/-- A key that a table does not list reads as the default. -/
theorem Tab.get_miss {α : Type} (d : Nat → α) (t : Tab α) {k : Nat} (h : ∀ e ∈ t, e.1 ≠ k) : Tab.get d t k = d k := by
  induction t with
  | nil => rfl
  | cons e r ih =>
    obtain ⟨j, v⟩ := e
    have hj : j ≠ k := h (j, v) (List.mem_cons_self ..)
    simpa [Tab.get, hj] using ih (fun e he => h e (List.mem_cons_of_mem _ he))

/-- A key that the first part of a table does not list. -/
theorem Tab.get_skip {α : Type} (d : Nat → α) (t r : Tab α) {k : Nat} (h : ∀ e ∈ t, e.1 ≠ k) : Tab.get d (t ++ r) k = Tab.get d r k := by
  induction t with
  | nil => rfl
  | cons e t ih =>
    obtain ⟨j, v⟩ := e
    have hj : j ≠ k := h (j, v) (List.mem_cons_self ..)
    simpa [Tab.get, hj] using ih (fun e he => h e (List.mem_cons_of_mem _ he))

/-- A key that a table of equal values lists reads as that value. -/
theorem Tab.get_const {α : Type} (d : Nat → α) (t : Tab α) {k : Nat} {v : α} (hv : ∀ e ∈ t, e.2 = v) (hk : ∃ e ∈ t, e.1 = k) : Tab.get d t k = v := by
  induction t with
  | nil => obtain ⟨e, he, -⟩ := hk; cases he
  | cons e r ih =>
    obtain ⟨j, w⟩ := e
    by_cases hj : j = k
    · simpa [Tab.get, hj] using hv (j, w) (List.mem_cons_self ..)
    · obtain ⟨e, he, hek⟩ := hk
      rcases List.mem_cons.mp he with rfl | he
      · exact absurd hek hj
      · simpa [Tab.get, hj] using ih (fun e he => hv e (List.mem_cons_of_mem _ he)) ⟨e, he, hek⟩

/-- A key that a table made over distinct keys lists reads as the value made for it. -/
theorem Tab.get_map {α : Type} (d : Nat → α) (l : List Nat) (f : Nat → Nat) (v : Nat → α) (r : Tab α) {j : Nat} (hj : j ∈ l)
    (hf : ∀ i ∈ l, f i = f j → i = j) : Tab.get d (l.map (fun i => (f i, v i)) ++ r) (f j) = v j := by
  induction l with
  | nil => cases hj
  | cons i l ih =>
    by_cases hi : f i = f j
    · have := hf i (List.mem_cons_self ..) hi
      subst this
      simp [Tab.get]
    · have hji : j ∈ l := by
        rcases List.mem_cons.mp hj with rfl | h
        · exact absurd rfl hi
        · exact h
      simpa [Tab.get, hi] using ih hji (fun i hi => hf i (List.mem_cons_of_mem _ hi))

theorem State.rawAt_congr (hm : u.mem = s.mem) (a : Nat) : u.rawAt a = s.rawAt a := by
  simp only [State.rawAt, State.numAt, State.bytesAt, State.byteAt, hm]

theorem State.synAt_congr (hs : u.syn = s.syn) (a : Nat) : u.synAt a = s.synAt a := by
  simp only [State.synAt, hs]

theorem State.classAt_congr (hm : u.mem = s.mem) (hs : u.syn = s.syn) (a : Nat) : u.classAt a = s.classAt a := by
  simp only [State.classAt, State.rawAt_congr hm, State.synAt_congr hs]

theorem State.flErased_congr (hm : u.mem = s.mem) (hs : u.syn = s.syn) (o : Nat) : u.flErased o = s.flErased o := by
  simp only [State.flErased, State.rawAt_congr hm, State.synAt_congr hs]

/-- Good words are read as they stand. -/
theorem State.readWords_good (src : Nat) (l : List Nat) (h : ∀ a ∈ l, s.classAt (a / 8 * 8) = .good) :
    s.readWords src l = (s, l.map (fun a => s.rawAt (a / 8 * 8)), 0) := by
  induction l with
  | nil => rfl
  | cons a r ih =>
    have ha := h a (List.mem_cons_self ..)
    have hr := ih (fun b hb => h b (List.mem_cons_of_mem _ hb))
    simp [State.readWords, State.readWord, ha, hr, lowStatus]

/-- What the flash controller reads of a clean word: erased, or good. -/
def State.flClean (s : State) (o : Nat) : Nat := if s.flErased o then 2 ^ 64 - 1 else s.rawAt (flAt (o / 8 * 8))

/-- Clean words of flash are read as they stand, and in any state with the same memory. -/
theorem State.flWords_clean (l : List Nat) (h : ∀ o ∈ l, s.flErased o = true ∨ s.classAt (flAt (o / 8 * 8)) = .good)
    (hm : u.mem = s.mem) (hs : u.syn = s.syn) : u.flWords l = (u, l.flatMap (fun o => bytesLE 8 (s.flClean o)), true) := by
  induction l with
  | nil => rfl
  | cons o r ih =>
    have hr := ih (fun b hb => h b (List.mem_cons_of_mem _ hb))
    have ho : u.flWord o = (u, s.flClean o, true) := by
      simp only [State.flWord, State.flErased_congr hm hs, State.classAt_congr hm hs, State.rawAt_congr hm, State.flClean]
      by_cases he : s.flErased o = true
      · simp [he]
      · rcases h o (List.mem_cons_self ..) with h1 | h1
        · exact absurd h1 he
        · simp [he, h1]
    simp [State.flWords, ho, hr]

/-- A whole number of clean words of flash, as a string of bytes. -/
theorem State.flRead_clean (off k : Nat) (ho : off % 8 = 0) (h : ∀ i < k, s.flErased (off + 8 * i) = true ∨ s.classAt (flAt ((off + 8 * i) / 8 * 8)) = .good)
    (hm : u.mem = s.mem) (hs : u.syn = s.syn) :
    u.flRead off (8 * k) = (u, (((List.range k).map (fun i => off + 8 * i)).flatMap (fun o => bytesLE 8 (s.flClean o))).take (8 * k), true) := by
  have h1 : off / 8 * 8 = off := by omega
  have h2 : (off + 8 * k - off + 7) / 8 = k := by omega
  have hl : ∀ o ∈ (List.range k).map (fun i => off + 8 * i), s.flErased o = true ∨ s.classAt (flAt (o / 8 * 8)) = .good := by
    intro o hmem
    simp only [List.mem_map, List.mem_range] at hmem
    obtain ⟨i, hi, rfl⟩ := hmem
    exact h i hi
  simp only [State.flRead, h1, h2, State.flWords_clean _ hl hm hs, Nat.sub_self, List.drop_zero]

/-- A unit of flash with no listed byte or check bits is erased. -/
theorem State.flErased_of_unlisted (o : Nat) (ho : o < 0x4000000) (hm : ∀ e ∈ s.mem, e.1 < flAt (o / 32 * 32) ∨ flAt (o / 32 * 32) + 32 ≤ e.1)
    (hs : ∀ e ∈ s.syn, e.1 * 8 < flAt (o / 32 * 32) ∨ flAt (o / 32 * 32) + 32 ≤ e.1 * 8) : s.flErased o = true := by
  have hb : ∀ k < 32, s.byteAt (flAt (o / 32 * 32) + k) = 0xFF := by
    intro k hk
    rw [State.byteAt, Tab.get_miss memDefault s.mem (fun e he => by have := hm e he; omega)]
    have h1 : memFlash = 0x60000000 := rfl
    have h2 : flAt (o / 32 * 32) = 0x60000000 + o / 32 * 32 := rfl
    exact if_pos (by omega)
  simp only [State.flErased, List.all_eq_true, List.mem_range, Bool.and_eq_true, beq_iff_eq]
  intro i hi
  have hw : flAt (o / 32 * 32 + 8 * i) / 8 * 8 = flAt (o / 32 * 32) + 8 * i := by simp only [flAt, memFlash]; omega
  constructor
  · have hl : s.bytesAt (flAt (o / 32 * 32) + 8 * i) 8 = List.replicate 8 0xFF := by
      apply List.ext_getElem (by simp [State.bytesAt])
      intro k hk _
      have hk8 : k < 8 := by simpa [State.bytesAt] using hk
      have := hb (8 * i + k) (by omega)
      simp only [State.bytesAt, List.getElem_map, List.getElem_range, List.getElem_replicate, Nat.add_assoc]
      exact this
    simp only [State.rawAt, hw, State.numAt, hl]
    rfl
  · have h1 : memFlash = 0x60000000 := rfl
    have h2 : ∀ x, flAt x = 0x60000000 + x := fun _ => rfl
    rw [State.synAt, Tab.get_miss synDefault s.syn (fun e he => by have := hs e he; simp only [h2] at *; omega)]
    have h3 : synDefault (flAt (o / 32 * 32 + 8 * i) / 8) = 0x27 := if_pos (by simp only [h1, h2]; omega)
    rw [h3]; rfl

/-- Flash that lists nothing is erased. -/
theorem State.flErased_empty (o : Nat) (ho : o < 0x4000000) (hm : s.mem = []) (hs : s.syn = []) : s.flErased o = true :=
  State.flErased_of_unlisted o ho (by rw [hm]; intro e he; cases he) (by rw [hs]; intro e he; cases he)

/-- A unit of flash with a word whose check bits are not those of an erased one is not erased. -/
theorem State.not_flErased (o : Nat) (h : s.synAt (flAt (o / 32 * 32)) ≠ 0x27) : s.flErased o = false := by
  simp only [State.flErased, List.all_eq_false, List.mem_range]
  exact ⟨0, by omega, by simp [h]⟩

/-- An area of erased units holds no record. -/
theorem State.flRecords_erased (base n : Nat) (h : ∀ k < n, s.flErased (base + 32 * k) = true) : s.flRecords base n = (s, []) := by
  have : ∀ l : List Nat, (∀ k ∈ l, s.flErased (base + 32 * k) = true) → l.foldl (fun (q : State × List (List Byte × Bool)) k =>
      if q.1.flErased (base + 32 * k) then q
      else let (t, b, ok) := q.1.flRead (base + 32 * k) 32; (t, q.2 ++ [(b, ok)])) (s, []) = (s, []) := by
    intro l
    induction l with
    | nil => intro _; rfl
    | cons k l ih =>
      intro hl
      simp only [List.foldl_cons, hl k (List.mem_cons_self ..), if_true]
      exact ih (fun j hj => hl j (List.mem_cons_of_mem _ hj))
  exact this _ (fun k hk => h k (List.mem_range.mp hk))

/-- An area with no erased unit. -/
theorem State.firstErased_none (base n : Nat) (h : ∀ k < n, s.flErased (base + 32 * k) = false) : s.firstErased base n = none := by
  simp only [State.firstErased, Option.map_eq_none_iff, List.find?_eq_none, List.mem_range]
  intro k hk
  simp [h k hk]

/-! Images -/

@[simp] theorem length_bytesLE (n x : Nat) : (bytesLE n x).length = n := by
  induction n generalizing x with
  | zero => rfl
  | succ n ih => simp [bytesLE, ih]

theorem ofBytesLE_bytesLE (n x : Nat) : ofBytesLE (bytesLE n x) = x % 256 ^ n := by
  induction n generalizing x with
  | zero => simp [bytesLE, ofBytesLE, Nat.mod_one]
  | succ n ih =>
    simp only [bytesLE, ofBytesLE, ih, BitVec.toNat_ofNat]
    have h := Nat.mod_mul (a := 256) (b := 256 ^ n) (x := x)
    have e : 256 ^ (n + 1) = 256 * 256 ^ n := Nat.pow_succ'
    rw [e, h]

theorem bytesLE_append (n m x : Nat) : bytesLE (n + m) x = bytesLE n x ++ bytesLE m (x / 256 ^ n) := by
  induction n generalizing x with
  | zero => simp [bytesLE]
  | succ n ih =>
    rw [Nat.add_right_comm, bytesLE, bytesLE, ih, List.cons_append, Nat.div_div_eq_div_mul, ← Nat.pow_succ']

theorem bytesLE_mod (n x : Nat) : bytesLE n (x % 256 ^ n) = bytesLE n x := by
  induction n generalizing x with
  | zero => rfl
  | succ n ih =>
    have e : 256 ^ (n + 1) = 256 * 256 ^ n := Nat.pow_succ'
    rw [bytesLE, bytesLE, e, Nat.mod_mul_right_div_self, ih]
    congr 1
    apply BitVec.eq_of_toNat_eq
    simp only [BitVec.toNat_ofNat]
    exact Nat.mod_mul_right_mod x 256 (256 ^ n)

theorem flatMap_eq {α β : Type} {f g : α → List β} (l : List α) (h : ∀ a ∈ l, f a = g a) : l.flatMap f = l.flatMap g := by
  induction l with
  | nil => rfl
  | cons a l ih =>
    rw [List.flatMap_cons, List.flatMap_cons, h a (List.mem_cons_self ..), ih (fun b hb => h b (List.mem_cons_of_mem _ hb))]

/-- A number held by words, as bytes. -/
theorem words_bytesLE (n x : Nat) : (List.range n).flatMap (fun i => bytesLE 4 (w32 (x / 2 ^ (32 * i))).toNat) = bytesLE (4 * n) x := by
  induction n with
  | zero => rfl
  | succ n ih =>
    rw [List.range_succ, List.flatMap_append, ih, Nat.mul_succ, bytesLE_append]
    congr 1
    have h : (256 : Nat) ^ (4 * n) = 2 ^ (32 * n) := by
      rw [show (256 : Nat) = 2 ^ 8 from rfl, ← Nat.pow_mul]; congr 1; omega
    rw [h]
    simp only [List.flatMap_cons, List.flatMap_nil, List.append_nil]
    rw [← bytesLE_mod 4 (x / 2 ^ (32 * n))]
    rfl

/-- The bytes in the middle of a list. -/
theorem sliceB_middle (a m z : List Byte) {o n : Nat} (ho : a.length = o) (hn : m.length = n) : sliceB (a ++ (m ++ z)) o n = m := by
  subst ho; subst hn
  simp [sliceB]

/-- The bytes at the start of a list. -/
theorem sliceB_append_left (a b : List Byte) {o n : Nat} (h : o + n ≤ a.length) : sliceB (a ++ b) o n = sliceB a o n := by
  rw [sliceB, sliceB, List.drop_append_of_le_length (by omega), List.take_append_of_le_length (by simp; omega)]

theorem crcStep_lt (poly : Nat) (hp : poly < 2 ^ 32) (n c : Nat) (hc : c < 2 ^ 32) : crcStep poly n c < 2 ^ 32 := by
  induction n generalizing c with
  | zero => exact hc
  | succ n ih =>
    unfold crcStep
    apply ih
    split
    · exact Nat.xor_lt_two_pow (by omega) hp
    · omega

theorem crc32_lt (poly : Nat) (hp : poly < 2 ^ 32) (l : List Byte) : crc32 poly l < 2 ^ 32 := by
  have : ∀ (l : List Byte) (c : Nat), c < 2 ^ 32 → l.foldl (fun c b => crcStep poly 8 (c ^^^ b.toNat)) c < 2 ^ 32 := by
    intro l
    induction l with
    | nil => intro c hc; exact hc
    | cons b r ih =>
      intro c hc
      exact ih _ (crcStep_lt poly hp 8 _ (Nat.xor_lt_two_pow hc (by have := b.isLt; omega)))
  exact Nat.xor_lt_two_pow (this l _ (by omega)) (by omega)

/-- A CRC that an image carries agrees with itself (R276). -/
theorem crc32c_read (l : List Byte) : ofBytesLE (bytesLE 4 (crc32c l)) = crc32c l := by
  rw [ofBytesLE_bytesLE]
  exact Nat.mod_eq_of_lt (crc32_lt _ (by omega) l)

/-- An image read from stream memory that holds only good words and waits for nothing. -/
theorem State.srcRead_smb (b o n : Nat) (hr : s.smbBusy = false) (hf : b + o + n ≤ 0x3000000)
    (hd : ∀ i < (b + o + n - (b + o) / 8 * 8 + 7) / 8, s.domOn (2 + ((b + o) / 8 * 8 + 8 * i) / 0x80000 / 12) = true)
    (hg : ∀ x < 0x3000000, s.classAt (s.smbPlace x / 8 * 8) = .good) :
    s.srcRead (.smb b) o n = (s, ((((List.range ((b + o + n - (b + o) / 8 * 8 + 7) / 8)).map (fun i => (b + o) / 8 * 8 + 8 * i)).map
      (fun x => s.rawAt (s.smbPlace x / 8 * 8))).flatMap (bytesLE 8)).drop (b + o - (b + o) / 8 * 8) |>.take n, true) := by
  have hs : s.smbSettle = s := by simp [State.smbSettle, hr]
  have hall : (((List.range ((b + o + n - (b + o) / 8 * 8 + 7) / 8)).map (fun i => (b + o) / 8 * 8 + 8 * i)).all
      (fun x => s.domOn (2 + x / 0x80000 / 12))) = true := by
    simp only [List.all_map, List.all_eq_true, List.mem_range]
    exact hd
  simp only [State.srcRead, hs, State.smbBytes, hf, hall, and_self, if_true]
  rw [State.readWords_good 1 _ (fun a ha => by
    simp only [List.mem_map, List.mem_range] at ha
    obtain ⟨x, ⟨i, hi, rfl⟩, rfl⟩ := ha
    exact hg _ (by omega))]
  simp [List.map_map, Function.comp_def]

end Sys2Proof.Machine
end

