-- ==== Sys2Proof/Laws/Memory.lean ====
section
/-! SUPPORT. Laws of memory: a byte reads what was last written to it and a write leaves every other byte alone; a word stored reads
back; every operation on memory keeps its canonical form. -/

namespace Sys2Proof.Machine

/-! Reading after writing -/

@[simp] theorem State.byteAt_setByte_self (s : State) (a : Nat) (v : Byte) : (s.setByte a v).byteAt a = v := Tab.get_put_self memDefault _ _ _

@[simp] theorem State.byteAt_setByte_ne (s : State) {a b : Nat} (v : Byte) (h : b ≠ a) : (s.setByte a v).byteAt b = s.byteAt b :=
  Tab.get_put_ne memDefault _ _ h

/-- A run of bytes stored leaves every byte outside it alone. -/
theorem State.byteAt_setBytes_ne (s : State) (a : Nat) (l : List Byte) (b : Nat) (h : ¬ (a ≤ b ∧ b < a + l.length)) :
    (s.setBytes a l).byteAt b = s.byteAt b := by
  induction l generalizing s a with
  | nil => rfl
  | cons x l ih =>
    simp only [List.length_cons] at h
    rw [State.setBytes, ih _ _ (by omega), State.byteAt_setByte_ne _ _ (by omega)]

/-- A run of bytes stored reads back byte by byte. -/
theorem State.byteAt_setBytes (s : State) (a : Nat) (l : List Byte) (i : Nat) (h : i < l.length) :
    (s.setBytes a l).byteAt (a + i) = l[i] := by
  induction l generalizing s a i with
  | nil => simp at h
  | cons x l ih =>
    rw [State.setBytes]
    cases i with
    | zero => rw [State.byteAt_setBytes_ne _ _ _ _ (by omega)]; simp
    | succ i =>
      have := ih (s.setByte a x) (a + 1) i (by simpa using h)
      rw [show a + 1 + i = a + (i + 1) by omega] at this
      simpa using this

/-- A run of bytes stored reads back as a run. -/
theorem State.bytesAt_setBytes (s : State) (a : Nat) (l : List Byte) : (s.setBytes a l).bytesAt a l.length = l := by
  apply List.ext_getElem
  · simp [State.bytesAt]
  · intro i h1 h2
    simp only [State.bytesAt, List.getElem_map, List.getElem_range]
    exact State.byteAt_setBytes s a l i h2

/-- A number stored reads back, narrowed to its bytes (R4). -/
theorem State.numAt_setNum (s : State) (a n x : Nat) : (s.setNum a n x).numAt a n = x % 256 ^ n := by
  have h := State.bytesAt_setBytes s a (bytesLE n x)
  rw [length_bytesLE] at h
  rw [State.numAt, State.setNum, h, ofBytesLE_bytesLE]

/-- A number stored leaves every byte outside it alone. -/
theorem State.byteAt_setNum_ne (s : State) (a n x b : Nat) (h : ¬ (a ≤ b ∧ b < a + n)) : (s.setNum a n x).byteAt b = s.byteAt b :=
  State.byteAt_setBytes_ne _ _ _ _ (by simpa using h)

/-- A word coded and stored leaves every byte of other words alone (R228). -/
theorem State.byteAt_storeWord_ne (s : State) (a d b : Nat) (h : b / 8 ≠ a / 8) : (s.storeWord a d).byteAt b = s.byteAt b := by
  show (s.setNum (a / 8 * 8) 8 d).byteAt b = _
  exact State.byteAt_setNum_ne _ _ _ _ _ (by omega)

/-- A word coded and stored reads back as it was stored (R228). -/
theorem State.rawAt_storeWord (s : State) (a d : Nat) : (s.storeWord a d).rawAt a = d % 2 ^ 64 := by
  show (s.setNum (a / 8 * 8) 8 d).numAt (a / 8 * 8) 8 = _
  rw [State.numAt_setNum, show (256 : Nat) ^ 8 = 2 ^ 64 by decide]

/-- A word just stored is good: its syndrome is zero. -/
theorem State.synAt_storeWord (s : State) (a d : Nat) : (s.storeWord a d).synAt (a / 8 * 8) = 0 := by
  show (Tab.get synDefault (Tab.put synDefault s.syn (a / 8 * 8 / 8) (BitVec.ofNat 8 0)) (a / 8 * 8 / 8)).toNat = 0
  rw [Tab.get_put_self]; rfl

/-! The canonical form, operation by operation. Each is the memory's part of what the operation leaves in place. -/

theorem State.setByte_wf (s : State) (a : Nat) (v : Byte) (h : Memory.wf s.mem = true) : Memory.wf (s.setByte a v).mem = true :=
  (State.setByte_lasts _ _ _ s.lasts_refl).mem h
theorem State.setBytes_wf (s : State) (a : Nat) (l : List Byte) (h : Memory.wf s.mem = true) : Memory.wf (s.setBytes a l).mem = true :=
  (State.setBytes_lasts _ _ _ s.lasts_refl).mem h
theorem State.setNum_wf (s : State) (a n x : Nat) (h : Memory.wf s.mem = true) : Memory.wf (s.setNum a n x).mem = true :=
  (State.setNum_lasts _ _ _ _ s.lasts_refl).mem h
theorem State.storeWord_wf (s : State) (a d : Nat) (h : Memory.wf s.mem = true) : Memory.wf (s.storeWord a d).mem = true :=
  (State.storeWord_lasts _ _ _ s.lasts_refl).mem h
theorem State.storePoison_wf (s : State) (a : Nat) (h : Memory.wf s.mem = true) : Memory.wf (s.storePoison a).mem = true :=
  (State.storePoison_lasts _ _ s.lasts_refl).mem h
theorem State.invert_wf (s : State) (a dm cm : Nat) (h : Memory.wf s.mem = true) : Memory.wf (s.invert a dm cm).mem = true :=
  (State.invert_lasts _ _ _ _ s.lasts_refl).mem h
theorem State.flip_wf (s : State) (a : Nat) (h : Memory.wf s.mem = true) : Memory.wf (s.flip a).mem = true :=
  (State.flip_lasts _ _ s.lasts_refl).mem h
theorem State.readWord_wf (s : State) (a source : Nat) (h : Memory.wf s.mem = true) : Memory.wf (s.readWord a source).1.mem = true :=
  (State.readWord_lasts _ _ _ s.lasts_refl).mem h
theorem State.writeWord_wf (s : State) (a source d en : Nat) (h : Memory.wf s.mem = true) : Memory.wf (s.writeWord a source d en).1.mem = true :=
  (State.writeWord_lasts _ _ _ _ _ s.lasts_refl).mem h
theorem State.readWords_wf (s : State) (source : Nat) (l : List Nat) (h : Memory.wf s.mem = true) : Memory.wf (s.readWords source l).1.mem = true :=
  (State.readWords_lasts _ _ _ s.lasts_refl).mem h
theorem State.writeWords_wf (s : State) (source : Nat) (l : List (Nat × Nat × Nat)) (h : Memory.wf s.mem = true) :
    Memory.wf (s.writeWords source l).1.mem = true := (State.writeWords_lasts _ _ _ s.lasts_refl).mem h
theorem State.clearMem_wf (s : State) (lo hi : Nat) (h : Memory.wf s.mem = true) : Memory.wf (s.clearMem lo hi).mem = true :=
  (State.clearMem_lasts _ _ _ s.lasts_refl).mem h
theorem State.memMove_wf (s : State) (src dst n : Nat) (h : Memory.wf s.mem = true) : Memory.wf (s.memMove src dst n).mem = true :=
  (State.memMove_lasts _ _ _ _ s.lasts_refl).mem h

end Sys2Proof.Machine
end

