-- ==== Sys2Proof/WellFormed.lean ====
section
/-! DEFINITION. Which commands are well formed: the operands that a sender can give. A packet of a network command carries that
command's code and number of data units (Table NW-4), lists have the lengths that the spec gives them. The meanings need none of it: they
are total on every operand. -/

namespace Sys2Proof

/-- A request packet of command `c` with `n` data units (R199, Table NW-4). -/
def Packet.isCmd (p : Packet) (c n : Nat) : Bool := p.cmd.toNat == c && p.data.length == n

/-- A packet's LEN agrees with its data and is at most 16 (R199). -/
def Packet.sized (p : Packet) : Bool := decide (p.len.toNat ≤ 16) && p.data.length == p.len.toNat

/-- Is a command well formed? -/
def Instr.wellFormed : Instr → Bool
  | .nwRd p => p.isCmd 0x01 0 && decide (p.len.toNat ≤ 16)
  | .nwWr p _ => p.cmd.toNat == 0x02 && p.sized
  | .nwAtomAdd p _ => p.isCmd 0x03 1
  | .nwRegRd p => p.isCmd 0x04 0
  | .nwRegWr p => p.isCmd 0x05 1
  | .nwKick p => p.isCmd 0x10 0
  | .nwPevt p => p.isCmd 0x11 1
  | .nwLsend p => p.isCmd 0x12 1
  | .nwAxs p => p.isCmd 0x13 1
  | .nwRdata p => p.cmd.toNat == 0x20 && p.sized
  | .nwAck p => p.isCmd 0x21 0
  | .nwMnote p => p.isCmd 0x30 1
  | .nwMrd p => p.isCmd 0x31 0
  | .nwMwr p => p.isCmd 0x32 1
  | .nwMrsp p => p.cmd.toNat == 0x33 && decide (p.data.length ≤ 1)
  | .mportRequest _ p => decide (p.data.length ≤ 16)
  | .bar2Access write _ n data => !write || data.length == n.val
  | .descriptorFetch _ words image _ => words.length == 8 && (image.isEmpty || image.length == 8)
  | .laceDisc _ _ uids _ _ => decide (uids.length ≤ 64)
  | _ => true

end Sys2Proof
end

