-- ==== Sys2Proof/Tests/Slice0.lean ====
section
/-! SUPPORT. Own tests: the well-formedness smoke, commands tried on small states with results taken from the spec, and for every statement
witnesses that meet the hypotheses of its clauses. -/

set_option maxRecDepth 4000
set_option synthInstance.maxSize 1024

namespace Sys2Proof.Tests

open Sys2Proof.Machine

set_option Elab.async false
/-! Well-formedness: for each check a command that it refuses, and the same command mended -/

/-- A read request of one unit at a node's port. -/
def pkt : Packet :=
  { dstX := 1, dstY := 2, dstPort := 3, srcX := 0, srcY := 1, srcPort := 0, vc := 0, dl := false, dirx := false, diry := false, cmd := 1, tag := 5,
    len := 1, esc := false, urg := 0, age := 0, partner := 0, status := 0, addr := 0x1AA000, be := 0xFFFFFFFF, pstamp := 0, par := 0,
    bad := false, data := [] }

/-- A request of a command code with n data units. -/
def req (c n : Nat) : Packet := { pkt with cmd := BitVec.ofNat 8 c, len := BitVec.ofNat 5 n, data := List.replicate n 0 }

theorem test_wellFormed_refuses :
    Instr.wellFormed (.nwRd (req 0x02 0)) = false ∧ Instr.wellFormed (.nwRd { req 0x01 0 with len := 17 }) = false ∧
    Instr.wellFormed (.nwWr { req 0x02 3 with len := 2 } 0) = false ∧ Instr.wellFormed (.nwWr (req 0x02 17) 0) = false ∧
    Instr.wellFormed (.nwAtomAdd (req 0x03 2) false) = false ∧ Instr.wellFormed (.nwRegRd (req 0x04 1)) = false ∧
    Instr.wellFormed (.nwRegWr (req 0x05 0)) = false ∧ Instr.wellFormed (.nwKick (req 0x11 0)) = false ∧
    Instr.wellFormed (.nwPevt (req 0x11 0)) = false ∧ Instr.wellFormed (.nwLsend (req 0x12 0)) = false ∧
    Instr.wellFormed (.nwAxs (req 0x13 2)) = false ∧ Instr.wellFormed (.nwRdata { req 0x20 1 with len := 0 }) = false ∧
    Instr.wellFormed (.nwAck (req 0x21 1)) = false ∧ Instr.wellFormed (.nwMnote (req 0x30 0)) = false ∧
    Instr.wellFormed (.nwMrd (req 0x31 1)) = false ∧ Instr.wellFormed (.nwMwr (req 0x32 0)) = false ∧
    Instr.wellFormed (.nwMrsp (req 0x33 2)) = false ∧ Instr.wellFormed (.mportRequest 3 (req 0x02 17)) = false ∧
    Instr.wellFormed (.bar2Access true 0 4 []) = false ∧ Instr.wellFormed (.descriptorFetch 0 [0] [] false) = false ∧
    Instr.wellFormed (.descriptorFetch 0 (List.replicate 8 0) [0] false) = false ∧
    Instr.wellFormed (.laceDisc 0 { src := 0, dst := 0, hops := 0, seq := 0, time := 0, tap := 0 } (List.replicate 65 0) none true) = false := by decide

theorem test_wellFormed_accepts :
    Instr.wellFormed (.nwRd { req 0x01 0 with len := 16 }) = true ∧ Instr.wellFormed (.nwWr (req 0x02 16) 0) = true ∧
    Instr.wellFormed (.nwAtomAdd (req 0x03 1) false) = true ∧ Instr.wellFormed (.nwRegRd (req 0x04 0)) = true ∧
    Instr.wellFormed (.nwRegWr (req 0x05 1)) = true ∧ Instr.wellFormed (.nwKick (req 0x10 0)) = true ∧
    Instr.wellFormed (.nwPevt (req 0x11 1)) = true ∧ Instr.wellFormed (.nwLsend (req 0x12 1)) = true ∧
    Instr.wellFormed (.nwAxs (req 0x13 1)) = true ∧ Instr.wellFormed (.nwRdata (req 0x20 16)) = true ∧
    Instr.wellFormed (.nwAck (req 0x21 0)) = true ∧ Instr.wellFormed (.nwMnote (req 0x30 1)) = true ∧
    Instr.wellFormed (.nwMrd (req 0x31 0)) = true ∧ Instr.wellFormed (.nwMwr (req 0x32 1)) = true ∧
    Instr.wellFormed (.nwMrsp (req 0x33 1)) = true ∧ Instr.wellFormed (.mportRequest 3 (req 0x02 16)) = true ∧
    Instr.wellFormed (.bar2Access true 0 4 (List.replicate 4 none)) = true ∧
    Instr.wellFormed (.descriptorFetch 0 (List.replicate 8 0) (List.replicate 8 0) false) = true ∧
    Instr.wellFormed (.laceDisc 0 { src := 0, dst := 0, hops := 0, seq := 0, time := 0, tap := 0 } (List.replicate 64 0) none true) = true := by decide

/-! Steps (O1 to O7) -/

/-- Two commands wait; memory holds a byte; an OTP bit is set. -/
def waiting : State :=
  { State.reset with pending := [.freezeWrite true, .arBlkRst], mem := [(memLM, 1)], ot := { Ot.reset with words := [(0, 1)] } }

theorem witness_StepRunsFront : waiting.pending = .freezeWrite true :: [.arBlkRst] ∧ State.reset.pending = [] := by decide

theorem witness_StepTakesOneCommand : ∃ t, step waiting = .next t ∧ t.pending = [.arBlkRst] := ⟨_, rfl, rfl⟩

theorem witness_MemoryStaysCanonical : waiting.MemInv ∧ ∃ t, step waiting = .next t := ⟨rfl, _, rfl⟩

theorem witness_OtpBitsStaySet : wbit (waiting.otWord 0) 0 = true ∧ ∃ t, step waiting = .next t := ⟨by decide, _, rfl⟩

/-- A register value from its fields. -/
def bits (l : List (Fld × Nat)) : Word := l.foldl (fun w e => e.1.put w e.2) 0

/-! Axes (O8, O10 to O13) -/

/-- Axis 0 enabled, source 4, cyclic. -/
def axOn : State := { State.reset with regs := [(R.YK_AX_CFG 0, 0x80000001)] }
/-- The time 600 YCLK. -/
def yk600 : Yoke := { Yoke.reset with time := 600 }

theorem witness_MainsAndDisabledAxes :
    (let v : Word := 0x80000004
     F.YK_AX_CFG_EN.bit v = true ∧ F.YK_AX_CFG_SRC.get v = 4 ∧ F.YK_AX_CFG_CYCLIC.bit v = false) ∧
    (axOn.rb (R.YK_AX_CFG 0) F.YK_AX_CFG_EN = true ∧ F.YK_AX_CFG_EN.bit (1 : Word) = false) ∧
    (let a := State.reset.ax 7
     State.reset.rb (R.YK_AX_CFG 7) F.YK_AX_CFG_EN = false ∧ a.cSet = false ∧ a.cSetv = false ∧ a.cRst = false) := by decide

def frozen : State := { State.reset with regs := [(R.AR_CTRL, (F.AR_CTRL_FROZEN.put 0 1)), (R.AR_PE_SEL, F.AR_PE_SEL_REG.put 0 18)] }
def frozenNoReg : State := { State.reset with regs := [(R.AR_PE_SEL, F.AR_PE_SEL_REG.put 0 19)] }

theorem witness_FrozenArrayWrites :
    State.reset.rb R.AR_CTRL F.AR_CTRL_FROZEN = false ∧ State.reset.peSel = some (0, 0, 0) ∧
    (frozen.rb R.AR_CTRL F.AR_CTRL_FROZEN = true ∧ frozen.ft.run = none ∧ colMapBad (frozen.rg R.AR_COLMAP) 0 = false ∧
      frozen.peSel = some (0, 0, 18)) ∧
    frozenNoReg.peSel = some (0, 0, 19) := by decide

/-- Axis 0 cyclic and enabled, a MOD_LO write waiting; axis 1 the same and linear. -/
def modHeld : State :=
  { State.reset with
    regs := [(R.YK_AX_CFG 0, 0x80000014), (R.YK_AX_MOD_LO 0, 0x1000000), (R.YK_AX_CFG 1, 0x80000001)]
    yk := { Yoke.reset with axes := [(0, { Axis.idle with modStage := some 0 }), (1, { Axis.idle with modStage := some 5 })] } }

theorem witness_AxisConfigWrites :
    State.reset.axCfgBad 7 0x80000009 = true ∧ State.reset.axCfgBad 0 0x800000C0 = true ∧
    F.YK_AX_CFG_SRC.get 0x80000009 = 9 ∧ F.YK_AX_CFG_Z_MODE.get 0x800000C0 = 3 ∧ F.YK_AX_CFG_EN.bit 0x800000C0 = true ∧
    (State.reset.axCfgBad 0 0x80000001 = false ∧ State.reset.rb (R.YK_AX_CFG 0) F.YK_AX_CFG_EN = false ∧
      F.YK_AX_CFG_EN.bit 0x80000001 = true) ∧
    (axOn.axCfgBad 0 1 = false ∧ axOn.rb (R.YK_AX_CFG 0) F.YK_AX_CFG_EN = true ∧ F.YK_AX_CFG_EN.bit 1 = false) ∧
    (F.YK_AX_FILT_MAINS_BW.get 0x400 = 4 ∧ F.YK_AX_FILT_MAINS_BW.get 0x500 = 5) ∧
    (let v : Word := 0x18000608
     8 ≤ F.YK_AX_SSI_BITS.get v ∧ F.YK_AX_SSI_BITS.get v ≤ 40 ∧ F.YK_AX_SSI_CRC_LEN.get v ≠ 7 ∧ 24 ≤ F.YK_AX_SSI_CLKDIV.get v) ∧
    (F.YK_AX_SSI_BITS.get (0x18000607 : Word) < 8 ∧ 40 < F.YK_AX_SSI_BITS.get (0x18000629 : Word) ∧
      F.YK_AX_SSI_CRC_LEN.get (0x18000708 : Word) = 7 ∧ F.YK_AX_SSI_CLKDIV.get (0x17000608 : Word) < 24) ∧
    ((modHeld.ax 1).modStage = some 5 ∧ modHeld.rb (R.YK_AX_CFG 1) F.YK_AX_CFG_CYCLIC = false) ∧
    ((modHeld.ax 0).modStage = some 0 ∧ modHeld.rb (R.YK_AX_CFG 0) F.YK_AX_CFG_CYCLIC = true ∧
      modOk (0 + 2 ^ 32 * (0x80000000 : Word).toNat) = true ∧ modOk (0 + 2 ^ 32 * (0x80000001 : Word).toNat) = false) := by decide

/-- Axis 0 by SSI with a frame under way (8 bits, 6 bits of CRC); axis 1 by sine and cosine with a new sample set; axis 2 on the mains. -/
def inputs : State :=
  { State.reset with
    regs := [(R.YK_AX_CFG 0, 0x80000002), (R.YK_AX_SSI 0, 0x18030608), (R.YK_AX_SSI_T 0, 0x00050258), (R.YK_AX_CFG 1, 0x80000003), (R.YK_AX_IN 1, 0x40000000),
      (R.YK_AX_FILT 1, 0xFF010000), (R.YK_AX_CFG 2, 0x80000014), (R.YK_AX_MOD_LO 2, 0x1000000), (R.YK_AX_CFG 3, 0x80000001),
      (R.YK_AX_CFG 4, 0x80000003), (R.YK_AX_IN 4, 0x40000000), (R.YK_AX_FILT 4, 0xFFFF0000), (R.YK_AX_IN 3, 0x00030201),
      (R.YK_AX_CFG 5, 0x80000001), (R.YK_AX_IN 5, 0x00030201)]
    sp := [(0, { SensorPort.idle with yokeSeq := 1, yokeSet := [0x1000, 0x0100, 0, 0] })]
    yk := { yk600 with axes := [(0, { Axis.idle with ssiT0 := some 5, ssiLast := some 0, edges := [] }),
      (3, { Axis.idle with edges := [InEdge.mk .a true 0 596] })] } }

theorem witness_AxisInputs :
    ((inputs.cuff 0).inp ≠ true ∧ (inputs.cuff 0).inp = false ∧ inputs.axRoles 3 0 = [] ∧ (inputs.cuff 1).inp ≠ true ∧ inputs.axRoles 5 1 = [.a] ∧ (inputs.ax 5).edges = []) ∧
    ((inputs.ax 3).edges = [InEdge.mk .a true 0 596] ∧ 596 + 4 + inputs.rf (R.YK_AX_FILT 3) F.YK_AX_FILT_FILT ≤ inputs.now) ∧
    (inputs.rb (R.YK_AX_CFG 0) F.YK_AX_CFG_EN = true ∧ inputs.rf (R.YK_AX_CFG 0) F.YK_AX_CFG_SRC = 2 ∧ (inputs.ax 0).ssiLast = some 0 ∧
      0 + inputs.rf (R.YK_AX_SSI_T 0) F.YK_AX_SSI_T_PERIOD ≤ inputs.now) ∧
    ((inputs.ax 0).ssiT0 = some 5 ∧ ssiCrcOk (inputs.rg (R.YK_AX_SSI 0)) 0 0 = true ∧ ssiCrcOk (inputs.rg (R.YK_AX_SSI 0)) 0 1 = false ∧
      (inputs.ax 0).armed = false) ∧
    (inputs.rb (R.YK_AX_CFG 1) F.YK_AX_CFG_EN = true ∧ inputs.rf (R.YK_AX_CFG 1) F.YK_AX_CFG_SRC = 3 ∧
      (inputs.ax 1).scSeq < (inputs.spr (F.YK_AX_IN_PORT.get (inputs.rg (R.YK_AX_IN 1)))).yokeSeq ∧ (inputs.ax 1).scAng = none) ∧
    (inputs.rb (R.YK_AX_CFG 2) F.YK_AX_CFG_EN = true ∧ inputs.rf (R.YK_AX_CFG 2) F.YK_AX_CFG_SRC = 4 ∧
      (inputs.ax 2).scSeq < (inputs.spr (F.YK_AX_IN_PORT.get (inputs.rg (R.YK_AX_IN 2)))).yokeSeq) := by decide

/-- The amplitude of the pair that the port of axis n shows, squared (R26), beside the limits of axis 1 and axis 4. -/
theorem witness_AxisInputs_amplitude :
    (let sn : Int := sext 16 0x1000 * 0x4000
     let cs : Int := sext 16 0x0100 * (F.YK_SC_GAIN_COS_GAIN.get (inputs.rg (R.YK_SC_GAIN 0)) : Nat)
     inputs.rg (R.YK_SC_OFS 0) = 0 ∧ F.YK_AX_IN_SIN_CH.get (inputs.rg (R.YK_AX_IN 1)) = 0 ∧ F.YK_AX_IN_COS_CH.get (inputs.rg (R.YK_AX_IN 1)) = 1 ∧
     (((128 * F.YK_AX_FILT_SC_AMP_MIN.get (inputs.rg (R.YK_AX_FILT 1)) * 0x4000) ^ 2 : Nat) : Int) ≤ sn * sn + cs * cs ∧
     sn * sn + cs * cs ≤ (((128 * F.YK_AX_FILT_SC_AMP_MAX.get (inputs.rg (R.YK_AX_FILT 1)) * 0x4000) ^ 2 : Nat) : Int) ∧
     sn * sn + cs * cs < (((128 * F.YK_AX_FILT_SC_AMP_MIN.get (inputs.rg (R.YK_AX_FILT 4)) * 0x4000) ^ 2 : Nat) : Int)) := by decide

/-- Axis 0 tracking at speed with no measurement for long, axis 1 in HOLDOVER, axis 2 under SET, axis 3 under AX_RST. -/
def lossy : State :=
  { State.reset with
    regs := [(R.PW_DOM_STAT 16, 2), (R.YK_AX_CFG 0, 0x80000001), (R.YK_AX_HOLD_TMO 0, 5), (R.YK_AX_LOSS_TMO 0, 10), (R.YK_AX_HOLD_TMO 1, 5)]
    yk := { yk600 with axes := [(0, { Axis.idle with st := .tracking, armed := true, ve := 0x100000000 }),
      (1, { Axis.idle with st := .holdover, tHold := 594 }), (2, { Axis.idle with cSet := true }), (3, { Axis.idle with cRst := true })] } }
def lossyCyclic : State :=
  { lossy with regs := [(R.YK_AX_CFG 0, 0x80000011), (R.YK_AX_HOLD_TMO 0, 5), (R.YK_AX_LOSS_TMO 0, 10), (R.YK_AX_MOD_LO 0, 0x1000000), (R.PW_DOM_STAT 16, 1)] }

theorem witness_ObserverAndLoss :
    2 ≤ lossy.rf (R.PW_DOM_STAT 16) F.PW_DOM_STAT_STATE ∧ (lossy.ax 2).cSet = true ∧ (lossy.ax 2).cRst = false ∧ (lossy.ax 3).cRst = true ∧
    lossyCyclic.rf (R.PW_DOM_STAT 16) F.PW_DOM_STAT_STATE < 2 ∧
    (lossy.lossDue 0 (lossy.now - 1) = true ∧ lossy.rg (R.YK_AX_HOLD_TMO 0) ≠ 0) ∧
    (lossyCyclic.lossDue 0 (lossyCyclic.now - 1) = true ∧ lossyCyclic.rg (R.YK_AX_HOLD_TMO 0) ≠ 0 ∧ lossyCyclic.axMod 0 ≠ 0) ∧
    lossy.lossDue 7 (lossy.now - 1) = false ∧
    ((lossy.ax 1).st = .holdover ∧ (lossy.ax 1).tHold + (lossy.rg (R.YK_AX_HOLD_TMO 1)).toNat ≤ lossy.now - 1) := by decide

/-- Axis 7 latched by SNAP_ALL and not read; the last Lace send 500 YCLK ago. -/
def snapped : State := { State.reset with regs := [(R.YK_AX_LACE 0, F.YK_AX_LACE_TX.put 0 1)], yk := { yk600 with snap := [7], lastTx := 100 } }

theorem witness_YokeCommands :
    7 ∈ snapped.yk.snap ∧ 0 ∉ snapped.yk.snap ∧ snapped.yk.lastTx + 500 ≤ snapped.now ∧ State.reset.now < State.reset.yk.lastTx + 500 := by decide

theorem witness_quietEvents : State.quietEvents { State.reset with regs := [(R.GL_STAT, 0)] } := Or.inl (by decide)

theorem witness_noProbes : State.reset.noProbes := by
  intro k hk
  revert hk k
  decide

/-! Marks and Cuffs (O14 to O16) -/

/-- A reset sequence of a reach under way, n steps released. -/
def resetting (reach n : Nat) : State :=
  { State.reset with rs := { State.reset.rs with seq := some { reach := reach, step := n, half := false, code := 1, detail := 0 } } }

/-- Mark 2 waits for insertion at axis 1 since 4 YCLK ago; axis 2 has just begun. -/
def marksWait : State :=
  { State.reset with
    regs := [(R.PW_DOM_STAT 16, 2)]
    yk := yk600
    mke := { MkEng.reset with axes := [(1, { MkAxis.idle with queue := [2, 3], headAt := 596 }), (2, { MkAxis.idle with headAt := 597 })],
                              disarm := some 600 } }
/-- The insertion queue of axis 0 holds 32; with `w`, a write waits. -/
def marksFull (w : Bool) : State :=
  { State.reset with mke := { MkEng.reset with axes := [(0, { MkAxis.idle with queue := (List.range 33).drop 1 })], regq := if w then [(R.MK_CTRL, 2)] else [] } }
/-- An accepted entry of mark 1023, with ARM as given, is to take effect now. -/
def marksWritten (arm : Bool) : State :=
  { State.reset with regs := [(R.PW_DOM_STAT 16, 2)], yk := yk600,
                     mke := { MkEng.reset with written := [(600, 1023, { ent := { MarkEntry.zero with arm := arm, axis := 7 }, fold := none })] } }

theorem witness_MarkEngine :
    (let e := State.reset.entryRegs 0 0x18
     State.reset.markRefusal 0x18 e = some 1) ∧
    (let e := State.reset.entryRegs 0 0
     State.reset.mke.regq = [] ∧ State.reset.markRefusal 0 e = none ∧ e.arm = false) ∧
    (let e := State.reset.entryRegs 1023 0x30
     State.reset.markRefusal 0x30 e = none ∧ e.arm = true ∧ State.reset.insertFull e.axis 1023 = false) ∧
    (let e := (marksFull false).entryRegs 0 0x20
     (marksFull false).mke.regq = [] ∧ (marksFull false).markRefusal 0x20 e = none ∧ e.arm = true ∧ (marksFull false).insertFull e.axis 0 = true) ∧
    (marksFull true).mke.regq ≠ [] ∧
    ((marksWait.mkAx 1).queue = 2 :: [3] ∧ (marksWait.mkAx 1).headAt + 4 ≤ marksWait.now ∧ (marksWait.mark 2).rep = false ∧
      (marksWait.mkAx 1).repWait = [] ∧ marksWait.mke.regq = []) ∧
    marksWait.now < (marksWait.mkAx 2).headAt + 4 ∧
    (2 ≤ marksWait.rf (R.PW_DOM_STAT 16) F.PW_DOM_STAT_STATE ∧ marksWait.mke.disarm = some 600 ∧ 600 ≤ marksWait.now) ∧
    (∀ arm ∈ [true, false], let s := marksWritten arm
      let x : MkNew := { ent := { MarkEntry.zero with arm := arm, axis := 7 }, fold := none }
      2 ≤ s.rf (R.PW_DOM_STAT 16) F.PW_DOM_STAT_STATE ∧ s.mke.written = [(600, (1023 : Fin 1024).val, x)] ∧ 600 ≤ s.now ∧ s.mke.disarm = none ∧
        s.mke.pipe = [] ∧ s.yk.hist.length ≤ 5 ∧ s.mke.regq = [] ∧ (s.mark 1023).inPipe = 0 ∧ x.fold = none ∧ x.ent.arm = arm ∧ x.ent.axis < 8 ∧
        1023 ∉ (s.mkAx x.ent.axis).queue) ∧
    State.reset.blkHeld 3 = false ∧ (resetting 0 0).blkHeld 3 = true := by decide

/-- A committed action of mark 3 that leaves now. -/
def leavingNow (action arg0 : Nat) : Commit :=
  { mark := 3, axis := 0, leave := 600, inst := 76800, late := false, lateness := 0, hold := false, up := true, action := action,
    arg0 := BitVec.ofNat 32 arg0, arg1 := 1000 }
/-- That state, in QV mode with the fabric released and its domains ON. -/
def leaving (action arg0 : Nat) : State :=
  { State.reset with
    regs := [(R.GL_STAT, 1), (R.FB_REL_STAT, if action = 5 then 0 else 3), (R.CF_CFG 5, 1), (R.PW_DOM_STAT 10, 2), (R.PW_DOM_STAT 11, 2)]
    yk := yk600
    mke := { MkEng.reset with marks := [(3, { Mark.idle with inPipe := 1 })], pipe := [leavingNow action arg0] } }

theorem witness_MarkActions :
    (∀ k < 8, ((leaving k 0).mark 3).inPipe ≠ 0 ∧ ((leaving k 0).mark 3).behind = none ∧ (leaving k 0).hxParm.on = false ∧
      (leaving k 0).leaving 3 k = some (leavingNow k 0)) ∧
    ((leaving 1 5).leaving 3 1 = some (leavingNow 1 5) ∧ (leaving 1 5).cfOwner 5 = 1 ∧ ((leaving 1 5).cuff 5).held < 8 ∧
      (bitsOf (leavingNow 1 5).arg0.toNat 8 2, EdgeOp.setHi) ∈ [(0, EdgeOp.setHi), (1, .setLo), (2, .toggle)]) ∧
    ((leaving 1 0x305).leaving 3 1 = some (leavingNow 1 0x305) ∧ ((leaving 1 0x305).cuff 5).held < 7 ∧
      bitsOf (leavingNow 1 0x305).arg0.toNat 8 2 = 3) ∧
    (let s := { leaving 1 0x305 with cuffs := [(5, { Cuff.idle with edges := List.replicate 7 (CuffEdge.mk 0 .setHi 0 none) })] }
     s.leaving 3 1 = some (leavingNow 1 0x305) ∧ s.cfOwner 5 = 1 ∧ 8 < (s.cuff 5).held + (if bitsOf (leavingNow 1 0x305).arg0.toNat 8 2 = 3 then 2 else 1)) ∧
    (leaving 1 0).cfOwner 0 ≠ 1 ∧
    bitsOf (leavingNow 3 1023).arg0.toNat 0 12 < 1024 ∧ 1024 ≤ bitsOf (leavingNow 3 1024).arg0.toNat 0 12 ∧
    ((leaving 5 0).rb (R.MK_CAP_STAT 0) F.MK_CAP_STAT_VALID = false ∧ (leaving 5 0).fbStage ≠ 3 ∧ 128 * ((leaving 5 0).now : Int) ≤ (leavingNow 5 0).inst ∧
      (leavingNow 5 0).inst < 128 * ((({ leaving 5 0 with yk := { yk600 with time := 601 } } : State).now : Nat) : Int)) ∧
    ((leaving 6 0).fbStage = 3 ∧ (leaving 6 0).fb.hold = false ∧ (leaving 6 0).domOn 10 = true ∧ (leaving 6 0).domOn 11 = true) := by decide

/-- Cuff 0 of the fabric (not held), 1 of the mark engine with an edge of this YCLK, 2 of an express port, 3 input only, 4 with a capture edge
under way; the HX bus on. -/
def cuffsSet : State :=
  { State.reset with
    regs := [(R.CF_CFG 0, 0), (R.CF_CFG 1, 1), (R.CF_CFG 2, 2), (R.CF_CFG 3, 3), (R.CF_CFG 4, 0x180), (R.CF_CFG 5, 1), (R.FB_REL_STAT, 3), (R.CF_CFG 6, 1), (R.GL_STAT, 1), (R.SQ_SP_CFG 1, bits [(F.SQ_SP_CFG_MODE, 1)])]
    yk := yk600
    cg := { Cg.reset with regions := [(15, { stage := 3, at_ := 0, hdr := [], own := none })] }
    cuffs := [(1, { Cuff.idle with edges := [CuffEdge.mk 76900 .setHi 0 none] }), (4, { Cuff.idle with icap := [InEdge.mk .a true 76800 600] }),
      (6, { Cuff.idle with edges := [CuffEdge.mk 76900 .setHi 0 none], moved := [(76850, true)] })] }
/-- The same with every region Sleeved. -/
def cuffsSleeved : State := { cuffsSet with cg := { Cg.reset with regions := [(15, { stage := 0, at_ := 0, hdr := [], own := none })] } }

theorem witness_Cuffs :
    (∀ n < 128, cuffsSet.hxBusCuff n = false) ∧
    (cuffsSet.cfOwner 1 = 1 ∧ (cuffsSet.cuff 1).edges = [CuffEdge.mk 76900 .setHi 0 none] ∧ (76900 : Int) < 128 * ((cuffsSet.now : Int) + 1) ∧
      (cuffsSet.cuff 1).lastTr = none ∧ (cuffsSet.cuff 1).moved = [] ∧ (CuffEdge.mk 76900 .setHi 0 none).aim (cuffsSet.cuff 1).target ≠ (cuffsSet.cuff 1).target) ∧
    (cuffsSet.cfOwner 5 = 1 ∧ (cuffsSet.cuff 5).edges = [] ∧ (cuffsSet.cuff 5).moved = []) ∧
    (cuffsSet.cfOwner 6 = 1 ∧ (cuffsSet.cuff 6).edges = [CuffEdge.mk 76900 .setHi 0 none] ∧ (cuffsSet.cuff 6).moved = (76850, true) :: []) ∧
    (cuffsSleeved.cfOwner 0 = 0 ∧ cuffsSleeved.userBallHold 0 = some 0) ∧
    (cuffsSet.sensorBall 136 = true ∧ cuffsSet.sensorBall 199 = false ∧ cuffsSet.ballHeld 199 = false) ∧
    (State.reset.blkHeld 4 = false ∧ (resetting 0 0).blkHeld 4 = true) ∧
    (cuffsSet.cfOwner 0 = 0 ∧ cuffsSet.ballHeld 0 = false) ∧ cuffsSet.cfOwner 2 = 2 ∧ cuffsSet.cfOwner 3 = 3 ∧
    F.CF_CFG_OWNER.get (cuffsSet.written (R.CF_CFG 1) 1) = cuffsSet.cfOwner 1 ∧
    (F.CF_CFG_OWNER.get (cuffsSet.written (R.CF_CFG 1) 2) ≠ cuffsSet.cfOwner 1 ∧ F.CF_CFG_OWNER.get (cuffsSet.written (R.CF_CFG 127) 1) = 1) ∧
    (let e := InEdge.mk .a true 76800 600
     let cfg := cuffsSet.rg (R.CF_CFG 4)
     let k := F.CF_CFG_ICAP_SLOT.get cfg
     (cuffsSet.cuff 4).icap = e :: [] ∧ e.cyc + F.CF_CFG_IFILT.get cfg ≤ cuffsSet.now ∧ F.CF_CFG_ICAP_EN.bit cfg = true ∧
       (F.CF_CFG_ICAP_EDGE.get cfg).testBit (if e.level then 0 else 1) = true ∧ cuffsSet.rb (R.MK_CAP_STAT k) F.MK_CAP_STAT_VALID = false ∧
       cuffsSet.hxParm.on = false ∧ 128 * (cuffsSet.now : Int) ≤ e.ts) := by decide

/-! The Array (O17 to O23) -/

/-- A token of a FIFO. -/
def tok (d : Nat) (last : Bool) : Token := Token.make (BitVec.ofNat 32 d) 0 last false false (some 1)

/-- The Pleat word of an operation: operand A from FIFO N and B from FIFO E where it reads them, both fed by the neighbour; `more` adds fields. -/
def pleatWord (op mods more : Nat) : Nat :=
  op + 2 ^ 6 * mods + (if readsA op then 2 ^ 64 else 2 ^ 16) + (if readsB op then 2 ^ 19 + 2 ^ 67 else 2 ^ 21) + 2 ^ 31 + more

/-- The PE at column 5, row 5, and its physical number. -/
def pe55 : Fin 1536 := 213
def phys55 : Nat := 165

/-- That PE with a Pleat active and a token in each FIFO that it reads; west of it a PE with a MOV from its E FIFO. -/
def peStored (w : Nat) (ta tb : Token) : State :=
  { (State.reset.setNum (memPleat + 512 * phys55) 32 w).setNum (memPleat + 512 * 133) 32 (1 + 2 ^ 14 + 2 ^ 21 + 2 ^ 31 + 2 ^ 67) with
    arr := { Arr.reset with pes := [(phys55, { Pe.idle with n := { Fifo.empty with toks := [ta] }, e := { Fifo.empty with toks := [tb] } })] } }
def peWith (op mods more : Nat) (ta tb : Token) : State := peStored (pleatWord op mods more) ta tb
/-- The same sending west. -/
def toWest : Nat := 2 ^ 99
/-- And with private state. -/
def peWithPriv (op mods more : Nat) (ta tb : Token) (v : Priv) : State :=
  let s := peWith op mods more ta tb
  { s with arr := { s.arr with privs := [(16 * phys55, v)] } }
/-- Operand A through the address generator. -/
def peAg (op more : Nat) (tb : Token) : State := peStored (pleatWord op 0 more - 2 ^ 64 + 17 * 2 ^ 14) (tok 0 false) tb

/-- Every operation of Table AR-8 on whole words is ready on that PE, with room for its result. -/
theorem witness_PeWordOps :
    ∀ op ∈ [0x01, 0x04, 0x05, 0x06, 0x07, 0x08, 0x09, 0x0A, 0x0B, 0x12, 0x15, 0x16, 0x17, 0x18, 0x19, 0x1A, 0x1B],
      let s := peWith op 0 toWest (tok 5 true) (tok 3 true)
      s.peRoom pe55 1 ∧ s.peReady pe55 op (tok 5 true) (tok 3 true) ∧ (tok 5 true).data.toInt ≠ -2147483648 ∧ bitsOf (s.actPleat pe55).mods 2 2 = 0 := by
  dsimp only [State.peReady, State.peOpen, State.peRoom]
  decide +kernel

/-- ABS of the most negative number. -/
theorem witness_PeWordOps_abs :
    let s := peWith 0x15 0 toWest (tok 0x80000000 true) (tok 3 true)
    s.peRoom pe55 1 ∧ s.peReady pe55 0x15 (tok 0x80000000 true) (tok 3 true) ∧ (tok 0x80000000 true).data.toInt = -2147483648 := by
  dsimp only [State.peReady, State.peOpen, State.peRoom]
  decide +kernel

theorem witness_PeLaneOps :
    (∀ op ∈ [0x02, 0x03, 0x0C, 0x0D, 0x0E, 0x0F, 0x10, 0x11, 0x13, 0x14],
      let s := peWith op 0 toWest (tok 0x80FF7F01 true) (tok 0xFFFFFFFF true)
      s.peRoom pe55 1 ∧ s.peReady pe55 op (tok 0x80FF7F01 true) (tok 0xFFFFFFFF true)) ∧
    (let s := peWith 0x16 4 toWest (tok 0x80FF7F01 true) (tok 0 true)
     s.peRoom pe55 1 ∧ s.peReady pe55 0x16 (tok 0x80FF7F01 true) (tok 0 true) ∧ bitsOf (s.actPleat pe55).mods 2 2 ≠ 0 ∧ (s.actPleat pe55).wM ≠ 32) := by
  dsimp only [State.peReady, State.peOpen, State.peRoom]
  decide +kernel

/-- The operations on private state: those that yield no result yet, those that do, and the reads and writes of local memory. -/
theorem witness_PeStateOps :
    (∀ c ∈ [(0x00, 0), (0x1C, 0), (0x1D, 0), (0x1D, 0x80), (0x1E, 0), (0x20, 0)],
      let s := peWith c.1 c.2 toWest (tok 7 true) (tok 9 true)
      s.peReady pe55 c.1 (tok 7 true) (tok 9 true) ∧ (s.actPleat pe55).mods = c.2) ∧
    (let s := peWith 0x1C 0x40 toWest (tok 7 true) (tok 9 true)
     s.peReady pe55 0x1C (tok 7 true) (tok 9 true) ∧ (s.actPleat pe55).mods.testBit 6 = true ∧ s.peLast pe55 (tok 7 true) (tok 9 true) = true ∧
       s.peRoom pe55 1) ∧
    (let s := peWith 0x1D 0xC0 toWest (tok 7 false) (tok 9 false)
     s.peReady pe55 0x1D (tok 7 false) (tok 9 false) ∧ (s.actPleat pe55).mods = 0xC0 ∧ s.peLast pe55 (tok 7 false) (tok 9 false) = false) ∧
    (∀ c ∈ [(0x1F, 40), (0x21, 32), (0x22, 0), (0x26, 0), (0x27, 0)],
      let s := peWith c.1 0 (toWest + 2 ^ 32 * c.2) (tok 7 true) (tok 9 true)
      s.peReady pe55 c.1 (tok 7 true) (tok 9 true) ∧ s.peRoom pe55 1 ∧ (s.actPleat pe55).mods = 0 ∧ (s.actPleat pe55).imm = c.2) ∧
    (∀ c ∈ [(0x23, 0), (0x24, 0), (0x25, 32)],
      let s := peWith c.1 0 (toWest + 2 ^ 32 * c.2) (tok 2047 true) (tok 9 true)
      s.peReady pe55 c.1 (tok 2047 true) (tok 9 true) ∧ s.peRoom pe55 1 ∧ (s.actPleat pe55).srcA ≠ 17 ∧ s.rb R.SM_FLIP_CFG F.SM_FLIP_CFG_ARM = false ∧
        s.classAt (s.lmPlace pe55 (if c.1 = 0x25 then lutAddr (s.actPleat pe55) (tok 2047 true).data else 2047)) = .good) ∧
    (∀ op ∈ [0x23, 0x24],
      let s := peAg op toWest (tok 9 true)
      s.peReady pe55 op (valTok 0 false) (tok 9 true) ∧ s.peRoom pe55 1 ∧ (s.actPleat pe55).srcA = 17 ∧
        s.classAt (s.lmPlace pe55 (s.actPriv pe55).ptr) = .good) := by
  dsimp only [State.peReady, State.peOpen, State.peRoom]
  decide +kernel

theorem witness_PeStreamOps :
    (∀ op ∈ [0x28, 0x2A],
      let s := peWith op 0 toWest (tok 4 true) (tok 0 true)
      s.peReady pe55 op (tok 4 true) (tok 0 true) ∧ (s.actPriv pe55).dec = none ∧ (s.actPriv pe55).turn = 0 ∧
        s.dests pe55 (s.actPleat pe55) = [.fifo 212 1 1] ∧ s.takes (.fifo 212 1 1) 1 = true) ∧
    (let s := peWith 0x29 0 toWest (tok 4 true) (tok 1 true)
     let q := s.actPleat pe55
     s.peOpen pe55 0x29 ∧ s.peRoom pe55 1 ∧ q.srcA < 4 ∧ q.srcB < 4 ∧ s.operand pe55 q q.srcA 0 = some (tok 4 true) ∧
       s.operand pe55 q q.srcB 0 = some (tok 1 true) ∧ (s.actPriv pe55).mSide = none ∧ (s.actPriv pe55).mLast = true) ∧
    (∀ b ∈ [0, 1], ∀ op ∈ [0x2B, 0x2C, 0x2D, 0x2E],
      let s := peWith op 0 toWest (tok 4 true) (tok b true)
      s.peReady pe55 op (tok 4 true) (tok b true) ∧ s.peRoom pe55 1 ∧ (s.actPriv pe55).dec = none ∧ (tok b true).data.getLsbD 0 = decide (b = 1) ∧
        (s.actPleat pe55).srcB ≠ 19 ∧ s.peLast pe55 (tok 4 true) (tok b true) = true) ∧
    (let s := peWith 0x2D 0 toWest (tok 4 false) (tok 0 false)
     s.peReady pe55 0x2D (tok 4 false) (tok 0 false) ∧ (tok 0 false).data.getLsbD 0 = false ∧ s.peLast pe55 (tok 4 false) (tok 0 false) = false) ∧
    (let s := peWith 0x2E 0 0 (tok 4 true) (tok 1 true)
     s.peReady pe55 0x2E (tok 4 true) (tok 1 true) ∧ s.peRoom pe55 1 ∧ s.arr.slots = [] ∧ s.dests pe55 (s.actPleat pe55) = []) := by
  dsimp only [State.peReady, State.peOpen, State.peRoom]
  decide +kernel

/-- An access waits at PE(5,5); an express port has a word that differs, its home PE listening. -/
def arrWait : State :=
  { State.reset.setNum (memPleat + 512 * 2) 32 (1 + 3 * 2 ^ 14 + 2 ^ 21 + 2 ^ 31 + 6 * 2 ^ 73) with
    regs := [(R.AR_EXP_CFG 1, F.AR_EXP_CFG_EN.put 0 1)]
    yk := { Yoke.reset with time := 60000 }
    cuffs := [(0, { Cuff.idle with inp := true })]
    arr := { Arr.reset with lmWait := [{ pkt := pkt, time := 0 }] } }

/-- A FROZEN Array with PE register g selected. -/
def frozenSel (g : Nat) : State :=
  { State.reset with regs := [(R.AR_CTRL, F.AR_CTRL_FROZEN.put 0 1), (R.AR_PE_SEL, F.AR_PE_SEL_REG.put 0 g), (R.AR_PE_DATA, 0x7F)] }

theorem witness_ArrayControl :
    State.reset.rb R.AR_CTRL F.AR_CTRL_FROZEN = false ∧
    (frozen.rb R.AR_CTRL F.AR_CTRL_FROZEN = true ∧ frozen.ft.run = none ∧ colMapBad (frozen.rg R.AR_COLMAP) 0 = false) ∧
    (∀ g ∈ [0, 7, 8, 18], (frozenSel g).peSel = some (0, 0, g) ∧ g ≠ 19 ∧ (frozenSel g).rb R.AR_CTRL F.AR_CTRL_FROZEN = true ∧
      (frozenSel g).tilePaired (peTile 0) = false) ∧
    (State.reset.peSel = some (0, 0, 0)) ∧
    (arrWait.rb (R.AR_EXP_CFG 1) F.AR_EXP_CFG_EN = true ∧ arrWait.rg (R.AR_EXP_IN 1) ≠ arrWait.expWord 1 ∧
      arrWait.feedNow (peIx 0 2) 3 = 6 ∧ (arrWait.pe (peIx 0 2)).w.toks.length < 4 ∧ arrWait.rb R.AR_CTRL F.AR_CTRL_FROZEN = false ∧
      arrWait.tileGroup (peTile (peIx 0 2)) = none) ∧
    (arrWait.lmFirst pe55 = some { pkt := pkt, time := 0 } ∧ pkt.cmd.toNat = 1 ∧ (arrWait.rangeOf pkt (memBytes pkt)).isSome = true ∧
      ∀ k < 4, arrWait.classAt (arrWait.lmPlace pe55 (2 * k)) = .good) ∧
    arrWait.arr.lmWait.find? (fun w => decide (w.time + arrWait.aclkY (arrWait.rf R.AR_LM_WAIT F.AR_LM_WAIT_MAX) ≤ arrWait.now)) =
      some { pkt := pkt, time := 0 } ∧
    State.reset.blkHeld 5 = false ∧ (resetting 0 0).blkHeld 5 = true := by decide +kernel

/-- PE(0,2) with a MOV to its express port. -/
def xretPe : State :=
  { State.reset.setNum (memPleat + 512 * 2) 32 (pleatWord 0x01 0 (2 ^ 100)) with
    regs := [(R.AR_EXP_CFG 1, F.AR_EXP_CFG_EN.put 0 1)]
    arr := { Arr.reset with pes := [(2, { Pe.idle with n := { Fifo.empty with toks := [tok 4 true] } })] } }

theorem witness_PeFiring :
    (let s := peWith 0x01 0 toWest (tok 4 true) (tok 3 true)
     s.peReady pe55 0x01 (tok 4 true) (tok 3 true) ∧ s.dests pe55 (s.actPleat pe55) = [.fifo 212 1 1] ∧ s.peRoom pe55 1 ∧
       s.tileGroup (peTile 212) = none ∧ ((s.pe 212).fifo 1).pend = [] ∧ s.rf R.AR_ERRCNT F.AR_ERRCNT_PARITY < 0xFFFF) ∧
    (xretPe.peReady 8 0x01 (tok 4 true) (tok 3 true) ∧ xretPe.dests 8 (xretPe.actPleat 8) = [.xret 1] ∧ (xretPe.exit 449).sup = 0 ∧
      xretPe.rb (R.AR_EXP_CFG 1) F.AR_EXP_CFG_EN = true) ∧
    (let s := peAg 0x01 toWest (tok 3 true)
     s.peOpen pe55 0x01 ∧ (s.actPleat pe55).srcA = 17 ∧ s.peRoom pe55 1 ∧ s.classAt (s.lmPlace pe55 (s.actPriv pe55).ptr) = .good) ∧
    (frozen.rb R.AR_CTRL F.AR_CTRL_FROZEN = true ∧ frozen.tileGroup (peTile pe55) = none) := by
  dsimp only [State.peReady, State.peOpen, State.peRoom]
  decide +kernel

/-- A fold of tile 13 to Pleat `target`. -/
def foldReq (target : Nat) (wave : Bool) : FoldReq :=
  { target := target, wave := wave, mask := 2 ^ 13, trig := 2, gen := none, grp := 0, desc := none }
/-- Tile 13 with valid Pleats 0 in all its PEs. -/
def tile13 : State :=
  State.reset.each ((List.range 16).map (fun k => 32 * (4 + k % 4) + 4 + k / 4)) (fun ph t => t.setNum (memPleat + 512 * ph) 4 (2 ^ 16 + 2 ^ 21 + 2 ^ 31))
/-- That state with a fold waiting. -/
def foldWaits (target : Nat) (wave : Bool) : State := { tile13 with arr := { Arr.reset with foldQ := [foldReq target wave] } }
/-- A slot in flight, injected at 1 YCLK. -/
def slot3 : Slot := { id := 3, req := foldReq 0 true, seq := 7, todo := [213], t0 := 1, stuck := false, replay := false }
/-- Folds at their later stages: on the way, waiting for a load, at the switch edge, a FOLDGEN request. -/
def foldsOn : State :=
  { tile13 with
    regs := [(R.PL_WAVE_TMO, 10), (R.PL_FSTRB 7, F.PL_FSTRB_EN.put 0 1)]
    yk := yk600
    arr := { Arr.reset with
      foldIn := [foldReq 0 false], foldQ := [foldReq 2 false], sw := [{ req := foldReq 2 false, slot := 0, seq := 1 }],
      genReqs := [{ pe := 213, target := 1, mask := 0 }],
      loadRun := some { req := { plane := 0, slot := 2, mask := 2 ^ 13, src := none }, tiles := [13], bad := 0, first := none } } }
def foldsFull : State := { State.reset with arr := { Arr.reset with foldIn := [foldReq 0 false], foldQ := List.replicate 16 (foldReq 0 false) } }
def waveOn : State := { tile13 with regs := [(R.PL_WAVE_TMO, 10)], yk := yk600, arr := { Arr.reset with slots := [slot3] } }

theorem witness_Folds :
    F.PL_FOLD_CMD_GO.bit (F.PL_FOLD_CMD_GO.put 0 1) = true ∧ foldsOn.rb (R.PL_FSTRB 7) F.PL_FSTRB_EN = true ∧
    (foldsOn.arr.foldIn = [foldReq 0 false] ∧ foldsOn.arr.foldQ.length < 16) ∧
    (foldsFull.arr.foldIn = [foldReq 0 false] ∧ 16 ≤ foldsFull.arr.foldQ.length ∧ (foldReq 0 false).trig ≠ 5 ∧ (foldReq 0 false).gen = none) ∧
    (∀ w, (foldWaits 0 w).arr.foldQ = [foldReq 0 w] ∧ (foldWaits 0 w).foldHeld (foldReq 0 w) = false ∧ (foldWaits 0 w).foldCode (foldReq 0 w) = none ∧
      (foldReq 0 w).trig ≠ 5 ∧ (foldReq 0 w).gen = none ∧ (foldWaits 0 w).maskLoading (2 ^ 13) 0 = false ∧
      (List.range 16).find? (fun k => !(foldWaits 0 w).arr.slots.any (fun x => x.id == k)) = some 0) ∧
    ((foldWaits 1 true).arr.foldQ = [foldReq 1 true] ∧ (foldWaits 1 true).foldHeld (foldReq 1 true) = false ∧
      (foldWaits 1 true).foldCode (foldReq 1 true) = some (1, some 208) ∧ (foldReq 1 true).gen = none ∧ (foldReq 1 true).trig ≠ 5) ∧
    (foldsOn.arr.foldQ = [foldReq 2 false] ∧ foldsOn.arr.headAt + 64 ≤ foldsOn.nclk ∧ (foldReq 2 false).gen = none ∧ (foldReq 2 false).trig ≠ 5 ∧ foldsOn.maskLoading (2 ^ 13) 2 = true) ∧
    (foldsOn.arr.sw = [{ req := foldReq 2 false, slot := 0, seq := 1 }] ∧ (foldReq 2 false).wave = false ∧ foldsOn.arr.slots = []) ∧
    (waveOn.foldSlot pe55 = some slot3 ∧ waveOn.foldFree pe55 slot3 = true ∧ waveOn.tileGroup (peTile pe55) = none ∧ (waveOn.pe pe55).gen = false ∧
      waveOn.validAt pe55 (waveOn.pe pe55).act = true ∧ waveOn.dests pe55 (waveOn.actPleat pe55) = [] ∧ slot3.req.trig ≠ 5) ∧
    (waveOn.slotOf 3 = some slot3 ∧ (waveOn.rg R.PL_WAVE_TMO).toNat ≠ 0 ∧ slot3.t0 ≠ 0 ∧ slot3.stuck = false ∧
      slot3.t0 + waveOn.aclkY (waveOn.rg R.PL_WAVE_TMO).toNat ≤ waveOn.now + 1) ∧
    (foldsOn.arr.genReqs = [{ pe := 213, target := 1, mask := 0 }] ∧ foldsOn.arr.slots = []) ∧
    State.reset.blkHeld 6 = false ∧ (resetting 0 0).blkHeld 6 = true := by decide +kernel

/-! Loads, queues, sensor ports, Ethernet (O24 to O28) -/

/-- A load of tile 13 into Pleat 2 from plane 0; the library holds one plane. -/
def loadReq : LoadReq := { plane := 0, slot := 2, mask := 2 ^ 13, src := none }
def loadRegs : List (Nat × BitVec 32) := [(R.PL_LIB_CFG, F.PL_LIB_CFG_PLANES.put 0 1)]
def loadWaits (l : LoadReq) : State := { State.reset with regs := loadRegs, arr := { Arr.reset with loadQ := [l] } }
def loadsFull : State := { State.reset with arr := { Arr.reset with loadQ := List.replicate 8 loadReq } }
def loadRuns : State :=
  { State.reset with regs := loadRegs, arr := { Arr.reset with loadRun := some { req := loadReq, tiles := [13], bad := 0, first := none } } }

theorem witness_PleatLoads :
    F.PL_LOAD_CMD_GO.bit (F.PL_LOAD_CMD_GO.put 0 1) = true ∧ State.reset.loadDepth < 8 ∧ 8 ≤ loadsFull.loadDepth ∧
    ((loadWaits loadReq).arr.loadRun = none ∧ (loadWaits loadReq).arr.loadQ = [loadReq] ∧ (loadWaits loadReq).loadBad loadReq = none ∧
      tilesOf loadReq.mask ≠ []) ∧
    (let l := { loadReq with plane := 1 }
     (loadWaits l).arr.loadRun = none ∧ (loadWaits l).arr.loadQ = [l] ∧ (loadWaits l).loadBad l = some 5 ∧ l.src = none) ∧
    (loadRuns.arr.loadRun = some { req := loadReq, tiles := [(13 : Fin 96).val], bad := 0, first := none } ∧ loadReq.src = none) ∧
    (State.reset.wsel = some (0, 0, 0) ∧ State.reset.classAt (State.reset.pleatAt 0 0 + 4 * 0) = .good ∧ State.reset.busy (peTile 0) 0 = true) ∧
    (let s := { State.reset with regs := [(R.PL_WSEL, bits [(F.PL_WSEL_PLEAT, 15), (F.PL_WSEL_WORD, 7)])] }
     s.wsel = some (0, 15, 7) ∧ s.busy (peTile 0) 15 = false ∧ s.classAt (s.pleatAt 0 15 + 4 * 7) = .good ∧ s.tilePaired (peTile 0) = false ∧ s.unarmed) := by
  dsimp only [State.unarmed]
  decide +kernel

/-- Queue 5, enabled with 4 KiB, fed by stream channel 0 of the fabric and drained by channel 1; the fabric is released. -/
def q5Regs (more : List (Fld × Nat)) : List (Nat × BitVec 32) :=
  [(R.FB_REL_STAT, 3), (R.SQ_Q_CFG 5, bits ([(F.SQ_Q_CFG_EN, 1), (F.SQ_Q_CFG_SIZE, 12)] ++ more)),
   (R.SQ_Q_BIND 5, bits [(F.SQ_Q_BIND_PROD_KIND, 5), (F.SQ_Q_BIND_CONS_KIND, 5), (F.SQ_Q_BIND_CONS_ID, 1)])]
def q5 (more : List (Fld × Nat)) (x : Queue) : State :=
  { State.reset with regs := q5Regs more, qs := [(5, x), (1024, x), (1088, x)], cg := { Cg.reset with regions := [(15, { stage := 3, at_ := 0, hdr := [], own := none })] } }
def qWith (l : List Token) : Queue := { Queue.empty with ents := l, items := l.length }
def qFlushing : Queue := { Queue.empty with swallow := true, prodMid := true, flushing := true }
/-- Queue 5 at an enabled place whose next entry lies in the next bank. -/
def q5Far : State :=
  let s := q5 [] { Queue.empty with wptr := 0x80000 }
  { s with regs := (R.SQ_Q_CFG 5, bits [(F.SQ_Q_CFG_EN, 1), (F.SQ_Q_CFG_SIZE, 25)]) :: s.regs }
/-- A flush that has waited long enough. -/
def q5Late : State := { q5 [] qFlushing with regs := (R.SQ_FLUSH_TMO, 8) :: q5Regs [], yk := yk600 }

theorem witness_QueueCommands :
    (let s := q5 [] (qWith [])
     (s.queueConn 5 true = some 64 ∧ s.connHeld 64 = false ∧ s.qTakes 5 = true ∧ (s.qu 5).plain ∧ s.unarmed ∧ s.slotsHere 5 1 ∧ s.qPortA 5 true = false) ∧
     (s.queueConn 1024 true = some 0 ∧ s.connHeld 0 = false ∧ s.qTakes 1024 = true ∧ (s.qu 1024).plain) ∧
     s.qHead 5 = none) ∧
    (let s := q5Far
     s.queueConn 5 true = some 64 ∧ s.connHeld 64 = false ∧ s.qTakes 5 = true ∧ (s.qu 5).plain ∧ (s.qStart 5 + (s.qu 5).wptr) / 0x80000 ≠ s.qBank 5) ∧
    (let s := q5 [(F.SQ_Q_CFG_BYPASS, 1)] { Queue.empty with popAt := some 0 }
     s.queueConn 5 true = some 64 ∧ s.connHeld 64 = false ∧ s.qTakes 5 = true ∧ F.SQ_Q_BIND_CONS_KIND.get (s.rg (R.SQ_Q_BIND 5)) = 5 ∧
       s.qStraight 5 (Token.make 7 9 true false false none) = true ∧ (s.qu 5).pend = [] ∧ (s.qu 5).replay = []) ∧
    (let s := q5 [] { qWith [tok 1 true] with held := [Token.make 0 0 false true false none] }
     s.queueConn 5 false = some 65 ∧ s.connHeld 65 = false ∧ s.qHead 5 = some (Token.make 0 0 false true false none) ∧ (s.qu 5).marker = false ∧
       (s.qu 5).held = [Token.make 0 0 false true false none]) ∧
    (let s := q5 [] (qWith (List.replicate 64 (tok 1 true)))
     s.queueConn 1024 true = some 0 ∧ s.connHeld 0 = false ∧ s.qTakes 1024 = false) ∧
    (let s := q5 [] qFlushing
     s.queueConn 5 true = some 64 ∧ s.qTakes 5 = true ∧ (s.qu 5).swallow = true ∧ (s.qu 5).pend = [] ∧ (s.qu 5).flushing = true) ∧
    (∀ g ∈ [0, 1], let s := { q5 [(F.SQ_Q_CFG_GATED, g)] (qWith [tok 1 true]) with regs := (R.SQ_Q_KICK 5, bits [(F.SQ_Q_KICK_CREDIT, 1)]) :: q5Regs [(F.SQ_Q_CFG_GATED, g)] }
     s.queueConn 5 false = some 65 ∧ s.connHeld 65 = false ∧ s.qHead 5 = some (tok 1 true) ∧ (s.qu 5).marker = false ∧ (s.qu 5).ents = [tok 1 true] ∧
       (s.qu 5).pend = [] ∧ (s.qu 5).held = [] ∧ s.queueConn 1088 false = some 0 ∧ s.connHeld 0 = false ∧ s.qHead 1088 = some (tok 1 true)) ∧
    ((State.reset.qu 5).flushing = false ∧ State.reset.streamsOn 5 = []) ∧
    ((q5Late.qu 5).flushing = true ∧ q5Late.rg R.SQ_FLUSH_TMO ≠ 0 ∧ (q5Late.qu 5).lastAt + q5Late.flushWait 5 ≤ q5Late.now) ∧
    (((q5 [] { Queue.empty with marker := true }).qu 1088).marker = true ∧ (State.reset.qu 1088).marker = false) := by
  dsimp only [Queue.plain, State.unarmed, State.slotsHere]
  decide +kernel

theorem witness_QueueConfig :
    (let s := q5 [] (qWith [])
     s.rb (R.SQ_Q_CFG 5) F.SQ_Q_CFG_EN = true ∧ F.SQ_Q_CFG_EN.bit (0xC00 : Word) = false ∧ (s.qu 5).flushing = false ∧ s.streamsOn 5 = [] ∧
       bufBad (F.SQ_Q_CFG_SIZE.get (bits [(F.SQ_Q_CFG_SIZE, 12)])) (s.qStart 5) = false ∧ bufBad (F.SQ_Q_CFG_SIZE.get (bits [(F.SQ_Q_CFG_SIZE, 26)])) (s.qStart 5) = true) ∧
    (State.reset.rb (R.SQ_Q_CFG 1023) F.SQ_Q_CFG_EN = false ∧ bindOk 0 = true ∧
      (let s := { State.reset with regs := [(R.SQ_Q_CFG 1023, bits [(F.SQ_Q_CFG_SIZE, 12)])] }
       bufBad (s.rf (R.SQ_Q_CFG 1023) F.SQ_Q_CFG_SIZE) (4096 * F.SQ_Q_BASE_BASE.get (bits [(F.SQ_Q_BASE_BASE, 12287)])) = false ∧
       bufBad (s.rf (R.SQ_Q_CFG 1023) F.SQ_Q_CFG_SIZE) (4096 * F.SQ_Q_BASE_BASE.get (bits [(F.SQ_Q_BASE_BASE, 12288)])) = true)) ∧
    (let v := bits [(F.SQ_Q_CFG_EN, 1), (F.SQ_Q_CFG_SIZE, 25)]
     F.SQ_Q_CFG_EN.bit v = true ∧ State.reset.enableBad 1023 v = none) ∧
    (let v := bits [(F.SQ_Q_CFG_EN, 1), (F.SQ_Q_CFG_SIZE, 11)]
     F.SQ_Q_CFG_EN.bit v = true ∧ F.SQ_Q_CFG_SIZE.get v < 12 ∧ State.reset.enableBad 0 v = some 2) ∧
    ((State.reset.spr 7).st ≠ .aligning ∧ (State.reset.spr 7).st ≠ .locked) ∧
    ({ State.reset with sp := [(7, { SensorPort.idle with st := .locked })] }.spr 7).st = .locked ∧ State.reset.blkHeld 7 = false ∧ (resetting 0 0).blkHeld 7 = true := by decide +kernel

/-- Sensor port 7 locked, in a mode, with n entries in its queue. -/
def spLocked (mode n : Nat) : State :=
  { State.reset with
    regs := [(R.SQ_SP_CFG 7, bits [(F.SQ_SP_CFG_MODE, mode), (F.SQ_SP_CFG_LANES_EN, 15), (F.SQ_SP_CFG_FRAME_LEN, 2)])]
    sp := [(7, { SensorPort.idle with st := .locked })], qs := [(1159, qWith (List.replicate n (tok 1 false)))] }

theorem witness_SensorPorts :
    (State.reset.spr 7).midItem = false ∧ ({ State.reset with sp := [(7, { SensorPort.idle with midItem := true })] }.spr 7).midItem = true ∧
    (let s := { State.reset with sp := [(7, { SensorPort.idle with st := .aligning, words := 65536 })] }
     (s.spr 7).st = .aligning ∧ 65536 ≤ (s.spr 7).words) ∧ (State.reset.spr 7).st ≠ .aligning ∧
    (∀ n ∈ [0, 510, 511], let s := spLocked 2 n
     (s.spr 7).st = .locked ∧ s.rf (R.SQ_SP_CFG 7) F.SQ_SP_CFG_MODE = 2 ∧ (s.spr 7).discard = false ∧
       (s.qu 1159).plain ∧ (s.qu 1159).ents.length = n) ∧
    (let s := spLocked 1 509
     (s.spr 7).st = .locked ∧ s.rf (R.SQ_SP_CFG 7) F.SQ_SP_CFG_MODE = 1 ∧ (s.spr 7).discard = false ∧ (s.qu 1159).plain ∧ (s.qu 1159).ents.length < 510 ∧ (s.spr 7).decim = 0) ∧
    (State.reset.spr 7).st ≠ .locked ∧ (State.reset.qu 1159).plain := by
  dsimp only [Queue.plain]
  decide +kernel

/-- A frame of 60 zero bytes, and an IPv4/UDP frame to port 0x1234 whose header checksum is good or, with k ≠ 0, bad. -/
def frame0 : List Byte := List.replicate 60 0
def frameUdp (k : Nat) : List Byte :=
  List.replicate 12 0 ++ [0x08, 0x00, 0x45, 0x00, 0x00, 0x2E, 0, 0, 0, 0, 0x40, 0x11, 0x7A, BitVec.ofNat 8 (0xC0 + k), 0, 0, 0, 0, 0, 0, 0, 0, 0, 0,
    0x12, 0x34, 0, 26, 0, 0] ++ List.replicate 18 0xAA
/-- Port 3 enabled, linked and sending from queue 5; frames that no rule takes go to queue 5 too, with `defEn`; rule 7 takes port 0x1234. -/
def ethOn (defEn : Nat) (x : Queue) : State :=
  { State.reset with
    regs := [(R.EN_PORT_CFG 3, bits [(F.EN_PORT_CFG_EN, 1), (F.EN_PORT_CFG_TX_EN, 1), (F.EN_PORT_CFG_TXQ, 5), (F.EN_PORT_CFG_DEF_EN, defEn), (F.EN_PORT_CFG_DEFQ, 5)]),
             (R.EN_PORT_STAT 3, bits [(F.EN_PORT_STAT_LINK, 1)]),
             (R.EN_RULE_CFG 7, bits [(F.EN_RULE_CFG_EN, 1), (F.EN_RULE_CFG_PORTMASK, 8), (F.EN_RULE_CFG_MATCH, 4), (F.EN_RULE_CFG_QNUM, 5), (F.EN_RULE_CFG_FORM, 1)]),
             (R.EN_RULE_PORTS 7, bits [(F.EN_RULE_PORTS_DPORT, 0x1234)]),
             (R.SQ_Q_CFG 5, bits [(F.SQ_Q_CFG_EN, 1), (F.SQ_Q_CFG_SIZE, 12)]),
             (R.SQ_Q_BIND 5, bits [(F.SQ_Q_BIND_PROD_KIND, 3), (F.SQ_Q_BIND_CONS_KIND, 3), (F.SQ_Q_BIND_CONS_ID, 3)])]
    qs := [(5, x)], en := { En.reset with ports := [(2, { txts := [{ ns := 5, sec := 6, seq := 7 }], seq := 8, rx := [], tx := none })] } }
/-- An item to send: a header word of length 6, two words. -/
def txItem : Queue := qWith [tok 6 false, tok 0x11223344 false, tok 0x5566 true]

theorem witness_Ethernet :
    State.reset.rb (R.EN_PORT_CFG 3) F.EN_PORT_CFG_EN = false ∧
    (∀ d ∈ [0, 1], (ethOn d (qWith [])).rb (R.EN_PORT_CFG 3) F.EN_PORT_CFG_EN = true ∧ (ethOn d (qWith [])).rb (R.EN_PORT_STAT 3) F.EN_PORT_STAT_LINK = true ∧
      (ethOn d (qWith [])).rb (R.EN_PORT_CFG 3) F.EN_PORT_CFG_DEF_EN = decide (d = 1) ∧ ((ethOn d (qWith [])).enPort 3).rxUsed + 1000 ≤ 65536 ∧
      65536 < ((ethOn d (qWith [])).enPort 3).rxUsed + 70000) ∧
    (60 ≤ frame0.length ∧ frame0.length ≤ 9596 ∧ ethType frame0 ≠ 0x8808 ∧ checksOk frame0 = true ∧ steerable frame0 = false) ∧
    (60 ≤ (frameUdp 1).length ∧ ethType (frameUdp 1) ≠ 0x8808 ∧ checksOk (frameUdp 1) = false) ∧
    (let s := ethOn 0 (qWith [])
     60 ≤ (frameUdp 0).length ∧ ethType (frameUdp 0) ≠ 0x8808 ∧ checksOk (frameUdp 0) = true ∧ steerable (frameUdp 0) = true ∧
       (List.range 256).find? (fun i => s.ruleHit i 3 (frameUdp 0)) = some 7 ∧ s.rf (R.EN_RULE_CFG 7) F.EN_RULE_CFG_QNUM = 5 ∧
       s.rf (R.SQ_Q_BIND 5) F.SQ_Q_BIND_PROD_KIND = 3 ∧ s.qRoom 5 512 = true ∧ (s.qu 5).plain ∧ s.unarmed ∧ s.slotsHere 5 100 ∧ (s.enPort 3).rx = []) ∧
    (let f : List Byte := List.replicate 12 0 ++ [0x88, 0x08] ++ List.replicate 46 0
     60 ≤ f.length ∧ f.length ≤ 9596 ∧ ethType f = 0x8808) ∧
    (let s := ethOn 0 txItem
     s.rf (R.EN_PORT_CFG 3) F.EN_PORT_CFG_TXQ = 5 ∧ s.rb (R.EN_PORT_CFG 3) F.EN_PORT_CFG_TX_EN = true ∧ s.rf (R.SQ_Q_BIND 5) F.SQ_Q_BIND_CONS_KIND = 3 ∧
       s.rf (R.SQ_Q_BIND 5) F.SQ_Q_BIND_CONS_ID = 3 ∧ (s.qu 5).ents = tok 6 false :: [tok 0x11223344 false] ++ tok 0x5566 true :: [] ∧ (s.qu 5).pend = [] ∧
       (s.qu 5).marker = false ∧ (s.qHead 5).isSome = true ∧ (s.qu 5).held = [] ∧ (s.qu 5).away = [] ∧ (s.qu 5).ents.length ≤ 32 ∧ (s.enPort 3).tx = none ∧ (tok 6 false).data.toNat % 0x10000 ≤ 8 ∧ wbit (tok 6 false).data 16 = false) ∧
    ((State.reset.enPort 3).txts = [] ∧ ((ethOn 0 txItem).enPort 2).txts = [{ ns := 5, sec := 6, seq := 7 }]) ∧
    State.reset.blkHeld 18 = false ∧ (resetting 0 0).blkHeld 18 = true := by
  dsimp only [Queue.plain, State.unarmed, State.slotsHere]
  decide +kernel

/-! The network and the memories (O29 to O33) -/

/-- A unit of a packet at the head of an input queue of node 12, from its port 0. -/
def netQ (p : Packet) (idx : Nat) : State :=
  { State.reset with net := { Net.reset with pkts := [(7, p)], nextId := 8, queues := [({ node := 12, inp := 4, vc := 0, dl := false }, [{ pid := 7, idx := idx, bad := false, since := 0 }])] } }
/-- Packets from node 12 to node 13 and to its own port 2. -/
def toNext : Packet := { req 0x04 0 with dstX := 1, dstY := 1, dstPort := 1, srcX := 0, srcY := 1 }
def toSelf (n : Nat) : Packet := { req 0x02 n with dstX := 0, dstY := 1, dstPort := 2 }
/-- The first unit of a packet with data at its ejection, and its last. -/
def ejecting (idx n : Nat) : State :=
  let s := netQ (toSelf n) idx
  { s with net := { s.net with holds := if idx = 0 then [] else [{ key := { node := 12, inp := 26, vc := 0, dl := false }, pid := 7, sent := idx }] } }
/-- The next node is lost. -/
def nextLost (c : Nat) : State := { netQ { toNext with cmd := BitVec.ofNat 8 c } 0 with regs := [(R.NW_NODE_CTL 13, F.NW_NODE_CTL_LOST.put 0 1)] }
/-- No link of node 12 is UP. -/
def linksDown : State :=
  { netQ { toNext with cmd := 0x20 } 0 with regs := [(R.NW_NODE_STAT 12, 0), (R.NW_NODE_STAT 13, 0), (R.NW_NODE_STAT 11, 0), (R.NW_NODE_STAT 23, 0)] }

/-- A notice at node 9 that link l of node 12 is cut; the test of a link's CRC, over that of node 12 to node 13. -/
def cutNote (l : Nat) : Packet := Packet.sealed { req 0x30 1 with dstX := 9, dstY := 0, dstPort := 0, addr := BitVec.ofNat 48 (48 + l) }
def testing : State :=
  { netQ toNext 0 with regs := [(R.NW_TEST, bits [(F.NW_TEST_NODE, 12), (F.NW_TEST_LINK, 0), (F.NW_TEST_COUNT, 2)])] }

theorem witness_NetworkLinks :
    ((nextLost 0x04).netDead 12 = some (7, toNext, 10) ∧ isResponse toNext.cmd.toNat = false ∧ toNext.cmd.toNat ≠ 0x30 ∧
      (nextLost 0x04).lost 12 = false ∧ (nextLost 0x04).net.trace = [] ∧ ∀ k < 16, (nextLost 0x04).rb (R.DB_PRB_CFG k) F.DB_PRB_CFG_EN = false) ∧
    (linksDown.netDead 12).map (fun e => (e.1, e.2.1)) = some (7, { toNext with cmd := 0x20 }) ∧ isResponse 0x20 = true ∧
    (State.reset.netDead 12 = none ∧ State.reset.netWinner 12 0 = none) ∧
    ((netQ toNext 0).netDead 12 = none ∧ ((netQ toNext 0).netWinner 12 0).isSome = true ∧ (netQ toNext 0).rf R.NW_TEST F.NW_TEST_COUNT = 0 ∧
      ((netQ toNext 0).netWinner 12 0).all (fun c => (netQ toNext 0).waiting c.src == []) = true) ∧
    ((ejecting 0 2).netDead 12 = none ∧ ((ejecting 0 2).netWinner 12 6).map (fun c => (c.unit.idx, c.pkt.data.length)) = some (0, 2)) ∧
    ((ejecting 2 2).netDead 12 = none ∧ ((ejecting 2 2).netWinner 12 6).map (fun c => (c.unit.idx, c.pkt.data.length)) = some (2, 2)) ∧
    (State.reset.linkUp (neighbour 12 0) (oppLink 0) = true ∧ State.reset.crcRunOf 12 0 < 3) ∧
    (let s := { State.reset with net := { Net.reset with crcRun := [(12, 0, 3)] } }
     s.linkUp (neighbour 12 0) (oppLink 0) = true ∧ 3 ≤ s.crcRunOf 12 0) ∧
    linksDown.linkUp (neighbour 12 0) (oppLink 0) = false ∧
    (∀ l < 4, ∀ up ∈ [true, false], let p := cutNote l
     let s := { State.reset with regs := if up then [] else [(R.NW_NODE_STAT 12, 0)], net := { Net.reset with inbox := [p] } }
     s.firstIn p = true ∧ p.cmd.toNat = 0x30 ∧ p.dst < 120 ∧ s.linkUp (p.addr.toNat / 4 % 120) (p.addr.toNat % 4) = up ∧ p.addr.toNat % 4 = l) ∧
    State.reset.firstIn (cutNote 0) = false ∧
    (State.reset.lost 119 = false ∧ (nextLost 4).lost 13 = true) ∧
    (let s := testing
     s.netDead 12 = none ∧ (s.netWinner 12 0).isSome = true ∧ s.rf R.NW_TEST F.NW_TEST_NODE = 12 ∧ s.rf R.NW_TEST F.NW_TEST_LINK = 0 ∧
       s.rf R.NW_TEST F.NW_TEST_COUNT = 2 ∧ s.crcRunOf (neighbour 12 0) (oppLink 0) = 0) := by decide +kernel

/-- A response of a code and status for node 13's queue engine at the target, whose request waits. -/
def rspP (c st : Nat) : Packet := Packet.sealed { req c 0 with dstX := 1, dstY := 1, dstPort := 2, status := BitVec.ofNat 6 st }
def waitsRsp (p : Packet) (known : Bool) : State :=
  { State.reset with
    yk := { Yoke.reset with time := 0x80000 }
    net := { Net.reset with inbox := [p], outst := if known then [{ node := 13, port := 2, tag := 5, req := toNext, time := 0, again := false, key := 9 }] else [] } }
/-- The same, the request a RD. -/
def waitsRd (p : Packet) : State :=
  let s := waitsRsp p false
  { s with net := { s.net with outst := [{ node := 13, port := 2, tag := 5, req := { toNext with cmd := 1, srcX := 1, srcPort := 2 }, time := 0, again := false, key := 9 }] } }

/-- The same for a requester outside the model: port 3 of node 115. -/
def outerO : Outst := { node := 115, port := 3, tag := 5, req := { toNext with srcX := 7, srcY := 9, srcPort := 3 }, time := 0, again := false, key := 9 }
def rspAt (c : Nat) : Packet := Packet.sealed { req c 0 with dstX := 7, dstY := 9, dstPort := 3 }
def outer (p : Packet) : State :=
  { State.reset with yk := { Yoke.reset with time := 0x80000 }, net := { Net.reset with inbox := [p], outst := [outerO] } }

theorem witness_NetworkResponses :
    (∀ c ∈ [0x20, 0x21, 0x33],
      let p := rspP c 0
      let hit := fun (o : Outst) => o.node == p.dst && o.port == p.dstPort.toNat && o.tag == p.tag.toNat
      p.cmd.toNat = c ∧ (waitsRsp p false).firstIn p = true ∧ (waitsRsp p false).net.outst.find? hit = none ∧
      (let s := waitsRsp p true
       let o : Outst := { node := 13, port := 2, tag := 5, req := toNext, time := 0, again := false, key := 9 }
       s.net.outst.find? hit = some o ∧ 2 ≤ s.domState (nodeDomain p.dst p.dstPort.toNat) ∧ s.domState (nodeDomain p.dst p.dstPort.toNat) ≠ 5 ∧
         s.net.held = [] ∧ p.parOk = true ∧ p.bad = false ∧ p.status.toNat ≠ 9) ∧
      (let p := { rspAt c with par := (rspAt c).par + 1 }
       let s := outer p
       s.firstIn p = true ∧ s.net.outst.find? (fun o => o.node == p.dst && o.port == p.dstPort.toNat && o.tag == p.tag.toNat) = some outerO ∧
         2 ≤ s.domState (nodeDomain p.dst p.dstPort.toNat) ∧ s.domState (nodeDomain p.dst p.dstPort.toNat) ≠ 5 ∧ s.net.held = [] ∧
         p.parOk = false ∧ reissues outerO = false) ∧
      (let s := outer (rspAt c)
       s.firstIn (rspAt c) = true ∧ s.net.outst.find? (fun o => o.node == (rspAt c).dst && o.port == (rspAt c).dstPort.toNat && o.tag == (rspAt c).tag.toNat) = some outerO ∧
         2 ≤ s.domState (nodeDomain (rspAt c).dst (rspAt c).dstPort.toNat) ∧ s.net.held = [] ∧ (rspAt c).parOk = true ∧ (rspAt c).bad = false)) ∧
    (¬ (outerO.port = 0 ∧ (outerO.node = 1 ∨ outerO.node = 2 ∨ outerO.node = 111 ∨ outerO.node = 116)) ∧ ¬ (12 ≤ outerO.node ∧ outerO.node < 108 ∧ outerO.port = 2)) ∧
    (let p := rspP 0x20 9
     let s := waitsRd p
     let o : Outst := { node := 13, port := 2, tag := 5, req := { toNext with cmd := 1, srcX := 1, srcPort := 2 }, time := 0, again := false, key := 9 }
     s.net.outst.find? (fun o => o.node == p.dst && o.port == p.dstPort.toNat && o.tag == p.tag.toNat) = some o ∧ reissues o = true ∧
       p.parOk = true ∧ p.status.toNat = 9 ∧ (({ s with net := { s.net with outst := [] } } : State).freeTag o.req.src o.req.srcPort.toNat (some o.tag)) = some 0) ∧
    (State.reset.firstIn (rspP 0x20 0) = false) ∧
    (let s := outer (rspAt 0x20)
     s.net.outst.find? (fun o => (s.rg R.NW_RSP_TMO).toNat != 0 && decide (o.time + (s.rg R.NW_RSP_TMO).toNat ≤ s.nclk)) = some outerO ∧ s.net.held = []) ∧
    { State.reset with regs := [(R.NW_RSP_TMO, 0)] }.rg R.NW_RSP_TMO = 0 := by decide +kernel

/-- A memory request at stream memory bank 0. -/
def memP (c n : Nat) : Packet := Packet.sealed { req c n with dstX := 0, dstY := 1, dstPort := 0, addr := 0, len := 1 }
/-- A request at its target. -/
def arrivedAt (p : Packet) : State := { State.reset with net := { Net.reset with inbox := [p] } }
/-- Partition 1 may do nothing where no window says otherwise; partner 3 is in it. -/
def denied (p : Packet) : State := { arrivedAt p with sc := { Sc.reset with live := [(R.SC_PID_PART 0, 1 <<< 9)] } }
/-- The requests at a PE's local memory. -/
def lmP (c n : Nat) : Packet := Packet.sealed { req c n with len := 1 }
def lmClosed (p : Packet) : State := { arrivedAt p with regs := [(R.AR_TILE_CFG 13, 0)] }

theorem witness_NetworkMemory :
    (∀ c ∈ [(1, 0), (2, 1), (3, 1)],
      let p := memP c.1 c.2
      let s := arrivedAt p
      ∃ place, s.memReq p c.1 0 place ∧ s.fwPasses p 0 p.addr.toNat (c.1 != 2) (c.1 != 1) ∧ (∀ k < 4, s.classAt (place k) = .good) ∧
        s.rb R.SM_FLIP_CFG F.SM_FLIP_CFG_ARM = false ∧ p.be = 0xFFFFFFFF ∧ p.len = 1) ∧
    (∀ c ∈ [(1, 0), (2, 1), (3, 1)], ∀ s ∈ [arrivedAt (lmP c.1 c.2), lmClosed (lmP c.1 c.2)],
      ∃ place, s.memReq (lmP c.1 c.2) c.1 3 place) ∧
    (lmClosed (lmP 1 0)).rb (R.AR_TILE_CFG (peTile (0x1AA000 / 0x2000))) F.AR_TILE_CFG_LM_RING_EN = false ∧
    State.reset.rb (R.AR_TILE_CFG (peTile (0x1AA000 / 0x2000))) F.AR_TILE_CFG_LM_RING_EN = true := by
  refine ⟨?_, ?_, by decide, by decide⟩
  · simp only [List.forall_mem_cons, List.not_mem_nil, false_imp_iff, implies_true, and_true]
    exact ⟨⟨_, ⟨⟨by decide, by decide, by decide, by decide⟩, by decide, by decide, by decide, by decide, rfl, by decide⟩, rfl, by decide, by decide, by decide, by decide⟩,
      ⟨_, ⟨⟨by decide, by decide, by decide, by decide⟩, by decide, by decide, by decide, by decide, rfl, by decide⟩, rfl, by decide, by decide, by decide, by decide⟩,
      ⟨_, ⟨⟨by decide, by decide, by decide, by decide⟩, by decide, by decide, by decide, by decide, rfl, by decide⟩, rfl, by decide, by decide, by decide, by decide⟩⟩
  · simp only [List.forall_mem_cons, List.not_mem_nil, false_imp_iff, implies_true, and_true]
    exact ⟨⟨⟨_, ⟨by decide, by decide, by decide, by decide⟩, by decide, by decide, by decide, by decide, rfl, by decide⟩,
        ⟨_, ⟨by decide, by decide, by decide, by decide⟩, by decide, by decide, by decide, by decide, rfl, by decide⟩⟩,
      ⟨⟨_, ⟨by decide, by decide, by decide, by decide⟩, by decide, by decide, by decide, by decide, rfl, by decide⟩,
        ⟨_, ⟨by decide, by decide, by decide, by decide⟩, by decide, by decide, by decide, by decide, rfl, by decide⟩⟩,
      ⟨⟨_, ⟨by decide, by decide, by decide, by decide⟩, by decide, by decide, by decide, by decide, rfl, by decide⟩,
        ⟨_, ⟨by decide, by decide, by decide, by decide⟩, by decide, by decide, by decide, by decide, rfl, by decide⟩⟩⟩

/-- A request whose range does not fit its target, from partner 0 or 3. -/
def noRange (c : Nat) (partner : BitVec 10) : Packet := Packet.sealed { memP c (if c = 1 then 0 else 1) with addr := 0x80000, partner := partner }

theorem witness_NetworkMemory_refusals :
    (∀ c ∈ [1, 2, 3],
      (let p := { noRange c 0 with bad := true }
       (arrivedAt p).firstIn p = true ∧ (arrivedAt p).rangeOf p (memBytes p) = none ∧ p.parOk = true ∧ p.bad = true) ∧
      (let p := noRange c 0
       let s := { arrivedAt p with regs := [(R.PW_DOM_STAT 2, 0)] }
       s.rangeOf p (memBytes p) = none ∧ p.parOk = true ∧ p.bad = false ∧ s.seamTakes p (nodeDomain p.dst p.dstPort.toNat) = false) ∧
      (let p := noRange c 0
       let s := arrivedAt p
       s.rangeOf p (memBytes p) = none ∧ s.seamTakes p (nodeDomain p.dst p.dstPort.toNat) = true ∧ tileNode p.dst = true ∧ p.dstPort = 0 ∧
         (s.fwJudge p.partner.toNat 0 p.addr.toNat (p.cmd.toNat != 2) (p.cmd.toNat != 1)).2 = true) ∧
      (let p := noRange c 3
       let s := denied p
       s.rangeOf p (memBytes p) = none ∧ s.seamTakes p (nodeDomain p.dst p.dstPort.toNat) = true ∧ tileNode p.dst = true ∧ p.dstPort = 0 ∧
         (s.fwJudge p.partner.toNat 0 p.addr.toNat (p.cmd.toNat != 2) (p.cmd.toNat != 1)).2 = false)) ∧
    (let p := memP 0x06 0
     (arrivedAt p).firstIn p = true ∧ p.parOk = true ∧ p.bad = false ∧ cmdKnown p.cmd.toNat = false) ∧
    (State.reset.firstIn (noRange 1 0) = false) := by decide +kernel

/-- A register request of GL_SCRATCH, and its node; requests to an engine, the event unit and the Lace. -/
def regP (c n : Nat) : Packet := Packet.sealed { req c n with dstX := 6, dstY := 9, dstPort := 1, addr := 8, be := 0xF }
def kickP (q : Nat) : Packet := Packet.sealed { req 0x10 0 with dstX := 0, dstY := 1, dstPort := 2, addr := BitVec.ofNat 48 q }
def kickOn : State :=
  { arrivedAt (kickP 5) with regs := [(R.SQ_Q_CFG 5, bits [(F.SQ_Q_CFG_EN, 1), (F.SQ_Q_CFG_GATED, 1)]), (R.SQ_Q_KICK 5, bits [(F.SQ_Q_KICK_KICK_N, 3)])] }
def laceP (c d : Nat) : Packet := Packet.sealed { req c 1 with dstX := 3, dstY := 9, dstPort := 0, data := [BitVec.ofNat 256 d] }

theorem witness_NetworkRequests :
    (∀ c ∈ [(4, 0), (5, 1), (0x31, 0), (0x32, 1)],
      let p := regP c.1 c.2
      let s := arrivedAt p
      (∀ k < 16, s.rb (R.DB_PRB_CFG k) F.DB_PRB_CFG_EN = false) ∧
      (s.firstIn p = true ∧ p.cmd.toNat = c.1 ∧ p.parOk = true ∧ p.bad = false) ∧ p.dstPort = 1 ∧ p.be = 0xF ∧ p.data.length = c.2 ∧
      p.addr.toNat < 0x6F0000 ∧ blockNode (blockOf p.addr.toNat) = p.dst ∧ p.addr.toNat % 4 = 0 ∧ backed p.addr.toNat = true ∧
      inUwin p.addr.toNat = false ∧ s.domOn (blockDomain (blockOf p.addr.toNat)) = true ∧ (s.fwJudge 0 1 8 true true).2 = true ∧
      s.mkHolds p (c.2 == 1) = false ∧ p.addr.toNat = R.GL_SCRATCH ∧ s.blkHeld 0 = false) ∧
    (((arrivedAt (regP 5 1)).unboxed (regP 5 1)).regWrite ((arrivedAt (regP 5 1)).whoOf (regP 5 1)) 8 0).2 = true := by decide +kernel

theorem witness_NetworkRequests_more :
    (∀ c ∈ [4, 5], ∀ a ∈ [9, 0x6EFFFC],
      let p := Packet.sealed { regP c (c - 4) with addr := BitVec.ofNat 48 a }
      (arrivedAt p).firstIn p = true ∧ p.cmd.toNat = c ∧ p.parOk = true ∧ p.bad = false ∧ p.dstPort = 1 ∧ regNode p.dst = true ∧ p.addr.toNat < 0x6F0000 ∧
        ((arrivedAt p).fwJudge 0 1 a true true).2 = true ∧ (p.addr.toNat % 4 ≠ 0 ∨ backed p.addr.toNat = false)) ∧
    (∀ c ∈ [4, 5], let p := Packet.sealed { regP c (c - 4) with dstX := 9 }
      (arrivedAt p).firstIn p = true ∧ p.cmd.toNat = c ∧ p.parOk = true ∧ p.bad = false ∧ p.dstPort = 1 ∧ regNode p.dst = false ∧ (arrivedAt p).mkHolds p (c == 5) = false) ∧
    (kickOn.firstIn (kickP 5) = true ∧ tileNode (kickP 5).dst = true ∧ (kickP 5).dstPort = 2 ∧ (kickP 5).addr.toNat % 0x1000 = 5 ∧
      kickOn.domOn (nodeDomain (kickP 5).dst 2) = true ∧ kickOn.engineNode 5 = (kickP 5).dst ∧ kickOn.rb (R.SQ_Q_CFG 5) F.SQ_Q_CFG_EN = true ∧
      kickOn.rb (R.SQ_Q_CFG 5) F.SQ_Q_CFG_GATED = true) ∧
    ((arrivedAt (kickP 1024)).firstIn (kickP 1024) = true ∧ (kickP 1024).addr.toNat % 0x1000 = 1024) ∧
    (let p := Packet.sealed { req 0x11 1 with dstX := 6, dstY := 0, dstPort := 0, data := [1023] }
     (arrivedAt p).firstIn p = true ∧ p.parOk = true ∧ p.bad = false ∧ p.cmd.toNat = 0x11 ∧ p.dst = 6 ∧ p.dstPort = 0 ∧ (arrivedAt p).domOn (nodeDomain p.dst p.dstPort.toNat) = true ∧
       (p.data.headD 0).toNat % 2048 < 1024) ∧
    (∀ p ∈ [laceP 0x12 0x40, laceP 0x12 5, laceP 0x13 0], (arrivedAt p).firstIn p = true ∧ p.parOk = true ∧ p.bad = false ∧ p.dst = 111 ∧ p.dstPort = 0 ∧
      (arrivedAt p).domOn (nodeDomain p.dst p.dstPort.toNat) = true) ∧
    ((laceP 0x12 0x40).data.headD 0).getLsbD 6 = true ∧ ((laceP 0x12 5).data.headD 0).getLsbD 6 = false ∧ State.reset.lcRoute 5 = none ∧
    (backed R.GL_SCRATCH = true ∧ inUwin R.GL_SCRATCH = false ∧ State.reset.domOn (blockDomain (blockOf R.GL_SCRATCH)) = true ∧
      State.reset.blkHeld 0 = false ∧ backed 0x6EFFFC = false) ∧
    State.reset.blkHeld 22 = false ∧ (resetting 0 0).blkHeld 22 = true := by decide +kernel

/-- Words waiting for correction and poison; a scrub at its start, or past its end; the background scrubbers on. -/
def upkeep (syn7 : Nat) : State :=
  { State.reset with
    regs := [(R.SM_BGS_CFG 3, bits [(F.SM_BGS_CFG_EN, 1), (F.SM_BGS_CFG_PERIOD, 1)]), (R.SM_BGS_CFG 4, bits [(F.SM_BGS_CFG_EN, 1), (F.SM_BGS_CFG_PERIOD, 1)])]
    syn := [(2, 7), (memCore / 8, BitVec.ofNat 8 syn7)], yk := { Yoke.reset with time := 500000 }
    sm := { Smm.reset with wbq := [16], poison := [memPleat], fills := [{ ranges := [(memLM, memLM + 8)], dom := some 3 }, { ranges := [(0, 8)], dom := none }] } }
def scrub0 (next last : Nat) : Scrub := { group := 0, next := next, last := last, stop := false, bad := none, left := [] }
def scrubs (next last : Nat) : State :=
  { State.reset with sm := { Smm.reset with scrub := some { group := 0, next := next, last := last, stop := false, bad := none, left := [] } } }
def bgsDone : State :=
  let s := upkeep 0
  { s with sm := { s.sm with bgs4 := { next := 0, start := 0, done := true }, fills := [{ ranges := [(0, 8)], dom := none }] } }

theorem witness_StreamMemoryUpkeep :
    ((upkeep 0).sm.wbq = [16] ∧ State.reset.sm.wbq = [] ∧ (upkeep 0).sm.poison = [memPleat] ∧ groupOf memPleat = 4 ∧ State.reset.sm.poison = []) ∧
    (State.reset.sm.scrub = none ∧ State.reset.rf R.SM_SCR_CFG F.SM_SCR_CFG_GROUP ≠ 3) ∧
    ((scrubs 0 32).sm.scrub = some (scrub0 0 32) ∧ 0 + 32 ≤ 32 ∧
      (∀ i < 4, (scrubs 0 32).scrubPlace (scrub0 0 32) (0 + 8 * i) = some (8 * i) ∧ (scrubs 0 32).classAt (8 * i) = .good)) ∧
    ((scrubs 0 32).sm.fills = [] ∧ (scrubs 0 32).sm.run = none) ∧
    (let s := { scrubs 0 32 with sm := { (scrubs 0 32).sm with fills := [{ ranges := [(0, 8)], dom := none }] } }
     s.scrubPlace (scrub0 0 32) 0 = some 0 ∧ s.filling 0 = true) ∧
    ((scrubs 40 32).sm.scrub = some { group := 0, next := 40, last := 32, stop := false, bad := none, left := [] } ∧ 32 < 40) ∧
    (∀ c ∈ [(0, EccClass.good), (7, .corrected 0), (3, .uncorrectable)],
      let s := upkeep c.1
      (s.bgsOf 0).next % 8 = 0 ∧ s.rb (R.SM_BGS_CFG 3) F.SM_BGS_CFG_EN = true ∧ (s.bgsOf 0).done = false ∧ s.classAt (memCore + 0) = c.2 ∧ s.filling (memCore + 0) = false ∧
        (s.bgsOf 0).next + 8 < 0x80000) ∧
    (let s := { State.reset with regs := [(R.SM_BGS_CFG 3, 0), (R.SM_BGS_CFG 4, 0)] }
     s.rb (R.SM_BGS_CFG 3) F.SM_BGS_CFG_EN = false ∧ s.rb (R.SM_BGS_CFG 4) F.SM_BGS_CFG_EN = false) ∧
    (∀ g < 2, (bgsDone.bgsOf g).start + 500000 * bgsDone.rf (R.SM_BGS_CFG (3 + g)) F.SM_BGS_CFG_PERIOD ≤ bgsDone.now ∧ (bgsDone.bgsOf g).done = decide (g = 1)) ∧
    ((upkeep 0).sm.fills = { ranges := [(memLM, memLM + 8)], dom := some 3 } :: [{ ranges := [(0, 8)], dom := none }] ∧
      bgsDone.sm.fills = { ranges := [(0, 8)], dom := none } :: [] ∧ State.reset.sm.fills = []) ∧
    (State.reset.sm.run = none ∧ State.reset.blkHeld 9 = false ∧ (resetting 0 0).blkHeld 9 = true) ∧
    (let p := memP 1 0
     let s := arrivedAt p
     s.net.inbox.filter (fun p => tileNode p.dst && p.dstPort == 0 && !isResponse p.cmd.toNat) = [p] ∧ p.parOk = true ∧ (s.smbJudge p).2 = 0) := by decide +kernel

/-! Spare rows and the fabric (O34 to O37) -/

/-- Stream memory with rows of bank 0 repaired, and a copy under way. -/
def spares (l : List (Nat × RepairKind)) (run : Option RepairRun) : State :=
  { State.reset with sm := { Smm.reset with repairs := (l.zipIdx.map (fun ((r, k), i) => Repair.mk 0 r i k)), run := run } }
/-- Every spare row of bank 0 used. -/
def allSpares (k : RepairKind) : State := spares ((List.range 7).map (fun i => (i, .factory)) ++ [(9, k)]) none
/-- A copy of row 5 of bank 0 into spare row 0, or back. -/
def copying (back : Bool) : RepairRun := { bank := 0, row := 5, spare := 0, kind := .temp, back := back }

theorem witness_SpareRows :
    (let s := allSpares .factory
     s.sm.repairs.find? (fun r => r.bank == (0 : Fin 96).val && r.row == (5 : Fin 4096).val && decide (r.kind = .temp)) = none ∧ s.freeSpare 0 = none) ∧
    (let s := spares [(7, .soft), (8, .soft)] none
     (s.freeSpare 0).isSome = true ∧ 2 ≤ (s.repairsOf 0 .soft).length) ∧
    (let s := spares [] (some (copying false))
     (s.freeSpare 0).isSome = true ∧ (s.repairsOf 0 .soft).length < 2 ∧ s.sm.run.isSome = true) ∧
    (let s := State.reset
     s.sm.repairs.find? (fun r => r.bank == (0 : Fin 96).val && r.row == (5 : Fin 4096).val && decide (r.kind = .temp)) = none ∧ s.freeSpare 0 = some 0 ∧
       s.repairsOf 0 .soft = [] ∧ s.repairsOf 0 .temp = [] ∧ s.sm.run = none) ∧
    (let s := spares [(5, .temp)] none
     s.sm.repairs.find? (fun r => r.bank == (0 : Fin 96).val && r.row == (5 : Fin 4096).val && decide (r.kind = .temp)) =
       some { bank := 0, row := 5, spare := 0, kind := .temp } ∧ s.sm.run = none ∧ (s.freeSpare 0).isSome = true ∧ 1 ≤ (s.repairsOf 0 .temp).length) ∧
    (let s := spares [(5, .temp)] (some (copying false))
     (s.sm.repairs.find? (fun r => r.bank == (0 : Fin 96).val && r.row == (5 : Fin 4096).val && decide (r.kind = .temp))).isSome = true ∧ s.sm.run.isSome = true) ∧
    (∀ b ∈ [false, true], let s := spares [(5, .temp)] (some (copying b))
     s.sm.run = some (copying b) ∧ (copying b).row < 4096 ∧
       ∀ w < 16, s.classAt ((if b then memSpare else s.smbPlace (128 * 5)) + 8 * w) = .good) := by decide +kernel

/-- The fabric at a stage of its release, all of its parts held at `reg`. -/
def fabAt (stage : Nat) (regs : List (Nat × Word)) (fb : Fb) : State :=
  { State.reset with regs := (R.FB_REL_STAT, w32 stage) :: regs, fb := fb, yk := { Yoke.reset with time := 200000 } }
/-- Multiplexers: switching to 3 while it runs at 1, with and without a next select; low by now; and idle. -/
def muxes : Fb :=
  let k : ClkMux := { cur := 1, goal := some 3, low := false, fell := 0, pend := none, edge := 0 }
  { Fb.reset with mux := [(1, k), (2, { k with pend := some 4 }), (3, { k with low := true })] }
/-- Accesses of a block RAM: whole words of each width; the words that they touch. -/
def bacc (we : Bool) (width : Fin 7) (a : BitVec 15) : BramAcc := { we := we, width := width, mode := 0, addr := a, data := 0x5A5A }

theorem witness_FabricParts :
    (let s := fabAt 3 [(R.FB_TL_CFG 0, F.FB_TL_CFG_EN.put 0 1), (R.FB_TL_CFG 1, 0)] { Fb.reset with tl := [(1, { keep := true, rel := true })] }
     s.rb (R.FB_TL_CFG 0) F.FB_TL_CFG_EN = true ∧ (s.tline 0).rel = false ∧ (s.tline 1).rel = true ∧ s.rb (R.FB_TL_CFG 1) F.FB_TL_CFG_EN = false) ∧
    (let s := fabAt 3 [(R.FB_PLL_STAT 0, F.FB_PLL_STAT_LOCK.put 0 1), (R.FB_PLL_STAT 1, 0), (R.FB_PLL_CFG 2, 0), (R.FB_PLL_CFG 3, F.FB_PLL_CFG_RST.put 0 1)] Fb.reset
     s.rb (R.FB_PLL_STAT 0) F.FB_PLL_STAT_LOCK = true ∧ s.rb (R.FB_PLL_STAT 1) F.FB_PLL_STAT_LOCK = false ∧
       s.rb (R.FB_PLL_CFG 2) F.FB_PLL_CFG_RST = false ∧ s.rb (R.FB_PLL_CFG 3) F.FB_PLL_CFG_RST = true) ∧
    (let s := fabAt 3 [] muxes
     (s.cmux 0).goal = none ∧ (s.cmux 0).cur = 0 ∧ (s.cmux 0).pend = none ∧ (s.cmux 0).low = false ∧ (s.cmux 1).goal = some 3 ∧ (s.cmux 1).low = false ∧
       (s.cmux 1).edge + 500 ≤ s.now ∧ (s.cmux 1).fell + (2 : Fin 3).val = 2 ∧ (s.cmux 1).pend = none ∧ (s.cmux 2).goal = some 3 ∧
       (s.cmux 2).pend = some 4 ∧ (s.cmux 3).low = true ∧ (s.cmux 2).fell + 2 = 2) ∧
    (∀ x ∈ [bacc false 0 32767, bacc false 6 511, bacc true 0 0, bacc true 5 1023, bacc true 6 0],
     let s := fabAt 3 [] Fb.reset
     (∀ w ∈ x.words, s.classAt (bramPlace 239 w) = .good) ∧ s.filling (bramPlace 239 0) = false ∧ 2 ≤ s.fbStage ∧
       s.rb R.SM_FLIP_CFG F.SM_FLIP_CFG_ARM = false) ∧
    (bacc true 5 0).words = [0] ∧ (bacc true 2 1).words = [0] ∧
    (let s := fabAt 3 [(R.FB_TMR_CFG 0, F.FB_TMR_CFG_EN.put 0 1), (R.FB_TMR_CFG 1, F.FB_TMR_CFG_CAP_VALID.put 0 1)] { Fb.reset with tmrTrig := [0, 1] }
     s.rb (R.FB_TMR_CFG 0) F.FB_TMR_CFG_EN = true ∧ s.rb (R.FB_TMR_CFG 2) F.FB_TMR_CFG_EN = false ∧ 2 ≤ s.fbStage ∧ s.domOn 10 = true ∧
       s.domOn 11 = true ∧ s.rb (R.FB_TMR_CFG 0) F.FB_TMR_CFG_CAP_VALID = false ∧ s.rb (R.FB_TMR_CFG 1) F.FB_TMR_CFG_CAP_VALID = true ∧
       (1 : Fin 32).val ∈ s.fb.tmrTrig ∧ (2 : Fin 32).val ∉ s.fb.tmrTrig) ∧
    (let s := fabAt 3 [(R.PW_DOM_STAT 10, 0)] { Fb.reset with tmrTrig := [1] }
     (1 : Fin 32).val ∈ s.fb.tmrTrig ∧ s.domOn 10 = false) ∧
    (let s := fabAt 3 [(R.FB_CAP_STAT, F.FB_CAP_STAT_ARMED.put 0 1), (R.FB_CAP_CFG, F.FB_CAP_CFG_DELAY.put 0 7)] { Fb.reset with capTrig := true }
     s.rb R.FB_CAP_STAT F.FB_CAP_STAT_ARMED = true ∧ s.fb.capTrig = true ∧ (7 : BitVec 16).toNat = max 1 (s.rf R.FB_CAP_CFG F.FB_CAP_CFG_DELAY)) ∧
    State.reset.rb R.FB_CAP_STAT F.FB_CAP_STAT_ARMED = false := by decide +kernel

/-- User window accesses that wait: of the network, and of the host; a region that is Sleeved; regions in stages of their release. -/
def uwinQ (l : List (Option Packet × Nat × Option (BitVec 32) × Nat)) : State := fabAt 3 [] { Fb.reset with uwin := l }
def regionsAt (stage : Nat) : State :=
  { fabAt 1 [] Fb.reset with cg := { Cg.reset with regions := (List.range 16).map (fun k => (k, { stage := stage, at_ := 0, hdr := [], own := none })) } }
/-- The image has passed, the PLLs are locked and CFG_DONE is high. -/
def proofDone : State :=
  fabAt 0 ((R.CG_STATUS, F.CG_STATUS_STATE.put 0 5) :: (List.range 4).map (fun p => (R.FB_PLL_STAT p, F.FB_PLL_STAT_LOCK.put 0 1))) { Fb.reset with cfgDone := true }

theorem witness_FabricConnections :
    (∀ k < 16, State.reset.rb (R.DB_PRB_CFG k) F.DB_PRB_CFG_EN = false) ∧
    (let s := fabAt 3 [(R.FB_MPORT_CFG 0, bits [(F.FB_MPORT_CFG_EN, 1), (F.FB_MPORT_CFG_PARTNER, 7)])] Fb.reset
     s.rb (R.FB_MPORT_CFG 0) F.FB_MPORT_CFG_EN = true ∧ s.connHeld 96 = false ∧ s.net.outst = [] ∧ s.net.held = [] ∧
       s.rb (R.FB_MPORT_CFG 1) F.FB_MPORT_CFG_EN = false) ∧
    (F.FB_MPORT_CFG_PARTNER.get 0 < 4 ∧ 4 ≤ F.FB_MPORT_CFG_PARTNER.get (F.FB_MPORT_CFG_PARTNER.put 0 4)) ∧
    ((uwinQ [(some pkt, 4, none, 0)]).fb.uwin = [(some pkt, 4, none, 0)] ∧ (uwinQ [(none, 4, none, 0)]).fb.uwin = [(none, 4, none, 0)] ∧
      0 + 4 * (uwinQ [(some pkt, 4, none, 0)]).rf R.FB_UWIN_TMO F.FB_UWIN_TMO_TMO ≤ (uwinQ [(some pkt, 4, none, 0)]).nclk ∧ State.reset.fb.uwin = []) ∧
    (((regionsAt 0).cgr (connRegion (regionsAt 0).cg.hdr 100)).stage = 0 ∧ (State.reset.cgr (connRegion State.reset.cg.hdr 100)).stage ≠ 0) ∧
    (proofDone.fbStage = 0 ∧ proofDone.proofPassed = true ∧ proofDone.pllsReady = true ∧ proofDone.fb.cfgDone = true ∧ proofDone.fb.hold = false ∧
      State.reset.proofPassed = false) ∧
    (∀ n ∈ [1, 2], let s := fabAt n [] Fb.reset
     s.fbStage = n ∧ s.fb.hold = false ∧ s.fb.relAt + 64 ≤ s.now ∧ s.fb.blk = false ∧ s.blkHeld 10 = false) ∧
    State.reset.now < State.reset.fb.relAt + 64 ∧
    (∀ n ∈ [1, 2], let s := regionsAt n
     s.fb.hold = false ∧ (s.cgr 14).at_ + 64 ≤ s.now ∧ (s.cgr 14).stage = n) ∧
    ((fabAt 3 [] Fb.reset).fbStage = 3 ∧ (fabAt 1 [] Fb.reset).fbStage ≠ 3) ∧
    ((fabAt 3 [] { Fb.reset with cfgDone := true }).fb.cfgDone = true) ∧ (fabAt 1 [] Fb.reset).enabledQs = [] ∧ (resetting 0 0).blkHeld 10 = true := by
  decide +kernel

/-- Serial blocks of region 7 with room in one queue and none in the others. -/
def serials : State :=
  let k := Serial.idle
  fabAt 3 [] { Fb.reset with serial := [(7, Serial.mk { k.spi with tx := [5], master := true } { k.i2c with rx := List.replicate 7 1 }
    { k.uart with tx := List.replicate 16 1, cts := false })] }

theorem witness_SerialBlocks :
    serials.pending = [] ∧ 2 ≤ serials.fbStage ∧ serials.domOn (regionDom 7) = true ∧ (fabAt 1 [] Fb.reset).fbStage < 2 ∧
    (SerEvent.spiPut 1).writes = true ∧ (fabAt 3 [(R.PW_DOM_STAT (regionDom 7), 0)] Fb.reset).domOn (regionDom 7) = false ∧
    (serials.ser 7).spi.tx = 5 :: [] ∧ (serials.ser 7).spi.rx.length < 16 ∧ (serials.ser 6).spi.tx = [] := by decide +kernel

/-! Configuration (O38 and O39) -/

/-- Zeros, and an image's first 0x6000 bytes: one run of `count` frames (or planes), with a FRAME_HASH. -/
def zeros (n : Nat) : List Byte := List.replicate n 0
def imgPre (kind region len runs : Nat) : List Byte :=
  bytesLE 4 0x46435651 ++ bytesLE 2 1 ++ bytesLE 2 kind ++ bytesLE 4 0x96 ++ [0x42, BitVec.ofNat 8 region, 0, 0] ++ bytesLE 4 0 ++ bytesLE 4 len ++
  bytesLE 2 runs ++ zeros 6
def imgPost (planes start count : Nat) : List Byte :=
  zeros 0x38 ++ bytesLE 4 planes ++ zeros (0x300 - 0x8C) ++ bytesLE 4 start ++ bytesLE 4 count ++ zeros (0x1000 - 0x308)
def imgOf (kind region len runs planes start count : Nat) (hash tail : List Byte) : List Byte :=
  imgPre kind region len runs ++ (hash ++ (imgPost planes start count ++ tail))
/-- Images of each kind, of one frame or one plane. -/
def img1 : List Byte := imgOf 1 0 24900 1 0 7 1 (zeros 48) (zeros 0x5000)
def img2 : List Byte := imgOf 2 3 24900 1 0 7 1 (zeros 48) (zeros 0x5000)
def img3 : List Byte := imgOf 3 0 24900 1 0 7 1 (zeros 48) []
def img4 : List Byte := imgOf 4 0 73732 0 1 0 0 (zeros 48) (zeros 0x5000)
/-- The content of one frame, and images that carry its hash. -/
def content1 : List Byte := zeros 320
def hashed (kind region : Nat) : List Byte := imgOf kind region 24900 1 0 7 1 (hashBytes (Config.sha384 content1)) (zeros 0x5000)
/-- The configuration unit in a state, a boot source, its other state. -/
def cfgAt (st boot : Nat) (cg : Cg) : State :=
  { State.reset with regs := [(R.GL_STAT, F.GL_STAT_MODE.put 0 1), (R.CG_STATUS, bits [(F.CG_STATUS_STATE, st), (F.CG_STATUS_BOOT, boot)])], cg := cg, yk := { Yoke.reset with time := 5000000 } }
/-- A boot attempt from a held image. -/
def booting (hdr : List Byte) (sig : Option Nat) (units : Nat) : BootRun :=
  { src := .held (zeros 24896 ++ bytesLE 4 (crc32c (hdr ++ content1))), idx := 2, hdr := hdr, sig := sig, units := units, got := content1 }
/-- An image for a DISC-sealed boot. -/
def sealed3 (s : State) : List Byte :=
  (img3 ++ zeros 0x200) ++ (hashBytes (Config.hmac384 (s.derivedKey "QV-SEAL") ((img3 ++ zeros 0x200).take 0x1000)) ++ zeros (0x6000 - 0x1230))
/-- A staging of one plane whose content has come. -/
def staging (hdr : List Byte) : LibRun :=
  { lace := false, bcast := false, base := 3, hdr := hdr, sig := true, src := .held (zeros 73728 ++ bytesLE 4 (crc32c (hdr ++ zeros 0xC000))), got := zeros 0xC000 }
def libImg : List Byte := imgOf 4 0 73732 0 1 0 0 (hashBytes (Config.sha384 (zeros 0xC000))) (zeros 0x5000)
/-- Stream memory holds an image at 0; flash one of KIND 4 at the library's place. -/
def smbImg : State :=
  { cfgAt 4 1 Cg.reset with mem := (((List.range 0x308).zip img1).filter (fun e => e.2 != 0)) }
def flashImg : State :=
  let cells := fun (o n : Nat) => (List.range n).map (fun i => (flAt (0x1C00000 + o + i), (img4.drop (o + i)).headD 0))
  { State.reset with
    mem := cells 0 0x20 ++ cells 0x80 0x20 ++ cells 0x100 0x20
    syn := (List.range 4).map (fun i => (flAt 0x1C00000 / 8 + i, 0)) ++ (List.range 4).map (fun i => (flAt 0x1C00080 / 8 + i, 0)) ++ (List.range 4).map (fun i => (flAt 0x1C00100 / 8 + i, 0)) }

theorem length_zeros (n : Nat) : (zeros n).length = n := List.length_replicate
theorem length_imgPre (k r l n : Nat) : (imgPre k r l n).length = 0x20 := by simp [imgPre, length_bytesLE, length_zeros]
theorem imgFrameHash_imgOf (k r l n p a c : Nat) (h t : List Byte) (hh : h.length = 48) : imgFrameHash (imgOf k r l n p a c h t) = h :=
  sliceB_middle _ _ _ (length_imgPre k r l n) hh

/-- Step 4 passes for an image that carries the hash of its content and its CRC. -/
theorem proofEnd_passes (hdr got : List Byte) (h : imgFrameHash hdr = hashBytes (Config.sha384 got)) :
    proofEndBad hdr got (bytesLE 4 (crc32c (hdr ++ got))) = none := by
  simp [proofEndBad, h, crc32c_read]

theorem proofEnd_fails (hdr got crc : List Byte) (h : imgFrameHash hdr = hashBytes (Config.sha384 got)) (hc : ofBytesLE crc ≠ crc32c (hdr ++ got)) :
    proofEndBad hdr got crc = some 7 := by
  simp [proofEndBad, h, Ne.symm hc]

theorem witness_BootAndLibrary_boot :
    (let s := cfgAt 0 1 Cg.reset
     s.blkHeld 11 = false ∧ s.rf R.CG_STATUS F.CG_STATUS_STATE = 0 ∧ s.qvMode = true ∧ s.rf R.CG_STATUS F.CG_STATUS_BOOT = 1) ∧
    img1.length = 0x6000 ∧ headerBad 1 (img1.take 0x1000) = none ∧ headerBad 1 ((zeros 0x6000).take 0x1000) = some 1 ∧
    (resetting 0 0).blkHeld 11 = true ∧
    (State.reset.rf R.CG_STATUS F.CG_STATUS_STATE ≠ 4) ∧
    (let s := cfgAt 3 1 Cg.reset
     s.rf R.CG_STATUS F.CG_STATUS_STATE = 3 ∧ s.cg.failAt + 5000000 ≤ s.now ∧ s.qvMode = true ∧ s.rf R.CG_STATUS F.CG_STATUS_BOOT = 1) ∧
    State.reset.now < State.reset.cg.failAt + 5000000 ∧
    (let s := cfgAt 1 1 { Cg.reset with boot := some (booting img1 none 0) }
     s.cg.boot = some (booting img1 none 0) ∧ (booting img1 none 0).idx = 2 ∧ (booting img1 none 0).hdr ≠ [] ∧ s.proofSig img1 false = .inr 3 ∧
       0 < (imgUnits img1).length) ∧
    State.reset.cg.boot = none ∧ State.reset.cg.lib = none := by
  refine ⟨by decide, by simp [img1, imgOf, imgPost, length_imgPre, length_bytesLE, length_zeros], by decide +kernel, by decide +kernel, by decide, by decide, by decide,
    by decide, ⟨rfl, rfl, ?_, by decide +kernel, by decide +kernel⟩, rfl, rfl⟩
  show img1 ≠ []
  intro h
  have : img1.length = 0 := by rw [h]; rfl
  simp [img1, imgOf, imgPost, length_imgPre, length_bytesLE, length_zeros] at this

/-- The host's image in stream memory. -/
theorem witness_BootAndLibrary_host : ∃ h r, smbImg.yields (ImgSrc.smb (4096 * smbImg.rf R.CG_HOST_BASE F.CG_HOST_BASE_BASE)) 0 0x1000 h ∧
    smbImg.yields (ImgSrc.smb (4096 * smbImg.rf R.CG_HOST_BASE F.CG_HOST_BASE_BASE)) 0x1000 0x5000 r ∧ headerBad smbImg.bootKind h = none ∧
    smbImg.rf R.CG_STATUS F.CG_STATUS_STATE = 4 ∧ smbImg.cg.boot = none := by
  have hb : 4096 * smbImg.rf R.CG_HOST_BASE F.CG_HOST_BASE_BASE = 0 := by decide +kernel
  have hd : smbImg.domOn 2 = true := by decide +kernel
  have hg : ∀ x < 0x3000000, smbImg.classAt (smbImg.smbPlace x / 8 * 8) = .good := by
    intro x hx
    have hp : smbImg.smbPlace x = x := by simp [State.smbPlace, smbImg, cfgAt, State.reset, Smm.reset, memSMB]
    have hs : smbImg.synAt (x / 8 * 8) = 0 := by
      have : synDefault (x / 8 * 8 / 8) = 0 := if_neg (by simp only [memFlash]; omega)
      show (synDefault (x / 8 * 8 / 8)).toNat = 0
      rw [this]; rfl
    rw [hp, State.classAt, hs, eccClassOf, if_pos rfl]
  rw [hb]
  have hy := fun (o n : Nat) (hf : 0 + o + n ≤ 0x6000) => State.srcRead_smb (s := smbImg) 0 o n (by decide +kernel) (by omega)
    (fun i hi => by
      have : 2 + ((0 + o) / 8 * 8 + 8 * i) / 0x80000 / 12 = 2 := by omega
      rw [this]; exact hd) hg
  exact ⟨_, _, hy 0 0x1000 (by omega), hy 0x1000 0x5000 (by omega), by decide +kernel, by decide +kernel, rfl⟩

/-- The signatures of a sealed image; an image whose content has come. -/
theorem witness_BootAndLibrary_proof :
    (∀ s : State, s.proofSig (sealed3 s) false = .inl 4) ∧ 0 < (imgUnits (sealed3 State.reset)).length ∧
    (let b := booting (hashed 1 0) (some 4) 1
     b.sig.isSome = true ∧ b.units = (imgUnits b.hdr).length ∧
     (∀ s : State, s.yields b.src (imgLen b.hdr - 4) 4 (bytesLE 4 (crc32c (b.hdr ++ content1)))) ∧
     proofEndBad b.hdr b.got (bytesLE 4 (crc32c (b.hdr ++ content1))) = none) ∧
    (let l := staging libImg
     libUnitCount l.hdr ≤ l.got.length / 512 ∧ (∀ s : State, s.yields l.src (imgLen l.hdr - 4) 4 (bytesLE 4 (crc32c (l.hdr ++ zeros 0xC000)))) ∧
     proofEndBad l.hdr l.got (bytesLE 4 (crc32c (l.hdr ++ zeros 0xC000))) = none) := by
  have hl1 : imgLen (hashed 1 0) = 24900 := by decide +kernel
  have hl4 : imgLen libImg = 73732 := by decide +kernel
  have hh : (hashBytes (Config.sha384 content1)).length = 48 := length_bytesLE _ _
  have hh4 : (hashBytes (Config.sha384 (zeros 0xC000))).length = 48 := length_bytesLE _ _
  have hz : ∀ (n o : Nat) (x : List Byte), x.length = 4 → o = n → sliceB (zeros n ++ x) o 4 = x := by
    intro n o x hx ho
    have := sliceB_middle (zeros n) x [] (o := o) (n := 4) (by simp [length_zeros, ho]) hx
    simpa using this
  refine ⟨?_, by decide +kernel, ⟨rfl, by decide +kernel, ?_, ?_⟩, ?_, ?_, ?_⟩
  · intro s
    have ha : (img3 ++ zeros 0x200).length = 0x1200 := by simp [img3, imgOf, imgPost, length_imgPre, length_bytesLE, length_zeros]
    have hk : imgKind (sealed3 s) = 3 := by
      have : imgKind (sealed3 s) = imgKind (img3 ++ zeros 0x200) := by
        simp only [imgKind, fieldB, sealed3]
        rw [sliceB_append_left _ _ (by omega)]
      rw [this]; decide +kernel
    have ht : (sealed3 s).take 0x1000 = (img3 ++ zeros 0x200).take 0x1000 := by
      rw [sealed3, List.take_append_of_le_length (by omega)]
    have hsl := sliceB_middle (img3 ++ zeros 0x200) (hashBytes (Config.hmac384 (s.derivedKey "QV-SEAL") ((img3 ++ zeros 0x200).take 0x1000)))
      (zeros (0x6000 - 0x1230)) ha (length_bytesLE 48 _)
    simp only [State.proofSig, hk, if_true, ht]
    rw [show sliceB (sealed3 s) 0x1200 48 = _ from hsl]
    simp
  · intro s
    simp only [State.yields, State.srcRead, booting, hl1]
    rw [hz _ _ _ (length_bytesLE _ _) (by omega)]
    simp [length_bytesLE, length_zeros]
  · exact proofEnd_passes _ _ (imgFrameHash_imgOf _ _ _ _ _ _ _ _ _ hh)
  · simp [libUnitCount, staging, hl4, length_zeros]
  · intro s
    simp only [State.yields, State.srcRead, staging, hl4]
    rw [hz _ _ _ (length_bytesLE _ _) (by omega)]
    simp [length_bytesLE, length_zeros]
  · exact proofEnd_passes _ _ (imgFrameHash_imgOf _ _ _ _ _ _ _ _ _ hh4)

/-- The library's commands: from Lace, from flash with and without sending it on. -/
theorem witness_BootAndLibrary_library :
    F.CG_LIB_CMD_GO.bit (F.CG_LIB_CMD_SRC.put (F.CG_LIB_CMD_GO.put 0 1) 1) = true ∧
    F.CG_LIB_CMD_SRC.bit (F.CG_LIB_CMD_SRC.put (F.CG_LIB_CMD_GO.put 0 1) 1) = true ∧
    (let v : Word := F.CG_LIB_CMD_GO.put 0 1
     F.CG_LIB_CMD_GO.bit v = true ∧ F.CG_LIB_CMD_SRC.bit v = false ∧ F.CG_LIB_CMD_BCAST.bit v = false ∧
     let img := (((List.range 3072).map (fun i => 0x1C00000 + 8 * i)).flatMap (fun o => bytesLE 8 (flashImg.flClean o))).take (8 * 3072)
     (∀ u : State, u.mem = flashImg.mem → u.syn = flashImg.syn → u.flRead 0x1C00000 (8 * 3072) = (u, img, true)) ∧ headerBad 4 img = none ∧
       F.CG_LIB_CMD_BASE.get v + imgPlanes img ≤ 1024) ∧
    (let s := { State.reset with cg := { Cg.reset with lib := some (staging libImg) } }
     s.cg.lib.isSome = true) ∧
    F.CG_LIB_CMD_BCAST.bit (F.CG_LIB_CMD_BCAST.put (F.CG_LIB_CMD_GO.put 0 1) 1) = true ∧
    { State.reset with regs := [(R.LC_PORT_STAT 0, F.LC_PORT_STAT_UP.put 0 1)] }.lcUp 0 = true := by
  have hw : ∀ i < 3072, flashImg.flErased (0x1C00000 + 8 * i) = true ∨ flashImg.classAt (flAt ((0x1C00000 + 8 * i) / 8 * 8)) = .good := by
    intro i hi
    by_cases h : i < 36
    · have : ∀ i < 36, flashImg.flErased (0x1C00000 + 8 * i) = true ∨ flashImg.classAt (flAt ((0x1C00000 + 8 * i) / 8 * 8)) = .good := by decide +kernel
      exact this i h
    · have hm : ∀ e ∈ flashImg.mem, e.1 < flAt 0x1C00120 := by decide +kernel
      have hs : ∀ e ∈ flashImg.syn, e.1 * 8 < flAt 0x1C00120 := by decide +kernel
      have h2 : ∀ x, flAt x = 0x60000000 + x := fun _ => rfl
      refine .inl (State.flErased_of_unlisted _ (by omega) (fun e he => ?_) (fun e he => ?_))
      · have := hm e he; simp only [h2] at *; omega
      · have := hs e he; simp only [h2] at *; omega
  exact ⟨by decide, by decide, ⟨by decide, by decide, by decide, fun u hm hs => State.flRead_clean 0x1C00000 3072 (by decide) hw hm hs, by decide +kernel, by decide +kernel⟩,
    rfl, by decide, by decide⟩

/-- A partial load of region 3 at a point of its way; the configuration unit with region 3 of frames 0 to 100. -/
def loading (hdr : List Byte) (sig : Bool) (content : List Byte) : PartRun :=
  { region := 3, host := false, desc := none, lining := none, hdr := hdr, sig := sig, content := content, units := 0, frame := 0xFFFF, lastAt := 0 }
def regions3 (more : List (Nat × Word)) (cg : Cg) : State :=
  { State.reset with
    regs := more ++ [(R.FB_REL_STAT, 3), (R.CG_REG_RANGE 3, F.CG_REG_RANGE_LAST.put 0 100), (R.CG_REG_STAT 3, F.CG_REG_STAT_STATE.put 0 1), (R.CG_ICP_POLICY, 0),
      (R.CG_ICP_FENCE, F.CG_ICP_FENCE_LAST.put 0 100), (R.CG_PL_TMO, 5)]
    cg := cg
    yk := { Yoke.reset with time := 5000000 } }
/-- The words of img2, as the ICP brings them. -/
def words2 : List Word := (List.range 6144).map (fun i => w32 (ofBytesLE (sliceB img2 (4 * i) 4)))

theorem witness_PartialLoads_start :
    (let s := regions3 [] Cg.reset
     s.fbStage = 3 ∧ s.fb.hold = false ∧ s.cg.part = none ∧ s.cg.repair = [] ∧ (3 : Word).toNat % 16 < 15 ∧ s.regionState 3 ≠ 0 ∧
       imgRegion ((wordsB words2).take 0x6000) = (3 : Word).toNat % 16 ∧ (s.regionDoms 3).all s.domOn = true ∧
       headerBad 2 ((wordsB words2).take 0x6000) = none ∧ (15 : Word).toNat % 16 = 15) ∧
    (let s := regions3 [(R.PW_DOM_STAT (frameDom 0), 0)] Cg.reset
     s.fbStage = 3 ∧ s.cg.part = none ∧ s.regionState 3 ≠ 0 ∧ (s.regionDoms 3).all s.domOn = false) ∧
    (let s := regions3 [] { Cg.reset with part := some (loading img2 false []) }
     s.cg.part.isSome = true ∧ s.cg.part = some (loading img2 false []) ∧ (loading img2 false []).sig = false ∧ (loading img2 false []).region < 15 ∧
       s.proofSig img2 (!(loading img2 false []).host && !s.rb R.CG_ICP_POLICY F.CG_ICP_POLICY_SIGNED) = .inl 4) ∧
    (let s := regions3 [(R.CG_ICP_POLICY, F.CG_ICP_POLICY_SIGNED.put 0 1)] { Cg.reset with part := some (loading img2 false []) }
     s.proofSig img2 (!(loading img2 false []).host && !s.rb R.CG_ICP_POLICY F.CG_ICP_POLICY_SIGNED) = .inr 3) ∧
    (fabAt 1 [] Fb.reset).fbStage ≠ 3 := by
  refine ⟨?_, ?_, ⟨rfl, rfl, rfl, by decide, by decide +kernel⟩, by decide +kernel, by decide +kernel⟩ <;> decide +kernel

theorem witness_PartialLoads_content :
    (let p := loading img2 true []
     let s := regions3 [] { Cg.reset with part := some p }
     s.cg.part = some p ∧ p.sig = true ∧ p.region < 15 ∧ (imgUnits p.hdr).drop p.units = (false, 7, 0x6000) :: [] ∧ (0x6000 : Nat) ≤ 0x6000 ∧
       s.rb R.SM_FLIP_CFG F.SM_FLIP_CFG_ARM = false ∧
       0x6000 + ((p.content ++ wordsB (List.replicate 80 0)).take (imgLen p.hdr - 0x6000)).length = 0x6000 + 320 ∧
       F.CG_ICP_FENCE_FIRST.get (s.rg R.CG_ICP_FENCE) ≤ 7 ∧ 7 ≤ F.CG_ICP_FENCE_LAST.get (s.rg R.CG_ICP_FENCE) ∧ s.inRegion 3 7 = true ∧
       s.rg R.CG_PL_TMO ≠ 0 ∧ p.lastAt + 2 * (s.rg R.CG_PL_TMO).toNat < s.now) ∧
    (let s := regions3 [(R.CG_ICP_FENCE, F.CG_ICP_FENCE_LAST.put 0 6)] Cg.reset
     ¬ (F.CG_ICP_FENCE_FIRST.get (s.rg R.CG_ICP_FENCE) ≤ 7 ∧ 7 ≤ F.CG_ICP_FENCE_LAST.get (s.rg R.CG_ICP_FENCE) ∧ s.inRegion 3 7 = true)) ∧
    State.reset.cg.part = none := by
  refine ⟨⟨rfl, rfl, by decide, by decide +kernel, by decide, by decide +kernel, by decide +kernel, by decide +kernel, by decide +kernel, by decide +kernel,
    by decide +kernel, by decide +kernel⟩, by decide +kernel, rfl⟩

theorem witness_PartialLoads_end :
    let p := loading (hashed 2 3) true (content1 ++ bytesLE 4 (crc32c (hashed 2 3 ++ content1)))
    p.sig = true ∧ p.desc = none ∧ p.lining = none ∧ p.region < 15 ∧ imgLen p.hdr - 0x6000 ≤ p.content.length ∧
      proofEndBad p.hdr (p.content.take (imgLen p.hdr - 0x6000 - 4)) (p.content.drop (imgLen p.hdr - 0x6000 - 4)) = none := by
  have hl : imgLen (hashed 2 3) = 24900 := by decide +kernel
  have hc : content1.length = 320 := length_zeros 320
  have hh : (hashBytes (Config.sha384 content1)).length = 48 := length_bytesLE _ _
  refine ⟨rfl, rfl, rfl, by decide, ?_, ?_⟩
  · simp [loading, hl, hc, length_bytesLE]
  · have : proofEndBad (hashed 2 3) content1 (bytesLE 4 (crc32c (hashed 2 3 ++ content1))) = none :=
      proofEnd_passes _ _ (imgFrameHash_imgOf _ _ _ _ _ _ _ _ _ hh)
    simp only [loading, hl]
    rw [List.take_append_of_le_length (by omega), List.drop_append_of_le_length (by omega), List.take_of_length_le (by omega), List.drop_eq_nil_of_le (by omega)]
    exact this

/-- The configuration scrubber runs; the word it is at is good, or has one bit wrong. -/
def cfgScrubs (syn : BitVec 8) (more : List (Nat × Word)) : State :=
  { State.reset with
    regs := more ++ [(R.CG_SCRUB_CFG, F.CG_SCRUB_CFG_EN.put 0 1), (R.CG_SCRUB_STAT, F.CG_SCRUB_STAT_RUNNING.put 0 1)]
    syn := [(memCfg / 8, syn)]
    yk := { Yoke.reset with time := 50000000000 } }

theorem witness_PartialLoads_scrubber :
    (∀ c ∈ [((0 : BitVec 8), EccClass.good), (7, .corrected 0)], let s := cfgScrubs c.1 []
     s.rb R.CG_SCRUB_CFG F.CG_SCRUB_CFG_EN = true ∧ s.rb R.CG_SCRUB_STAT F.CG_SCRUB_STAT_RUNNING = true ∧ s.cg.scrub < 1439999 ∧
       s.classAt (memCfg + 8 * s.cg.scrub) = c.2 ∧ s.domOn (frameDom (s.cg.scrub / 40)) = true ∧ s.regionOf (s.cg.scrub / 40) = 15 ∧ s.cg.active = none ∧
       s.rb R.CG_SCRUB_STAT F.CG_SCRUB_STAT_EBM_OK = false) ∧
    ({ State.reset with regs := [(R.CG_SCRUB_CFG, 0)] }.rb R.CG_SCRUB_CFG F.CG_SCRUB_CFG_EN = false) ∧
    (let s := { State.reset with cg := { Cg.reset with repair := [3] } }
     s.cg.repair = 3 :: [] ∧ s.liningOf 3 = none ∧ State.reset.cg.repair = []) ∧
    (let s := cfgScrubs 0 []
     s.cg.scrubAt + 500000 * s.rf R.CG_SCRUB_WDT F.CG_SCRUB_WDT_LIMIT ≤ s.now ∧ s.cg.expired = 0 ∧ s.rb R.CG_SCRUB_CFG F.CG_SCRUB_CFG_WDT_ACT = false ∧
       State.reset.rb R.CG_SCRUB_STAT F.CG_SCRUB_STAT_RUNNING = false) ∧
    (let s := regions3 [] { Cg.reset with hdr := zeros 0x1000 }
     s.fbStage = 3 ∧ s.cg.hdr ≠ [] ∧ s.flRead (0x2C00000 + 4096 * imgEbmOfs s.cg.hdr) (imgEbmLen s.cg.hdr) = (s, [], true)) ∧
    (∀ w ∈ [(0x4F : Nat), 0x50], let s := { State.reset with regs := [(R.CG_RB_SEL, bits [(F.CG_RB_SEL_FRAME, 35999), (F.CG_RB_SEL_WORD, w)])] }
     s.rdp = 0 ∧ s.rf R.CG_RB_SEL F.CG_RB_SEL_FRAME < 36000 ∧ s.rf R.CG_RB_SEL F.CG_RB_SEL_WORD = w ∧ s.rb R.CG_RB_SEL F.CG_RB_SEL_PLANE = false ∧
       s.classAt (memCfg + 320 * 35999 + 4 * w) = .good) ∧
    (F.CG_RB_SEL_PLANE.bit (F.CG_RB_SEL_PLANE.put 0 1) = true) ∧
    (let s := { State.reset with regs := [(R.OT_STAT, F.OT_STAT_RDP.put 0 1)] }
     1 ≤ s.rdp ∧ s.rb R.SC_DBG_STAT F.SC_DBG_STAT_UNLOCKED = false) := by
  refine ⟨by decide +kernel, by decide +kernel, by decide +kernel, by decide +kernel, ⟨by decide +kernel, ?_, rfl⟩, by decide +kernel, by decide +kernel, by decide +kernel⟩
  show zeros 0x1000 ≠ []
  intro h
  have := length_zeros 0x1000
  rw [h] at this
  exact absurd this (by decide)

/-! Flash, OTP, two-party control (O40 to O42) -/

/-- The flash controller on some registers; a partner whose flash accesses the firewall denies; a programmed word; full areas. -/
def flS (regs : List (Nat × Word)) (fl : Fl) : State := { State.reset with regs := regs, fl := fl }
def flDenied : State := { State.reset with sc := { Sc.reset with live := [(R.SC_PID_PART 0, 1 <<< 9)] } }
def flDirty : State := { State.reset with mem := [(flAt 0, 0)] }
def flRow (r : FlRun) : Fl := { Fl.reset with run := some r }
def flFull (base step n : Nat) : State := { State.reset with syn := (List.range n).map (fun k => (flAt (base + step * k) / 8, 0)) }
/-- A valid trim page in the buffer. -/
def trimPage : List Byte := bytesLE 4 0x4D495254 ++ bytesLE 4 1 ++ zeros 980
def trimming : State := flS [(R.FL_BUF 0, 0x4D495254), (R.FL_BUF 1, 1), (R.FL_BUF 247, w32 (crc32c trimPage))] Fl.reset

theorem flFull_unit (base step n : Nat) (hb : base % 32 = 0) (hs : step % 32 = 0) (k : Nat) (hk : k < n) : (flFull base step n).flErased (base + step * k) = false := by
  apply State.not_flErased
  have hm : (base + step * k) / 32 * 32 = base + step * k := by
    have : (step * k) % 32 = 0 := by rw [Nat.mul_mod, hs, Nat.zero_mul, Nat.zero_mod]
    omega
  have : (flFull base step n).synAt (flAt (base + step * k)) = 0 := by
    rw [State.synAt, Tab.get_const synDefault (flFull base step n).syn (v := 0)
      (by intro e he; simp only [flFull, List.mem_map] at he; obtain ⟨j, -, rfl⟩ := he; rfl)
      ⟨(flAt (base + step * k) / 8, 0), by simp only [flFull, List.mem_map, List.mem_range]; exact ⟨k, hk, rfl⟩, rfl⟩]
    rfl
  rw [hm, this]; decide

theorem witness_FlashCommands_reads :
    (∀ w, ¬ flDenied.flPasses 3 w) ∧
    (∀ w, let s := flS [] (flRow (.erase 0 0)); s.flPasses 0 w ∧ s.fl.run.isSome = true ∧ s.fl.die = false) ∧
    (let s := State.reset
     s.flPasses 0 false ∧ (s.fl.run = none ∧ s.fl.susp = none ∧ s.fl.recs = [] ∧ s.fl.die = false) ∧ s.rdp = 0 ∧ s.flAddr = 0 ∧
       ∀ w < 8, s.classAt (flAt (8 * w)) = .good ∨ s.flErased (8 * w) = true) ∧
    (let s := flS [(R.OT_STAT, F.OT_STAT_RDP.put 0 1)] Fl.reset
     s.flPasses 0 false ∧ 1 ≤ s.rdp ∧ s.flAddr < 0x3200000) ∧
    (let s := flS [(R.FL_ADDR, 1)] Fl.reset
     s.flPasses 0 false ∧ s.rdp = 0 ∧ s.flAddr % 4 ≠ 0) := by
  dsimp only [State.flPasses]
  exact ⟨by decide, by decide, by decide +kernel, by decide, by decide⟩

theorem witness_FlashCommands_program :
    (let s := State.reset
     s.flPasses 0 true ∧ s.flNotBlank s.flAddr 32 = none ∧ s.flLocked s.flAddr 32 = false ∧ s.flAddr + 32 ≤ 0x3FE0000 ∧ s.flAddr % 32 = 0 ∧
       s.flAddr % 256 + 32 ≤ 256) ∧
    (flDirty.flPasses 0 true ∧ flDirty.flNotBlank flDirty.flAddr 32 = some 0) ∧
    (let s := flS [(R.FL_STAT, F.FL_STAT_LOCK.put 0 1)] Fl.reset
     s.flPasses 0 true ∧ s.flNotBlank s.flAddr 32 = none ∧ s.flLocked s.flAddr 32 = true) ∧
    (let s := flS [(R.FL_ADDR, 0x3FE0000)] Fl.reset
     s.flPasses 0 true ∧ s.flNotBlank s.flAddr 32 = none ∧ s.flLocked s.flAddr 32 = false ∧ 0x3FE0000 < s.flAddr + 32) ∧
    (let s := flS [] (flRow (.program [(0, List.replicate 32 5)]))
     s.fl.run = some (.program ((0, List.replicate 32 5) :: [])) ∧ (List.replicate 32 (5 : Byte)).length % 32 = 0) ∧
    (State.reset.fl.run = none ∧ State.reset.fl.recs = [] ∧ State.reset.fl.die = false) ∧
    (let s := flS [] { Fl.reset with die := true }; s.fl.run = none ∧ s.fl.recs = [] ∧ s.fl.die = true) := by
  dsimp only [State.flPasses]
  exact ⟨by decide +kernel, by decide +kernel, by decide +kernel, by decide +kernel, by decide, by decide, by decide⟩

theorem witness_FlashCommands_erase :
    (flDirty.flPasses 0 true ∧ flDirty.flLocked flDirty.flAddr 1 = false ∧ flDirty.flAddr < 0x3FE0000 ∧ flDirty.sectorBlank (flDirty.flAddr / 0x10000) = false) ∧
    State.reset.sectorBlank (State.reset.flAddr / 0x10000) = true ∧
    (let s := flS [(R.FL_STAT, F.FL_STAT_LOCK.put 0 1)] Fl.reset; s.flPasses 0 true ∧ s.flLocked s.flAddr 1 = true) ∧
    (let s := flS [] (flRow (.erase 0 0)); s.fl.run = some (.erase 0 0) ∧ s.fl.lower = none) ∧
    (State.reset.flPasses 0 false ∧ State.reset.flAddr % 32 = 0 ∧ State.reset.flAddr % 0x10000 + 32 ≤ 0x10000 ∧ State.reset.flNotBlank State.reset.flAddr 32 = none ∧
      flDirty.flNotBlank flDirty.flAddr 32 = some 0) := by
  dsimp only [State.flPasses]
  exact ⟨by decide +kernel, by decide +kernel, by decide +kernel, by decide, by decide +kernel⟩

theorem witness_FlashCommands_areas :
    (trimming.flPasses 0 true ∧ trimOk (trimming.flBuf 1024) = true ∧ trimOk (State.reset.flBuf 1024) = false) ∧
    ((List.range 16).find? (fun j => trimming.trimErased j) = some 0 ∧ (List.range 16).find? (fun j => State.reset.trimErased j) = some 0) ∧
    ((flFull 0x3FE0000 0x400 16).flPasses 0 true ∧ (List.range 16).find? (fun j => (flFull 0x3FE0000 0x400 16).trimErased j) = none) ∧
    (State.reset.firstErased logBase 2048 = some logBase ∧ State.reset.flRecords logBase 2048 = (State.reset, [])) ∧
    ((flFull logBase 32 2048).flPasses 0 true ∧ (flFull logBase 32 2048).firstErased logBase 2048 = none) := by
  dsimp only [State.flPasses]
  refine ⟨by decide +kernel, by decide +kernel, by decide +kernel, ⟨by decide +kernel, ?_⟩, by decide +kernel, ?_⟩
  · exact State.flRecords_erased _ _ (fun k hk => State.flErased_empty _ (by simp only [logBase]; omega) rfl rfl)
  · exact State.firstErased_none _ _ (flFull_unit logBase 32 2048 (by decide) (by decide))

theorem witness_FlashCommands_suspend :
    (let s := flS [] (flRow (.erase 0 0)); s.fl.run = some (.erase 0 0) ∧ s.fl.lower = none ∧ s.blkHeld 12 = false) ∧
    (let s := flS [] { Fl.reset with susp := some (0, 0, false) }; s.fl.susp = some (0, 0, false) ∧ s.fl.run = none) ∧
    (resetting 0 0).blkHeld 12 = true ∧
    (let s := flS [] (flRow (.program [(0, List.replicate 32 5)]))
     s.blkHeld 12 = false ∧ s.fl.run = some (.program ((0, List.replicate 32 5) :: []))) ∧
    (State.reset.blkHeld 12 = false ∧ State.reset.fl.run = none ∧ State.reset.fl.susp = none ∧ State.reset.fl.recs = []) := by decide

/-- The OTP controller on a word, and with pulses under way. -/
def otS (word data : Word) (ot : Ot) : State := { State.reset with regs := [(R.OT_WSEL, word), (R.OT_WDATA, data)], ot := ot }
def otRun (l : List (Nat × Nat)) (why : OtWhy) : Ot := { Ot.reset with run := some { left := l, done := [], why := why } }

theorem witness_OtpCommands :
    (let s := otS 0 0 Ot.reset; s.ot.run = none ∧ s.rf R.OT_WSEL F.OT_WSEL_WORD < 64 ∧ s.otAllowed (s.rf R.OT_WSEL F.OT_WSEL_WORD) = false) ∧
    (let s := otS 96 0 Ot.reset; 95 < s.rf R.OT_WSEL F.OT_WSEL_WORD) ∧
    (∀ k ∈ [(64 : Nat), 95], let s := otS (w32 k) 0 Ot.reset
     s.ot.run = none ∧ 64 ≤ s.rf R.OT_WSEL F.OT_WSEL_WORD ∧ s.rf R.OT_WSEL F.OT_WSEL_WORD ≤ 95) ∧
    (otS 0 0 (otRun [(128, 0)] .prog)).ot.run.isSome = true ∧
    (let s := otS 128 5 Ot.reset
     s.ot.run = none ∧ s.otAllowed 128 = true ∧ s.rf R.OT_WSEL F.OT_WSEL_WORD = 128 ∧
       (bitList 32 (s.rg R.OT_WDATA).toNat).filter (fun b => !wbit (s.otWord 128) b) = [0, 2]) ∧
    (let s := otS 128 0 Ot.reset
     s.otAllowed 128 = true ∧ (bitList 32 (s.rg R.OT_WDATA).toNat).filter (fun b => !wbit (s.otWord 128) b) = []) ∧
    (let s := otS 0 0 (otRun [(128, 31), (128, 2)] .prog)
     s.ot.run = some { left := (128, 31) :: [(128, 2)], done := [], why := .prog } ∧ s.rs.deferred = []) ∧
    (let s := otS 0 0 (otRun [(128, 0)] .prog)
     s.ot.run = some { left := [(128, 0)], done := [], why := .prog } ∧ s.rs.deferred = [] ∧ wbit (s.otWord 128) 0 = false) := by
  refine ⟨?_, ?_, ?_, rfl, ?_, ?_, ?_, ?_⟩ <;> decide +kernel

/-- A proposal of one operation; a device with it open, or executing; its OTP words. -/
def propB (op arg : Nat) : List Byte := bytesLE 2 op ++ zeros 2 ++ bytesLE 4 arg ++ zeros 64
def propOf (b : List Byte) (exec : Bool) : Proposal := { bytes := b, by_ := 3, time := 0, exec := exec }
def tpS (regs : List (Nat × Word)) (prop : Option Proposal) (words : List (Nat × Word)) : State :=
  { State.reset with regs := regs, sc := { Sc.reset with prop := prop }, ot := { Ot.reset with words := words } }
def tpDo (op arg : Nat) (regs : List (Nat × Word)) (words : List (Nat × Word)) : State := tpS regs (some (propOf (propB op arg) true)) words
/-- OTP words with both proposal keys; a proposal for this device, its words under the first key's tag. -/
def keyWords : List (Nat × Word) := [(0, 1), (1, 0), (2, 0), (3, 0), (72, 1), (84, 1)]
def propX : Nat := 1 + 2 ^ 64 + 2 ^ 960 * (Config.hmac384 ((tpS [] none keyWords).otBytes 72 12) (bytesLE 120 (1 + 2 ^ 64))).toNat
def chal0 : List (Nat × Word) := (List.range 12).map (fun k => (R.SC_TP_CHAL k, 0)) ++ []
def proposing : State := tpS ((List.range 42).map (fun k => (R.SC_TP_PROP k, w32 (propX / 2 ^ (32 * k)))) ++ chal0) none keyWords
/-- The tag that consents to a proposal. -/
def consX : Nat := (Config.hmac384 ((tpS [] none keyWords).otBytes 84 12) (hashBytes (Config.sha384 (propB 1 0)))).toNat
def consenting (x : Nat) : State := tpS ((List.range 12).map (fun k => (R.SC_TP_CONS k, w32 (x / 2 ^ (32 * k)))) ++ []) (some (propOf (propB 1 0) false)) keyWords

theorem witness_TwoPartyControl_propose :
    (∀ c ∈ [((0 : Nat), 14), (7, 14)], let s := tpS [(R.SC_TP_STAT, F.SC_TP_STAT_REJ.put 0 c.1)] none []; s.propJudge = some c.2) ∧
    (∀ r ∈ [(6 : Nat), 7], let s := tpS [(R.SC_TP_STAT, F.SC_TP_STAT_REJ.put 0 r), (R.SC_TP_PROP 0, 1)] none keyWords
     s.propJudge = some 2 ∧ s.rf R.SC_TP_STAT F.SC_TP_STAT_REJ = r) ∧
    (tpS [] (some (propOf [] false)) []).sc.prop.isSome = true ∧
    (let s := tpS [(R.SC_TP_STAT, F.SC_TP_STAT_STATE.put 0 3)] none []; s.sc.prop = none ∧ s.rf R.SC_TP_STAT F.SC_TP_STAT_STATE = 3) ∧
    proposing.propJudge = none := by
  refine ⟨by decide +kernel, by decide +kernel, rfl, by decide, ?_⟩
  have hb : proposing.regBytes R.SC_TP_PROP 42 = bytesLE 168 propX := by
    rw [State.regBytes, ← words_bytesLE 42 propX]
    apply flatMap_eq
    intro k hk
    congr 2
    exact Tab.get_map _ (List.range 42) R.SC_TP_PROP (fun k => w32 (propX / 2 ^ (32 * k))) chal0 hk (by intro i _ h; simp only [R.SC_TP_PROP] at h; omega)
  have hx : bytesLE 168 propX = bytesLE 120 (1 + 2 ^ 64) ++ hashBytes (Config.hmac384 (proposing.otBytes 72 12) (bytesLE 120 (1 + 2 ^ 64))) := by
    rw [show (168 : Nat) = 120 + 48 from rfl, bytesLE_append]
    have h : (256 : Nat) ^ 120 = 2 ^ 960 := by decide +kernel
    congr 1
    · rw [← bytesLE_mod, h, propX, Nat.add_mul_mod_self_left, ← h, bytesLE_mod]
    · rw [h, propX, Nat.add_mul_div_left _ _ (by decide +kernel), Nat.div_eq_of_lt (by decide +kernel), Nat.zero_add]; rfl
  have hl : (bytesLE 120 (1 + 2 ^ 64)).length = 120 := length_bytesLE _ _
  have ht : (proposing.regBytes R.SC_TP_PROP 42).take 120 = bytesLE 120 (1 + 2 ^ 64) := by rw [hb, hx, List.take_append_of_le_length (by omega), List.take_of_length_le (by omega)]
  have hd : (proposing.regBytes R.SC_TP_PROP 42).drop 120 = hashBytes (Config.hmac384 (proposing.otBytes 72 12) (bytesLE 120 (1 + 2 ^ 64))) := by
    rw [hb, hx, List.drop_append_of_le_length (by omega), List.drop_eq_nil_of_le (by omega), List.nil_append]
  have hc : proposing.regBytes R.SC_TP_CHAL 12 = zeros 48 := by
    have hg : ∀ k < 12, proposing.rg (R.SC_TP_CHAL k) = 0 := by
      intro k hk
      have hs : ∀ e ∈ (List.range 42).map (fun k => (R.SC_TP_PROP k, w32 (propX / 2 ^ (32 * k)))), e.1 ≠ R.SC_TP_CHAL k := by
        intro e he
        simp only [List.mem_map, List.mem_range] at he
        obtain ⟨i, hi, rfl⟩ := he
        simp only [R.SC_TP_PROP, R.SC_TP_CHAL]; omega
      have h := Tab.get_skip regReset _ chal0 hs
      exact h.trans (Tab.get_map regReset (List.range 12) R.SC_TP_CHAL (fun _ => 0) [] (List.mem_range.mpr hk) (by intro i _ h; simp only [R.SC_TP_CHAL] at h; omega))
    rw [State.regBytes, flatMap_eq (g := fun _ => [0, 0, 0, 0]) _ (fun k hk => by rw [hg k (List.mem_range.mp hk)]; rfl)]
    rfl
  have h1 : (proposing.otBytes 72 12).any (fun b => b != 0) = true := by decide +kernel
  have h2 : (proposing.otBytes 84 12).any (fun b => b != 0) = true := by decide +kernel
  have h3 : proposing.rf R.SC_TP_STAT F.SC_TP_STAT_STATE ≠ 3 := by
    have : proposing.rg R.SC_TP_STAT = 0 := by
      rw [State.rg, Tab.get_miss]
      · decide +kernel
      · intro e he
        simp only [proposing, tpS, chal0, List.append_nil, List.mem_append, List.mem_map, List.mem_range] at he
        rcases he with ⟨i, hi, rfl⟩ | ⟨i, hi, rfl⟩
        · simp only [R.SC_TP_PROP, R.SC_TP_STAT]; omega
        · simp only [R.SC_TP_CHAL, R.SC_TP_STAT]; omega
    rw [State.rf, this]; decide
  have h4 : propOk (bytesLE 120 (1 + 2 ^ 64)) = true := by decide +kernel
  have h5 : sliceB (bytesLE 120 (1 + 2 ^ 64)) 8 16 = proposing.otBytes 0 4 := by decide +kernel
  have h6 : sliceB (bytesLE 120 (1 + 2 ^ 64)) 24 48 = zeros 48 := by decide +kernel
  have h0 : proposing.sc.prop = none := rfl
  simp only [State.propJudge, ht, hd, hc, h0, h1, h2, h3, h4, h5, h6]
  simp

theorem consenting_tag (x : Nat) : (consenting x).regBytes R.SC_TP_CONS 12 = bytesLE 48 x := by
  rw [State.regBytes, ← words_bytesLE 12 x]
  apply flatMap_eq
  intro k hk
  congr 2
  exact Tab.get_map _ (List.range 12) R.SC_TP_CONS (fun k => w32 (x / 2 ^ (32 * k))) [] hk (by intro i _ h; simp only [R.SC_TP_CONS] at h; omega)

theorem witness_TwoPartyControl_consent :
    (let s := consenting consX; let p := propOf (propB 1 0) false
     s.sc.prop = some p ∧ p.exec = false ∧ s.propLate p = false ∧ (4 : BitVec 10).toNat ≠ p.by_ ∧
       s.regBytes R.SC_TP_CONS 12 = hashBytes (Config.hmac384 (s.otBytes 84 12) (hashBytes (Config.sha384 p.bytes)))) ∧
    (let s := consenting (consX + 1)
     s.regBytes R.SC_TP_CONS 12 ≠ hashBytes (Config.hmac384 (s.otBytes 84 12) (hashBytes (Config.sha384 (propB 1 0))))) ∧
    (let s := { tpS [] (some (propOf [] false)) [] with yk := { Yoke.reset with time := 5000000000 } }
     s.propLate (propOf [] false) = true) ∧
    (3 : BitVec 10).toNat = (propOf [] false).by_ ∧ State.reset.sc.prop = none := by
  refine ⟨⟨rfl, rfl, by decide +kernel, by decide, consenting_tag consX⟩, ?_, by decide +kernel, rfl, rfl⟩
  show _ ≠ bytesLE 48 consX
  rw [consenting_tag]
  intro h
  have := congrArg BitVec.toNat (List.cons.inj h).1
  simp only [BitVec.toNat_ofNat] at this
  omega

theorem witness_TwoPartyControl_operations :
    (∀ op : Nat, let s := tpDo op 0 [] []
     s.sc.prop = some (propOf (propB op 0) true) ∧ (propOf (propB op 0) true).exec = true ∧ s.ot.run = none ∧ s.fl.recs = []) ∧
    (propOp (propB 1 0) = 1 ∧ (tpDo 1 0 [] [(53, 0), (54, 0)]).rdp1Free = some (53, 0) ∧ (tpDo 1 0 [] []).rdp = 0 ∧
      1 ≤ (tpDo 1 0 [(R.OT_STAT, F.OT_STAT_RDP.put 0 1)] [(53, 0), (54, 0)]).rdp ∧
      (tpDo 1 0 [] [(53, 0xFFFFFFFF), (54, 0xFFFFFFFF)]).rdp1Free = none) ∧
    (propOp (propB 2 0) = 2 ∧ (tpDo 2 0 [] [(55, 0)]).otWord 55 &&& 7 = 0) ∧
    (propOp (propB 3 0) = 3 ∧ (tpDo 3 0 [] []).rdp ≠ 1 ∧ (tpDo 3 0 [(R.OT_STAT, F.OT_STAT_RDP.put 0 1)] []).rdp = 1) ∧
    ((∃ r, (tpDo 3 0 [(R.OT_STAT, F.OT_STAT_RDP.put 0 1)] []).journalRec .lowerBegin 1 1 0 = some r) ∧
      ({ flFull journalBase 32 1024 with sc := (tpDo 3 0 [] []).sc } : State).journalRec .lowerBegin 1 1 0 = none ∧ (tpDo 3 0 [] []).rs.seq = none ∧
      (tpDo 3 0 [] []).rs.held = []) := by
  refine ⟨fun op => ⟨rfl, rfl, rfl, rfl⟩, by decide +kernel, by decide +kernel, by decide +kernel, ?_, ?_, rfl, rfl⟩
  · have : (tpDo 3 0 [(R.OT_STAT, F.OT_STAT_RDP.put 0 1)] []).firstErased journalBase 1024 = some journalBase := by decide +kernel
    rw [State.journalRec, this]; exact ⟨_, rfl⟩
  · have : ({ flFull journalBase 32 1024 with sc := (tpDo 3 0 [] []).sc } : State).firstErased journalBase 1024 = none :=
      State.firstErased_none (s := { flFull journalBase 32 1024 with sc := (tpDo 3 0 [] []).sc }) _ _ (flFull_unit journalBase 32 1024 (by decide) (by decide))
    rw [State.journalRec, this]; rfl

theorem witness_TwoPartyControl_policies :
    (let b := propB 4 0 ++ hashBytes (Config.sha384 (mapBytes State.reset.rg))
     propOp b = 4 ∧ b.drop 72 = hashBytes (Config.sha384 (mapBytes State.reset.rg)) ∧ propArg b ≠ 1) ∧
    (let b := propB 4 1 ++ hashBytes (Config.sha384 (mapBytes State.reset.rg))
     propOp b = 4 ∧ b.drop 72 = hashBytes (Config.sha384 (mapBytes State.reset.rg)) ∧ propArg b = 1) ∧
    (propOp (propB 4 0) = 4 ∧ (propB 4 0).drop 72 ≠ hashBytes (Config.sha384 (mapBytes State.reset.rg))) ∧
    (State.reset.policyFree = some 0 ∧ (flFull (policyAt 0) 0x400 12).policyFree = none) ∧
    (∀ c ∈ [(0, true, 2), (3, false, 2), (0, true, 1)], let s := tpDo 5 c.1 [] ((4, 1) :: (if c.2.2 = 2 then [(16, 1)] else []) ++ [(52, 0)])
     propOp (propB 5 c.1) = 5 ∧ propArg (propB 5 c.1) = c.1 ∧
       (let live := (List.range 4).filter (fun j => !wbit (s.otWord 52) j && (s.otBytes (4 + 12 * j) 12).any (fun b => b != 0))
        (c.1 ∈ live ↔ c.2.1 = true) ∧ live.length = c.2.2)) ∧
    (propOp (propB 6 5) = 6 ∧ (tpDo 6 5 [(R.OT_STAT, F.OT_STAT_RDP.put 0 1)] []).rdp = 1 ∧ (tpDo 6 5 [] []).rdp ≠ 1 ∧ propOp (propB 7 1) = 7) := by
  have hl : ∀ x, (hashBytes x).length = 48 := fun x => length_bytesLE _ _
  have hp : ∀ op arg, (propB op arg).length = 72 := fun op arg => by simp [propB, length_bytesLE, zeros]
  have hd : ∀ op arg x, (propB op arg ++ hashBytes x).drop 72 = hashBytes x := fun op arg x => by
    rw [List.drop_append_of_le_length (Nat.le_of_eq (hp op arg).symm), List.drop_eq_nil_of_le (Nat.le_of_eq (hp op arg)), List.nil_append]
  have ho : ∀ op arg x, propOp (propB op arg ++ hashBytes x) = propOp (propB op arg) ∧ propArg (propB op arg ++ hashBytes x) = propArg (propB op arg) := by
    intro op arg x
    constructor <;> simp only [propOp, propArg, fieldB] <;> rw [sliceB_append_left _ _ (by rw [hp]; omega)]
  refine ⟨⟨by rw [(ho _ _ _).1]; decide, hd _ _ _, by rw [(ho _ _ _).2]; decide⟩, ⟨by rw [(ho _ _ _).1]; decide, hd _ _ _, by rw [(ho _ _ _).2]; decide⟩,
    ⟨by decide, ?_⟩, by decide +kernel, by decide +kernel, by decide +kernel⟩
  intro h
  have := congrArg List.length h
  rw [hl, List.length_drop, hp] at this
  omega

theorem witness_TwoPartyControl_rest :
    (let s := flS [] { Fl.reset with recs := [{ off := policyAt 0, bytes := zeros 1024, why := .policy }] }
     s.fl.run = none ∧ s.fl.recs = { off := policyAt 0, bytes := zeros 1024, why := .policy } :: []) ∧
    (let s := { flS [] { Fl.reset with recs := [{ off := journalBase, bytes := zeros 32, why := .lowerEnd }] } with ot := { Ot.reset with words := [(53, 1)] } }
     s.fl.run = none ∧ s.fl.recs = { off := journalBase, bytes := zeros 32, why := .lowerEnd } :: [] ∧ s.rdp1Free = some (53, 1)) ∧
    (let s := { flS [(R.SC_DBG_STAT, 3)] Fl.reset with sc := { Sc.reset with dbgEnd := 1 } }
     s.rb R.SC_DBG_STAT F.SC_DBG_STAT_UNLOCKED = true ∧ s.now < s.sc.dbgEnd ∧ ({ s with sc := Sc.reset } : State).sc.dbgEnd ≤ s.now ∧
       State.reset.rb R.SC_DBG_STAT F.SC_DBG_STAT_UNLOCKED = false) ∧
    (flS [(R.SC_ATT_STAT, 1)] Fl.reset).rb R.SC_ATT_STAT F.SC_ATT_STAT_BUSY = true ∧
    (let s := flS [(R.SC_STAT, F.SC_STAT_ID_BAD.put 0 1)] Fl.reset
     s.rb R.SC_ATT_STAT F.SC_ATT_STAT_BUSY = false ∧ s.rb R.SC_STAT F.SC_STAT_ID_BAD = true ∧ State.reset.rb R.SC_STAT F.SC_STAT_ID_BAD = false) ∧
    (let s := { State.reset with regs := [(R.PW_DOM_STAT 2, 2)], sc := { Sc.reset with att := some { pid := 0, nonce := [], base := 0 } } }
     s.sc.att = some { pid := 0, nonce := [], base := 0 } ∧ (∀ x, 0 ≤ x → x < 0 + 18528 → s.domOn (2 + x / 0x80000 / 12) = true) ∧
       s.smbRangeHeld 0 (512 * 37) = false ∧ s.unarmed) ∧
    (let s := { State.reset with sm := { Smm.reset with fills := [{ ranges := [(0, 0x80000)], dom := none }] } }
     s.smbRangeHeld 0 (512 * 37) = true) ∧
    State.reset.sc.att = none := by
  refine ⟨by decide, by decide +kernel, by decide +kernel, by decide, by decide, ⟨rfl, ?_, by decide +kernel, by unfold State.unarmed; decide⟩, by decide +kernel, rfl⟩
  intro x _ hx
  have : 2 + x / 0x80000 / 12 = 2 := by omega
  rw [this]; decide

/-! The host (O43 to O45) -/

/-- The host interface with its link up; queue pair 5 enabled, with a partner. -/
def hostS (regs : List (Nat × Word)) (hi : Hi) : State :=
  { State.reset with regs := [(R.GL_STAT, F.GL_STAT_MODE.put 0 1), (R.HI_LINK, 9)] ++ regs, hi := hi }
def qpCfg (more : List (Fld × Nat)) : Nat × Word :=
  (R.HI_QP_CFG 5, bits ([(F.HI_QP_CFG_EN, 1), (F.HI_QP_CFG_SQ_SIZE, 5), (F.HI_QP_CFG_CQ_SIZE, 5)] ++ more))
def hiQp (k : Qp) : Hi := { Hi.reset with qps := [(5, k)] }
/-- A descriptor of an operation, with its operand words. -/
def dsc (op : Nat) (w : List Word) (units : Nat) (started : Bool) : Desc :=
  { dseq := 0, w := w32 op :: 0 :: w, image := [], units := units, started := started, trunc := false }
/-- Queue pair 5 with these descriptors in flight, over other registers. -/
def descS (regs : List (Nat × Word)) (l : List Desc) : State := hostS (qpCfg [] :: regs) (hiQp { Qp.idle with infl := l, next := 1 })

theorem witness_HostAccess_bus :
    (let s := hostS [] Hi.reset
     s.qvMode = true ∧ s.pcieUp = true ∧ blockOf (0x1000 : BitVec 24).toNat ≠ 24 ∧ blockOf (0x6F0000 : BitVec 24).toNat = 24 ∧ s.hi.mmio = [] ∧
       (∀ k < 16, s.rb (R.DB_PRB_CFG k) F.DB_PRB_CFG_EN = false) ∧ { State.reset with regs := [(R.GL_STAT, 0)] }.pcieUp ≠ true) ∧
    ((0x2FFFFE0 : BitVec 26).toNat < 0x3000000 ∧ (0x2FFFFE0 : BitVec 26).toNat % 32 + 32 ≤ 32) := by decide +kernel

theorem witness_HostAccess_doorbells :
    (let s := hostS [qpCfg []] (hiQp { Qp.idle with cqHead := 31 })
     s.pcieUp = true ∧ s.qpState 5 = 1 ∧ (31 : Word).toNat % 0x10000 < 2 ^ s.rf (R.HI_QP_CFG 5) F.HI_QP_CFG_SQ_SIZE ∧
       2 ^ s.rf (R.HI_QP_CFG 5) F.HI_QP_CFG_SQ_SIZE ≤ (32 : Word).toNat % 0x10000 ∧ s.qpState 4 = 0 ∧ (s.qp 5).cqHead = 31 ∧
       31 < 2 ^ s.rf (R.HI_QP_CFG 5) F.HI_QP_CFG_CQ_SIZE ∧ 2 ^ s.rf (R.HI_QP_CFG 5) F.HI_QP_CFG_CQ_SIZE ≤ (32 : Word).toNat % 0x10000 ∧
       (0 : Word).toNat % 0x10000 < 2 ^ s.rf (R.HI_QP_CFG 5) F.HI_QP_CFG_CQ_SIZE) ∧
    (let s := hostS [(R.EV_RING_CFG 63, F.EV_RING_CFG_SIZE.put 0 4)] Hi.reset
     s.pcieUp = true ∧ (15 : Word).toNat % 0x10000 < 2 ^ s.rf (R.EV_RING_CFG 63) F.EV_RING_CFG_SIZE ∧ (s.ring 63).head ≤ (15 : Word).toNat % 0x10000 ∧
       (4 : BitVec 12) ≠ 8) := by decide +kernel

theorem witness_HostAccess_resets :
    ((resetting 0 0).blkHeld 15 = true ∧ State.reset.blkHeld 15 = false) ∧
    (let s := hostS [qpCfg [], (R.HI_PT 8, bits [(F.HI_PT_STATE, 1), (F.HI_PT_GEN, 255)])] Hi.reset
     s.pcieUp = true ∧ s.rb (R.HI_QP_CFG 5) F.HI_QP_CFG_EN = true ∧ s.rf (R.HI_PT 8) F.HI_PT_STATE = 1 ∧ s.rf (R.HI_PT 8) F.HI_PT_KIND = 0) ∧
    (∀ k < 1024, (hostS [] Hi.reset).rb (R.HI_QP_CFG k) F.HI_QP_CFG_EN = false) ∧
    F.HI_QP_CFG_EN.bit (1 : BitVec 32) = true ∧ F.HI_QP_CFG_EN.bit (0 : BitVec 32) = false ∧
    (let s := hostS [] Hi.reset; s.rb (R.HI_QP_CFG 5) F.HI_QP_CFG_EN = false ∧ s.rb (R.HI_QP_CFG 5) F.HI_QP_CFG_BOUND = false) ∧
    (let s := hostS [(R.HI_QP_CFG 5, F.HI_QP_CFG_BOUND.put 0 1)] Hi.reset
     s.rb (R.HI_QP_CFG 5) F.HI_QP_CFG_EN = false ∧ s.rb (R.HI_QP_CFG 5) F.HI_QP_CFG_BOUND = true) ∧
    (let d := dsc 4 [] 2 true; let e := { dsc 5 [] 0 false with dseq := 1 }; let s := descS [] [d, e]
     s.rb (R.HI_QP_CFG 5) F.HI_QP_CFG_EN = true ∧ (s.qp 5).infl = [d, e] ∧ d.dseq ≠ e.dseq ∧ d.started = true ∧ d.op = 4 ∧ e.started = false) := by
  refine ⟨by decide +kernel, by decide +kernel, by decide +kernel, by decide, by decide, by decide +kernel, by decide +kernel, by decide +kernel⟩

theorem witness_Descriptors_fetch :
    (∀ c ∈ [(([9] : List Word), false, true), ([0x20009], true, true), ([0x0], true, false)],
     let s := hostS [qpCfg []] (hiQp { Qp.idle with tail := 1 }); let k := s.qp 5
     let f : Desc := { dseq := k.next, w := (List.range 8).map (fun i => c.1.getD i 0), image := [0, 0, 0, 0, 0, 0, 0, 0], units := 0, started := false, trunc := false }
     s.qpState 5 = 1 ∧ k.tail < 2 ^ s.rf (R.HI_QP_CFG 5) F.HI_QP_CFG_SQ_SIZE ∧ k.tail ≠ k.next % 2 ^ s.rf (R.HI_QP_CFG 5) F.HI_QP_CFG_SQ_SIZE ∧
       k.infl.length < 32 ∧ s.recsWait 5 < 8 ∧ f.op ≠ 6 ∧ (∀ e ∈ k.infl, e.dseq ≠ k.next) ∧
       (f.bad = false ∧ f.fld 0 16 8 = s.rf (R.HI_PT (s.rf (R.HI_QP_CFG 5) F.HI_QP_CFG_PARTNER)) F.HI_PT_GEN ↔ c.2.1 = false) ∧
       (f.fld 0 16 8 ≠ s.rf (R.HI_PT (s.rf (R.HI_QP_CFG 5) F.HI_QP_CFG_PARTNER)) F.HI_PT_GEN ↔ (c.2.1 && c.2.2) = true)) ∧
    (hostS [] Hi.reset).qpState 5 ≠ 1 ∧ (hostS [] Hi.reset).running 5 0 1 = none := by decide +kernel

/-- Queue 5 as queue pair 5's own, either way. -/
def streamS (op : Nat) (d : Desc) (k : Queue) : State :=
  let s := descS [(R.SQ_Q_CFG 5, bits [(F.SQ_Q_CFG_EN, 1), (F.SQ_Q_CFG_SIZE, 12)]), (R.SQ_Q_BIND 5, bits (if op = 1 then
    [(F.SQ_Q_BIND_PROD_KIND, 1), (F.SQ_Q_BIND_PROD_ID, 5)] else [(F.SQ_Q_BIND_CONS_KIND, 1), (F.SQ_Q_BIND_CONS_ID, 5)]))] [d]
  { s with qs := [(5, k)] }
def streamD (op units : Nat) : Desc := dsc op [0, 0, 9, 5] units true

theorem witness_Descriptors_streams :
    (let d := streamD 1 7; let s := streamS 1 d (qWith [])
     s.running 5 0 1 = some d ∧ s.streamBad 5 d = none ∧ d.started = true ∧ d.units + 1 < d.fld 4 0 24 ∧ s.domOn (2 + s.qBank (d.fld 5 0 10) / 12) = true ∧
       s.qTakes (d.fld 5 0 10) = true ∧ (s.qu (d.fld 5 0 10)).plain) ∧
    (let d := dsc 1 [1, 0, 9, 5] 0 true; let s := streamS 1 d (qWith [])
     s.running 5 0 1 = some d ∧ s.streamBad 5 d = some 2 ∧ d.units = 0) ∧
    (let d := streamD 1 7; let s := streamS 1 d { Queue.empty with pend := [Token.marker 0] }
     s.running 5 0 1 = some d ∧ s.streamBad 5 d = none ∧ d.units < d.fld 4 0 24 ∧ s.domOn (2 + s.qBank (d.fld 5 0 10) / 12) = true ∧ s.qTakes (d.fld 5 0 10) = false) ∧
    (let d := streamD 2 7; let e := Token.make 3 1 true false false none; let s := streamS 2 d (qWith [e])
     s.running 5 0 2 = some d ∧ s.streamBad 5 d = none ∧ d.units + 1 < d.fld 4 0 24 ∧ s.domOn (2 + s.qBank (d.fld 5 0 10) / 12) = true ∧
       s.qHead (d.fld 5 0 10) = some e ∧ e.fold = false ∧ d.fld 4 25 1 = 0 ∧ d.fld 4 24 1 = 0) ∧
    (let d := streamD 2 7; let s := streamS 2 d (qWith [])
     s.running 5 0 2 = some d ∧ s.streamBad 5 d = none ∧ d.units < d.fld 4 0 24 ∧ s.qHead (d.fld 5 0 10) = none) := by
  dsimp only [Queue.plain]; decide +kernel

theorem witness_Descriptors_work :
    (let d := dsc 3 [0, 0, 32, 0, 4] 2 true; let s := descS [] [d]
     s.running 5 0 3 = some d ∧ d.num 2 % 32 = 0 ∧ d.num 4 % 32 = 0 ∧ d.fld 6 24 2 = 0 ∧ d.units + 1 < d.fld 6 0 24 ∧
       d.num 4 + 32 * d.units < 0x3000000 ∧ s.smbRangeHeld (d.num 4 + 32 * d.units) 32 = false ∧
       (s.fwJudge (s.qpPid 5) 0 (d.num 4 + 32 * d.units) false true).2 = true ∧ s.domOn (2 + (d.num 4 + 32 * d.units) / 0x80000 / 12) = true ∧
       (∀ j < 4, s.classAt (s.smbPlace (d.num 4 + 32 * d.units + 8 * j)) = .good) ∧ s.unarmed) ∧
    (let d := dsc 3 [4, 0, 32, 0, 4] 2 true; (descS [] [d]).running 5 0 3 = some d ∧ d.num 2 % 32 ≠ 0) ∧
    (let d := dsc 4 [5, 1, 0, 0] 0 false; let s := descS [] [d]
     s.running 5 0 4 = some d ∧ d.started = false ∧ s.loadDepth < 8 ∧
       8 ≤ ({ s with arr := { s.arr with loadQ := List.replicate 8 { plane := 0, slot := 0, mask := 1, src := none } } } : State).loadDepth) ∧
    (let d := dsc 5 [7, 100, 0] 0 false; let s := descS [] [d]
     s.running 5 0 5 = some d ∧ d.started = false ∧ s.mkWaits (d.fld 2 10 3) (d.fld 2 0 10) true = false) ∧
    (let d := dsc 5 [7, 100, 0] 0 false; let s := { descS [] [d] with mke := { MkEng.reset with axes := [(0, { MkAxis.idle with queue := (List.range 32).map (fun i => 100 + i) })] } }
     s.running 5 0 5 = some d ∧ s.mkWaits (d.fld 2 10 3) (d.fld 2 0 10) true = true) ∧
    (let d := { dsc 6 [7] 0 false with image := [0x60, 100] }; let s := descS [] [d]
     s.running 5 0 6 = some d ∧ s.mkWaits (bitsOf (d.image.getD 0 0).toNat 0 3) (d.fld 2 0 10) (wbit (d.image.getD 0 0) 5) = false) ∧
    (let d := { dsc 6 [7] 0 false with image := [0x60, 100] }
     let s := { descS [] [d] with mke := { MkEng.reset with axes := [(0, { MkAxis.idle with queue := (List.range 32).map (fun i => 100 + i) })] } }
     s.running 5 0 6 = some d ∧ s.mkWaits (bitsOf (d.image.getD 0 0).toNat 0 3) (d.fld 2 0 10) (wbit (d.image.getD 0 0) 5) = true) := by
  dsimp only [State.unarmed]
  refine ⟨?_, ?_, ?_, ?_, ?_, ?_, ?_⟩ <;> decide +kernel

theorem witness_Descriptors_rest :
    (let d := dsc 7 [0, 0, 0, 3] 0 false; let s0 := regions3 [] Cg.reset; let s := { s0 with regs := qpCfg [] :: s0.regs, hi := hiQp { Qp.idle with infl := [d] } }
     s.running 5 0 7 = some d ∧ d.started = false ∧ d.fld 5 0 4 = 3 ∧ s.cg.part = none ∧ s.cg.repair = [] ∧ s.regionState 3 ≠ 0 ∧
       imgRegion (img2.take 0x6000) = 3 ∧ (s.regionDoms 3).all s.domOn = true ∧ headerBad 2 (img2.take 0x6000) = none ∧
       ({ s with cg := { s.cg with part := some (loading img2 true []) } } : State).cg.part.isSome = true) ∧
    (let d := dsc 8 [4, 0, 0x5B000C, 2] 0 false; let s := descS [] [d]
     s.running 5 0 8 = some d ∧ d.num 2 % 4 = 0 ∧ d.fld 4 0 24 % 4 = 0 ∧ 1 ≤ d.fld 5 0 5 ∧ d.fld 5 0 5 ≤ 16) ∧
    (let d := dsc 8 [4, 0, R.GL_STAT, 1] 0 false; let s := descS [] [d]
     s.running 5 0 8 = some d ∧ ∃ u l, s.queryGo (.mk (s.qpPid 5) false false) (d.fld 5 0 5) (d.fld 4 0 24) = (u, l, 0)) ∧
    (let d := dsc 8 [2, 0, 0, 1] 0 false; (descS [] [d]).running 5 0 8 = some d ∧ d.num 2 % 4 ≠ 0 ∧ d.units = 0) ∧
    (let d := dsc 9 [] 0 false; (descS [] [d]).running 5 0 9 = some d) ∧
    (let s := hostS [qpCfg []] (hiQp { Qp.idle with recs := [{ words := [0, 1, 2, 3], irq := false }], cqTail := 31, unread := 31 })
     (s.qp 5).recs = { words := [0, 1, 2, 3], irq := false } :: [] ∧ (s.qp 5).unread < 2 ^ s.rf (R.HI_QP_CFG 5) F.HI_QP_CFG_CQ_SIZE ∧ (s.qp 4).recs = []) := by
  refine ⟨?_, ?_, ⟨by decide +kernel, ?_⟩, ?_, ?_, ?_⟩
  · decide +kernel
  · decide +kernel
  · have h : ((descS [] [dsc 8 [4, 0, R.GL_STAT, 1] 0 false]).queryGo (.mk ((descS [] [dsc 8 [4, 0, R.GL_STAT, 1] 0 false]).qpPid 5) false false)
        ((dsc 8 [4, 0, R.GL_STAT, 1] 0 false).fld 5 0 5) ((dsc 8 [4, 0, R.GL_STAT, 1] 0 false).fld 4 0 24)).2.2 = 0 := by decide +kernel
    exact ⟨_, _, Prod.ext rfl (Prod.ext rfl h)⟩
  · decide +kernel
  · decide +kernel
  · decide +kernel

/-- Partner entries and reservations. -/
def ptS (regs : List (Nat × Word)) (hi : Hi) : State := { State.reset with regs := regs, hi := hi, yk := { Yoke.reset with time := 600000 } }
def allPts : State := ptS ((List.range 1024).map (fun j => (R.HI_PT j, F.HI_PT_STATE.put 0 1)) ++ []) Hi.reset
/-- Reservation 255 of partner 9 on queue pair 5, of a class and a LAT. -/
def rsvS (cls lat : Nat) : State :=
  ptS [(R.HI_RSV_CFG 255, bits [(F.HI_RSV_CFG_VALID, 1), (F.HI_RSV_CFG_PARTNER, 9), (F.HI_RSV_CFG_CLASS, cls), (F.HI_RSV_CFG_LAT, lat)]),
    (R.HI_PT 9, bits [(F.HI_PT_STATE, 1), (F.HI_PT_REF, 5)])] { Hi.reset with rates := [(255, 4)] }

theorem witness_Partners :
    (let s := ptS [] Hi.reset
     s.rf (R.HI_PT 8) F.HI_PT_STATE = 0 ∧ ¬ (F.HI_PT_REQ_KIND.get (s.rg R.HI_PT_REQ) = 0 ∧ s.rb (R.HI_QP_CFG (F.HI_PT_REQ_REF.get (s.rg R.HI_PT_REQ))) F.HI_QP_CFG_BOUND = true) ∧
       F.HI_PT_STATE.get (s.rg (R.HI_PT (F.HI_PT_REQ_ID.get (s.rg R.HI_PT_REQ)))) ≠ 1) ∧
    (∀ j, 8 ≤ j → j < 1024 → allPts.rf (R.HI_PT j) F.HI_PT_STATE ≠ 0) ∧
    (let s := ptS [(R.HI_PT 8, 1), (R.HI_QP_CFG 0, F.HI_QP_CFG_BOUND.put 0 1), (R.HI_PT_REQ, F.HI_PT_REQ_ID.put 0 8)] Hi.reset
     s.rf (R.HI_PT 9) F.HI_PT_STATE = 0 ∧ F.HI_PT_REQ_KIND.get (s.rg R.HI_PT_REQ) = 0 ∧
       s.rb (R.HI_QP_CFG (F.HI_PT_REQ_REF.get (s.rg R.HI_PT_REQ))) F.HI_QP_CFG_BOUND = true ∧ F.HI_PT_REQ_ID.get (s.rg R.HI_PT_REQ) = 8 ∧
       F.HI_PT_STATE.get (s.rg (R.HI_PT 8)) = 1) ∧
    (let s := ptS [(R.HI_PT 9, 1), (R.HI_RSV_REQ, F.HI_RSV_REQ_PARTNER.put 0 9), (R.HI_RSV_RATE, F.HI_RSV_RATE_RATE.put 0 4)] Hi.reset
     let w := s.rg R.HI_RSV_REQ; let rate := s.rf R.HI_RSV_RATE F.HI_RSV_RATE_RATE; let eng := s.qBank (F.HI_RSV_REQ_QUEUE.get w)
     100 * (((s.rsvLive.filter (fun k => s.qBank (s.rf (R.HI_RSV_CFG k) F.HI_RSV_CFG_QUEUE) == eng)).map (fun k => Tab.get (fun _ => 0) s.hi.rates k)).sum + rate) ≤
         s.rf R.HI_RSV_WIN F.HI_RSV_WIN_ADMIT * 2 * 1000 * s.rf R.HI_RSV_WIN F.HI_RSV_WIN_US ∧
       s.domOn (2 + eng / 12) = true ∧ s.rb (R.HI_RSV_CFG 0) F.HI_RSV_CFG_VALID = false ∧ s.rf (R.HI_PT (F.HI_RSV_REQ_PARTNER.get w)) F.HI_PT_STATE = 1) ∧
    (let s := ptS [(R.HI_RSV_RATE, 0xFFFFFFFF), (R.HI_RSV_WIN, 0)] Hi.reset
     s.rf R.HI_RSV_WIN F.HI_RSV_WIN_ADMIT * 2 * 1000 * s.rf R.HI_RSV_WIN F.HI_RSV_WIN_US < 100 * s.rf R.HI_RSV_RATE F.HI_RSV_RATE_RATE) ∧
    ((rsvS 0 0).rb (R.HI_RSV_CFG 255) F.HI_RSV_CFG_VALID = true ∧ (rsvS 0 0).rb (R.HI_RSV_CFG 0) F.HI_RSV_CFG_VALID = false) := by
  refine ⟨by decide +kernel, ?_, by decide +kernel, by decide +kernel, by decide +kernel, by decide +kernel⟩
  intro j _ hj
  have : allPts.rg (R.HI_PT j) = F.HI_PT_STATE.put 0 1 :=
    Tab.get_map regReset (List.range 1024) R.HI_PT (fun _ => F.HI_PT_STATE.put 0 1) [] (List.mem_range.mpr hj) (by intro i _ h; simp only [R.HI_PT] at h; omega)
  rw [State.rf, this]; decide

theorem witness_Partners_windows :
    (State.reset.now < State.reset.hi.winAt + 500 * State.reset.rf R.HI_RSV_WIN F.HI_RSV_WIN_US ∧
      (ptS [] Hi.reset).hi.winAt + 500 * (ptS [] Hi.reset).rf R.HI_RSV_WIN F.HI_RSV_WIN_US ≤ (ptS [] Hi.reset).now ∧
      ∀ k, k < 256 → (ptS [] Hi.reset).rb (R.HI_RSV_CFG k) F.HI_RSV_CFG_VALID = false) ∧
    (∀ cls ∈ [(0 : Nat), 1], let s := rsvS cls 0
     s.hi.winAt + 500 * s.rf R.HI_RSV_WIN F.HI_RSV_WIN_US ≤ s.now ∧ (∀ j, j < 256 → (s.rb (R.HI_RSV_CFG j) F.HI_RSV_CFG_VALID = true ↔ j = 255)) ∧
       s.rsvEngine 255 = 0 ∧ 4 = min (Tab.get (fun _ => 0) s.hi.rates 255) 9 ∧ s.rf (R.HI_RSV_CFG 255) F.HI_RSV_CFG_PARTNER = 9 ∧
       s.rf (R.HI_PT 9) F.HI_PT_STATE = 1 ∧ s.rf (R.HI_PT 9) F.HI_PT_KIND = 0 ∧ (s.rb (R.HI_RSV_CFG 255) F.HI_RSV_CFG_CLASS = true ↔ cls = 1) ∧
       s.rsvDebts 255 = [] ∧ Tab.get (fun _ => []) s.hi.waits 255 = [] ∧ 4 ≤ 2000 * s.rf R.HI_RSV_WIN F.HI_RSV_WIN_US ∧
       s.now ≤ min s.now s.now + 500 * s.rf (R.HI_RSV_CFG 255) F.HI_RSV_CFG_LAT ∧ min 0 s.now + 500 * s.rf (R.HI_RSV_CFG 255) F.HI_RSV_CFG_LAT < s.now) ∧
    (let s := ptS [(R.HI_RSV_CFG 1, F.HI_RSV_CFG_PARTNER.put 0 9), (R.HI_PT 9, F.HI_PT_PRIO.put 0 3), (R.HI_RSV_ORDER 0, 2)] Hi.reset
     s.rf (R.HI_PT (s.rf (R.HI_RSV_CFG 0) F.HI_RSV_CFG_PARTNER)) F.HI_PT_PRIO < s.rf (R.HI_PT (s.rf (R.HI_RSV_CFG 1) F.HI_RSV_CFG_PARTNER)) F.HI_PT_PRIO ∧
       s.rf (R.HI_PT (s.rf (R.HI_RSV_CFG 0) F.HI_RSV_CFG_PARTNER)) F.HI_PT_PRIO = s.rf (R.HI_PT (s.rf (R.HI_RSV_CFG 2) F.HI_RSV_CFG_PARTNER)) F.HI_PT_PRIO) := by
  refine ⟨by decide +kernel, by decide +kernel, by decide +kernel⟩

/-! Lace and events (O46 to O49) -/

/-- Device 1 of three, with its ports UP or DOWN; its unique ID is 1. -/
def lcS (ports : List Nat) (regs : List (Nat × Word)) (lc : Lc) : State :=
  { State.reset with
    regs := regs ++ ports.map (fun p => (R.LC_PORT_STAT p, F.LC_PORT_STAT_UP.put 0 1)) ++ [(R.PW_DOM_STAT 14, 2), (R.LC_STAT, bits [(F.LC_STAT_DEV, 1), (F.LC_STAT_NDEV, 3)])]
    lc := { lc with east := 3 }
    ot := { Ot.reset with words := [(0, 1), (1, 0), (2, 0), (3, 0)] } }
/-- The same without a number. -/
def lcNew (ports : List Nat) (regs : List (Nat × Word)) (lc : Lc) : State := lcS ports (regs ++ [(R.LC_STAT, F.LC_STAT_DEV.put 0 63)]) lc
/-- A frame's header: from device 2. -/
def lcH (dst time : Nat) : LaceHdr := { src := 2, dst := BitVec.ofNat 8 dst, hops := 0, seq := 5, time := BitVec.ofNat 48 time, tap := 0 }
/-- A request to another device's node 12, and it waiting for its response. -/
def remPkt : Packet := { req 0x01 0 with addr := BitVec.ofNat 48 (12 * 2 ^ 35 + 2 * 2 ^ 42) }
def remReq : RemReq := { seq := 5, req := remPkt, dev := 2, port := 0 }
def peers : List (Nat × Word) := [(R.HI_PT 8, bits [(F.HI_PT_STATE, 1), (F.HI_PT_KIND, 1), (F.HI_PT_REF, 2)])]

theorem witness_LaceFrames :
    (let s := lcS [0, 1] [] Lc.reset
     s.lcUp 0 = true ∧ s.lcUp (1 - 0) = true ∧ s.lcFirst (lcH 0xFF 0) = true ∧ (lcH 0xFF 0).dst = 0xFF ∧ s.lcNumbered = true ∧
       (lcH 1 0).dst.toNat = s.lcDev ∧ (lcH 1 0).dst ≠ 0xFF ∧ (lcH 2 0).dst ≠ 0xFF ∧ (lcH 2 0).dst.toNat ≠ s.lcDev) ∧
    ((lcS [0] [] Lc.reset).lcUp 0 = true ∧ (lcS [0] [] Lc.reset).lcUp (1 - 0) = false ∧ (lcS [0] [] Lc.reset).lcUp 1 = false) ∧
    (lcS [0, 1] [] { Lc.reset with seen := [(2, 5)] }).lcFirst (lcH 0xFF 0) = false ∧
    (let s := lcS [0, 1] peers Lc.reset
     s.peerEntry (lcH 1 0).src.toNat = some 8 ∧ remoteNode remPkt < 120) ∧
    (let s := lcS [0, 1] [] Lc.reset
     s.peerEntry (lcH 1 0).src.toNat = none ∧ s.lcRoute (lcH 1 0).src.toNat = some 0) ∧
    (let s := lcS [0, 1] [] { Lc.reset with reqs := [remReq] }
     s.lc.reqs.find? (fun r => r.seq == (5 : Word).toNat && r.dev == (lcH 1 0).src.toNat) = some remReq) ∧
    (let s := { lcS [0] [] Lc.reset with cg := { Cg.reset with lib := some { staging [] with lace := true } } }
     s.cg.lib.any (fun l => l.lace) = true) ∧
    (let s := { lcS [0] [] Lc.reset with cg := { Cg.reset with boot := some { booting [] none 0 with idx := 3 } } }
     ((1 : BitVec 128).toNat == s.uid && s.cg.boot.any (fun b => b.idx == 3)) = true) ∧
    (let s := { lcS [0] [] Lc.reset with yk := yk600 }
     128 * (s.now : Int) ≤ s.lcLocal 0 (laceStamp (lcH 0xFF 600)) ∧ s.lcLocal 0 (laceStamp (lcH 0xFF 599)) < 128 * (s.now : Int)) := by
  refine ⟨?_, ?_, ?_, ?_, ?_, ?_, ?_, ?_, ?_⟩ <;> decide +kernel

theorem witness_LaceLinks_ports :
    (∀ n ∈ [(2 : Nat), 3], let s := lcS [0] [] { Lc.reset with fails := [(0, n)] }
     s.lcUp 0 = true ∧ s.lcUp 1 = false ∧ (Tab.get (fun _ => 0) s.lc.fails 0 < 3 ↔ n = 2)) ∧
    (let s := lcNew [] [(R.LC_CFG, 1)] Lc.reset
     s.lcUp 0 = false ∧ s.domOn 14 = true ∧ s.lcNumbered = false ∧ s.rb R.LC_CFG F.LC_CFG_ROOT = true ∧ s.lc.discAt = none) ∧
    ((lcS [] [] Lc.reset).lcNumbered = true ∧ (lcS [] [(R.PW_DOM_STAT 14, 0)] Lc.reset).domOn 14 = false) ∧
    (let s := { lcS [0] [] Lc.reset with yk := yk600 }
     Tab.get (fun _ => 0) s.lc.dlyAt 0 + 500 ≤ s.now ∧ (lcS [0] [] Lc.reset).now < Tab.get (fun _ => 0) (lcS [0] [] Lc.reset).lc.dlyAt 0 + 500) ∧
    (let s := lcS [0] [] { Lc.reset with cuts := [2], reqs := [remReq] }
     s.lcUp 0 = true ∧ s.lcFirst (lcH 0xFF 0) = true ∧ 0 < s.lcN ∧ s.lc.cuts = [2]) := by
  refine ⟨?_, ?_, ?_, ?_, ?_⟩ <;> decide +kernel

theorem witness_LaceLinks_discovery :
    (let s := { lcNew [0] [(R.LC_CFG, 1)] { Lc.reset with discAt := some 0 } with yk := { Yoke.reset with time := 600000 } }
     s.rb R.LC_CFG F.LC_CFG_ROOT = true ∧ s.lcUp 0 = true ∧ s.lc.discAt = some 0 ∧ 0 + 500000 ≤ s.now) ∧
    State.reset.lc.discAt = none ∧
    (let s := lcNew [0] [(R.LC_CFG, 0)] Lc.reset
     s.rb R.LC_CFG F.LC_CFG_ROOT = false ∧ s.lcUp 0 = true ∧ (∀ n ∈ [(1 : Nat), 63, 64], (List.replicate n (5 : BitVec 128)).all (fun u => u.toNat != s.uid) = true) ∧
       (List.replicate 63 (5 : BitVec 128)).length < 64 ∧ 64 ≤ (List.replicate 64 (5 : BitVec 128)).length) ∧
    (let s := lcNew [0] [(R.LC_CFG, 1)] Lc.reset
     s.rb R.LC_CFG F.LC_CFG_ROOT = true ∧ ([1, 5] : List (BitVec 128)).findIdx? (fun u => u.toNat == s.uid) = some 0 ∧ 1 ≤ ([1, 5] : List (BitVec 128)).length ∧
       ([1, 5] : List (BitVec 128)).length ≤ 64) ∧
    (let s := lcNew [0] [(R.LC_CFG, 0)] Lc.reset
     s.lcUp 0 = true ∧ s.lcFirst (lcH 0xFF 0) = true ∧ ([5, 1] : List (BitVec 128)).findIdx? (fun u => u.toNat == s.uid) = some 1 ∧ (1 : Fin 65).val < ([5, 1] : List (BitVec 128)).length) := by
  refine ⟨?_, ?_, ?_, ?_, ?_⟩ <;> decide +kernel

/-- An image of 8 bytes being sent to all. -/
def sending : ImgSend := { base := 0, len := 8, next := 0, bcast := true }

theorem witness_LaceStartAndImages :
    (∀ n ∈ [(9999 : Nat), 10000], let s := lcS [0] [(R.LC_CFG, 1), (R.LC_START_AT_LO, w32 n), (R.LC_START_AT_HI, 0)] Lc.reset
     s.rb R.LC_CFG F.LC_CFG_ROOT = true ∧
       (10000 ≤ sext 48 (trunc 48 ((((s.rg R.LC_START_AT_LO).toNat + 2 ^ 32 * s.rf R.LC_START_AT_HI F.LC_START_AT_HI_TIME : Nat) : Int) - (s.now : Int))) ↔ n = 10000)) ∧
    (lcS [] [(R.LC_CFG, 0)] Lc.reset).rb R.LC_CFG F.LC_CFG_ROOT = false ∧
    (∀ n ∈ [(127 : Nat), 128], let s := lcS [] [] { Lc.reset with start := some n }
     s.lc.start = some (n : Int) ∧ ((n : Int) < 128 * ((s.now : Int) + 1) ↔ n = 127)) ∧
    State.reset.lc.start = none ∧
    (F.LC_IMG_CMD_GO.bit (1 : BitVec 32) = true ∧ F.LC_IMG_CMD_OFS.get (1 : BitVec 32) = 0 ∧ State.reset.lc.send = none ∧
      ∃ l, State.reset.flRead (4096 * 0 + 0x14) 4 = (State.reset, l, true)) ∧
    F.LC_IMG_CMD_GO.bit (0 : BitVec 32) = false ∧
    (let s := lcS [0] [] { Lc.reset with send := some sending }
     s.lc.send = some sending ∧ sending.bcast = true ∧ s.lcUp 0 = true ∧ sending.len ≤ 0x4000000 - sending.base ∧ ∃ l, s.flRead 0 8 = (s, l, true)) ∧
    (let s := lcS [] [] { Lc.reset with send := some sending }
     s.lcUp 0 = false ∧ s.lcUp 1 = false ∧ s.lc.send = some sending) := by
  have hr : ∀ s : State, s.mem = [] → s.syn = [] → ∀ o ∈ [(0 : Nat), 0x10], s.flErased o = true ∨ s.classAt (flAt (o / 8 * 8)) = .good :=
    fun s hm hs o ho => .inl (State.flErased_empty o (by simp only [List.mem_cons, List.not_mem_nil, or_false] at ho; omega) hm hs)
  refine ⟨by decide +kernel, by decide +kernel, by decide +kernel, rfl, ⟨by decide, by decide, rfl, ?_⟩, by decide, ⟨rfl, rfl, by decide +kernel, by decide, ?_⟩, by decide +kernel⟩
  · have h := State.flWords_clean (s := State.reset) (u := State.reset) [0x10] (fun o ho => hr _ rfl rfl o (List.mem_cons_of_mem _ ho)) rfl rfl
    exact ⟨_, by
      show State.reset.flRead 0x14 4 = _
      rw [State.flRead, show (List.range ((0x14 + 4 - 0x14 / 8 * 8 + 7) / 8)).map (fun i => 0x14 / 8 * 8 + 8 * i) = [0x10] from rfl, h]⟩
  · exact ⟨_, State.flRead_clean (s := lcS [0] [] { Lc.reset with send := some sending }) 0 1 rfl (fun i hi => hr _ rfl rfl (0 + 8 * i) (by
      have : i = 0 := by omega
      subst this; decide)) rfl rfl⟩

/-- Event source 1024 (an axis fault) pending, its ring 0 of 16 entries. -/
def evS (more : List (Nat × Word)) (k : EvRing) : State :=
  { State.reset with
    regs := more ++ [(R.GL_STAT, F.GL_STAT_MODE.put 0 1), (R.YK_EVT, 1), (R.EV_RING_CFG 0, bits [(F.EV_RING_CFG_EN, 1), (F.EV_RING_CFG_SIZE, 4), (F.EV_RING_CFG_IRQ_EN, 1)])]
    ev := { EvUnit.reset with rings := [(0, k)] }
    yk := yk600 }
def evOn (s : State) : Bool := F.EV_SRC_CFG_EN.bit (s.written (R.EV_SRC_CFG 1024) 1) && !s.srcEn 1024 && s.srcPending 1024 && s.qvMode

theorem witness_EventUnit :
    (let s := evS [] { EvRing.idle with unread := 15 }
     evOn s = true ∧ s.rb (R.EV_RING_CFG 0) F.EV_RING_CFG_EN = true ∧ (s.ring 0).unread < 2 ^ s.rf (R.EV_RING_CFG 0) F.EV_RING_CFG_SIZE ∧
       F.EV_SRC_CFG_RING.get (s.written (R.EV_SRC_CFG 1024) 1) = 0 ∧ F.EV_SRC_CFG_EN.bit (s.written (R.EV_SRC_CFG 1024) 0) = false) ∧
    (let s := evS [] { EvRing.idle with unread := 16 }
     evOn s = true ∧ 2 ^ s.rf (R.EV_RING_CFG 0) F.EV_RING_CFG_SIZE ≤ (s.ring 0).unread) ∧
    (let s := evS [(R.EV_RING_MOD 0, F.EV_RING_MOD_MOD_US.put 0 1), (R.HI_MSIX_CTL 0, 0)] { EvRing.idle with unsig := 1 }
     0 < (s.ring 0).unsig ∧ s.rf (R.EV_RING_MOD 0) F.EV_RING_MOD_MOD_US ≠ 0 ∧ s.rb (R.EV_RING_CFG 0) F.EV_RING_CFG_IRQ_EN = true ∧
       (s.ring 0).firstAt + 500 * s.rf (R.EV_RING_MOD 0) F.EV_RING_MOD_MOD_US ≤ s.now ∧ s.rb (R.HI_MSIX_CTL 0) F.HI_MSIX_CTL_MASK = false) ∧
    (let s := evS [(R.HI_MSIX_CTL 0, 1)] EvRing.idle
     s.rb (R.HI_MSIX_CTL 0) F.HI_MSIX_CTL_MASK = true ∧ (s.ring 0).unsig = 0) := by
  refine ⟨?_, ?_, ?_, ?_⟩ <;> decide +kernel

/-! The control core (O50 to O53) -/

/-- The core at its Starter ROM, with control and status registers and a value in g1. -/
def octS (csr : List (Nat × Word)) (g1 : Word) (regs : List (Nat × Word)) : State :=
  { State.reset with regs := regs, cc := { Cc.reset with csr := csr, g := [(1, g1)], boot := false } }
/-- User mode, with a region that it may execute; a trap being served. -/
def userCsr : List (Nat × Word) := [(0, 0), (0x100, 0xFFF00000), (0x101, 0xFFF0FFDC)]
def twCsr : List (Nat × Word) := [(0, 5)]

theorem witness_octFetch (c : List (Nat × Word)) (hc : c ∈ [[], userCsr, twCsr]) (g : Word) (r : List (Nat × Word)) :
    (octS c g r).fetches (octS c g r) := by
  refine ⟨rfl, rfl, rfl, rfl, octS c g r, ?_, rfl⟩
  have hm : (octS c g r).mpuOk (octS c g r).cc.pc 2 = true := by
    have h0 : ∀ d ∈ [[], userCsr, twCsr], (octS d 0 []).mpuOk (octS d 0 []).cc.pc 2 = true := by decide +kernel
    exact h0 c hc
  have hp : octPlace (octS c g r).cc.pc = .rom 0 := by
    have h0 : octPlace Cc.reset.pc = .rom 0 := by decide +kernel
    exact h0
  simp only [State.octFetch, hm, hp, not_true_eq_false, if_false]

theorem witness_OcteyArithmetic :
    ({ State.reset with cc := { Cc.reset with wait := true } } : State).cc.wait = true ∧
    (let s := { octS [(0, 0)] 0 [] with cc := { (octS [(0, 0)] 0 []).cc with pc := 0xFFF00000 } }
     s.cc.halt = false ∧ s.cc.wait = false ∧ s.cc.bus = none ∧ s.mpuOk s.cc.pc 2 = false) ∧
    (let s := { octS [] 0 [] with cc := { (octS [] 0 []).cc with pc := 0x90000000 } }
     s.mpuOk s.cc.pc 2 = true ∧ octPlace s.cc.pc = .nowhere) ∧
    (31 : BitVec 16).toNat < 32 ∧ 32 ≤ (32 : BitVec 16).toNat := by decide +kernel

theorem witness_OcteyMemory :
    (let u := octS [] 8 []; let a := u.octReg 1 + (0 : BitVec 16).signExtend 32
     a.toNat % 4 = 0 ∧ u.mpuOk a 0 = true ∧ u.mpuOk a 1 = true ∧ octPlace a = .core 8 ∧ u.classAt ((memCore + 8) / 8 * 8) = .good ∧
       u.rb R.SM_FLIP_CFG F.SM_FLIP_CFG_ARM = false) ∧
    ((octS [] 1 []).octReg 1 + (1 : BitVec 16).signExtend 32).toNat % 4 ≠ 0 ∧
    (let u := octS userCsr 8 []; let a := u.octReg 1 + (0 : BitVec 16).signExtend 32
     a.toNat % 4 = 0 ∧ u.mpuOk a 0 = false ∧ u.mpuOk a 1 = false) ∧
    (octPlace 0xFFF00000 = .rom 0 ∧ octPlace 0x40000000 = .dev 0 ∧ blockOf 0 < 24 ∧ octPlace 0x406F0000 = .dev 0x6F0000 ∧ 24 ≤ blockOf 0x6F0000 ∧
      octPlace 0x80000020 = .smb 32 ∧ octPlace 0x90000000 = .nowhere ∧ octPlace 0x82FFFFFF = .smb 0x2FFFFFF ∧ octPlace 0x83000000 = .nowhere ∧
      octPlace 0x7FFFF = .core 0x7FFFF ∧ octPlace 0x80000 = .nowhere) ∧
    (octS [] 8 []).noProbes := by
  refine ⟨by decide +kernel, by decide +kernel, by decide +kernel, by decide +kernel, ?_⟩
  unfold State.noProbes; decide +kernel

theorem witness_OcteyControl :
    (let u := octS [] 8 []
     u.octTw = false ∧ (u.csr 0x11).toNat ≠ 12 ∧ (u.csr 0x11).toNat < 2 ∧ u.octPriv = true ∧ u.csr 0x12 = 0 ∧ u.csr 0x20 = u.csr 0x21 ∧
       (u.octReg 1 + (0 : BitVec 16).signExtend 32).toNat % 4 = 0 ∧ (u.octReg 1 + (1 : BitVec 16).signExtend 32).toNat % 4 ≠ 0 ∧ (u.csr 0x14).toNat < 13) ∧
    (let u := octS [(0x11, 12), (0x12, 1), (0x14, 13)] 8 []; u.octTw = false ∧ (u.csr 0x11).toNat = 12 ∧ 2 ≤ (u.csr 0x11).toNat ∧ u.csr 0x12 ≠ 0 ∧ 13 ≤ (u.csr 0x14).toNat) ∧
    (let u := octS twCsr 8 []; u.octTw = true ∧ u.octPriv = true) ∧
    (let u := octS [(0x20, 8)] 8 []
     u.octTw = false ∧ u.csr 0x21 = 0 ∧ u.csr 0x20 ≠ 0 ∧ (u.csr 0x20).toNat % 8 = 0 ∧ (u.csr 0x20).toNat + 40 ≤ 0x80000 ∧
       ∀ i, i < 5 → u.classAt (memCore + (u.csr 0x20).toNat + 8 * i) = .good) ∧
    (let u := octS [(0x21, 8)] 8 []; u.csr 0x20 = 0 ∧ u.csr 0x21 ≠ 0) ∧
    ((octS [] 8 [(R.CC_CFG, 0)]).rb R.CC_CFG F.CC_CFG_BRK_HALT = false ∧ (octS [] 8 [(R.CC_CFG, 2)]).rb R.CC_CFG F.CC_CFG_BRK_HALT = true) ∧
    (octS userCsr 8 []).octPriv = false ∧
    (csrKnown 5 = true ∧ csrRo 5 = false ∧ csrKnown 0x11F = true ∧ csrRo 0x10 = true) := by
  refine ⟨?_, ?_, ?_, ?_, ?_, ?_, ?_, ?_⟩ <;> decide +kernel

/-- The core waits, with its timer's interrupt due. -/
def irqS (status : Word) : State :=
  { octS [(0, status), (0x30, 1), (0x44, 0), (0x45, 0)] 0 [] with cc := { (octS [(0, status), (0x30, 1), (0x44, 0), (0x45, 0)] 0 []).cc with wait := true } }
def ccS (regs : List (Nat × Word)) : State := { State.reset with regs := regs }
def bootS (mode : Nat) (more : List (Nat × Word)) : State :=
  ccS (more ++ [(R.GL_STAT, F.GL_STAT_MODE.put 0 mode), (R.CC_STAT, F.CC_STAT_START.put 0 2), (R.CC_BOOT, F.CC_BOOT_CFG_GO.put 0 1)])

theorem witness_ControlCore_interrupts :
    ((irqS 3).irqDue = some 0 ∧ (irqS 3).octIe = true ∧ (irqS 3).octTw = false ∧ (irqS 3).cc.halt = false ∧ (irqS 3).cc.bus = none) ∧
    ((irqS 1).irqDue = some 0 ∧ (irqS 1).octIe = false ∧ (irqS 1).irqPend 0 = true ∧ wbit ((irqS 1).csr 0x30) 0 = true ∧ (irqS 1).cc.wait = true) ∧
    (State.reset.irqPend 0 = false ∧ (octS [(0x30, 0)] 0 []).irqDue = none) ∧
    (let s := { ccS [(R.CC_CFG, 1)] with cc := { Cc.reset with dt := true } }
     s.ot.run = none ∧ s.cc.dt = true ∧ s.rb R.CC_CFG F.CC_CFG_DT_RST = true ∧ s.rs.held = [] ∧ s.rs.seq = none ∧ State.reset.cc.dt = false) ∧
    (let s := ccS [(R.CC_WDT_CFG, bits [(F.CC_WDT_CFG_EN, 1), (F.CC_WDT_CFG_LIMIT, 0)])]; s.ccCounts = true ∧ s.ccLeft = 0) ∧
    (let s := ccS [(R.CC_WDT_CFG, bits [(F.CC_WDT_CFG_EN, 1), (F.CC_WDT_CFG_LIMIT, 2)])]
     s.ccCounts = true ∧ 0 < s.ccLeft ∧ s.ccLimit < 2 * s.ccLeft ∧
       2 * ({ s with yk := { Yoke.reset with time := 50000 } } : State).ccLeft ≤ ({ s with yk := { Yoke.reset with time := 50000 } } : State).ccLimit) ∧
    (ccS [(R.CC_WDT_CFG, 0)]).ccCounts = false := by
  refine ⟨?_, ?_, ?_, ?_, ?_, ?_, ?_⟩ <;> decide +kernel

theorem witness_ControlCore_rest :
    (State.reset.cc.halt = false ∧ State.reset.cc.dt = false ∧ State.reset.blkHeld 19 = false ∧ (resetting 0 0).blkHeld 19 = true ∧
      ({ State.reset with cc := { Cc.reset with halt := true } } : State).cc.halt = true) ∧
    (F.CC_WDT_KICK_KEY.get (0x5A5A : BitVec 32) = 0x5A5A ∧ F.CC_WDT_KICK_KEY.get (0x5A5B : BitVec 32) ≠ 0x5A5A) ∧
    ((ccS [(R.CC_MBOX_STAT, 0)]).rb R.CC_MBOX_STAT F.CC_MBOX_STAT_H2C_FULL = false ∧ (ccS [(R.CC_MBOX_STAT, 0)]).rb R.CC_MBOX_STAT F.CC_MBOX_STAT_C2H_FULL = false ∧
      (ccS [(R.CC_MBOX_STAT, 3)]).rb R.CC_MBOX_STAT F.CC_MBOX_STAT_H2C_FULL = true ∧ (ccS [(R.CC_MBOX_STAT, 3)]).rb R.CC_MBOX_STAT F.CC_MBOX_STAT_C2H_FULL = true) ∧
    ((bootS 0 []).cc.boot = true ∧ (octS [] 0 []).cc.boot = false ∧ 2 ≤ (bootS 0 []).rf R.CC_STAT F.CC_STAT_START ∧
      (bootS 0 []).rb R.CC_BOOT F.CC_BOOT_CFG_GO = true ∧ (bootS 0 []).qvMode = false) ∧
    ((bootS 1 [(R.CC_RESTART, 0x100)]).qvMode = true ∧ (bootS 1 [(R.CC_RESTART, 0x100)]).rg R.CC_RESTART ≠ 0) ∧
    (let s := bootS 0 [(R.CC_STAT, F.CC_STAT_START.put 0 1)]
     s.cc.boot = true ∧ s.rf R.CC_STAT F.CC_STAT_START = 1 ∧ s.qvMode = false ∧ s.lowerOpen.2 = false) := by
  refine ⟨by decide +kernel, by decide, by decide +kernel, by decide +kernel, by decide +kernel, by decide +kernel, by decide +kernel, by decide +kernel, ?_⟩
  rw [State.lowerOpen, State.flRecords_erased journalBase 1024 (fun k hk => State.flErased_empty _ (by simp only [journalBase]; omega) rfl rfl)]
  rfl

/-! Faults and groups (O54, O55) -/

/-- The fault unit enabled or not, with a detection of one column or one row. -/
def ftS (en : Nat) (faults : List FaultRec) (ft : Ft) : State :=
  { State.reset with regs := [(R.FT_CTRL, F.FT_CTRL_EN.put 0 en)], faults := faults, ft := ft }
def hitOf (e : Nat × Nat) : FaultRec := .mk 3 [e] 9
/-- A recovery of one element at a step. -/
def elOf (code loc : Nat) : FtElem := { code := code, loc := loc, det := 3, time := 9, cls := 0, rep := 0, log := none }
def recOf (step : Nat) (els : List FtElem) (grp : Option Nat) (cannot : Bool) : Recovery :=
  { grp := grp, els := els, step := step, t0 := 9, freeze := true, cols := [], cannot := cannot }
def ftRun (r : Recovery) : Ft := { Ft.reset with run := some r }

theorem witness_Recoveries_detect :
    (State.reset.faults = [] ∧ (ftS 0 [.mk 3 [] 9] Ft.reset).faults = .mk 3 [] 9 :: []) ∧
    (let s := ftS 0 [hitOf (1, 5)] Ft.reset
     s.faults = hitOf (1, 5) :: [] ∧ (hitOf (1, 5)).elems = [(1, 5)] ∧ s.rb R.FT_CTRL F.FT_CTRL_EN = false ∧ s.rb (R.FT_LOG_CTL 0) F.FT_LOG_CTL_VALID = false) ∧
    (let s := ftS 1 [hitOf (1, 5)] Ft.reset
     s.rb R.FT_CTRL F.FT_CTRL_EN = true ∧ s.ft.run = none ∧ s.elemFreezes (hitOf (1, 5)).det (1, 5) = true) ∧
    (let r := recOf 3 [elOf 1 5] none false
     (ftS 1 [hitOf (1, 5)] (ftRun r)).ft.run = some r ∧ sameElem (1, 5) ((elOf 1 5).code, (elOf 1 5).loc) = true) := by
  refine ⟨?_, ?_, ?_, ?_⟩ <;> decide +kernel

theorem witness_Recoveries_steps :
    (let s := ftS 1 [] (ftRun (recOf 3 [elOf 1 5] none false))
     s.logCol ((elOf 1 5).loc % 64) = some 5 ∧ s.rb (R.FT_LOG_CTL 0) F.FT_LOG_CTL_VALID = false ∧ colMarks (s.rg R.AR_COLMAP) = [] ∧ (1 : BitVec 64).toNat.testBit 0 = true ∧
       (0 : BitVec 64).toNat.testBit 0 = false) ∧
    (let q : Repair := { bank := 0, row := 3, spare := 0, kind := .temp }
     let s := { ftS 1 [] (ftRun (recOf 3 [elOf 2 3] none false)) with sm := { Smm.reset with repairs := [q] } }
     s.sm.run = none ∧ (s.repairsOf ((elOf 2 3).loc / 4096 % 128) .soft).length < 2 ∧ s.tempOf ((elOf 2 3).loc / 4096 % 128) ((elOf 2 3).loc % 4096) = some q) ∧
    (let r := recOf 5 [elOf 1 5] none false; let s := ftS 1 [] (ftRun r)
     s.ft.run = some r ∧ r.step = 5 ∧ s.smbBusy = false ∧ s.runGroups r = []) ∧
    (let r := recOf 5 [elOf 1 5] (some 2) true; let s := ftS 1 [] (ftRun r)
     s.runGroups r = [2] ∧ r.els.find? (fun e => e.code == 4 && e.cls == 2 && e.det != 5) = none ∧ r.cannot = true) ∧
    (let r := recOf 6 [elOf 1 5] (some 2) false; let s := ftS 1 [] (ftRun r)
     s.ft.run = some r ∧ r.step = 6 ∧ s.ft.queue = [] ∧ s.rs.domWait = none ∧ State.reset.ft.run = none) := by
  refine ⟨?_, ?_, ?_, ?_, ?_⟩ <;> decide +kernel

/-- Group 3 of tile 0, enabled or not, that takes a checkpoint each microsecond. -/
def grpS (en : Nat) (more : List (Nat × Word)) (k : Option CkFlight) : State :=
  { State.reset with
    regs := more ++ [(R.FT_GRP_CFG 3, bits [(F.FT_GRP_CFG_EN, en), (F.FT_GRP_CFG_MODE, 1), (F.FT_GRP_CFG_INTERVAL, 1)]), (R.FT_GRP_MASK_W0 3, 1)]
    ft := { Ft.reset with grps := [(3, { Grp.idle with flight := k })] }
    yk := yk600 }
/-- A checkpoint whose records all but one, or all, are written. -/
def flightOf (n : Nat) : CkFlight := { num := 0, shadow := (List.range n).map (fun i => (i, zeros 640)), act := (List.range 16).map (fun i => (i, 0)) }

theorem witness_Groups :
    (let s := grpS 1 [] none
     s.rb (R.FT_GRP_CFG 3) F.FT_GRP_CFG_EN = true ∧ (s.grp 3).flight = none ∧ s.rf (R.FT_GRP_CFG 3) F.FT_GRP_CFG_INTERVAL ≠ 0 ∧
       (s.grp 3).lastAt + 500 * s.rf (R.FT_GRP_CFG 3) F.FT_GRP_CFG_INTERVAL ≤ s.now ∧ s.ft.run = none ∧ (grpS 0 [] none).rb (R.FT_GRP_CFG 3) F.FT_GRP_CFG_EN = false) ∧
    (∀ n ∈ [(1 : Nat), 2], let s := grpS 1 [] (some (flightOf n))
     (s.grp 3).flight = some (flightOf n) ∧ (flightOf n).shadow = (0, zeros 640) :: ((List.range (n - 1)).map (fun i => (i + 1, zeros 640))) ∧
       s.rb (R.FT_GRP_CFG 3) F.FT_GRP_CFG_MIRROR = false ∧ s.sm.repairs = [] ∧ s.smbBusy = false ∧ s.unarmed ∧ (zeros 640).length = 640 ∧
       (∀ j ∈ s.maskPes (s.grpMask 3), ∃ e ∈ (flightOf n).act, e.1 = j) ∧ (s.grp 3).more = 0) ∧
    ((grpS 1 [] (some (flightOf 0))).grp 3).flight = some (flightOf 0) ∧ (flightOf 0).shadow = [] ∧
    ((grpS 1 [(R.FT_GRP_STAT 3, F.FT_GRP_STAT_FAILED.put 0 1)] none).rb (R.FT_GRP_STAT 3) F.FT_GRP_STAT_FAILED = true ∧
      (grpS 1 [] none).rb (R.FT_GRP_STAT 3) F.FT_GRP_STAT_FAILED = false) ∧
    (F.FT_INJECT_GO.bit (0x80000031 : BitVec 32) = true ∧ F.FT_INJECT_COL.get (0x80000031 : BitVec 32) < 50 ∧ 50 ≤ F.FT_INJECT_COL.get (0x80000032 : BitVec 32) ∧
      F.FT_INJECT_GO.bit (5 : BitVec 32) = false) ∧
    (BitVec.ofNat 24 (R.FT_GRP_CFG 3)).toNat ∈ [R.FT_GRP_MASK_W0 3, R.FT_GRP_MASK_W1 3, R.FT_GRP_MASK_W2 3, R.FT_GRP_CFG 3] ∧
    (((grpS 0 [] none).store (R.FT_GRP_CFG 3) 0x80000001).grpClash = false ∧ F.FT_GRP_CFG_EN.bit (0x80000001 : BitVec 32) = true ∧
      ((grpS 1 [] none).store (R.FT_GRP_CFG 3) 1).grpClash = false ∧
      ((grpS 0 [(R.FT_GRP_CFG 4, 0x80000001), (R.FT_GRP_MASK_W0 4, 1)] none).store (R.FT_GRP_CFG 3) 0x80000001).grpClash = true) ∧
    ((resetting 0 0).blkHeld 20 = true ∧ State.reset.blkHeld 20 = false ∧ (ftS 1 [] (ftRun (recOf 5 [] none false))).ft.run.isSome = true) := by
  dsimp only [State.unarmed]
  refine ⟨?_, ?_, ?_, rfl, ?_, ?_, ?_, ?_, ?_⟩ <;> decide +kernel

/-! Power, reset and clocks (O56 to O58) -/

/-- The reset controller before anything is asked of it, with some registers, its own state and the OTP row's. -/
def calm : Rs := { State.reset.rs with optRun := false }
def rsS (regs : List (Nat × Word)) (rs : Rs) (ot : Ot) : State := { State.reset with regs := regs, rs := rs, ot := ot }
/-- The system watchdog counts, with a limit of `n` ms, at YK_TIME `at_`. -/
def rsDog (n at_ : Nat) : State :=
  { rsS [(R.RS_WDT_CFG, bits [(F.RS_WDT_CFG_EN, 1), (F.RS_WDT_CFG_LIMIT, n)])] calm Ot.reset with yk := { Yoke.reset with time := at_ } }
/-- The latched mode. -/
def modeS (m : Nat) : State := rsS [(R.GL_STAT, F.GL_STAT_MODE.put 0 m)] calm Ot.reset
/-- A write of RS_CTRL with its key. -/
def rsKey (l : List (Fld × Nat)) : Word := bits ((F.RS_CTRL_KEY, 0x5253) :: l)
/-- A sequence under way with sources held. -/
def seqOf (reach n : Nat) (half : Bool) : RsSeq := { reach := reach, step := n, half := half, code := 10, detail := 0 }
def seqS (q : RsSeq) (held : List Nat) (regs : List (Nat × Word)) : State := rsS regs { calm with seq := some q, held := held } Ot.reset
/-- CFG_GO and ARRAY_GO are set. -/
def goRegs : List (Nat × Word) := [(R.CC_BOOT, bits [(F.CC_BOOT_CFG_GO, 1), (F.CC_BOOT_ARRAY_GO, 1)])]
/-- Domain `d` in a state, a domain command under way. -/
def domS (d st : Nat) (rs : Rs) (more : List (Nat × Word)) : State :=
  { rsS (more ++ [(R.PW_DOM_STAT d, w32 st), (R.GL_STAT, 1)]) rs Ot.reset with yk := yk600 }
/-- A write of PW_DOM_CMD. -/
def domW (op d : Nat) : Word := bits [(F.PW_DOM_CMD_GO, 1), (F.PW_DOM_CMD_OP, op), (F.PW_DOM_CMD_DOM, d)]
/-- The clock controller's registers. -/
def ckS (l : List (Fld × Nat)) (frozen : Nat) (relock : Bool) : State :=
  rsS [(R.CK_STAT, bits l), (R.AR_CTRL, F.AR_CTRL_FROZEN.put 0 frozen)] { calm with relock := relock } Ot.reset
/-- A local memory access of row 2's tiles waits. -/
def lmHeld : State :=
  { domS 3 3 { calm with dom := some (3, false, 200) } [] with
    arr := { Arr.reset with lmWait := [{ pkt := { pkt with dstX := 1, dstY := 2 }, time := 0 }] } }

theorem witness_ResetSources :
    (∀ m ∈ [(0 : Nat), 1], let s := modeS m
     s.rs.seq = none ∧ s.rs.held = [] ∧ s.rs.deferred = [] ∧ s.ot.run = none ∧ s.rs.optRun = false ∧ s.qvMode = (m == 1)) ∧
    (F.RS_CTRL_KEY.get (rsKey [(F.RS_CTRL_WARM, 1)]) = 0x5253 ∧ F.RS_CTRL_WARM.bit (rsKey [(F.RS_CTRL_WARM, 1)]) = true ∧
      F.RS_CTRL_RUN.bit (rsKey [(F.RS_CTRL_WARM, 1)]) = false ∧ F.RS_CTRL_KEY.get (rsKey [(F.RS_CTRL_RUN, 1)]) = 0x5253 ∧
      F.RS_CTRL_WARM.bit (rsKey [(F.RS_CTRL_RUN, 1)]) = false ∧ F.RS_CTRL_RUN.bit (rsKey [(F.RS_CTRL_RUN, 1)]) = true ∧ F.RS_CTRL_KEY.get (3 : Word) ≠ 0x5253) ∧
    (let s := rsDog 1 500000; s.rsCounts = true ∧ s.rsLeft = 0 ∧ s.rs.seq = none) ∧
    (let s := rsDog 1 499999; s.rsCounts = true ∧ 0 < s.rsLeft ∧ 2 * s.rsLeft ≤ s.rsLimit) ∧
    (let s := rsDog 1 249999; s.rsLimit < 2 * s.rsLeft) ∧ (modeS 1).rsCounts = false ∧
    (1000 ≤ sext 16 (1000 : BitVec 16).toNat ∧ sext 16 (999 : BitVec 16).toNat < 1000 ∧ sext 16 (919 : BitVec 16).toNat < 920 ∧ 920 ≤ sext 16 (920 : BitVec 16).toNat) ∧
    ({ modeS 1 with ot := otRun [(128, 0)] .prog } : State).ot.run = some { left := [(128, 0)], done := [], why := .prog } ∧
    (F.RS_WDT_KICK_KEY.get (0xC3C3 : Word) = 0xC3C3 ∧ F.RS_WDT_KICK_KEY.get (0xC3C2 : Word) ≠ 0xC3C3) ∧
    (let s := rsS [(R.PW_THERM, 100), (R.PW_TEMP, 799)] calm Ot.reset
     let w := 8 * (s.rf R.PW_THERM F.PW_THERM_WARN : Int)
     sext 16 (s.rf R.PW_TEMP F.PW_TEMP_TJ) < w ∧ w ≤ sext 16 (800 : BitVec 16).toNat ∧ sext 16 (799 : BitVec 16).toNat < w) ∧
    (let s := rsS [(R.PW_THERM, 100), (R.PW_TEMP, 800)] calm Ot.reset
     8 * (s.rf R.PW_THERM F.PW_THERM_WARN : Int) ≤ sext 16 (s.rf R.PW_TEMP F.PW_TEMP_TJ)) := by
  refine ⟨?_, ?_, ?_, ?_, ?_, ?_, ?_, ?_, ?_, ?_, ?_⟩ <;> decide +kernel

theorem witness_ResetSteps :
    (∀ e ∈ [((0 : Nat), (0 : Nat), (1 : Nat)), (0, 9, 10), (1, 0, 3), (1, 6, 7), (2, 0, 3), (2, 9, 10)], let s := seqS (seqOf e.1 e.2.1 false) [] goRegs
     s.rs.seq = some (seqOf e.1 e.2.1 false) ∧ (seqOf e.1 e.2.1 false).next = some e.2.2 ∧ (seqOf e.1 e.2.1 false).reach ≤ 2 ∧ s.stepReady e.2.2 = true ∧ s.rs.held = []) ∧
    ((seqS (seqOf 1 6 false) [] []).stepReady 7 = false ∧ (seqOf 1 6 false).next = some 7) ∧
    (0 ∈ (seqS (seqOf 0 3 false) [2] []).rs.held.map codeReach ∧ 1 ∈ (seqS (seqOf 0 3 false) [8] []).rs.held.map codeReach ∧ stepIn 1 4 = true) ∧
    (2 ∈ (seqS (seqOf 2 0 false) [19] []).rs.held.map codeReach ∧ stepIn 2 3 = true ∧ (seqOf 2 0 false).next = some 3 ∧ (seqOf 2 0 false).reach = 2) ∧
    (let s := seqS (seqOf 1 0 true) [19] []; 2 ∈ s.rs.held.map codeReach ∧ (seqOf 1 0 true).next = some 3 ∧ (seqOf 1 0 true).half = true) ∧
    (let s := seqS (seqOf 1 0 false) [19] []; let h := s.rs.held.map codeReach
     (seqOf 1 0 false).next = some 3 ∧ (seqOf 1 0 false).reach < 2 ∧ (seqOf 1 0 false).half = false ∧ s.stepReady 3 = true ∧ 0 ∉ h ∧ 1 ∉ h ∧ 2 ∈ h) ∧
    ((seqOf 1 5 false).next = some 6 ∧ (seqOf 0 1 false).next = some 2 ∧ (seqS (seqOf 1 5 false) [] []).stepReady 6 = true ∧ (seqS (seqOf 0 1 false) [] []).stepReady 2 = true) ∧
    (let s := rsS [] { calm with optRun := true } Ot.reset; s.rs.optRun = true ∧ calm.optRun = false) := by
  refine ⟨?_, ?_, ?_, ?_, ?_, ?_, ?_, ?_⟩ <;> decide +kernel

theorem witness_DomainsAndClocks :
    (∀ e ∈ [((1 : Nat), (14 : Nat)), (2, 14), (1, 16), (1, 3), (2, 12), (1, 17), (2, 1)], F.PW_DOM_CMD_GO.bit (domW e.1 e.2) = true ∧
      F.PW_DOM_CMD_OP.get (domW e.1 e.2) = e.1 ∧ F.PW_DOM_CMD_DOM.get (domW e.1 e.2) = e.2) ∧
    (F.PW_DOM_CMD_GO.bit (3 : Word) = false ∧ F.PW_DOM_CMD_OP.get (domW 2 14) ≠ 1 ∧ F.PW_DOM_CMD_OP.get (domW 1 14) ≠ 2) ∧
    (let s := domS 14 2 calm []; s.rs.domWait = none ∧ s.rs.dom = none ∧ s.rf R.FT_STAT F.FT_STAT_STATE = 0 ∧ s.domRefusal 14 false = none ∧ s.domRefusal 14 true = some 2 ∧
      s.domState 14 = 2 ∧ s.domRefusal 1 false = some 1) ∧
    (let s := domS 14 2 calm [(R.FT_STAT, 1)]; s.rf R.FT_STAT F.FT_STAT_STATE ≠ 0 ∧ s.rs.domWait = none) ∧
    ((domS 14 2 { calm with domWait := some 3 } []).rs.domWait.isSome = true ∧ (domS 14 2 { calm with dom := some (3, true, 9) } []).rs.dom.isSome = true) ∧
    (let s := domS 14 0 calm []; s.domRefusal 14 true = none ∧ s.domState 14 = 0 ∧ s.domState 14 ≠ 2) ∧
    (let s := domS 16 2 calm [(R.YK_AX_CFG 3, F.YK_AX_CFG_EN.put 0 1)]; s.domState 16 = 2 ∧ s.rs.dom = none ∧ s.rs.domWait = none ∧ s.anyAxis = true) ∧
    (let s := domS 3 3 { calm with dom := some (3, false, 200) } []; s.rs.dom = some (3, false, 200) ∧ s.domState 3 = 3 ∧ s.domOpenReqs 3 = []) ∧
    (lmHeld.rs.dom = some (3, false, 200) ∧ lmHeld.domState 3 = 3 ∧ lmHeld.domOpenReqs 3 ≠ [] ∧ lmHeld.now < 200 + 2000) ∧
    (∀ d ∈ [(3 : Nat), 14, 16], let s := domS d 5 { calm with dom := some (d, false, 100) } []
     s.rs.dom = some (d, false, 100) ∧ s.domState d = 5 ∧ 100 + 500 ≤ s.now) ∧
    ((domS 14 3 { calm with dom := some (14, false, 100) } []).domState 14 ≠ 5 ∧ (domS 14 5 { calm with dom := some (14, false, 101) } []).now < 101 + 500) ∧
    (∀ d ∈ [(14 : Nat), 16], (domS d 1 { calm with dom := some (d, true, 100) } []).rs.dom = some (d, true, 100)) ∧
    (∀ d ∈ [(2 : Nat), 9], let s := domS d 1 { calm with dom := some (d, true, 100) } []
     let u : State := { s with sm := { s.sm with fills := [{ ranges := [], dom := some d }] } }
     s.rs.dom = some (d, true, 100) ∧ s.sm.fills.all (fun f => f.dom != some d) = true ∧
       u.rs.dom = some (d, true, 100) ∧ u.sm.fills.any (fun f => f.dom == some d) = true) ∧
    ((ckS [(F.CK_STAT_HOLDOVER, 1), (F.CK_STAT_GRADE, 1)] 1 true).rb R.CK_STAT F.CK_STAT_HOLDOVER = true ∧ (ckS [] 0 false).rb R.CK_STAT F.CK_STAT_HOLDOVER = false) ∧
    (let s := ckS [(F.CK_STAT_GRADE, 1)] 1 true
     s.rb R.AR_CTRL F.AR_CTRL_FROZEN = true ∧ s.rb R.CK_STAT F.CK_STAT_GRADE = true ∧ s.rs.relock = true ∧ s.rb R.CK_STAT F.CK_STAT_ACLK_LOCK = false ∧
       F.CK_ACLK_N.get (10 : Word) = 10 ∧ F.CK_ACLK_N.get (25 : Word) = 25 ∧ F.CK_ACLK_N.get (20 : Word) ≤ 20 ∧ ¬ 10 ≤ F.CK_ACLK_N.get (9 : Word)) ∧
    ((ckS [] 0 false).rb R.AR_CTRL F.AR_CTRL_FROZEN = false ∧ (ckS [] 0 false).rs.relock = false ∧ (ckS [(F.CK_STAT_ACLK_LOCK, 1)] 0 false).rb R.CK_STAT F.CK_STAT_ACLK_LOCK = true) := by
  refine ⟨?_, ?_, ?_, ?_, ?_, ?_, ?_, ?_, ?_, ?_, ?_, ?_, ?_, ?_, ?_, ?_⟩ <;> decide +kernel

/-! The HX bus unit (O59 and O60) -/

/-- The HX unit live, in HX mode (0) or QV mode (1), with view registers, other registers and its own state. -/
def hxS (mode : Nat) (view : List (Nat × Nat)) (more : List (Nat × Word)) (h : Hx) : State :=
  { State.reset with regs := more ++ view.map (fun e => (R.HX_MAP e.1, w32 e.2)) ++ [(R.GL_STAT, F.GL_STAT_MODE.put 0 mode)], hx := h }
/-- Programming at a point of its course. -/
def hxProg (p : ProgState) (stream : List (BitVec 16)) : Hx := { Hx.idle with prog := p, stream := stream }
/-- The timer runs on axis 0. -/
def hxRuns (x : Nat) (more : List (Nat × Word)) : State :=
  hxS 0 [(2, 1), (0x10, x)] (more ++ [(R.YK_AX_CFG 0, bits [(F.YK_AX_CFG_EN, 1), (F.YK_AX_CFG_SRC, 1)])]) Hx.idle
/-- Mixed use over the partner queue pair 5 and 6. -/
def mixQ (l : List Token) : State :=
  { hxS 1 [(2, 2)] [(R.FB_REL_STAT, 3), (R.HX_MIX_CFG, bits [(F.HX_MIX_CFG_EN, 1), (F.HX_MIX_CFG_PATH, 1), (F.HX_MIX_CFG_AXIS, 3)]),
      (R.HX_MIX_Q, bits [(F.HX_MIX_Q_Q_REQ, 5), (F.HX_MIX_Q_Q_RSP, 6), (F.HX_MIX_Q_CHAN, 2)]),
      (R.SQ_Q_CFG 5, bits [(F.SQ_Q_CFG_EN, 1), (F.SQ_Q_CFG_SIZE, 12)]), (R.SQ_Q_CFG 6, bits [(F.SQ_Q_CFG_EN, 1), (F.SQ_Q_CFG_SIZE, 12)]),
      (R.SQ_Q_BIND 5, bits [(F.SQ_Q_BIND_CONS_KIND, 5), (F.SQ_Q_BIND_CONS_ID, 2)]),
      (R.SQ_Q_BIND 6, bits [(F.SQ_Q_BIND_PROD_KIND, 5), (F.SQ_Q_BIND_PROD_ID, 3)])] Hx.idle with
    qs := [(5, qWith l)] }

theorem witness_HxView_bus :
    ((hxS 1 [] [] Hx.idle).hxOnBalls = false ∧ (hxS 0 [] [] { Hx.idle with live := false }).hxServes = false) ∧
    (let s := hxS 0 [] [] Hx.idle
     s.hxOnBalls = true ∧ s.hxServes = true ∧ hxHiOf 0x13 = some 0x14 ∧ hxHiOf 0x40 = some 0x41 ∧ hxHiOf 0xFF = none ∧ hxHiOf 2 = none ∧ s.hx.latch = [] ∧ s.hx.buf = [] ∧
       s.hx.held = none ∧ hxWaiting s.hx.latch 8 = none ∧ hxWaiting s.hx.latch 3 = none ∧ hxWaiting s.hx.latch 4 = none ∧ hxHiOf 8 = none) ∧
    (let s := hxS 0 [] [] { Hx.idle with latch := [(0x14, 7)], buf := List.replicate 8 (0x14, 9), held := none }
     s.hxOnBalls = true ∧ hxHiOf 0x14 = none ∧ hxWaiting s.hx.latch 0x14 = some 7 ∧ 8 ≤ s.hx.buf.length ∧ s.hx.held = none ∧
       s.hx.buf = (0x14, 9) :: List.replicate 7 (0x14, 9)) ∧
    ((hxS 0 [] [] { Hx.idle with buf := [(2, 1)], held := some (3, 3) }).hx.held ≠ none) ∧
    (∀ i ∈ [(2 : Nat), 0x10, 0x16, 0xF], ({ Hx.idle with buf := [(i, 1)] } : Hx).buf = (i, 1) :: []) := by
  refine ⟨?_, ?_, ?_, ?_, ?_⟩ <;> decide +kernel

theorem witness_HxView_timer :
    (let s := hxS 0 [(0x10, 4), (0x13, 5)] [] Hx.idle
     s.hxServes = true ∧ (s.hv 2).testBit 0 = false ∧ s.rb (R.YK_AX_CFG s.hxParm.axis) F.YK_AX_CFG_EN = false ∧
       s.axCfgBad s.hxParm.axis (w32 (1 + 16 * b2n (s.hxMod != 0) + 32 * (s.hv 0x10 % 2) + 64 * (s.hv 0x10 / 2 % 4) + 0x80000000)) = false) ∧
    (let s := hxS 0 [(0x16, 5)] [] Hx.idle
     s.hxServes = true ∧ (s.hv 2).testBit 0 = false ∧
       s.axCfgBad s.hxParm.axis (w32 (1 + 16 * b2n (s.hxMod != 0) + 32 * (s.hv 0x10 % 2) + 64 * (s.hv 0x10 / 2 % 4) + 0x80000000)) = true) ∧
    (let s := hxRuns 0 []; s.hxServes = true ∧ (s.hv 2).testBit 0 = true ∧ (s.hxMod = 0) ∧ s.now = 0) ∧
    ((0 : BitVec 16).toNat.testBit 0 = false ∧ (1 : BitVec 16).toNat.testBit 0 = true ∧ (6 : BitVec 16).toNat / 2 % 4 = 3 ∧ (4 : BitVec 16).toNat / 2 % 4 ≠ 3) ∧
    (let s := hxS 0 [] [] Hx.idle
     (hxWaiting s.hx.stage 0x17).getD (s.hv 0x17) = 0 ∧ (hxWaiting s.hx.stage 0x41).getD (s.hv 0x41) < 0x10000 ∧ 0 < (1 : BitVec 16).toNat ∧ (255 : BitVec 16).toNat < 256 ∧
       256 ≤ (256 : BitVec 16).toNat ∧ s.hxMod = 0) ∧
    (∀ n ∈ [(32 : Nat)], let s := { hxRuns 0 [] with yk := { Yoke.reset with time := n } }; s.now ≠ 0 ∧ (s.now - 1) * 4 / 125 ≠ s.now * 4 / 125) ∧
    (let s := { hxRuns 0 [] with yk := { Yoke.reset with time := 31 } }; s.now ≠ 0 ∧ (s.now - 1) * 4 / 125 = s.now * 4 / 125) := by
  refine ⟨?_, ?_, ?_, ?_, ?_, ?_, ?_⟩ <;> decide +kernel

theorem witness_HxProgramming_stream :
    ((hxS 0 [] [] { Hx.idle with live := false }).qvMode = false ∧ ({ Hx.idle with live := false } : Hx).live = false) ∧
    (∀ u ∈ [false, true], ∀ p ∈ [ProgState.idle, .receiving, .translating, .writing], let s := hxS 0 [] [] { hxProg p [7] with unlock := u }
     s.qvMode = false ∧ s.hx.live = true ∧ s.hx.unlock = u ∧ s.hx.prog = p ∧ s.hx.jtag = false ∧ s.hx.stream.length < 0x80000 ∧
       s.hx.prog.busy = (p != .idle)) ∧
    (hxProg .receiving (List.replicate 0x80000 7)).stream.length = 0x80000 ∧
    (let s := hxS 0 [] [(R.OT_STAT, F.OT_STAT_RDP.put 0 1)] (hxProg .receiving [7]); s.progCheck = .inl 3 ∧ s.qvMode = false ∧ s.hx.live = true) ∧
    (let s := hxS 1 [] [(R.HX_MIX_CFG, 1)] Hx.idle; s.qvMode = true ∧ s.hxServes = true) ∧
    (let s := hxS 0 [] [] { Hx.idle with rptAt := 0x7FFF }; s.hxServes = true ∧ s.hx.rptAt < 0x8000 ∧ s.flRead (0x31F0000 + 2 * s.hx.rptAt) 2 = (s, [0xFF, 0xFF], true)) ∧
    0x8000 ≤ ({ Hx.idle with rptAt := 0x8000 } : Hx).rptAt ∧
    (let s := hxS 0 [] [] { hxProg .writing [] with image := [1], report := [2] }
     s.hx.prog = .writing ∧ s.hx.live = true ∧ s.rs.seq = none ∧ s.rs.held = [] ∧ s.rs.deferred = [] ∧ s.ot.run = none ∧ s.hx.image.length ≤ 0x1F0000 ∧ s.hx.report.length ≤ 0x10000) ∧
    (let s := hxS 0 [] [(R.OT_STAT, F.OT_STAT_RDP.put 0 1)] Hx.idle
     s.qvMode = false ∧ s.hx.live = true ∧ s.hx.prog.busy = false ∧ [(5 : BitVec 16)].length ≤ 0x80000 ∧
       ({ s with hx := { s.hx with prog := .receiving, result := 0, stream := [5], jtag := true } } : State).progCheck = .inl 3) := by
  refine ⟨?_, ?_, List.length_replicate, ?_, ?_, ?_, ?_, ?_, ?_⟩ <;> decide +kernel

/-- A stream that passes its check, and one whose design fits: the check and the translation are not computed (log entry 131). -/
theorem witness_HxProgramming_open :
    (∀ l : List (BitVec 16), Config.hxCrcOk l = true → let s := hxS 0 [] [(R.OT_STAT, 0)] (hxProg .receiving l)
     s.progCheck = .inr l ∧ s.qvMode = false ∧ s.hx.live = true ∧ s.hx.jtag = false) ∧
    (∀ l : List (BitVec 16), let s := hxS 0 [] [] (hxProg .translating l)
     s.hx.prog = .translating ∧ s.hx.live = true ∧ (¬ (Config.hxFits s.hx.stream = true ∧ Config.hxFrames s.hx.stream ≤ 2000) →
       Config.hxFits s.hx.stream = false ∨ 2000 < Config.hxFrames s.hx.stream)) := by
  have hr : (hxS 0 [] [(R.OT_STAT, 0)] Hx.idle).rdp = 0 ∧ (hxS 0 [] [(R.OT_STAT, 0)] Hx.idle).qvMode = false := by decide +kernel
  refine ⟨fun l h => ⟨?_, hr.2, rfl, rfl⟩, fun l => ⟨rfl, rfl, fun h => ?_⟩⟩
  · have hr' : (hxS 0 [] [(R.OT_STAT, 0)] (hxProg .receiving l)).rdp = 0 := hr.1
    show State.progCheck _ = _
    simp only [State.progCheck, hr']
    show (if Config.hxCrcOk l = true then _ else _) = _
    exact if_pos h
  · cases hf : Config.hxFits (hxS 0 [] [] (hxProg .translating l)).hx.stream
    · exact .inl rfl
    · exact .inr (Nat.lt_of_not_le (fun hl => h ⟨hf, hl⟩))

theorem witness_HxProgramming_mixed :
    (let s := hxS 1 [] [] Hx.idle; s.qvMode = true ∧ s.cg.part = none ∧ s.rb R.HX_MIX_CFG F.HX_MIX_CFG_EN = false ∧ F.HX_MIX_CFG_EN.bit (1 : Word) = true ∧
      F.HX_MIX_CFG_PATH.bit (1 : Word) = false ∧ F.HX_MIX_CFG_PATH.bit (3 : Word) = true ∧ F.HX_MIX_CFG_EN.bit (3 : Word) = true) ∧
    (hxS 0 [] [] Hx.idle).qvMode = false ∧
    (∀ e ∈ [((0 : Nat), (false : Bool)), (0xFFFFFFFF, true)], let s := hxS 1 [] [(R.HI_RSV_WIN, w32 e.1), (R.HX_MIX_Q, bits [(F.HX_MIX_Q_LAT, 1), (F.HX_MIX_Q_Q_RSP, 6)]), (R.HI_PT 0, 1)] Hx.idle
     decide ((s.rsvAdmit (F.HI_RSV_REQ_LAT.put (F.HI_RSV_REQ_QUEUE.put 0 (F.HX_MIX_Q_Q_RSP.get (s.rg R.HX_MIX_Q))) (F.HX_MIX_Q_LAT.get (s.rg R.HX_MIX_Q))) 1).2.toNat % 4 = 0) = e.2) ∧
    (∀ x ∈ [(2 : Nat), 0x50210, 0x60210], let t := Token.word (w32 x) true; let s := mixQ [t, tok 9 true]
     s.qvMode = true ∧ s.hxServes = true ∧ s.rb R.HX_MIX_CFG F.HX_MIX_CFG_PATH = true ∧ s.hxBound 5 6 = true ∧ s.qTakes 6 = true ∧ s.qHead 5 = some t ∧ (s.qu 5).marker = false ∧
       (s.qu 5).ents = t :: [tok 9 true] ∧ (s.qu 5).held = [] ∧ (s.qu 5).plain ∧ (s.qu 6).plain ∧ t.data.toNat.testBit 9 = (x != 2) ∧
       hxWaiting s.hx.latch 2 = none ∧ s.hx.buf = [] ∧ hxWaiting s.hx.stage 2 = none ∧ F.HX_MIX_Q_Q_REQ.get (s.rg R.HX_MIX_Q) = 5 ∧ F.HX_MIX_Q_Q_RSP.get (s.rg R.HX_MIX_Q) = 6) ∧
    (mixQ []).qHead 5 = none ∧
    ((resetting 0 0).blkHeld 21 = true ∧ State.reset.blkHeld 21 = false ∧ (hxS 1 [] [] Hx.idle).blkHeld 21 = false ∧ (hxS 1 [] [] Hx.idle).hxParm.on = false ∧
      (hxS 0 [] [] Hx.idle).blkHeld 21 = false) := by
  dsimp only [Queue.plain]
  refine ⟨?_, ?_, ?_, ?_, ?_, ?_⟩ <;> decide +kernel

/-! Steps and values worked out in the spec -/

/-- A Pleat of an operation with modifiers. -/
def pleatOp (op mods : Nat) : Pleat := Pleat.ofNat (op + 64 * mods + 0x80000000)

/-- The defect filter of the Array chapter (worked example after Table AR-14): ABSD4, CMP GT 40 and POPC on word 300. -/
theorem test_defect_filter :
    aluAbsd4 0x6264A0A6 0xA4A4A4A4 = 0x42400402 ∧ (aluCmp (pleatOp 0x11 0x8A) PeFlags.zero 0x42400402 0x28282828).r = 0xFFFF0000 ∧
    aluPopc (pleatOp 0x18 0x08) 0xFFFF0000 = 2 := by decide +kernel

/-- The P2 word of PE(0,8) (Table PL-8): SUB with SAT, A the W FIFO fed by west port 8, B p0, out to the east, p0 = 2,048. -/
theorem test_pleat_word :
    let q := Pleat.ofNat (0x8060C043 + 2 ^ 64 * 0x800 + 2 ^ 96 * 2 + 2 ^ 192 * 0x800)
    q.v = true ∧ q.op = 3 ∧ q.mods = 1 ∧ q.srcA = 3 ∧ q.srcB = 12 ∧ q.feed = [0, 0, 0, 4] ∧ q.dSide = 2 ∧ q.p0 = 2048 ∧ q.junk = false := by decide +kernel

/-- The 512 B write of the network chapter (Table NW-6): words 0 and 1 of its header when injected, past N(0,0) and after its turn. -/
theorem test_header_words :
    let p : Packet := { pkt with dstX := 9, dstY := 6, dstPort := 0, srcX := 1, srcY := 0, srcPort := 0, dirx := true, diry := false, dl := false, cmd := 2,
                                 tag := 0x5A, len := 16, urg := 8, age := 0 }
    p.body % 2 ^ 64 = 0x08405A0208001069 ∧ ({ p with dl := true } : Packet).body % 2 ^ 32 = 0x0C001069 ∧
    ({ p with diry := true } : Packet).body % 2 ^ 32 = 0x18001069 := by decide +kernel

/-- The upset of the stream memory chapter: bit 63 alone, bit 62 alone, both, and a poisoned word (R228, R230). -/
theorem test_syndromes :
    checkByte (2 ^ 63) = 0x57 ∧ checkByte (2 ^ 62) = 0x4F ∧ eccClassOf 0x57 0 = .corrected 63 ∧ eccClassOf 0x4F 0 = .corrected 62 ∧
    eccClassOf (0x57 ^^^ 0x4F) 0 = .uncorrectable ∧ eccClassOf 0xFF 0 = .poison ∧ eccClassOf 0 5 = .good := by decide +kernel

/-- Table RS-7: a Run sequence held by PERST#, then the system watchdog: the union is a Warm reset of cause 9. -/
theorem test_union_of_resets :
    (execPerst (modeS 1) matches .next _) = true ∧ firstCause [(19, 0)] (9, 0) = (9, 0) ∧ [codeReach 19, codeReach 9].foldl min 2 = 1 ∧
    w32 (9 + 64 * codeReach 9) = 0x49 := by decide +kernel

/-- The reject gate on the HX grid: ticks at YCLK 1,000,000, and the Cuff edge placed two ticks and 384 taps after the next boundary (R471, R474). -/
theorem test_hx_grid :
    let s := { hxS 0 [] [(R.HX_CFG, 1)] Hx.idle with yk := { Yoke.reset with time := 1000000 } }
    s.hxTicks = 32000 ∧ s.hxPace 3 128000040 = 128012384 ∧ s.hxPace 16 128000040 = 128000040 := by decide +kernel

/-- Table SQ-4: the flush of a queue mid-item discards what it holds; the marker comes next, and the rest of the item is swallowed. -/
theorem test_flush_mid_item :
    let s := q5 [] { qWith [tok 1 false, tok 2 true, tok 3 false, tok 4 false] with items := 2, consMid := true, prodMid := true }
    let t := s.flushQ 5
    (t.qu 5).ents = [] ∧ (t.qu 5).items = 0 ∧ (t.qu 5).flushing = true ∧ (t.qu 5).swallow = true ∧
    (match t.qHead 5 with | some m => m.data == 0 && m.last && m.err | none => false) = true := by decide +kernel

/-- The observer's velocity of the press at 12 m/s, 0.0016 count per YCLK: a mark 0.05 counts ahead is crossed 31.25 YCLK later (R62). -/
theorem test_prediction :
    predict 0 true { BusAxis.idle with vel := 0x68DB8C } 3277 = some 4000 := by decide +kernel

end Sys2Proof.Tests
end

section
/-! SUPPORT. What the reset state holds (R6): a register reads its reset value, a record of a block is the idle one; and the reset value of a
register by the descriptors of its register map. -/

namespace Sys2Proof.Machine

/-! The reads of the reset state -/

@[simp] theorem State.rg_reset (a : Nat) : State.reset.rg a = regReset a := rfl
@[simp] theorem State.rf_reset (a : Nat) (f : Fld) : State.reset.rf a f = f.get (regReset a) := rfl
@[simp] theorem State.rb_reset (a : Nat) (f : Fld) : State.reset.rb a f = f.bit (regReset a) := rfl
@[simp] theorem State.now_reset : State.reset.now = 0 := rfl
@[simp] theorem State.ax_reset (n : Nat) : State.reset.ax n = Axis.idle := rfl
@[simp] theorem State.mark_reset (n : Nat) : State.reset.mark n = Mark.idle := rfl
@[simp] theorem State.pe_reset (i : Nat) : State.reset.pe i = Pe.idle := rfl
@[simp] theorem State.qu_reset (q : Nat) : State.reset.qu q = Queue.empty := rfl

/-! Reset values from the register maps -/

/-- The descriptor found for an offset is one of its block's map and has the offset. -/
theorem mem_and_has_of_findReg {a : Nat} {d : RegDesc} (h : findReg a = some d) : d ∈ regTabOf a ∧ d.has a = true :=
  ⟨List.mem_of_find?_eq_some h, List.find?_some (p := fun e : RegDesc => e.has a) h⟩

/-- A register that stands alone (no array) has one offset, its base. -/
theorem RegDesc.base_eq_of_has {d : RegDesc} {a : Nat} (h0 : d.n0 = 1) (h1 : d.s1 = 0) (h : d.has a = true) : d.base = a := by
  rw [RegDesc.has, if_pos h1, if_pos h0] at h
  split at h
  · cases h
  · exact (beq_iff_eq.mp h).symm

/-- From the Yoke's block to the queues' no element of a register has a reset value of its own: the map's descriptor gives it (R6). -/
theorem regReset_of_map {a : Nat} (hlo : R.YK_ID ≤ a) (hhi : a < 0x340000) :
    regReset a = (findReg a).elim 0 (fun d => w32 d.rst) := by
  have hlo : 0x10000 ≤ a := hlo
  unfold regReset
  iterate 5 rw [if_neg (by omega)]
  iterate 6 rw [if_neg (by simp only [R.RS_CAUSE, R.CK_STAT, R.GL_STAT, R.OT_STAT, R.OT_UID, R.SC_TP_CHAL]; omega)]
  cases findReg a <;> rfl

/-- An offset resets to 0 when, in its block's map, every register that resets to anything else is a single one below a bound that the
offset reaches. -/
theorem regReset_eq_zero {a bound : Nat} {tab : List RegDesc} (hlo : R.YK_ID ≤ a) (hhi : a < 0x340000) (htab : regTabOf a = tab)
    (hbelow : ∀ d ∈ tab, d.rst ≠ 0 → d.n0 = 1 ∧ d.s1 = 0 ∧ d.base < bound) (ha : bound ≤ a) : regReset a = 0 := by
  rw [regReset_of_map hlo hhi]
  cases hf : findReg a with
  | none => rfl
  | some d =>
    obtain ⟨hmem, hhas⟩ := mem_and_has_of_findReg hf
    have hrst : d.rst = 0 := Decidable.byContradiction fun hne => by
      obtain ⟨h0, h1, hbase⟩ := hbelow d (htab ▸ hmem) hne
      have hsame : d.base = a := RegDesc.base_eq_of_has h0 h1 hhas
      omega
    show w32 d.rst = 0
    rw [hrst]; rfl

theorem regTabOf_mk {a : Nat} (hlo : R.MK_ID ≤ a) (hhi : a < R.CF_ID) : regTabOf a = regTabMK := by
  simp only [R.MK_ID, R.CF_ID] at hlo hhi
  unfold regTabOf
  iterate 3 rw [if_neg (by omega)]
  exact if_pos hhi

theorem regTabOf_cf {a : Nat} (hlo : R.CF_ID ≤ a) (hhi : a < R.AR_ID) : regTabOf a = regTabCF := by
  simp only [R.CF_ID, R.AR_ID] at hlo hhi
  unfold regTabOf
  iterate 4 rw [if_neg (by omega)]
  exact if_pos hhi

/-- In the marks' map only MK_ID, which lies below the table of marks, resets to anything but 0. -/
theorem regReset_MK_ENT_CTL {n : Nat} (hn : n < 1024) : regReset (R.MK_ENT_CTL n) = 0 := by
  have ha : R.MK_ENT_CTL n = 0x28000 + 0x20 * n := rfl
  have htab : regTabOf (R.MK_ENT_CTL n) = regTabMK := regTabOf_mk (by rw [R.MK_ID]; omega) (by rw [R.CF_ID]; omega)
  exact regReset_eq_zero (bound := R.MK_ENT_CTL 0) (by rw [R.YK_ID]; omega) (by omega) htab (by decide) (by rw [R.MK_ENT_CTL]; omega)

/-- In the Cuffs' map only CF_ID and CF_TAP_CAL, which lie below the Cuffs' configurations, reset to anything but 0. -/
theorem regReset_CF_CFG {n : Nat} (hn : n < 128) : regReset (R.CF_CFG n) = 0 := by
  have ha : R.CF_CFG n = 0x40100 + 4 * n := rfl
  have htab : regTabOf (R.CF_CFG n) = regTabCF := regTabOf_cf (by rw [R.CF_ID]; omega) (by rw [R.AR_ID]; omega)
  exact regReset_eq_zero (bound := R.CF_CFG 0) (by rw [R.YK_ID]; omega) (by omega) htab (by decide) (by rw [R.CF_CFG]; omega)

/-! Single registers and arrays of eight: read off their maps -/

theorem regReset_ids : regReset R.YK_ID = 0x802 ∧ regReset R.AR_ID = 0x283001 := by decide +kernel

theorem regReset_events : regReset R.YK_EVT = 0 ∧ regReset R.MK_EVT = 0 := by decide +kernel

theorem regReset_calibration : F.YK_TDC_SCALE_SCALE.get (regReset R.YK_TDC_SCALE) = 0x8000 ∧ regReset R.CF_TAP_CAL = 0x8000 := by
  decide +kernel

theorem regReset_AR_CTRL_FROZEN : F.AR_CTRL_FROZEN.bit (regReset R.AR_CTRL) = false := by decide +kernel

theorem regReset_timeouts :
    F.AR_LM_WAIT_MAX.get (regReset R.AR_LM_WAIT) = 0x1000 ∧ F.SQ_FLUSH_TMO_TMO.get (regReset R.SQ_FLUSH_TMO) = 0x10000 := by decide +kernel

theorem regReset_axis : ∀ n < 8, regReset (R.YK_AX_CFG n) = 0 ∧ regReset (R.YK_AX_LOSS_TMO n) = 0x7A120 ∧
    regReset (R.YK_AX_GAIN n) = 0x2AAB8000 ∧ regReset (R.YK_AX_HYST n) = 0x10000 := by decide +kernel

theorem regReset_SQ_SP_SYNC : ∀ p < 8, F.SQ_SP_SYNC_SYNC.get (regReset (R.SQ_SP_SYNC p)) = 0xF0A5 := by decide +kernel

theorem regReset_FB_TMR_CMP : ∀ k < 8, regReset (R.FB_TMR_CMP k) = 0xFFFFFFFF := by decide +kernel

/-! What the blocks of the reset state hold -/

theorem axis_reset {n : Nat} (hn : n < 8) :
    State.reset.rg (R.YK_AX_CFG n) = 0 ∧ State.reset.rg (R.YK_AX_LOSS_TMO n) = 0x7A120 ∧ State.reset.rg (R.YK_AX_GAIN n) = 0x2AAB8000 ∧
      State.reset.rg (R.YK_AX_HYST n) = 0x10000 ∧
      (State.reset.ax n).st = .off ∧ (State.reset.ax n).p = 0 ∧ (State.reset.ax n).v = 0 := by
  simp only [State.rg_reset, State.ax_reset]
  obtain ⟨hcfg, htmo, hgain, hhyst⟩ := regReset_axis n hn
  exact ⟨hcfg, htmo, hgain, hhyst, rfl, rfl, rfl⟩

theorem mark_table_reset {n : Nat} (hn : n < 1024) :
    State.reset.rg (R.MK_ENT_CTL n) = 0 ∧ (State.reset.mark n).fires = 0 ∧ (State.reset.mark n).inserted = false := by
  simp only [State.rg_reset, State.mark_reset]
  exact ⟨regReset_MK_ENT_CTL hn, rfl, rfl⟩

theorem cuff_owner_reset {n : Nat} (hn : n < 128) : State.reset.rf (R.CF_CFG n) F.CF_CFG_OWNER = 0 := by
  rw [State.rf_reset, regReset_CF_CFG hn]; rfl

theorem pe_fifos_reset (i : Nat) : (State.reset.pe i).n.toks = [] ∧ (State.reset.pe i).e.toks = [] ∧ (State.reset.pe i).so.toks = [] ∧
    (State.reset.pe i).w.toks = [] := by
  rw [State.pe_reset]
  exact ⟨rfl, rfl, rfl, rfl⟩

theorem queue_reset (q : Nat) : (State.reset.qu q).ents = [] := by
  rw [State.qu_reset]; rfl

/-- Settles O2: no table of the reset state lists anything, so a record is the idle one of its kind and a register reads the reset value
that its map gives. -/
theorem resetValues : Obligations.ResetValues := by
  obtain ⟨hyk, har⟩ := regReset_ids
  obtain ⟨hykEvt, hmkEvt⟩ := regReset_events
  obtain ⟨hscale, htap⟩ := regReset_calibration
  obtain ⟨hwait, hflush⟩ := regReset_timeouts
  exact ⟨hyk, hscale, State.now_reset, fun _ => axis_reset, hykEvt, hmkEvt, fun _ => mark_table_reset, htap, fun _ => cuff_owner_reset,
    har, hwait, regReset_AR_CTRL_FROZEN, fun i _ => pe_fifos_reset i, queue_reset, hflush, regReset_SQ_SP_SYNC, regReset_FB_TMR_CMP⟩

end Sys2Proof.Machine
end

section
/-! SUPPORT. The fault records of a fold (R140, R231): a PE that reads a stored Pleat word reports each bad codeword of it to the fault unit, and
the refusal of a fold for a PE reads the word that it refuses. With it the refutation of O23, whose frame of a refusal leaves the fault records
as they were. -/

namespace Sys2Proof.Machine

/-! What an event leaves alone -/

theorem State.EvShape.mem {s t : State} (h : s.EvShape t) : t.mem = s.mem := by obtain ⟨r, e, o, rfl⟩ := h; rfl
theorem State.EvShape.syn {s t : State} (h : s.EvShape t) : t.syn = s.syn := by obtain ⟨r, e, o, rfl⟩ := h; rfl
theorem State.EvShape.faults {s t : State} (h : s.EvShape t) : t.faults = s.faults := by obtain ⟨r, e, o, rfl⟩ := h; rfl

@[simp] theorem State.raiseF_faults (s : State) (a : Nat) (f : Fld) : (s.raiseF a f).faults = s.faults := (s.raiseF_evShape a f).faults

theorem State.bump_evShape (s : State) (a : Nat) (f : Fld) (k : Nat) : s.EvShape (s.bump a f k) := s.setRg_evShape a _

/-! The fault records of a read (R231) -/

/-- The log of an error result (R236) is kept in registers. -/
theorem State.logEcc_evShape (s : State) (a kind source syn bit : Nat) : s.EvShape (s.logEcc a kind source syn bit) := by
  have hcount : s.EvShape (if kind = 1 then (s.bump (R.SM_CE_CNT (groupOf a)) F.SM_CE_CNT_COUNT 1).raiseF R.SM_EVT F.SM_EVT_CE
      else s.bump (R.SM_UE_CNT (groupOf a)) F.SM_UE_CNT_COUNT 1) := by
    split
    · exact (s.bump_evShape _ _ _).trans (State.raiseF_evShape _ _ _)
    · exact s.bump_evShape _ _ _
  unfold State.logEcc
  dsimp only
  refine hcount.trans ?_
  generalize (if kind = 1 then _ else _ : State) = t
  have hraise : t.EvShape (if kind = 2 then t.raiseF R.SM_EVT F.SM_EVT_UE else t) := by
    split
    · exact t.raiseF_evShape _ _
    · exact .refl t
  refine hraise.trans ?_
  generalize (if kind = 2 then _ else _ : State) = u
  split
  · exact u.bump_evShape _ _ _
  · split
    · exact ((u.setRg_evShape _ _).trans (State.setRg_evShape _ _ _)).trans (State.setRg_evShape _ _ _)
    · exact (u.bump_evShape _ _ _).trans (State.raiseF_evShape _ _ _)

/-- A read leaves the stored words and their check bits alone; its correction waits for the port. -/
theorem State.readWord_stored (s : State) (a source : Nat) :
    (s.readWord a source).1.mem = s.mem ∧ (s.readWord a source).1.syn = s.syn := by
  have hlog (kind syn bit : Nat) := s.logEcc_evShape (a / 8 * 8) kind source syn bit
  unfold State.readWord
  dsimp only
  split
  · exact ⟨rfl, rfl⟩
  · exact ⟨(hlog _ _ _).mem, (hlog _ _ _).syn⟩
  · exact ⟨(hlog _ _ _).mem, (hlog _ _ _).syn⟩
  · exact ⟨(hlog _ _ _).mem, (hlog _ _ _).syn⟩

/-- Is the word at a place uncorrectable or poisoned? -/
def State.badAt (s : State) (a : Nat) : Bool := (s.classAt a).status != 0

theorem State.badAt_congr {s u : State} (hm : u.mem = s.mem) (hs : u.syn = s.syn) (a : Nat) : u.badAt a = s.badAt a := by
  rw [State.badAt, State.badAt, State.classAt_congr hm hs]

/-- A place of a word reads as the start of that word. -/
theorem State.classAt_start (s : State) (a : Nat) : s.classAt (a / 8 * 8) = s.classAt a := by
  have h : a / 8 * 8 / 8 = a / 8 := Nat.mul_div_cancel _ (by decide)
  simp only [State.classAt, State.synAt, State.rawAt, h]

/-- A read reports a bad word and no other. -/
theorem State.readWord_faults (s : State) (a source : Nat) :
    (s.readWord a source).1.faults.length = s.faults.length + b2n (s.badAt a) := by
  have hlog (kind syn bit : Nat) := (s.logEcc_evShape (a / 8 * 8) kind source syn bit).faults
  rw [State.badAt, ← s.classAt_start]
  unfold State.readWord
  dsimp only
  split
  · next hgood => rw [hgood]; rfl
  · next hcorrected => rw [hcorrected]; exact congrArg List.length (hlog _ _ _)
  · next hpoison => rw [hpoison]; simp [State.report, hlog, EccClass.status, b2n]
  · next hunc => rw [hunc]; simp [State.report, hlog, EccClass.status, b2n]

/-- A run of reads reports each bad word of the run. -/
theorem State.readWords_faults (s : State) (source : Nat) (l : List Nat) :
    (s.readWords source l).1.faults.length = s.faults.length + l.countP s.badAt := by
  induction l generalizing s with
  | nil => rfl
  | cons a r ih =>
    obtain ⟨hm, hs⟩ := s.readWord_stored a source
    have hbad : State.badAt (s.readWord a source).1 = s.badAt := funext (State.badAt_congr hm hs)
    have hstep : (s.readWords source (a :: r)).1 = ((s.readWord a source).1.readWords source r).1 := rfl
    rw [hstep, ih, s.readWord_faults, hbad, List.countP_cons]
    cases s.badAt a
    · simp [b2n]
    · simp [b2n]; omega

/-- A PE that reads a stored Pleat word with a bad codeword reports it. -/
theorem State.pleatFetch_faults_lt (s : State) (i p : Nat) (h : s.pleatBad i p = true) :
    s.faults.length < (s.pleatFetch i p).faults.length := by
  obtain ⟨k, hk, hbad⟩ := List.any_eq_true.mp h
  have hcount : 0 < ((List.range 4).map (fun k => s.pleatAt i p + 8 * k)).countP s.badAt :=
    List.countP_pos_iff.mpr ⟨_, List.mem_map_of_mem hk, hbad⟩
  rw [State.pleatFetch, s.readWords_faults]
  omega

/-! What a refusal does to the fault records (R140) -/

@[simp] theorem State.clearGen_faults (s : State) (i : Nat) : (s.clearGen i).faults = s.faults := by
  unfold State.clearGen
  dsimp only
  split <;> rfl

@[simp] theorem State.setGrp_faults (s : State) (g : Nat) (x : Grp) : (s.setGrp g x).faults = s.faults := rfl
@[simp] theorem State.popFold_faults (s : State) : s.popFold.faults = s.faults := rfl

@[simp] theorem State.ckptIssue_faults (s : State) (g : Nat) : (s.ckptIssue g).faults = s.faults := by
  unfold State.ckptIssue
  dsimp only
  split <;> simp

@[simp] theorem State.ckptOver_faults (s : State) (g : Nat) : (s.ckptOver g).faults = s.faults := by
  unfold State.ckptOver
  dsimp only
  split <;> simp

@[simp] theorem State.ckptLost_faults (s : State) (g : Nat) : (s.ckptLost g).faults = s.faults :=
  (State.raiseF_faults _ _ _).trans (s.ckptOver_faults g)

@[simp] theorem State.addRec_faults (s : State) (q : Nat) (words : List Word) (irq : Bool) : (s.addRec q words irq).faults = s.faults := by
  unfold State.addRec
  dsimp only
  split
  · exact State.raiseF_faults _ _ _
  · rfl

@[simp] theorem State.descEnd_faults (s : State) (q dseq status code units ckpt oseq : Nat) :
    (s.descEnd q dseq status code units ckpt oseq).faults = s.faults := by
  unfold State.descEnd
  split
  · rfl
  · exact State.addRec_faults _ _ _ _

@[simp] theorem State.hiFoldRefused_faults (s : State) (d : Option (Nat × Nat × Nat)) (code : Nat) :
    (s.hiFoldRefused d code).faults = s.faults := by
  unfold State.hiFoldRefused
  split
  · exact State.descEnd_faults _ _ _ _ _ _ _ _
  · rfl

/-- The refusal itself reports nothing. -/
@[simp] theorem State.refuseFold_faults (s : State) (f : FoldReq) (code : Nat) (at_ : Option Nat) :
    (s.refuseFold f code at_).faults = s.faults := by
  unfold State.refuseFold
  cases f.gen <;> by_cases h : f.trig = 5 <;> simp [h]

/-- A fold refused for a PE at which the target has a bad codeword adds to the fault records (R231, log entry 169). -/
theorem foldIssue_refused_faults_lt {s t : State} {f : FoldReq} {r : List FoldReq} {c i : Nat} (hq : s.arr.foldQ = f :: r)
    (hheld : s.foldHeld f = false) (hcode : s.foldCode f = some (c, some i)) (hbad : s.pleatBad i f.target = true)
    (ht : exec .foldIssue s = .next t) : s.faults.length < t.faults.length := by
  have hrun : exec .foldIssue s = .next ((s.pleatFetch i f.target).popFold.refuseFold f c (some i)) := by
    show execFoldIssue s = _
    simp only [execFoldIssue, hq, hheld, hcode, Bool.false_eq_true, if_false]
  obtain rfl : (s.pleatFetch i f.target).popFold.refuseFold f c (some i) = t := Host.Outcome.next.inj (hrun.symm.trans ht)
  rw [State.refuseFold_faults, State.popFold_faults]
  exact s.pleatFetch_faults_lt i f.target hbad

/-! A refusal for a bad codeword -/

/-- A global fold of tile 13 to Pleat 0 (PL_FOLD_CMD). -/
def foldToBadPleat : FoldReq := { target := 0, wave := false, mask := 2 ^ 13, trig := 2, gen := none, grp := 0, desc := none }

/-- The reset state with that fold at the head of the issue queue, and a double error in the first codeword of Pleat 0 of the tile's first PE. -/
def badPleatState : State :=
  { State.reset.setSyn (State.reset.pleatAt 208 0) 3 with arr := { Arr.reset with foldQ := [foldToBadPleat] } }

/-- The fold unit finds Pleat 0 not valid at that PE, code 1 of Table PL-3; its stored word is bad. -/
theorem badPleatState_refuses : badPleatState.foldHeld foldToBadPleat = false ∧
    badPleatState.foldCode foldToBadPleat = some (1, some 208) ∧ badPleatState.pleatBad 208 foldToBadPleat.target = true := by
  decide +kernel

/-- Refutes O23 at its clause for FOLD_ISSUE of a refused fold: the frame there leaves the fault records as they were, but the stored word of the PE
named is read (R231), and a bad codeword of it is reported to the fault unit. In `badPleatState` the double error is what makes the target
not valid. -/
theorem not_folds : ¬ Obligations.Folds := by
  unfold Obligations.Folds
  intro h
  obtain ⟨hheld, hcode, hbad⟩ := badPleatState_refuses
  obtain ⟨-, -, -, -, -, hrefused, -⟩ := h badPleatState
  obtain ⟨t, ht, -, -, hframe, -⟩ := hrefused foldToBadPleat [] 1 (some 208) rfl hheld hcode rfl (by decide)
  have hsame : t.faults = badPleatState.faults := hframe .faults (by decide)
  have hmore := foldIssue_refused_faults_lt rfl hheld hcode hbad ht
  rw [hsame] at hmore
  exact Nat.lt_irrefl _ hmore

end Sys2Proof.Machine
end
